-- ==== Sys2Proof/Word.lean ====
section
/-!
DEFINITION. The word types of the block: bytes, 32-bit words (R6) and device times (R2).
-/
namespace Sys2Proof

/-- A byte of memory. -/
abbrev Byte := BitVec 8
/-- A register or record word of 32 bits (R6). -/
abbrev Word := BitVec 32
/-- A 64-bit register pair or data word (R7). -/
abbrev DWord := BitVec 64
/-- A device time: bits 63:16 count beats, bits 15:0 are the fraction of a beat in units of 2^-16 beat (R2). -/
abbrev Time := BitVec 64

end Sys2Proof
end

