-- ==== Sys2Proof/Syntax.lean ====
section
/-!
DEFINITION. The commands of the block, whole: one constructor per row of the command table, with its operands. An index
operand is a plain number; Sys2Proof/WellFormed.lean says which are in range.
-/
namespace Sys2Proof

/-- Who makes an access: some registers take writes from one requester only. -/
inductive Requester where
  /-- the host, through a PCI Express function F = 2e + f (R452) -/
  | host (func : Nat)
  /-- the lodge at a physical site -/
  | lodge (site : Nat)
  /-- a context of Spire k of pavilion p -/
  | spire (p k ctx : Nat)
  /-- a DMA channel of Spire k of pavilion p -/
  | dma (p k ch : Nat)
  /-- a fabric endpoint of pavilion p -/
  | fabric (p e : Nat)
  /-- an annex die -/
  | annex (a : Nat)
  /-- the debug engine (R481) -/
  | debug
  /-- a launch queue of a pavilion, tower or the global block -/
  | launch (home q : Nat)
deriving DecidableEq, Repr

/-- One block of a received superframe: its two sync bits (1 data, 2 control, 0 or 3 invalid) and its payload as it is on
the line, scrambled (R62). -/
structure Blk where
  sync : Nat
  data : DWord
deriving DecidableEq, Repr

/-- What the host returns for one line of a device read (R456). -/
inductive HostLine where
  | good (bytes : List Byte)
  | poison
  | failed
deriving DecidableEq, Repr

/-- A Lartum data frame at its receiver (R334, R335): the SEQ, ACK and CRC of its sideband, its flit, the lanes of the bits in
which a replayed copy differs from the bad one (R339), whether a spare under test differs (R340), and whether
a parity error was met as the flit was written to the input buffer (R381). -/
structure LrtFrame where
  seq : Nat
  ack : Nat
  crc : Nat
  flit : List Byte
  errs : List Nat
  spareDiff : Bool
  par : Bool
deriving DecidableEq, Repr

/-- A section of a configuration image as it is read (R359): its kind, CODED, targets, plots, dome address, and the words
of its body after decryption. -/
structure ImgSect where
  kind : Nat
  coded : Bool
  targets : Nat
  plots : Nat
  daddr : Nat
  body : List Word
deriving DecidableEq, Repr

/-- What a received MACsec frame carried (R461): its association, full packet number and SCI, and whether its ICV
passes. -/
structure EthSec where
  an : Nat
  pn : Nat
  sci : DWord
  icv : Bool
deriving DecidableEq, Repr

/-- How a completion to a device read of host memory arrives (R456). -/
inductive HostRes where
  | good
  | poison
  | failed
deriving DecidableEq, Repr

/-- The statuses of responses (Table 12.4). -/
inductive Status where
  | ok | ur | bad | dead | fenced | domeHold | timeout | peekDenied | dataExpired | access
deriving DecidableEq, Repr

/-- The commands of the block, one per row of the command table, with the rule that gives its effect. -/
inductive Instr where
  /-- R7. A read of the _LO register of a 64-bit pair returns its value and snapshots _HI for the next _HI read. -/
  | pairLoRead (x : Nat)
  /-- R7. A write of _LO places its value in the pair's write stage and has no other effect. -/
  | pairLoWrite (x : Nat) (v : Word) (who : Requester)
  /-- R7. A write of _HI gives the pair its new 64-bit value from the write stage and the written word. -/
  | pairHiWrite (x : Nat) (v : Word) (who : Requester)
  /-- R8. A write to a register with no row of its own acts under its access code (RW, W1C, W1S, RO ignored, RSV). -/
  | registerWrite (x : Nat) (v : Word) (who : Requester)
  /-- R506. The POR_N ball is held low for at least 10 µs, which triggers a POWER-ON reset. -/
  | porNLow
  /-- R506. VCC_KEEP falls below 0.68 V for 1 µs, which triggers a POWER-ON reset. -/
  | keepRailLow
  /-- R417. The RST_N ball is low for at least 1 µs, which requests a COLD reset. -/
  | rstNLow
  /-- R417. The WRST_N ball is low for at least 1 µs, which requests a WARM reset. -/
  | wrstNLow
  /-- R423. A write of 1 to LDG_RST_CTL.WARM by the host or presiding lodge requests a WARM reset. -/
  | ldgRstWarm (who : Requester)
  /-- R423. A write of 1 to LDG_RST_CTL.COLD by the host or presiding lodge requests a COLD reset. -/
  | ldgRstCold (who : Requester)
  /-- R419. Self-test of every site completes during start-up, marking failed sites. -/
  | selfTestDone (failed : List (Nat × Nat))
  /-- R21. A write of CFG_PMAP_CTL.APPLY by the presiding lodge checks the staged folly map and accepts or refuses it. -/
  | pmapApply (v : Word) (who : Requester)
  /-- R22. An accepted map takes effect in routers, windows and ID registers together and BUSY clears. -/
  | pmapApplyDone
  /-- R30. A reference input shows 4,096 consecutive in-band edges and becomes good, possibly selected or reacquired. -/
  | refGood (b : Bool) (diff : Int) (phase : Int)
  /-- R30. A reference input misses LOSS_CNT expected periods or leaves the band and is declared lost. -/
  | refLost (lostA : Bool) (lostB : Bool) (goodA : Bool) (goodB : Bool) (diff : Int) (phase : Int)
  /-- R34. A write of CAMP_REF_CFG.FREQ_KHZ sets the good test at once when unlocked or waits for the next acquisition. -/
  | freqKhzWrite (v : Word)
  /-- R35. An EPOCH rising level sampled by the reference edge is recorded and, by mode, loads or checks the beat count. -/
  | epochSampled
  /-- R36. A write of CAMP_ADJ_CTL.GO adds CAMP_ADJ to the slew accumulator. -/
  | adjGo
  /-- R38. With STEP_EN at 1 the whole accumulator is applied at the next beat edge as one step on every replica. -/
  | stepApply
  /-- R37. The slew removes the last of the accumulator and SLEWING clears. -/
  | slewDone
  /-- R40. A write of a site user trim starts a local slew of at most 1 ps per beat. -/
  | userTrimWrite (x : Nat) (v : Word)
  /-- R40. A trim change completes and TRIM_SLEW clears. -/
  | trimSlewDone (x : Nat)
  /-- R46. A write of CAMP_LQ_PUSH7 commits an entry to the launch queue or rejects it. -/
  | lqPush (h : Nat) (q : Nat) (w7 : Word)
  /-- R48. The queue forwards its head entry to the executing island at the lead time before T. -/
  | lqForward (h : Nat) (q : Nat)
  /-- R47. A NOP entry counts as launched at T and may raise the launch event. -/
  | launchNop (h : Nat) (q : Nat)
  /-- R47. A SPIRE_START entry starts the named Spire context at T or is discarded as a target error. -/
  | launchSpireStart (p : Nat) (q : Nat)
  /-- R47. A TSK_POST entry posts a task to the pavilion's scheduler at T. -/
  | launchTskPost (p : Nat) (q : Nat)
  /-- R47. A PRM_SEND entry sends the packet of its staging slot at T. -/
  | launchPrmSend (h : Nat) (q : Nat)
  /-- R47. An XCV_STATE entry changes a lane's state at the ball at T. -/
  | launchXcvState (t : Nat) (q : Nat)
  /-- R47. A PIN_DRIVE entry drives the masked pins of a group at T. -/
  | launchPinDrive (t : Nat) (q : Nat)
  /-- R57. A PIN_SAMPLE entry samples a pin group at T into CAMP_PSAMP_FIFO. -/
  | launchPinSample (t : Nat) (q : Nat) (pins : Byte)
  /-- R52. A REG_WRITE entry writes a masked value into a register at T, batched with entries of equal T. -/
  | launchRegWrite (h : Nat) (q : Nat)
  /-- R55. A write of CAMP_LQ_CTL.FLUSH discards every entry not launched. -/
  | lqFlush (h : Nat) (q : Nat)
  /-- R55. The flush completes and FLUSH_BUSY clears. -/
  | lqFlushDone (h : Nat) (q : Nat)
  /-- R56. A write of CAMP_LQ_CTL.EN stops or resumes forwarding, queued entries then launching late. -/
  | lqEnWrite (h : Nat) (q : Nat) (en : Bool)
  /-- R57. A read of CAMP_PSAMP_FIFO pops one sample word or returns 0 when empty. -/
  | psampFifoRead (t : Nat)
  /-- R64. A received XFL superframe is checked, stamped, its status page and slots taken and the link state advanced. -/
  | superframeRx (t : Nat) (l : Nat) (before : DWord) (blocks : List Blk) (corr : Nat) (uncorr : Nat)
  /-- R71. The transmitter sends a superframe at its anchored boundary with the page chosen by priority. -/
  | superframeTx (t : Nat) (l : Nat)
  /-- R62. 64 consecutive valid sync headers give block lock and, at PAM4, codeword alignment. -/
  | xflBlockLock (t : Nat) (l : Nat) (hdrs : List Nat) (uncorr : List Bool)
  /-- R62. 16 invalid headers within 64 lose block lock and drop the lane to DOWN. -/
  | xflBlockLockLost (t : Nat) (l : Nat) (hdrs : List Nat) (cdr : Bool)
  /-- R73. A write of XFL_LANE_CTL.EN starts the link or drops it to DOWN with electrical idle. -/
  | xflLaneEnWrite (t : Nat) (l : Nat) (en : Bool)
  /-- R73. A write of XFL_LANE_CTL.RETRAIN drops the lane to DOWN without back-off. -/
  | xflRetrain (t : Nat) (l : Nat)
  /-- R74. The XFL back-off elapses and the lane tries again from DOWN. -/
  | xflBackoffExpiry (t : Nat) (l : Nat)
  /-- R84. A lane frame reaches the gatehouse, is coded into its fragment and held for release or handled as late. -/
  | laneFrameArrival (p : Nat) (i : Nat)
  /-- R79. The ENABLE command checks a stream entry and arms it or sets ERR. -/
  | streamEnable (p : Nat) (i : Nat)
  /-- R92. The DISABLE command closes the open fragment and moves the stream to DRAINING. -/
  | streamDisable (p : Nat) (i : Nat)
  /-- R78. The PAUSE command moves a RUNNING stream to PAUSED so commits are refused. -/
  | streamPause (p : Nat) (i : Nat)
  /-- R78. The RESUME command returns a PAUSED stream to RUNNING. -/
  | streamResume (p : Nat) (i : Nat)
  /-- R78. The UNREGISTER command frees an IDLE stream and zeroes its counters. -/
  | streamUnregister (p : Nat) (i : Nat)
  /-- R92. The ABORT command refuses closed fragments not yet issued of a DRAINING stream. -/
  | streamAbort (p : Nat) (i : Nat)
  /-- R81. A write of a stream entry word is taken or ignored by stream state. -/
  | gateSentWrite (p : Nat) (i : Nat) (w : Nat) (v : Word)
  /-- R83. A lane frame's samples are presented to fabric and Spires at timestamp plus RELEASE. -/
  | sampleRelease (p : Nat) (i : Nat) (par : Option Nat)
  /-- R87. The primitive record of a beat is presented 4 cycles after its release. -/
  | primitivePresent (p : Nat) (i : Nat)
  /-- R88. A fragment closes once its period can receive no more frames, or early on a state change. -/
  | fragmentClose (p : Nat) (i : Nat)
  /-- R89. A dome acknowledgement or refusal decides a commit and the fragment is accepted or refused. -/
  | commitAckRx (p : Nat) (i : Nat) (twin : Bool)
  /-- R90. No acknowledgement within GATE_COMMIT_TMO refuses the fragment with COMMIT_TMO. -/
  | commitTimeout (p : Nat) (i : Nat)
  /-- R90. A network error response to a commit refuses the fragment as UNREACHABLE. -/
  | commitErrorRx (p : Nat) (i : Nat) (twin : Bool) (status : Nat)
  /-- R94. Clearing GATE_CTL.EN disables every running stream; setting it lets streams run. -/
  | gateCtlWrite (p : Nat) (v : Word)
  /-- R96. A read of GATE_SSLACK_i returns the least slack and resets it to 0xFFFF_FFFF. -/
  | sslackRead (p : Nat) (i : Nat)
  /-- R101. A changed CODEC or PED word is captured at the next beat edge for the next fragment. -/
  | codecCapture (p : Nat) (i : Nat)
  /-- R120. A commit at dome port 0 is checked against its ring and refused or starts writing its lines. -/
  | domeCommitArrive (p : Nat) (i : Nat) (twin : Bool) (par : List (Nat × Nat))
  /-- R120. A commit's index entry reaches DRAM and the commit is acknowledged. -/
  | domeCommitDone (p : Nat) (i : Nat) (twin : Bool)
  /-- R123. A ring data read on port 1 returns lines or completes DATA_EXPIRED. -/
  | domeRingRead (p : Nat) (r : Nat) (pn : Nat)
  /-- R124. Writing ring word 0 with EN = 1 checks the ring, resets WR_PTR and starts clearing its index. -/
  | ringEnable (p : Nat) (r : Nat) (v : Word)
  /-- R125. Clearing ring EN stops new commits while those in flight are decided. -/
  | ringDisable (p : Nat) (r : Nat) (v : Word)
  /-- R124. The ring's index clearing completes and INIT clears. -/
  | ringInitDone (p : Nat) (r : Nat)
  /-- R126. A pseudo-channel scheduler issues its first eligible candidate in the cycle. -/
  | domeSchedIssue (p : Nat) (c : Nat)
  /-- R130. The per-bank refresh interval elapses and a refresh becomes due or forced. -/
  | refreshInterval (p : Nat) (c : Nat)
  /-- R127. The oldest write waiting WR_AGE starts write-batch mode. -/
  | writeAgeExpiry (p : Nat) (c : Nat)
  /-- R129. A real-time request waiting PANIC_NS raises port 2 panic. -/
  | panicAgeExpiry (p : Nat) (c : Nat)
  /-- R128. An open row unused for IDLE_CLOSE cycles is closed. -/
  | idleCloseExpiry (p : Nat) (c : Nat) (bank : Nat)
  /-- R134. A DRAM read returns data checked by SECDED as clean, corrected, uncorrectable or poison. -/
  | domeLineReadDone (p : Nat) (c : Nat) (found : List Nat) (tag : Nat)
  /-- R134. The patrol scrub reads the next line in its pass when nothing else is eligible. -/
  | patrolRead (p : Nat) (found : List Nat)
  /-- R132. Every 50 µs the controller samples the controlling temperature and moves through thermal steps. -/
  | domeThermalSample (p : Nat)
  /-- R133. A write of DOME_CTL.SR_REQ requests entry to or exit from self-refresh. -/
  | srReqWrite (p : Nat) (v : Word)
  /-- R133. Bursts complete, queued requests are answered DOME_HOLD and the dome enters self-refresh. -/
  | srEntryDone (p : Nat)
  /-- R133. The dome leaves self-refresh and serves requests again. -/
  | srExitDone (p : Nat)
  /-- R135. A failed training or excess uncorrectable words fault a channel and fence the commit port. -/
  | channelFault (p : Nat) (c : Nat)
  /-- R137. The COLD initialisation of the dome completes and STATE leaves INIT. -/
  | domeInitDone (p : Nat)
  /-- R141. A 32-byte write to RDO_ACC_PORT is answered OK, RETRY, BAD or DISABLED. -/
  | accPortWrite (words : List Word) (whole : Bool)
  /-- R143. An accept enters the commit journal and takes the next event number. -/
  | acceptJournaled
  /-- R144. A write to a stream set is taken, or ignored while its REF count is non-zero. -/
  | ssetWrite (k : Nat) (w : Nat) (v : Word)
  /-- R145. A free build slot starts the next event in event-number order. -/
  | eventBuildStart
  /-- R146. At a stream's ready time the engine reads its periods from home or twin rings. -/
  | streamReadyTime (num : Nat) (n : Nat)
  /-- R146. DOME_HOLD answers lasting HOLD_TMO make a period read UNREACHABLE. -/
  | readoutHoldTimeout (num : Nat) (n : Nat)
  /-- R151. A built event is written into posted buffers of its EVENT queue pair in order. -/
  | eventDeliver (q : Nat)
  /-- R152. A built event is sent in segments to a farm destination through a tower's Ethernet block. -/
  | farmSend (d : Nat)
  /-- R161. The device fetches a queue pair's doorbell record at the poll interval. -/
  | doorbellFetch (q : Nat) (tail : Word) (head : Word)
  /-- R161. Up to 32 descriptors are fetched from the submission ring. -/
  | descriptorFetch (q : Nat) (descs : List (List Word))
  /-- R163. A write to RDO_NUDGE_q wakes a sleeping queue pair or is counted as ignored. -/
  | rdoNudge (q : Nat)
  /-- R167. A descriptor is held in the journal, JSEQ is written and the flushing read completes. -/
  | descAccepted (q : Nat)
  /-- R155. The NOP descriptor completes with no effect. -/
  | descNop (q : Nat) (seq : Word)
  /-- R155. The ACCEPT descriptor submits an accept and completes when its event is delivered. -/
  | descAccept (q : Nat) (seq : Word)
  /-- R155. The POST_BUF descriptor posts a host buffer for events. -/
  | descPostBuf (q : Nat) (seq : Word)
  /-- R82. The STREAM_CTL descriptor applies a stream command at its gatehouse. -/
  | descStreamCtl (q : Nat) (seq : Word)
  /-- R155. The DOME_READ descriptor copies dome data to host memory. -/
  | descDomeRead (q : Nat) (seq : Word)
  /-- R155. The DOME_WRITE descriptor copies host data into a dome. -/
  | descDomeWrite (q : Nat) (seq : Word) (lines : List HostLine)
  /-- R155. The HOLD_SET descriptor writes HOLD of a stream's home and twin rings. -/
  | descHoldSet (q : Nat) (seq : Word)
  /-- R158. A completion record is written in SEQ order with its PHASE, then DSEQ. -/
  | completionWrite (q : Nat)
  /-- R165. Writing QP CTL.EN = 1 reads the doorbell, checks it and enters RUN or RECOVER. -/
  | qpEnable (q : Nat) (db : Option (List Word))
  /-- R170. Completions up to JSEQ are written and a recovering QP enters RUN. -/
  | qpRecoverDone (q : Nat) (slots : List (List Word × List Word))
  /-- R173. Writing QP CTL.EN = 0 stops acceptance and drains to DISABLED. -/
  | qpDisable (q : Nat)
  /-- R173. Writing QP CTL.ABORT while DISABLED completes unaccepted descriptors as ABORTED. -/
  | qpAbort (q : Nat) (descs : List (List Word))
  /-- R174. A write of RDO_CTL.EN runs readout or drains it to IDLE. -/
  | rdoEnWrite (en : Bool)
  /-- R179. A write of ADM_CFG sets the slot tables up and, on EN, checks the slot length. -/
  | admCfgWrite (v : Word)
  /-- R187. The ADMIT command computes a declaration, writes its slot tables and admits it. -/
  | admAdmit (i : Nat)
  /-- R187. The QUERY command computes a declaration and reports it without reserving. -/
  | admQuery (i : Nat)
  /-- R187. The RELEASE command frees a declaration's slots at the next period boundary. -/
  | admRelease (i : Nat)
  /-- R187. An ADMIT takes effect at the first schedule-period boundary 1 µs after its tables. -/
  | admitEffect
  /-- R187. A released declaration's slots are freed at the period boundary. -/
  | releaseEffect
  /-- R190. A recomputed declaration moves to its new reservation at the period boundary. -/
  | reservationMove (i : Nat)
  /-- R180. A real-time flit leaves its source in its first reserved slot. -/
  | rtFlitSend (d : Nat) (sk : Nat) (sid : Nat) (formed : Time) (delivered : Time)
  /-- R192. After a WARM reset the slot tables are rewritten from the journal and RESTORE clears. -/
  | admRestoreDone
  /-- R197. A Spire issues one bundle of the priority context, executing both slots. -/
  | bundleIssue (p : Nat) (k : Nat) (ipar : Bool) (par : Option Nat) (stall : Nat)
  /-- R203. A named WAITE condition holds and the waiting context returns to RUN. -/
  | waitConditionMet (p : Nat) (k : Nat) (x : Nat)
  /-- R203. The Spire replica reaches the WAITT target and the context resumes. -/
  | waittTimeReached (p : Nat) (k : Nat) (x : Nat)
  /-- R228. An AMO response returns the old value to rd or raises BUS. -/
  | amoResponse (p : Nat) (k : Nat) (x : Nat) (status : Nat) (v : Word)
  /-- R229. A context's reservation clears 4,096 cycles after its LR. -/
  | spireReservationExpiry (p : Nat) (k : Nat) (x : Nat)
  /-- R224. A normal-class event is taken in context 0 at a bundle boundary, saving EPC. -/
  | normalEventTaken (p : Nat) (k : Nat)
  /-- R213. A write of SPR_CTL.LOAD starts copying the image into instruction memory. -/
  | sprLoad (p : Nat) (k : Nat)
  /-- R213. The instruction-memory copy completes, setting IMEM_VALID or LOAD_ERR. -/
  | sprLoadDone (p : Nat) (k : Nat)
  /-- R212. An instruction line refetched after a parity error is checked and the bundle issues. -/
  | irefetchDone (p : Nat) (k : Nat) (x : Nat)
  /-- R219. A write of SPR_START starts a context or is refused with START_ERR. -/
  | sprStartWrite (p : Nat) (k : Nat) (v : Word)
  /-- R233. A write of SPR_CTL.CRST applies a CORE reset to the Spire. -/
  | sprCrst (p : Nat) (k : Nat)
  /-- R220. A write of SPR_CTL.CLRF0 moves context 0 from FAULT to IDLE. -/
  | sprClrf0 (p : Nat) (k : Nat)
  /-- R220. A write of SPR_CTL.CLRF1 moves context 1 from FAULT to IDLE. -/
  | sprClrf1 (p : Nat) (k : Nat)
  /-- R232. A write of SPR_CTL.EN stops or allows new starts and drains. -/
  | sprEnWrite (p : Nat) (k : Nat) (en : Bool)
  /-- R217. A write of the feed CFG with EN checks its regions and starts it. -/
  | feedEnable (p : Nat) (k : Nat) (f : Nat) (v : Word)
  /-- R218. A write of SPR_FEED_f_RIDX sets the read index or is ignored. -/
  | feedRidxWrite (p : Nat) (k : Nat) (f : Nat) (v : Word)
  /-- R226. A write of DMA CTL.GO starts a transfer or ends it at once with an error. -/
  | dmaGo (p : Nat) (k : Nat) (c : Nat) (v : Word)
  /-- R226. A write of DMA CTL.ABORT stops issuing packets and ends with ERR 0x4. -/
  | dmaAbort (p : Nat) (k : Nat) (c : Nat)
  /-- R226. A DMA packet completes and the last one ends the transfer with DONE. -/
  | dmaPacketDone (p : Nat) (k : Nat) (c : Nat) (n : Nat) (status : Nat) (poison : Bool) (data : List Byte)
  /-- R239. A write of TSK_CMD_W7 submits a command through the register interface. -/
  | tskRegCommit (p : Nat) (v : Word)
  /-- R239. A 32-byte write to TSK_CMD_PORT submits a command answered when taken. -/
  | tskPortWrite (p : Nat) (words : List Word) (whole : Bool)
  /-- R237. A POST command takes a slot and makes a task READY, or is refused. -/
  | tskPost (p : Nat) (flow : Nat) (word : Word) (arg : Word)
  /-- R241. A DELAY command places a task on the delay list or makes it READY. -/
  | tskDelay (p : Nat) (flow : Nat) (word : Word) (arg : Word) (time : Time)
  /-- R248. A CANCEL command removes the oldest matching waiting task or ends a running one. -/
  | tskCancel (p : Nat) (flow : Nat) (tag : Nat) (pcancel : Bool)
  /-- R241. Delayed tasks whose tick boundary is reached become READY. -/
  | delayReady (p : Nat)
  /-- R244. The scheduler dispatches one ready task to an eligible target. -/
  | taskDispatch (p : Nat)
  /-- R246. An EVENT dispatch's mailbox write completes and source 424 + t is raised. -/
  | mailboxWriteDone (p : Nat) (t : Nat)
  /-- R247. A write of TSK_LDG_DONE completes the lodge's running task as DONE. -/
  | ldgDoneWrite (p : Nat)
  /-- R250. The CANCEL_ALL flow command starts cancelling every waiting task of a flow. -/
  | tskCancelAll (p : Nat) (f : Nat)
  /-- R250. CANCEL_ALL finishes and BUSY clears. -/
  | cancelAllDone (p : Nat)
  /-- R252. A read of TSK_CPL_FIFO_W0 pops the oldest completion record. -/
  | cplFifoRead (p : Nat)
  /-- R242. A write of TSK_CTL sets EN and TICK when the delay list is empty. -/
  | tskCtlWrite (p : Nat) (v : Word)
  /-- R255. A write of TSK_FLOW_f is checked and applied or ignored. -/
  | tskFlowWrite (p : Nat) (f : Nat) (v : Word)
  /-- R261. A group's coalescing timer expires and the group ripens. -/
  | coalTimerExpiry (c : Nat) (g : Nat)
  /-- R272. The controller re-evaluates eligibility, signals requests and offers deliveries. -/
  | evcArbitration (c : Nat)
  /-- R265. A read of EVC_ACK delivers the lowest eligible source or returns the spurious vector. -/
  | evcAckRead (c : Nat) (t : Nat) (cls : Nat)
  /-- R270. A write of EVC_EOI pops the named class or freezes the stack on a mismatch. -/
  | evcEoi (c : Nat) (t : Nat) (cls : Nat)
  /-- R270. A write of TGT_CTL.STK_CLR empties and unfreezes a target's stack. -/
  | stkClr (c : Nat) (t : Nat)
  /-- R275. Writing HOLD = 1 freezes pending bits and records raises in a shadow. -/
  | evcHoldSet (c : Nat)
  /-- R275. Writing HOLD = 0 ORs the shadow into pending bits and counts the raises. -/
  | evcHoldRelease (c : Nat)
  /-- R275. A write of EVC_SWRAISE raises one source with counting. -/
  | evcSwraise (c : Nat) (v : Word)
  /-- R274. A software write of EVC_PEND replaces pending bits without counting. -/
  | evcPendWrite (c : Nat) (w : Nat) (v : Word)
  /-- R273. A ripe group whose target stays fenced for EVC_FB_TMO redirects to its fallback. -/
  | fallbackTimeout (c : Nat) (g : Nat)
  /-- R289. A write of CFG_PLL_k_CTL.APPLY checks settings and stops outputs to relock. -/
  | pllApply (p : Nat) (k : Nat)
  /-- R289. The PLL locks and its outputs restart. -/
  | pllRelockDone (p : Nat) (k : Nat)
  /-- R290. An output's edges are placed on a beat edge and ALIGNED is set. -/
  | pllAlignDone (p : Nat) (k : Nat)
  /-- R291. A global clock net changes source at a low phase of both sources. -/
  | gclkSourceSwitch (p : Nat) (n : Nat)
  /-- R293. A reset net deasserts two SYNC_CLK edges after its last cause falls. -/
  | resetNetDeassert (p : Nat) (n : Nat)
  /-- R294. A rising edge of an FEVT signal raises its local source. -/
  | fabricEvent (p : Nat) (i : Nat)
  /-- R296. A crossing group that regains alignment re-pins at 6 cycles. -/
  | crossingRepin (p : Nat) (e : Nat) (g : Nat)
  /-- R304. An input port stamps a pin word and sends it under its declaration. -/
  | tioInputWord (t : Nat) (g : Nat) (ts : Time) (word : Nat)
  /-- R304. The endpoint presents an input word at ts + LAT or, if late, at arrival. -/
  | tioWordPresent (t : Nat) (g : Nat) (arrived : Time)
  /-- R305. An output endpoint raises WSTB at B_n − LAT for the fabric to write a word. -/
  | tioWstb (t : Nat) (g : Nat) (n : Nat) (word : Option Nat)
  /-- R305. An output word leaves the ball at its boundary or is discarded as late. -/
  | tioOutputWord (t : Nat) (g : Nat) (arrived : Time)
  /-- R307. Writing TIO_GRP_g_CFG.EN = 1 checks the port and starts it. -/
  | tioEnable (t : Nat) (g : Nat) (v : Word)
  /-- R321. A router forwards a packet by dimension order, recorded path or detour. -/
  | packetForward (n : Nat) (i : Nat) (cls : Nat) (par : Option Nat)
  /-- R315. A READ request at its target is performed and answered with RD_DATA. -/
  | prmRead (n : Nat) (pkt : List Word) (fabStatus : Status) (fabData : List Word) (par : Option Nat)
  /-- R315. A WRITE request at its target is performed and answered with WR_ACK when non-posted. -/
  | prmWrite (n : Nat) (pkt : List Word) (fabStatus : Status)
  /-- R330. An ATOMIC request is performed at its target and answered with AT_DATA. -/
  | prmAtomic (n : Nat) (pkt : List Word) (fabStatus : Status) (fabData : Word)
  /-- R316. A RD_DATA response reaches its requester. -/
  | prmRdData (pkt : List Word)
  /-- R316. A WR_ACK response reaches its requester. -/
  | prmWrAck (pkt : List Word)
  /-- R316. An AT_DATA response reaches its requester. -/
  | prmAtData (pkt : List Word)
  /-- R326. A non-posted request without response within PRM_REQ_TMO is answered TIMEOUT. -/
  | reqTimeout (n : Nat) (port : Nat) (tag : Nat)
  /-- R325. A management link-state packet updates a router's view of a torus link. -/
  | linkStatePacket (n : Nat) (p : Nat) (e : Nat) (up : Bool)
  /-- R325. After a down link, unacknowledged flits are re-injected on the detour. -/
  | retryReinject (n : Nat) (e : Nat)
  /-- R319. An output port starts at most one flit per cycle by class order. -/
  | linkArbitration (n : Nat) (o : Nat)
  /-- R327. Writing PRM_FENCE_CTL.REQ = 1 starts draining the ports in scope. -/
  | fenceRequest (p : Nat) (v : Word)
  /-- R327. All outstanding requests in scope are answered and the fence becomes FENCED. -/
  | fenceDrained (p : Nat) (plot : Option Nat)
  /-- R327. PRM_FENCE_TMO elapses in DRAINING and the fence completes with DRAIN_TMO. -/
  | fenceTmoExpiry (p : Nat) (plot : Option Nat)
  /-- R327. Writing REQ = 0 while FENCED reopens the ports. -/
  | fenceRelease (p : Nat) (v : Word)
  /-- R329. The presiding lodge writes PRM_ISO to isolate or restore nodes. -/
  | isoMaskWrite (p : Nat) (hi : Bool) (v : Word) (who : Requester)
  /-- R331. A target's reservation entry clears 8 µs after it was set. -/
  | lineReservationExpiry (t : Nat) (node : Nat) (port : Nat)
  /-- R335. A Lartum data frame is taken in SEQ order or triggers a NAK. -/
  | lrtDataFrameRx (n : Nat) (l : Nat) (frame : LrtFrame)
  /-- R334. An IDLE link-control frame is received. -/
  | lctlIdle (n : Nat) (l : Nat) (ack : Nat)
  /-- R335. A NAK makes the sender replay from the named SEQ. -/
  | lctlNak (n : Nat) (l : Nat) (seq : Nat) (par : Bool)
  /-- R340. A SWAP_REQ asks the sender to swap a failing lane to a spare. -/
  | lctlSwapReq (n : Nat) (l : Nat) (f : Nat) (spare : Nat)
  /-- R340. A SWAP_ACK names the frame from which the sender drives both lanes. -/
  | lctlSwapAck (n : Nat) (l : Nat) (first : Nat)
  /-- R343. An ADVERTISE frame carries the peer's lane bitmap, width cap and next SEQ. -/
  | lctlAdvertise (n : Nat) (l : Nat) (lanes : Nat) (cap : Nat) (next : Nat)
  /-- R344. A CHECK frame is compared with the local width and lane choice. -/
  | lctlCheck (n : Nat) (l : Nat) (width : Nat) (lanes : Nat)
  /-- R334. A lost link-control frame is resent after 64 router cycles. -/
  | lctlResendTimer (n : Nat) (l : Nat)
  /-- R336. Both sides see clock and frame lock on 8 lanes and the link enters TRAIN. -/
  | lrtDetectLock (n : Nat) (l : Nat)
  /-- R336. The PRBS lane test completes and the link enters ADVERTISE. -/
  | laneTestDone (n : Nat) (l : Nat) (pass : Nat)
  /-- R336. Frame lock lost for 1 µs drops the link to DOWN. -/
  | frameLockLoss (n : Nat) (l : Nat)
  /-- R347. A write of LRT_LINK_l_CTL.EN runs or stops the link. -/
  | lrtEnWrite (n : Nat) (l : Nat) (en : Bool) (who : Requester)
  /-- R336. A write of RETRAIN retrains the link at its current width. -/
  | lrtRetrain (n : Nat) (l : Nat) (who : Requester)
  /-- R336. A write of WIDEN retrains retesting field-failed lanes up to width 32. -/
  | lrtWiden (n : Nat) (l : Nat) (who : Requester)
  /-- R343. A write of PRST resets this side's port. -/
  | lrtPrst (n : Nat) (l : Nat) (who : Requester)
  /-- R337. The Lartum back-off elapses and the link retries. -/
  | lrtBackoffExpiry (n : Nat) (l : Nat)
  /-- R339. A lane loses clock lock or reaches its error threshold and is marked failed. -/
  | laneFailing (n : Nat) (l : Nat) (lanes : List Nat)
  /-- R349. A write of ANX_a_CFG.EN brings an annex link up or down. -/
  | anxEnWrite (a : Nat) (v : Word)
  /-- R349. The annex back-off elapses and training begins. -/
  | anxBackoffExpiry (a : Nat)
  /-- R349. UCIe training reaches an active link and parameters are exchanged. -/
  | anxTrainingDone (a : Nat) (rate : Nat)
  /-- R349. Parameter exchange completes and the IDENT read is issued. -/
  | anxParamDone (a : Nat)
  /-- R349. The annex identity is read and the annex node is unisolated. -/
  | anxIdentResponse (a : Nat) (w0 : Word) (w1 : Word) (w2 : Word) (w3 : Word)
  /-- R351. A UCIe link loss returns the annex to DOWN and declares a capacity fault. -/
  | anxLinkLoss (a : Nat)
  /-- R350. A packet from an annex is checked against ANX_ALLOW and forwarded or refused. -/
  | anxPacketIn (a : Nat) (pkt : List Word)
  /-- R367. A GO with OP FULL reloads every pavilion. -/
  | loadGoFull (v : Word) (who : Requester)
  /-- R367. A GO with OP PAV_RELOAD reloads the masked pavilions. -/
  | loadGoPavReload (v : Word) (who : Requester)
  /-- R365. Directory, header and section table pass their checks and the load enters LOAD. -/
  | loadHeaderDone (w1 : Word) (nsect : Nat)
  /-- R365. Every section is applied and authenticated and the load enters STARTING. -/
  | loadSectionsDone (sects : List ImgSect)
  /-- R354. A load error clears written frames and falls back to T4 or enters BACKOFF. -/
  | loadError (code : Nat) (sect : Nat)
  /-- R354. The load back-off elapses and a new attempt starts. -/
  | loadBackoffExpiry
  /-- R366. At T_s loaded plots leave reset, hedges release and PLOT_READY sets. -/
  | loadStartTime
  /-- R371. After GAP ms the verifier checks its table CRC and starts a pass. -/
  | verifierPassStart (p : Nat) (bad : Bool) (domeBad : Nat)
  /-- R372. A read-back logic frame is compared and repaired, stuck or unrepairable. -/
  | verifierFrameRead (p : Nat) (found : Option (List Byte)) (stuck : Bool)
  /-- R373. A write of CFG_VER_CTL.EN starts or stops the verifier, leaving HALTED. -/
  | verEnWrite (p : Nat) (v : Word)
  /-- R376. A write of CFG_PLOT_q_CTL.GO starts fencing a plot for reconfiguration. -/
  | plotGo (p : Nat) (q : Nat)
  /-- R376. The partial image is applied and authenticated and PLOT reset releases. -/
  | plotSectionDone (p : Nat) (q : Nat) (sect : ImgSect)
  /-- R376. A partial-load error zeroes the plot and leaves it BLANK. -/
  | plotLoadError (p : Nat) (q : Nat) (code : Nat)
  /-- R376. 16 cycles after reset release, hedges release and the plot is READY. -/
  | plotStartDone (p : Nat) (q : Nat)
  /-- R382. Every LEAK ms a leaky bucket's level falls by one. -/
  | bucketLeak (p : Nat) (b : Nat)
  /-- R384. A write of MEM_REMAP_ENTRY starts a remap copy or is refused. -/
  | remapEntryWrite (p : Nat) (v : Word) (who : Requester)
  /-- R384. The remap copy ends, the entry switches and source 475 is raised. -/
  | remapCopyDone (p : Nat)
  /-- R387. A write of MEM_KEY_k_KEY_W7 sets KEY_SET. -/
  | keyW7Write (p : Nat) (k : Nat) (v : Word) (who : Requester)
  /-- R387. A write of CTL.START checks a key set-up and starts INIT. -/
  | keyStart (p : Nat) (k : Nat) (who : Requester)
  /-- R387. The protected region is initialised and the key becomes ACTIVE. -/
  | keyInitDone (p : Nat) (k : Nat)
  /-- R394. A write of CTL.RETIRE moves a key to RETIRING. -/
  | keyRetire (p : Nat) (k : Nat) (who : Requester)
  /-- R394. Accepted accesses finish and the key returns to OFF with its words cleared. -/
  | keyRetireDone (p : Nat) (k : Nat)
  /-- R391. A node's major counter increment and re-encryption of its children complete. -/
  | majorCounterChangeDone (p : Nat) (k : Nat)
  /-- R401. The lodge header check passes and the core starts at 0x2000_0120. -/
  | lodgeBootDone (x : Nat) (src : Nat)
  /-- R401. A failed check or flash error puts the lodge into BACKOFF. -/
  | lodgeBootFail (x : Nat) (err : Nat)
  /-- R401. The lodge boot back-off elapses and the boot retries. -/
  | lodgeBackoffExpiry (x : Nat)
  /-- R398. A lodge core executes one RV32IMAC instruction. -/
  | lodgeInstruction (x : Nat) (f0 : Word) (f1 : Word) (fd : Word) (ext : Option Word) (cycles : Nat) (par : Option Nat)
  /-- R400. A fast-class interrupt is taken, switching to the fast bank at LFVEC. -/
  | lodgeFastEntry (x : Nat)
  /-- R402. The presiding lodge sends a heartbeat every 1 ms. -/
  | heartbeatSend
  /-- R405. A lodge receives a heartbeat and updates its view of the term. -/
  | heartbeatRx (x : Nat)
  /-- R404. Three missed heartbeats start an election of the next term. -/
  | heartbeatTimeout (x : Nat)
  /-- R404. An election message passes a lodge, which may put its lower site as candidate. -/
  | electionMsg (x : Nat)
  /-- R404. The starter announces the lowest standing site as winner with its deputies. -/
  | electionAnnounce
  /-- R409. The winner adopts the best journal replica and acts as presiding lodge; of each copy that it reaches, the site and
  the sections (bits 0..5) whose CRCs pass. -/
  | presideStart (copies : List (Nat × Nat))
  /-- R402. A site forwarding nothing for 10 µs is bypassed over reach-2 links. -/
  | ringBypass (x : Nat)
  /-- R408. A unit writes an entry to the presiding lodge's journal port. -/
  | journalEntryWrite (term : Nat)
  /-- R408. A deputy acknowledges its copy and the entry is held. -/
  | journalEntryHeld (y : Nat)
  /-- R406. A replacement deputy's journal copy completes. -/
  | deputyCopyDone (y : Nat)
  /-- R416. No passing journal copy within 20 ms puts the device into safe hold. -/
  | safeHoldEnter
  /-- R413. A write of LDG_SUB_CTL.GO starts substituting a candidate pavilion. -/
  | subGo (v : Word) (who : Requester)
  /-- R413. A substitution step completes, is journalled and the next starts. -/
  | subStepDone (ok : Bool)
  /-- R415. A write of CANCEL before APPLY abandons the substitution. -/
  | subCancel (v : Word) (who : Requester)
  /-- R411. A tower whose links are down or register block times out for 10 ms is isolated. -/
  | towerFault (t : Nat)
  /-- R411. A Spire CORE reset not completed within 10 µs takes the Spire out of service. -/
  | spireResetTimeout (p : Nat) (k : Nat)
  /-- R411. A lodge not booted again within 1 s stays out of service. -/
  | lodgeRebootTimeout (x : Nat)
  /-- R417. A write of LDG_CORE_CTL.CRST applies a CORE reset to the lodge. -/
  | ldgCoreReset (x : Nat)
  /-- R421. A write of LDG_WDOG_KICK reloads the watchdog count. -/
  | watchdogKick (x : Nat)
  /-- R421. The watchdog count reaches 0 and the lodge takes a CORE reset. -/
  | watchdogExpiry (x : Nat)
  /-- R428. An unacknowledged alarm is sent again every 10 µs. -/
  | alarmRetry (n : Nat) (ty : Nat)
  /-- R429. The collector records an arriving alarm, activating or counting its type. -/
  | alarmRecordRx (n : Nat) (ty : Nat)
  /-- R429. Writing 1 to an ACT bit clears it with its CNT and SRC. -/
  | alarmActClear (w : Nat) (v : Word)
  /-- R427. A write of TEL_ALM_RAISE raises a user alarm type. -/
  | telAlmRaise (n : Nat) (v : Word)
  /-- R430. A write to TEL_LOG_PORT queues a log record or drops it. -/
  | logSubmit (n : Nat) (port : Nat) (words : List Word) (whole : Bool)
  /-- R431. A write to TEL_TRC_PORT queues a trace record or drops it. -/
  | traceSubmit (n : Nat) (port : Nat) (words : List Word) (whole : Bool)
  /-- R432. The collector takes a record and writes it to the log or trace ring or drops it. -/
  | telIntakeRecord (node : Option Nat)
  /-- R432. A write of TEL_LOG_RD frees ring records or is ignored. -/
  | telLogRdWrite (trace : Bool) (v : Word)
  /-- R440. Setting LOG_EN or TRC_EN zeroes the ring indices. -/
  | telRingEnable (v : Word)
  /-- R434. Every 50 µs the sensors are sampled and the controlling temperature updated. -/
  | sensorSample (p : Nat) (readings : List Int)
  /-- R436. Each minute above 85 °C or 100 °C increments THM_LIFE_85 or THM_LIFE_100. -/
  | lifeMinute (p : Nat)
  /-- R438. A write of THM_PWR_CTL.TARGET starts a power-state change or is refused. -/
  | pwrTargetWrite (p : Nat) (v : Word) (who : Requester)
  /-- R438. A power-state change completes and BUSY clears. -/
  | pwrChangeDone (p : Nat)
  /-- R445. A write of XCV_LANE_l_CFG assigns a lane or sets CFG_ERR. -/
  | xcvLaneCfgWrite (t : Nat) (l : Nat) (v : Word)
  /-- R447. Every 1 ms a quad's reference is measured and REF_TRACK updated. -/
  | ppmWindow (t : Nat) (q : Nat) (ppm : Int)
  /-- R453. A host BAR0 access acts as one register or pair access or is aborted. -/
  | bar0Access (f : Nat) (x : Nat) (len : Nat) (write : Bool) (ep : Bool) (vs : List Word)
  /-- R456. A host completion to a device read arrives, good, poisoned or failed. -/
  | hostCompletionRx (f : Nat) (q : Option Nat) (res : HostRes)
  /-- R455. A PCI Express endpoint's link goes up or down. -/
  | pcieLinkChange (e : Nat) (up : Bool) (width : Nat) (gen : Nat)
  /-- R455. A function becomes unusable or usable, stalling or resuming its QPs. -/
  | functionUsabilityChange (f : Nat) (bme : Bool) (d3hot : Bool) (flr : Bool) (secure : Bool)
  /-- R455. A function-level reset resets one function. -/
  | flr (f : Nat)
  /-- R457. An IDE integrity failure moves the stream to Insecure. -/
  | ideFail (e : Nat)
  /-- R459. A write of ETH_CTL checks and starts the block or stops it. -/
  | ethCtlWrite (t : Nat) (v : Word)
  /-- R460. A received Ethernet frame is checked and fed to streams or dropped. -/
  | ethFrameRx (t : Nat) (bytes : List Byte) (fcs : Bool) (sec : Option EthSec)
  /-- R460. The pause quanta elapse and transmission resumes. -/
  | pauseExpiry (t : Nat)
  /-- R462. An Ethernet link goes down and its streams act as on lane loss. -/
  | ethLinkDown (t : Nat) (cdr : Option Nat)
  /-- R473. A masked write of GPIO_DOUT or GPIO_OE changes the selected bits. -/
  | gpioMaskedWrite (k : Nat) (oe : Bool) (v : Word)
  /-- R472. A write of GPIO_FUNC starts a function switch at the next GPIO edge. -/
  | gpioFuncWrite (w : Nat) (v : Word)
  /-- R472. At e0 + 2 the pins take the new function's drive. -/
  | gpioSwitchEnd (w : Nat)
  /-- R475. A selected edge of a pin sets its EVT bit and raises the event. -/
  | gpioEdgeSeen (n : Nat) (rising : Bool)
  /-- R476. A write of GPIO_U_CFG starts or stops a peripheral unit. -/
  | unitCfgWrite (e : Nat) (x : Nat) (v : Word)
  /-- R476. A write of GPIO_U_TX pushes a word or is dropped. -/
  | unitTxPush (e : Nat) (x : Nat) (v : Word)
  /-- R476. A read of GPIO_U_RX pops a word. -/
  | unitRxPop (e : Nat) (x : Nat)
  /-- R476. A peripheral unit finishes sending a TX word. -/
  | unitWordDone (e : Nat) (x : Nat) (rx : Word)
  /-- R476. A received byte enters the RX FIFO or is dropped. -/
  | uartRxByte (e : Nat) (x : Nat) (byte : Byte) (bad : Bool)
  /-- R476. A timer channel captures the device time of an edge. -/
  | timerCapture (e : Nat) (c : Nat)
  /-- R476. A PWM period ends and the next word takes effect. -/
  | pwmPeriodEnd (e : Nat) (c : Nat)
  /-- R480. EXTEST makes covered outputs follow the boundary register. -/
  | jtagExtest (dr : Option Nat)
  /-- R479. SAMPLE/PRELOAD selects the boundary register. -/
  | jtagSamplePreload (dr : Option Nat)
  /-- R479. IDCODE selects the identity register. -/
  | jtagIdcode
  /-- R479. HIGHZ places covered outputs at high impedance. -/
  | jtagHighz
  /-- R479. CLAMP holds covered outputs from the boundary register. -/
  | jtagClamp
  /-- R479. EXTEST_PULSE runs IEEE 1149.6 pulse testing. -/
  | jtagExtestPulse (dr : Option Nat)
  /-- R479. EXTEST_TRAIN runs IEEE 1149.6 train testing. -/
  | jtagExtestTrain (dr : Option Nat)
  /-- R481. DBG_ACCESS selects the debug-access data register. -/
  | jtagDbgAccess
  /-- R479. The COLD_RESET instruction requests a COLD reset at Update-IR. -/
  | jtagColdReset
  /-- R486. The UNLOCK instruction requests the erase-and-unlock. -/
  | jtagUnlock
  /-- R479. BYPASS, or any unlisted opcode, selects the bypass register. -/
  | jtagBypass
  /-- R481. Update-DR with READ or WRITE issues one debug access. -/
  | dbgAccessUpdateDr (dr : Nat)
  /-- R482. A write of DBG_ACC_CTL with OP READ issues a debug read. -/
  | dbgAccRead (v : Word)
  /-- R482. A write of DBG_ACC_CTL with OP WRITE issues a debug write. -/
  | dbgAccWrite (v : Word)
  /-- R482. A debug access completes with its status and data. -/
  | dbgAccessDone (status : Nat) (v : Word)
  /-- R483. A management peek read returns a value without side effects. -/
  | peekRead (n : Nat) (pkt : List Word) (fabStatus : Status) (fabData : List Word)
  /-- R486. A write of DBG_UNLOCK_CTL.GO requests the erase-and-unlock. -/
  | dbgUnlockGo
  /-- R486. The erase completes and a COLD reset follows, leaving the part unlocked. -/
  | unlockEraseDone
  /-- R489. A write of DBG_CORE_CTL.HALT requests a halt of a context or lodge. -/
  | dbgHalt (w : Nat) (i : Nat) (v : Word)
  /-- R489. In-flight work completes and the context enters HALT. -/
  | dbgHaltTaken (w : Nat) (i : Nat) (x : Nat)
  /-- R220. A write of RESUME returns a halted context to its earlier state. -/
  | dbgResume (w : Nat) (i : Nat) (v : Word)
  /-- R491. A write of STEP executes one bundle or instruction and halts again. -/
  | dbgStep (w : Nat) (i : Nat) (v : Word) (ipar : Bool) (par : Option Nat) (f0 : Word) (f1 : Word) (fd : Word) (ext : Option Word) (cycles : Nat)
  /-- R494. A write of DBG_CORE_REGSEL moves one register to or from REGDATA. -/
  | dbgRegTransfer (w : Nat) (i : Nat) (v : Word)
  /-- R495. A read of DBG_CORE_IMEM_DATA_LO reads the addressed bundle. -/
  | imemBundleRead (p : Nat) (k : Nat)
  /-- R495. A write of DBG_CORE_IMEM_DATA_HI writes the addressed bundle. -/
  | imemBundleWrite (p : Nat) (k : Nat) (v : Word)
  /-- R498. A write to a virtual-terminal register stores a word or sets OVF. -/
  | vtWrite (w : Nat) (i : Nat) (out : Bool) (v : Word)
  /-- R498. A read of a virtual-terminal register returns the word and clears FULL. -/
  | vtRead (w : Nat) (i : Nat) (out : Bool)
  /-- R499. A write of a patch register sets the patch and invalidates the cache line. -/
  | patchWrite (x : Nat) (n : Nat) (data : Bool) (v : Word) (who : Requester)
  /-- R506. The POWER-ON reset is released when POR_N returns high and VCC_KEEP is above 0.70 V, and start-up begins. -/
  | powerOnRelease (bootMode : Nat)
  /-- R80. A stream command completes and GATE_STRM_CMD_STAT.BUSY clears within 64 gatehouse cycles, letting a waiting descriptor proceed. -/
  | gateStrmCmdDone (p : Nat)
  /-- R310. A fabric PLL loses lock, setting CFG_PLL_k_STAT.LOSS, raising source 440 and unpinning crossings clocked from it. -/
  | fabricPllLockLoss (p : Nat) (k : Nat)
  /-- R373. A flipped copy of the verifier's triplicated control state is outvoted at the next clock and CFG_VER_VOTE_CNT increments. -/
  | verifierVoteMismatch (p : Nat)
  /-- R400. A lodge takes the machine external interrupt driven by the normal event class at an instruction boundary. -/
  | lodgeNormalInterrupt (x : Nat)
  /-- R449. A lane's PRBS checker sees 64 consecutive matching symbols, sets PRBS_LOCK and then counts bit errors. -/
  | prbsCheckerLock (t : Nat) (l : Nat) (errs : Nat)
  /-- R267. The host unmasks an MSI-X vector or enables MSI-X, and the pending message of that source is written. -/
  | msixVectorUnmask (f : Nat) (entry : Option (Nat × DWord × Word))
  /-- R462. An Ethernet link comes up with PCS aligned, LINK_UP sets and the block's ARMED streams may run. -/
  | ethLinkUp (t : Nat)
  /-- R349. The annex die fails to answer the IDENT read within 100 µs and the annex returns to DOWN. -/
  | anxIdentTimeout (a : Nat)
  /-- R479. TRST_N or TMS puts the TAP into Test-Logic-Reset, replacing the instruction and returning the balls to their functions. -/
  | jtagTestLogicReset
  /-- R451. The PERST_N ball resets one PCI Express endpoint only. -/
  | perstNAssert (e : Nat)
  /-- R456. A device read of host memory gets no completion within the completion-timeout range, which counts in CTO_CNT as a failed host-memory access. -/
  | hostCompletionTimeout (f : Nat) (q : Option Nat)
deriving DecidableEq, Repr

end Sys2Proof
end

