-- ==== Sys2Proof/Decode.lean ====
section
/-!
DEFINITION. The command that a word of the command table spells. The table gives its rows no bits, so no word spells a
command (assumption 4).
-/
namespace Sys2Proof

/-- The command of a table word: the table gives no row any bits. -/
def decodeTableWord (_nbits _w : Nat) : Option Instr := none

end Sys2Proof
end

