-- ==== Sys2Proof/Machine/Netlist.lean ====
section
/-!
DEFINITION. What the user's own logic is made of: cells, routing wires, block RAM and slice settings, and the moves a design
makes (R280..R287, R292, R375). The frame bits that set them are not laid out by the spec (assumption 169).
-/
namespace Sys2Proof.Machine

/-- R280, R281. Cell k, 0..15, of bed (x, y). -/
structure CellAt where
  x : Nat
  y : Nat
  k : Nat
deriving DecidableEq, Repr, Inhabited

/-- R282. A routing wire: the bed it starts at, whether it is vertical, whether it runs towards lower coordinates, the beds it
spans (1, 2, 4 or 16), and its number among the wires alike. -/
structure Wire where
  x : Nat
  y : Nat
  vertical : Bool
  back : Bool
  span : Nat
  n : Nat
deriving DecidableEq, Repr, Inhabited

/-- R281. What the image sets of a cell: the table, the flip-flop's data input (the cell's fourth input, or the table), its
initial value, and its set or reset: whether it sets, whether it is synchronous, and the reset net that drives it, none for a
routed signal. -/
structure CellCfg where
  lut : BitVec 16
  direct : Bool
  init : Bool
  sets : Bool
  sync : Bool
  net : Option (Fin 8)
deriving DecidableEq, Repr, Inhabited

/-- R283. What the image sets of a block RAM port: its width as a count of bytes per access (1, 2, 4 or 8, by exponent), and
CHECK mode. -/
structure RamPortCfg where
  width : Fin 4
  check : Bool
deriving DecidableEq, Repr, Inhabited

/-- R287. What a slice adds the product to. -/
inductive SliceAddend where
  | zero | own | operand | cascade
deriving DecidableEq, Repr, Inhabited

/-- R287. What the image sets of a slice: the signs of its operands, its addend, saturation, and its register stages. -/
structure SliceCfg where
  sgnA : Bool
  sgnB : Bool
  addend : SliceAddend
  sat : Bool
  regIn : Bool
  regProd : Bool
  regRes : Bool
deriving DecidableEq, Repr, Inhabited

/-- A signal that logic of a plot may take: a constant, an output of a cell, a wire, an output of a hard block, an input from
outside the plot (R375), or a reset net. -/
inductive Net where
  | level (b : Bool)
  | lut (c : CellAt)
  | ff (c : CellAt)
  | wire (w : Wire)
  | ram (k : Nat) (portB : Bool) (bit : Nat)
  | ramErr (k : Nat) (portB : Bool) (byte : Nat)
  | slice (k bit : Nat)
  | sliceOvf (k : Nat)
  | cross (e g bit : Nat)
  | crossOk (e g : Nat)
  | sport (i bit : Nat)
  | time (bit : Nat)
  | pin (e slot bit : Nat)
  | reset (n : Nat)
deriving DecidableEq, Repr, Inhabited

/-- R283. An access at a block RAM port in one cycle of its clock: address, data and byte write enables. -/
structure RamUse where
  addr : List Net
  data : List Net
  we : List Net
deriving DecidableEq, Repr, Inhabited

/-- What a design does: a wire takes a signal (R282), a cell's table and carry settle, a flip-flop is clocked (R281), a plot
output takes a signal (R374), and a block RAM or a slice is clocked (R285, R287). For a block RAM whose ports overlap on
different clocks, `race` says which port's byte is stored and what a read then returns. -/
inductive DesignMove where
  | route (w : Wire) (src : Net)
  | settle (c : CellAt) (ins : List Net) (sr : Net)
  | clock (c : CellAt) (ins : List Net) (ce sr : Net)
  | drive (b : Nat) (src : Net)
  | ram (k : Nat) (a b : Option RamUse) (race : Option (Nat × Nat))
  | slice (k : Nat) (a b c : List Net) (sub : Net)
deriving DecidableEq, Repr, Inhabited

/-- R287. The register stages of a slice: the operands, the product with its operand C and sign, and the result with its
overflow output. -/
structure SliceRegs where
  a : Nat
  b : Nat
  c : Nat
  sub : Bool
  prod : Int
  prodC : Nat
  prodSub : Bool
  p : Int
  ovf : Bool
deriving DecidableEq, Repr, Inhabited

/-- The user's logic in one plot: the flip-flops that differ from their initial values (R281), the levels of tables, carries
and wires (R281, R282), the plot's outputs in front of their hedge cells by hedge bit (R374; 14,336 + i is FEVT line i, and
14,464 + n the drive of reset net n,
and 14,472 + n the gate of global net n, R291), what the hedge cells hold (R375), and the outputs of block RAM ports (data and PERR,
R284) and slices. -/
structure PlotLogic where
  ffs : List (CellAt × Bool)
  luts : List (CellAt × Bool)
  carries : List (CellAt × Bool)
  wires : List (Wire × Bool)
  outs : List (Nat × Bool)
  held : List (Nat × Bool)
  rams : List ((Nat × Bool) × Nat × Nat)
  slices : List (Nat × SliceRegs)
deriving DecidableEq, Repr, Inhabited

end Sys2Proof.Machine
end

