-- ==== Sys2Proof/Machine/Regs.lean ====
section
/-!
DEFINITION. The register tables of the spec (Tables 1.3 to 20.4) as data: one name per register, its place in its
block (R517..R520), which bits read, which a write sets or clears, its POWER-ON value, and which bits a COLD and a
WARM reset keep (R8, R10, R11). A _LO/_HI pair is one register of 64 bits (R7).
-/
namespace Sys2Proof.Machine

/-- The blocks of the address map (Tables 22.1..22.3), one per kind of instance. -/
inductive Block where
  | siteId
  | campS
  | lrtFuseS
  | ldgS
  | dbgC
  | towerId
  | campT
  | xfl
  | tio
  | lrt
  | telN
  | cfgG
  | campG
  | lq
  | lqStage
  | ldgG
  | telG
  | hevc
  | anx
  | gpio
  | gpioU
  | dbgG
  | pcie
  | eth
  | xcv
  | adm
  | rdo
  | rdoQp
  | evc
  | tsk
  | spr
  | gate
  | dome
  | prm
  | cfgP
  | mem
  | campP
  | thm
deriving DecidableEq, Repr

/-- Every register of the spec, in its own spelling without the index letters. -/
inductive RegId where
  | SITE_ID
  | CAMP_SITE_TRIM_FAC
  | CAMP_SITE_TRIM_USER
  | CAMP_SITE_STAT
  | LRT_FUSE
  | LDG_SITE_STAT
  | LDG_RING_STAT
  | LDG_TERM
  | LDG_BOOT_STAT
  | LDG_CORE_CTL
  | LDG_WDOG_CTL
  | LDG_WDOG_KICK
  | LDG_WDOG_CNT
  | LDG_JRNL_STAT
  | LDG_WDOG_RST_CNT
  | DBG_CORE_CTL
  | DBG_CORE_STAT
  | DBG_CORE_REGSEL
  | DBG_CORE_REGDATA
  | DBG_CORE_BP_ADDR
  | DBG_CORE_BP_CTL
  | DBG_CORE_VT_IN
  | DBG_CORE_VT_OUT
  | DBG_CORE_VT_STAT
  | DBG_CORE_IMEM_ADDR
  | DBG_CORE_IMEM_DATA
  | DBG_PATCH_ADDR
  | DBG_PATCH_DATA
  | TWR_ID
  | CAMP_TWR_TRIM_FAC
  | CAMP_TWR_TRIM_USER
  | CAMP_LANE_TRIM
  | CAMP_PIN_TRIM
  | CAMP_LTIME_T
  | CAMP_PSAMP_FIFO
  | XFL_LANE_CFG
  | XFL_LANE_CTL
  | XFL_LANE_STAT
  | XFL_TX_ANCHOR
  | XFL_PARTNER_ID
  | XFL_PARTNER_INFO
  | XFL_LOCAL_ID
  | XFL_LOCAL_TAG
  | XFL_CRC_ERR_CNT
  | XFL_FEC_CORR_CNT
  | XFL_FEC_UNCORR_CNT
  | XFL_SF_RX
  | TIO_ANCHOR
  | TIO_GRP_CFG
  | TIO_GRP_DECL
  | TIO_GRP_LAT
  | TIO_GRP_LMIN
  | TIO_GRP_STAT
  | TIO_GRP_LATE_CNT
  | LRT_LINK_CTL
  | LRT_LINK_STAT
  | LRT_LINK_LOCAL
  | LRT_LINK_PEER
  | LRT_LINK_USED
  | LRT_LINK_LANE_THR
  | LRT_LINK_REPLAY_CNT
  | LRT_LINK_CRC_CNT
  | LRT_LINK_SWAP_CNT
  | LRT_LINK_STEP_CNT
  | LRT_LINK_LERR
  | LRT_FUSE_T
  | TEL_LOG_PORT
  | TEL_TRC_PORT
  | TEL_ALM_RAISE
  | TEL_Q_STAT
  | TEL_ALM_PEND
  | CFG_FOLLY_FUSE
  | CFG_FOLLY_STAGE
  | CFG_FOLLY_MAP
  | CFG_PMAP_CTL
  | CFG_PMAP
  | CFG_LOAD_CTL
  | CFG_LOAD_STAT
  | CFG_LOAD_PAVMASK
  | CFG_HOST_ADDR
  | CFG_HOST_LEN
  | CFG_BOOT
  | CFG_IMG_INFO
  | CFG_FAIL_SECT
  | CFG_LOAD_START_TIME
  | CFG_LOAD_BYTES
  | CFG_UKEY_W
  | CAMP_TIME
  | CAMP_CTL
  | CAMP_REF_CFG
  | CAMP_STAT
  | CAMP_REF_DIFF
  | CAMP_SLEW_REM
  | CAMP_EPOCH_VAL
  | CAMP_EPOCH_TIME
  | CAMP_ADJ
  | CAMP_ADJ_CTL
  | CAMP_XFER_CTL
  | CAMP_XFER_ASYM
  | CAMP_XFER_OFFS
  | CAMP_XFER_DELAY
  | CAMP_XFER_STAT
  | CAMP_LQ_PUSH
  | CAMP_LQ_CTL
  | CAMP_LQ_STAT
  | CAMP_LQ_LAUNCHED
  | CAMP_LQ_LATE
  | CAMP_LQ_DISCARD
  | CAMP_LQ_LAST_TAG
  | CAMP_LQ_LAST_TIME
  | CAMP_LQ_STAGE
  | LDG_RST_CTL
  | LDG_RST_CAUSE
  | LDG_SUB_CFG
  | LDG_SUB_CTL
  | LDG_SUB_CAND
  | LDG_SUB_STAT
  | LDG_SUB_MOVE
  | LDG_SUB_CNT
  | LDG_FAILED
  | LDG_HOLD_STAT
  | LDG_ELECT_CNT
  | LDG_JRNL_FILL
  | LDG_JRNL_WAIT
  | TEL_ALM_ACT
  | TEL_CTL
  | TEL_STAT
  | TEL_LOG_BASE
  | TEL_TRC_BASE
  | TEL_LOG_CFG
  | TEL_LOG_WR
  | TEL_TRC_WR
  | TEL_LOG_RD
  | TEL_TRC_RD
  | TEL_TRC_CFG
  | TEL_TRC_DROP
  | TEL_SRC_DROP
  | TEL_LOG_DROP
  | TEL_INTAKE
  | TEL_ALM_FIRST
  | TEL_ALM_CNT
  | TEL_ALM_SRC
  | HEVC_SWRAISE
  | HEVC_PEND
  | HEVC_MASK
  | HEVC_CLASS
  | HEVC_SGRP
  | HEVC_GRP_ROUTE
  | HEVC_CTL
  | HEVC_STAT
  | HEVC_FB_TMO
  | HEVC_GRP_COAL
  | HEVC_GRP_TIME
  | HEVC_GRP_STAT
  | HEVC_ACK_0
  | HEVC_ACK_1
  | HEVC_EOI
  | HEVC_TGT_CTL
  | HEVC_TGT_STAT
  | ANX_CFG
  | ANX_ALLOW
  | ANX_STAT
  | ANX_ID_W
  | ANX_CRC_CNT
  | ANX_RETRY_CNT
  | ANX_DENY_CNT
  | GPIO_DOUT
  | GPIO_OE
  | GPIO_DIN
  | GPIO_EVT
  | GPIO_FUNC
  | GPIO_PAD
  | GPIO_EDGE
  | GPIO_U_CFG
  | GPIO_U_STAT
  | GPIO_U_TX
  | GPIO_U_RX
  | DBG_STAT
  | DBG_UNLOCK_CTL
  | DBG_ACC_ADDR
  | DBG_ACC_DATA
  | DBG_ACC_CTL
  | DBG_ACC_STAT
  | PCIE_EP_CTL
  | PCIE_EP_STAT
  | PCIE_EP_CE_CNT
  | PCIE_EP_UE_CNT
  | PCIE_FN_CFG
  | PCIE_FN_STAT
  | PCIE_FN_ID
  | PCIE_FN_BAD_CNT
  | PCIE_FN_CTO_CNT
  | PCIE_FN_POISON_CNT
  | ETH_CTL
  | ETH_STAT
  | ETH_MAC
  | ETH_MAX_FRAME
  | ETH_RX_CNT
  | ETH_FCS_ERR
  | ETH_RX_OTHER
  | ETH_TX_CNT
  | ETH_FEC_CORR
  | ETH_FEC_UNCORR
  | ETH_SEC_CTL
  | ETH_SEC_STAT
  | ETH_SEC_SCI
  | ETH_SEC_PEER_SCI
  | ETH_SEC_DROP
  | ETH_SEC_SA_KEY_W
  | ETH_SEC_SA_SALT_W
  | ETH_SEC_SA_SSCI
  | ETH_SEC_SA_TXPN
  | ETH_SEC_SA_RXPN
  | XCV_QUAD_CFG
  | XCV_QUAD_REF
  | XCV_QUAD_STAT
  | XCV_LANE_CFG
  | XCV_LANE_CTL
  | XCV_LANE_TXEQ
  | XCV_LANE_STAT
  | XCV_LANE_PRBS_ERR
  | XCV_LANE_FAC
  | ADM_CFG
  | ADM_STAT
  | ADM_SLOT
  | ADM_STRAY
  | ADM_DECL_W
  | ADM_CMD
  | ADM_CMD_STAT
  | ADM_CMD_W
  | ADM_CMD_GAP
  | ADM_CMD_EFF
  | ADM_D_STAT
  | ADM_D_W
  | ADM_D_GAP
  | ADM_D_LATE
  | RDO_CTL
  | RDO_STAT
  | RDO_CFG
  | RDO_EVNUM
  | RDO_POLL
  | RDO_ACC_RETRY
  | RDO_ACC_BAD
  | RDO_EV_CNT
  | RDO_EV_PARTIAL
  | RDO_NUDGE_IGN
  | RDO_ACC_PORT
  | RDO_SSET_REF
  | RDO_SSET_W
  | FARM_CFG
  | FARM_MAC
  | FARM_LAST
  | FARM_SENT
  | RDO_NUDGE
  | RDO_QP_SQ_BASE
  | RDO_QP_CQ_BASE
  | RDO_QP_DB
  | RDO_QP_CFG
  | RDO_QP_CTL
  | RDO_QP_STAT
  | RDO_QP_SQ_HEAD
  | RDO_QP_CQ_TAIL
  | RDO_QP_JSEQ
  | RDO_QP_DSEQ
  | RDO_QP_ERR_SEQ
  | EVC_CTL
  | EVC_STAT
  | EVC_FB_TMO
  | EVC_SWRAISE
  | EVC_PEND
  | EVC_MASK
  | EVC_CLASS
  | EVC_SGRP
  | EVC_GRP_ROUTE
  | EVC_GRP_COAL
  | EVC_GRP_TIME
  | EVC_GRP_STAT
  | EVC_ACK_0
  | EVC_ACK_1
  | EVC_EOI
  | EVC_TGT_CTL
  | EVC_TGT_STAT
  | TSK_CTL
  | TSK_STAT
  | TSK_DLY_STAT
  | TSK_RST_LOST
  | TSK_CMD_W
  | TSK_CMD_STAT
  | TSK_CMD_PORT
  | TSK_CPL_FIFO_W0
  | TSK_CPL_FIFO_W123
  | TSK_CPL_STAT
  | TSK_POST_CNT
  | TSK_DISP_CNT
  | TSK_CANCEL_CNT
  | TSK_REFUSE_CNT
  | TSK_FAULT_CNT
  | TSK_DLY_PAST
  | TSK_LDG_DONE
  | TSK_FLOW_CMD
  | TSK_FLOW_CMD_STAT
  | TSK_TGT_CFG
  | TSK_TGT_STAT
  | TSK_FLOW
  | TSK_FSTAT
  | SPR_CTL
  | SPR_STAT
  | SPR_START
  | SPR_START_ARG
  | SPR_IMG_BASE
  | SPR_IMG_LEN
  | SPR_VEC
  | SPR_FAULT0
  | SPR_FAULT1
  | SPR_PC0
  | SPR_PC1
  | SPR_PERR_CNT
  | SPR_IREFETCH_CNT
  | SPR_ISSUE0_CNT
  | SPR_ISSUE1_CNT
  | SPR_STALL_CNT
  | SPR_DMA_LADDR
  | SPR_DMA_PADDR_LO
  | SPR_DMA_PADDR_HI
  | SPR_DMA_LEN
  | SPR_DMA_CTL
  | SPR_DMA_STAT
  | SPR_FEED_CFG
  | SPR_FEED_SBASE
  | SPR_FEED_SLEN
  | SPR_FEED_RIDX
  | SPR_FEED_WIDX
  | SPR_FEED_PBASE
  | SPR_FEED_PLEN
  | SPR_FEED_PWIDX
  | SPR_FEED_DROP
  | GATE_CTL
  | GATE_STAT
  | GATE_COMMIT_TMO
  | GATE_STRM_CMD
  | GATE_STRM_CMD_STAT
  | GATE_SENT_W
  | GATE_SST
  | GATE_SSEQ
  | GATE_SREFUSED
  | GATE_SLATE
  | GATE_SCRCERR
  | GATE_SRMIN
  | GATE_SSLACK
  | GATE_SSAT
  | DOME_CTL
  | DOME_STAT
  | DOME_CHAN_STAT
  | DOME_SCHED
  | DOME_PORT_CFG
  | DOME_ACT_THR
  | DOME_REF_CFG
  | DOME_RT_CFG
  | DOME_RT_WC
  | DOME_TEMP
  | DOME_RSV_BASE
  | DOME_RSV_SIZE
  | DOME_ECC_STAT
  | DOME_CE_CNT
  | DOME_UE_CNT
  | DOME_POISON_CNT
  | DOME_ERR_ADDR
  | DOME_PATROL_CFG
  | DOME_NRF_CNT
  | DOME_COMMIT_CNT
  | DOME_REFUSE_CNT
  | DOME_RING_CFG
  | DOME_RING_IDX_BASE
  | DOME_RING_DATA_BASE
  | DOME_RING_DATA_LINES
  | DOME_RING_HOLD
  | DOME_RING_WR_PTR
  | DOME_RING_STAT
  | PRM_STAT
  | PRM_FENCE_CTL
  | PRM_FENCE_TMO
  | PRM_REQ_TMO
  | PRM_MGMT
  | PRM_FENCE_PORT
  | PRM_ISO
  | PRM_LINK_STAT
  | PRM_ERR_RSP_CNT
  | PRM_ABSORB_CNT
  | PRM_TMO_CNT
  | PRM_LATE_RSP_CNT
  | PRM_REROUTE_CNT
  | PRM_RT_MISS_CNT
  | PRM_BAD_CNT
  | CFG_PLL_CFG
  | CFG_PLL_DIV
  | CFG_PLL_CTL
  | CFG_PLL_STAT
  | CFG_GCLK
  | CFG_RST
  | CFG_FEVT
  | CFG_FTIME
  | CFG_SPORT
  | CFG_XOUT
  | CFG_XIN
  | CFG_XSTAT
  | CFG_FEP
  | CFG_FEP_STAT
  | CFG_STAT
  | CFG_VER_CTL
  | CFG_VER_STAT
  | CFG_VER_PASS_CNT
  | CFG_VER_REPAIR_CNT
  | CFG_VER_STUCK_CNT
  | CFG_VER_VOTE_CNT
  | CFG_VER_TBL_ERR_CNT
  | CFG_VER_LAST
  | CFG_PLOT_CTL
  | CFG_PLOT_STAT
  | CFG_PLOT_SRC
  | CFG_PLOT_LEN
  | CFG_PLOT_HPOL
  | MEM_STAT
  | MEM_SRAM_CE_CNT
  | MEM_SRAM_UE_CNT
  | MEM_SRAM_ERR_LOC
  | MEM_BKT_CFG
  | MEM_BKT_STAT
  | MEM_REMAP_SEL
  | MEM_REMAP_ENTRY
  | MEM_KEY_CTL
  | MEM_KEY_STAT
  | MEM_KEY_BASE
  | MEM_KEY_PAGES
  | MEM_KEY_META
  | MEM_KEY_MLINES
  | MEM_KEY_MLINES_MIN
  | MEM_KEY_TAG_FAIL_CNT
  | MEM_KEY_KEY_W
  | CAMP_LTIME
  | THM_TEMP
  | THM_MAX
  | THM_CFG
  | THM_STAT
  | THM_PWR_CTL
  | THM_PWR_STAT
  | THM_POWER
  | THM_LIFE_85
  | THM_LIFE_100
deriving DecidableEq, Repr

/-- What a register table says of one register. `si`/`ci` are the stride and count of its first index inside the
block, `sj`/`cj` of its second. -/
structure RegRow where
  block : Block
  base : Nat
  si : Nat
  ci : Nat
  sj : Nat
  cj : Nat
  pair : Bool
  rd : BitVec 64
  rw : BitVec 64
  w1c : BitVec 64
  reset : BitVec 64
  coldKeep : BitVec 64
  warmKeep : BitVec 64
deriving DecidableEq, Repr

/-- The row of each register. -/
def RegId.row : RegId → RegRow
  | .SITE_ID => ⟨.siteId, 0x0, 0, 1, 0, 1, false, 0x3f3fff#64, 0x0#64, 0x0#64, 0x0#64, 0x0#64, 0x0#64⟩
  | .CAMP_SITE_TRIM_FAC => ⟨.campS, 0x0, 0, 1, 0, 1, false, 0xffffffff#64, 0x0#64, 0x0#64, 0x0#64, 0x0#64, 0x0#64⟩
  | .CAMP_SITE_TRIM_USER => ⟨.campS, 0x4, 0, 1, 0, 1, false, 0xffffffff#64, 0xffffffff#64, 0x0#64, 0x0#64, 0x0#64, 0xffffffff#64⟩
  | .CAMP_SITE_STAT => ⟨.campS, 0x8, 0, 1, 0, 1, false, 0x3#64, 0x0#64, 0x0#64, 0x0#64, 0x0#64, 0x0#64⟩
  | .LRT_FUSE => ⟨.lrtFuseS, 0x0, 4, 21, 0, 1, false, 0x1fff#64, 0x0#64, 0x0#64, 0x0#64, 0x0#64, 0x0#64⟩
  | .LDG_SITE_STAT => ⟨.ldgS, 0x0, 0, 1, 0, 1, false, 0x3f3#64, 0x0#64, 0x0#64, 0x0#64, 0x0#64, 0x1f3#64⟩
  | .LDG_RING_STAT => ⟨.ldgS, 0x4, 0, 1, 0, 1, false, 0x73f3f3f#64, 0x0#64, 0x0#64, 0x3f3f3f#64, 0x0#64, 0x0#64⟩
  | .LDG_TERM => ⟨.ldgS, 0x8, 0, 1, 0, 1, false, 0xffffffff#64, 0x0#64, 0x0#64, 0x0#64, 0x0#64, 0xffffffff#64⟩
  | .LDG_BOOT_STAT => ⟨.ldgS, 0xc, 0, 1, 0, 1, false, 0xfff1b#64, 0x0#64, 0x0#64, 0x0#64, 0x0#64, 0x0#64⟩
  | .LDG_CORE_CTL => ⟨.ldgS, 0x10, 0, 1, 0, 1, false, 0x0#64, 0x0#64, 0x0#64, 0x0#64, 0x0#64, 0x0#64⟩
  | .LDG_WDOG_CTL => ⟨.ldgS, 0x14, 0, 1, 0, 1, false, 0xffff03#64, 0xffff03#64, 0x0#64, 0x3e803#64, 0x0#64, 0xffff03#64⟩
  | .LDG_WDOG_KICK => ⟨.ldgS, 0x18, 0, 1, 0, 1, false, 0x0#64, 0x0#64, 0x0#64, 0x0#64, 0x0#64, 0x0#64⟩
  | .LDG_WDOG_CNT => ⟨.ldgS, 0x1c, 0, 1, 0, 1, false, 0xffff#64, 0x0#64, 0x0#64, 0x3e8#64, 0x0#64, 0x0#64⟩
  | .LDG_JRNL_STAT => ⟨.ldgS, 0x20, 0, 1, 0, 1, false, 0x1fff3#64, 0x0#64, 0x0#64, 0x0#64, 0x0#64, 0x0#64⟩
  | .LDG_WDOG_RST_CNT => ⟨.ldgS, 0x24, 0, 1, 0, 1, false, 0x3ffff#64, 0x0#64, 0x0#64, 0x0#64, 0x0#64, 0x3ffff#64⟩
  | .DBG_CORE_CTL => ⟨.dbgC, 0x0, 0, 1, 0, 1, false, 0x38#64, 0x38#64, 0x0#64, 0x0#64, 0x0#64, 0x38#64⟩
  | .DBG_CORE_STAT => ⟨.dbgC, 0x4, 0, 1, 0, 1, false, 0x1ff1f1#64, 0x0#64, 0x70000#64, 0x0#64, 0x0#64, 0x0#64⟩
  | .DBG_CORE_REGSEL => ⟨.dbgC, 0x8, 0, 1, 0, 1, false, 0x1ffff#64, 0x1ffff#64, 0x0#64, 0x0#64, 0x0#64, 0x0#64⟩
  | .DBG_CORE_REGDATA => ⟨.dbgC, 0xc, 0, 1, 0, 1, true, 0xffffffffffffffff#64, 0xffffffffffffffff#64, 0x0#64, 0x0#64, 0x0#64, 0x0#64⟩
  | .DBG_CORE_BP_ADDR => ⟨.dbgC, 0x20, 8, 4, 0, 1, false, 0xffffffff#64, 0xffffffff#64, 0x0#64, 0x0#64, 0x0#64, 0xffffffff#64⟩
  | .DBG_CORE_BP_CTL => ⟨.dbgC, 0x24, 8, 4, 0, 1, false, 0x7#64, 0x7#64, 0x0#64, 0x6#64, 0x0#64, 0x7#64⟩
  | .DBG_CORE_VT_IN => ⟨.dbgC, 0x40, 0, 1, 0, 1, false, 0xffffffff#64, 0x0#64, 0x0#64, 0x0#64, 0x0#64, 0x0#64⟩
  | .DBG_CORE_VT_OUT => ⟨.dbgC, 0x44, 0, 1, 0, 1, false, 0xffffffff#64, 0x0#64, 0x0#64, 0x0#64, 0x0#64, 0x0#64⟩
  | .DBG_CORE_VT_STAT => ⟨.dbgC, 0x48, 0, 1, 0, 1, false, 0xf#64, 0x0#64, 0xc#64, 0x0#64, 0x0#64, 0x0#64⟩
  | .DBG_CORE_IMEM_ADDR => ⟨.dbgC, 0x50, 0, 1, 0, 1, false, 0x1fff#64, 0x1fff#64, 0x0#64, 0x0#64, 0x0#64, 0x0#64⟩
  | .DBG_CORE_IMEM_DATA => ⟨.dbgC, 0x54, 0, 1, 0, 1, true, 0xffffffffffffffff#64, 0xffffffffffffffff#64, 0x0#64, 0x0#64, 0x0#64, 0x0#64⟩
  | .DBG_PATCH_ADDR => ⟨.dbgC, 0x60, 8, 16, 0, 1, false, 0x83fffffc#64, 0x83fffffc#64, 0x0#64, 0x0#64, 0x0#64, 0x83fffffc#64⟩
  | .DBG_PATCH_DATA => ⟨.dbgC, 0x64, 8, 16, 0, 1, false, 0xffffffff#64, 0xffffffff#64, 0x0#64, 0x0#64, 0x0#64, 0xffffffff#64⟩
  | .TWR_ID => ⟨.towerId, 0x0, 0, 1, 0, 1, false, 0x1fff#64, 0x0#64, 0x0#64, 0x0#64, 0x0#64, 0x0#64⟩
  | .CAMP_TWR_TRIM_FAC => ⟨.campT, 0x100, 0, 1, 0, 1, false, 0xffffffff#64, 0x0#64, 0x0#64, 0x0#64, 0x0#64, 0x0#64⟩
  | .CAMP_TWR_TRIM_USER => ⟨.campT, 0x104, 0, 1, 0, 1, false, 0xffffffff#64, 0xffffffff#64, 0x0#64, 0x0#64, 0x0#64, 0xffffffff#64⟩
  | .CAMP_LANE_TRIM => ⟨.campT, 0x200, 4, 20, 0, 1, false, 0xffffffff#64, 0xffffffff#64, 0x0#64, 0x0#64, 0x0#64, 0xffffffff#64⟩
  | .CAMP_PIN_TRIM => ⟨.campT, 0x300, 4, 24, 0, 1, false, 0xffffffff#64, 0xffffffff#64, 0x0#64, 0x0#64, 0x0#64, 0xffffffff#64⟩
  | .CAMP_LTIME_T => ⟨.campT, 0x0, 0, 1, 0, 1, true, 0xffffffffffffffff#64, 0x0#64, 0x0#64, 0x0#64, 0x0#64, 0xffffffffffffffff#64⟩
  | .CAMP_PSAMP_FIFO => ⟨.campT, 0x3000, 0, 1, 0, 1, false, 0xffffffff#64, 0x0#64, 0x0#64, 0x0#64, 0x0#64, 0x0#64⟩
  | .XFL_LANE_CFG => ⟨.xfl, 0x0, 0, 1, 0, 1, false, 0xfff3#64, 0xfff3#64, 0x0#64, 0x41f1#64, 0x0#64, 0xfff3#64⟩
  | .XFL_LANE_CTL => ⟨.xfl, 0x4, 0, 1, 0, 1, false, 0x1#64, 0x1#64, 0x0#64, 0x0#64, 0x0#64, 0x1#64⟩
  | .XFL_LANE_STAT => ⟨.xfl, 0x8, 0, 1, 0, 1, false, 0x1fff0f#64, 0x0#64, 0x1f0000#64, 0x0#64, 0x0#64, 0x0#64⟩
  | .XFL_TX_ANCHOR => ⟨.xfl, 0x10, 0, 1, 0, 1, true, 0xffffffffffffffff#64, 0xffffffffffffffff#64, 0x0#64, 0x0#64, 0x0#64, 0xffffffffffffffff#64⟩
  | .XFL_PARTNER_ID => ⟨.xfl, 0x18, 0, 1, 0, 1, true, 0xffffffffffffffff#64, 0x0#64, 0x0#64, 0x0#64, 0x0#64, 0x0#64⟩
  | .XFL_PARTNER_INFO => ⟨.xfl, 0x20, 0, 1, 0, 1, false, 0x3ffffff#64, 0x0#64, 0x0#64, 0x0#64, 0x0#64, 0x0#64⟩
  | .XFL_LOCAL_ID => ⟨.xfl, 0x28, 0, 1, 0, 1, true, 0xffffffffffffffff#64, 0xffffffffffffffff#64, 0x0#64, 0x0#64, 0x0#64, 0xffffffffffffffff#64⟩
  | .XFL_LOCAL_TAG => ⟨.xfl, 0x30, 0, 1, 0, 1, false, 0xff#64, 0xff#64, 0x0#64, 0x0#64, 0x0#64, 0xff#64⟩
  | .XFL_CRC_ERR_CNT => ⟨.xfl, 0x34, 0, 1, 0, 1, false, 0xffffffff#64, 0x0#64, 0x0#64, 0x0#64, 0x0#64, 0x0#64⟩
  | .XFL_FEC_CORR_CNT => ⟨.xfl, 0x38, 0, 1, 0, 1, false, 0xffffffff#64, 0x0#64, 0x0#64, 0x0#64, 0x0#64, 0x0#64⟩
  | .XFL_FEC_UNCORR_CNT => ⟨.xfl, 0x3c, 0, 1, 0, 1, false, 0xffffffff#64, 0x0#64, 0x0#64, 0x0#64, 0x0#64, 0x0#64⟩
  | .XFL_SF_RX => ⟨.xfl, 0x40, 0, 1, 0, 1, false, 0xffff#64, 0x0#64, 0x0#64, 0x0#64, 0x0#64, 0x0#64⟩
  | .TIO_ANCHOR => ⟨.tio, 0x0, 0, 1, 0, 1, true, 0xffffffffffffffff#64, 0xffffffffffffffff#64, 0x0#64, 0x0#64, 0x0#64, 0xffffffffffffffff#64⟩
  | .TIO_GRP_CFG => ⟨.tio, 0x100, 32, 18, 0, 1, false, 0x1fffff7f#64, 0x1fffff7f#64, 0x0#64, 0x20#64, 0x0#64, 0x1fffff7e#64⟩
  | .TIO_GRP_DECL => ⟨.tio, 0x104, 32, 18, 0, 1, false, 0xfff#64, 0xfff#64, 0x0#64, 0x0#64, 0x0#64, 0xfff#64⟩
  | .TIO_GRP_LAT => ⟨.tio, 0x108, 32, 18, 0, 1, false, 0xffffffff#64, 0xffffffff#64, 0x0#64, 0x0#64, 0x0#64, 0xffffffff#64⟩
  | .TIO_GRP_LMIN => ⟨.tio, 0x10c, 32, 18, 0, 1, false, 0xffffffff#64, 0x0#64, 0x0#64, 0x0#64, 0x0#64, 0x0#64⟩
  | .TIO_GRP_STAT => ⟨.tio, 0x110, 32, 18, 0, 1, false, 0x3f#64, 0x0#64, 0x18#64, 0x0#64, 0x0#64, 0x0#64⟩
  | .TIO_GRP_LATE_CNT => ⟨.tio, 0x114, 32, 18, 0, 1, false, 0xffffffff#64, 0x0#64, 0x0#64, 0x0#64, 0x0#64, 0xffffffff#64⟩
  | .LRT_LINK_CTL => ⟨.lrt, 0x0, 0, 1, 0, 1, false, 0x1#64, 0x1#64, 0x0#64, 0x1#64, 0x0#64, 0x1#64⟩
  | .LRT_LINK_STAT => ⟨.lrt, 0x4, 0, 1, 0, 1, false, 0x1fff07ff#64, 0x0#64, 0x8#64, 0x30#64, 0x0#64, 0x0#64⟩
  | .LRT_LINK_LOCAL => ⟨.lrt, 0x8, 0, 1, 0, 1, true, 0xffffffffffffffff#64, 0x0#64, 0x0#64, 0x0#64, 0x0#64, 0x0#64⟩
  | .LRT_LINK_PEER => ⟨.lrt, 0x10, 0, 1, 0, 1, true, 0xffffffffffffffff#64, 0x0#64, 0x0#64, 0x0#64, 0x0#64, 0x0#64⟩
  | .LRT_LINK_USED => ⟨.lrt, 0x18, 0, 1, 0, 1, true, 0xffffffffffffffff#64, 0x0#64, 0x0#64, 0x0#64, 0x0#64, 0x0#64⟩
  | .LRT_LINK_LANE_THR => ⟨.lrt, 0x20, 0, 1, 0, 1, false, 0xffffff#64, 0xffffff#64, 0x0#64, 0xa0040#64, 0x0#64, 0xffffff#64⟩
  | .LRT_LINK_REPLAY_CNT => ⟨.lrt, 0x24, 0, 1, 0, 1, false, 0xffffffff#64, 0x0#64, 0x0#64, 0x0#64, 0x0#64, 0xffffffff#64⟩
  | .LRT_LINK_CRC_CNT => ⟨.lrt, 0x28, 0, 1, 0, 1, false, 0xffffffff#64, 0x0#64, 0x0#64, 0x0#64, 0x0#64, 0xffffffff#64⟩
  | .LRT_LINK_SWAP_CNT => ⟨.lrt, 0x2c, 0, 1, 0, 1, false, 0xffffffff#64, 0x0#64, 0x0#64, 0x0#64, 0x0#64, 0xffffffff#64⟩
  | .LRT_LINK_STEP_CNT => ⟨.lrt, 0x30, 0, 1, 0, 1, false, 0xffffffff#64, 0x0#64, 0x0#64, 0x0#64, 0x0#64, 0xffffffff#64⟩
  | .LRT_LINK_LERR => ⟨.lrt, 0x40, 4, 34, 0, 1, false, 0xffffffff#64, 0x0#64, 0x0#64, 0x0#64, 0x0#64, 0xffffffff#64⟩
  | .LRT_FUSE_T => ⟨.lrt, 0x800, 4, 4, 0, 1, false, 0x1fff#64, 0x0#64, 0x0#64, 0x0#64, 0x0#64, 0x0#64⟩
  | .TEL_LOG_PORT => ⟨.telN, 0x0, 4, 8, 0, 1, false, 0x0#64, 0x0#64, 0x0#64, 0x0#64, 0x0#64, 0x0#64⟩
  | .TEL_TRC_PORT => ⟨.telN, 0x20, 4, 8, 0, 1, false, 0x0#64, 0x0#64, 0x0#64, 0x0#64, 0x0#64, 0x0#64⟩
  | .TEL_ALM_RAISE => ⟨.telN, 0x40, 0, 1, 0, 1, false, 0x0#64, 0x0#64, 0x0#64, 0x0#64, 0x0#64, 0x0#64⟩
  | .TEL_Q_STAT => ⟨.telN, 0x44, 0, 1, 0, 1, false, 0xffff007f#64, 0x0#64, 0x40#64, 0x0#64, 0x0#64, 0xffff0000#64⟩
  | .TEL_ALM_PEND => ⟨.telN, 0x80, 4, 8, 0, 1, false, 0xffffffff#64, 0x0#64, 0x0#64, 0x0#64, 0x0#64, 0xffffffff#64⟩
  | .CFG_FOLLY_FUSE => ⟨.cfgG, 0x100, 0, 1, 0, 1, false, 0xffff#64, 0x0#64, 0x0#64, 0x0#64, 0x0#64, 0x0#64⟩
  | .CFG_FOLLY_STAGE => ⟨.cfgG, 0x104, 0, 1, 0, 1, false, 0xffff#64, 0xffff#64, 0x0#64, 0x0#64, 0x0#64, 0xffff#64⟩
  | .CFG_FOLLY_MAP => ⟨.cfgG, 0x108, 0, 1, 0, 1, false, 0x8000ffff#64, 0x0#64, 0x0#64, 0x0#64, 0x0#64, 0x8000ffff#64⟩
  | .CFG_PMAP_CTL => ⟨.cfgG, 0x10c, 0, 1, 0, 1, false, 0xf02#64, 0x0#64, 0x0#64, 0x0#64, 0x0#64, 0x0#64⟩
  | .CFG_PMAP => ⟨.cfgG, 0x110, 4, 4, 0, 1, false, 0xffffffff#64, 0x0#64, 0x0#64, 0x0#64, 0x0#64, 0x0#64⟩
  | .CFG_LOAD_CTL => ⟨.cfgG, 0x0, 0, 1, 0, 1, false, 0x7e#64, 0x7e#64, 0x0#64, 0x2#64, 0x18#64, 0x7e#64⟩
  | .CFG_LOAD_STAT => ⟨.cfgG, 0x4, 0, 1, 0, 1, false, 0x1ffff1f#64, 0x0#64, 0x1000000#64, 0x0#64, 0xff07#64, 0xffff1f#64⟩
  | .CFG_LOAD_PAVMASK => ⟨.cfgG, 0x8, 0, 1, 0, 1, false, 0xffffffff#64, 0xffffffff#64, 0x0#64, 0x0#64, 0x0#64, 0xffffffff#64⟩
  | .CFG_HOST_ADDR => ⟨.cfgG, 0x10, 0, 1, 0, 1, true, 0xffffffffffffffff#64, 0xffffffffffffffff#64, 0x0#64, 0x0#64, 0x0#64, 0xffffffffffffffff#64⟩
  | .CFG_HOST_LEN => ⟨.cfgG, 0x18, 0, 1, 0, 1, false, 0xffffffff#64, 0xffffffff#64, 0x0#64, 0x0#64, 0x0#64, 0xffffffff#64⟩
  | .CFG_BOOT => ⟨.cfgG, 0x1c, 0, 1, 0, 1, false, 0xff73#64, 0x0#64, 0x0#64, 0x0#64, 0x0#64, 0x0#64⟩
  | .CFG_IMG_INFO => ⟨.cfgG, 0x20, 0, 1, 0, 1, false, 0x1ff1fff#64, 0x0#64, 0x0#64, 0x0#64, 0x0#64, 0x1ff1fff#64⟩
  | .CFG_FAIL_SECT => ⟨.cfgG, 0x24, 0, 1, 0, 1, false, 0x1ff#64, 0x0#64, 0x0#64, 0x0#64, 0x0#64, 0x1ff#64⟩
  | .CFG_LOAD_START_TIME => ⟨.cfgG, 0x28, 0, 1, 0, 1, true, 0xffffffffffffffff#64, 0x0#64, 0x0#64, 0x0#64, 0x0#64, 0xffffffffffffffff#64⟩
  | .CFG_LOAD_BYTES => ⟨.cfgG, 0x30, 0, 1, 0, 1, false, 0xffffffff#64, 0x0#64, 0x0#64, 0x0#64, 0x0#64, 0x0#64⟩
  | .CFG_UKEY_W => ⟨.cfgG, 0x40, 4, 8, 0, 1, false, 0x0#64, 0x0#64, 0x0#64, 0x0#64, 0xffffffff#64, 0xffffffff#64⟩
  | .CAMP_TIME => ⟨.campG, 0x0, 0, 1, 0, 1, true, 0xffffffffffffffff#64, 0x0#64, 0x0#64, 0x0#64, 0x0#64, 0xffffffffffffffff#64⟩
  | .CAMP_CTL => ⟨.campG, 0x8, 0, 1, 0, 1, false, 0xff7#64, 0xff7#64, 0x0#64, 0xc00#64, 0x0#64, 0xff7#64⟩
  | .CAMP_REF_CFG => ⟨.campG, 0xc, 0, 1, 0, 1, false, 0xf7ffff#64, 0xf7ffff#64, 0x0#64, 0x4186a0#64, 0x7ffff#64, 0xf7ffff#64⟩
  | .CAMP_STAT => ⟨.campG, 0x10, 0, 1, 0, 1, false, 0x1ff#64, 0x0#64, 0x1c0#64, 0x3#64, 0x0#64, 0x0#64⟩
  | .CAMP_REF_DIFF => ⟨.campG, 0x14, 0, 1, 0, 1, false, 0xffffffff#64, 0x0#64, 0x0#64, 0x0#64, 0x0#64, 0x0#64⟩
  | .CAMP_SLEW_REM => ⟨.campG, 0x18, 0, 1, 0, 1, true, 0xffffffffffffffff#64, 0x0#64, 0x0#64, 0x0#64, 0x0#64, 0xffffffffffffffff#64⟩
  | .CAMP_EPOCH_VAL => ⟨.campG, 0x20, 0, 1, 0, 1, true, 0xffffffffffff#64, 0xffffffffffff#64, 0x0#64, 0x0#64, 0x0#64, 0xffffffffffff#64⟩
  | .CAMP_EPOCH_TIME => ⟨.campG, 0x28, 0, 1, 0, 1, true, 0xffffffffffffffff#64, 0x0#64, 0x0#64, 0x0#64, 0x0#64, 0xffffffffffffffff#64⟩
  | .CAMP_ADJ => ⟨.campG, 0x30, 0, 1, 0, 1, true, 0xffffffffffffffff#64, 0xffffffffffffffff#64, 0x0#64, 0x0#64, 0x0#64, 0x0#64⟩
  | .CAMP_ADJ_CTL => ⟨.campG, 0x38, 0, 1, 0, 1, false, 0x0#64, 0x0#64, 0x0#64, 0x0#64, 0x0#64, 0x0#64⟩
  | .CAMP_XFER_CTL => ⟨.campG, 0x40, 0, 1, 0, 1, false, 0x3ffff#64, 0x3ffff#64, 0x0#64, 0xd000#64, 0x0#64, 0x3ffff#64⟩
  | .CAMP_XFER_ASYM => ⟨.campG, 0x44, 0, 1, 0, 1, false, 0xffffffff#64, 0xffffffff#64, 0x0#64, 0x0#64, 0x0#64, 0xffffffff#64⟩
  | .CAMP_XFER_OFFS => ⟨.campG, 0x48, 0, 1, 0, 1, false, 0xffffffff#64, 0x0#64, 0x0#64, 0x0#64, 0x0#64, 0x0#64⟩
  | .CAMP_XFER_DELAY => ⟨.campG, 0x4c, 0, 1, 0, 1, false, 0xffffffff#64, 0x0#64, 0x0#64, 0x0#64, 0x0#64, 0x0#64⟩
  | .CAMP_XFER_STAT => ⟨.campG, 0x50, 0, 1, 0, 1, false, 0xffff0001#64, 0x0#64, 0x0#64, 0x0#64, 0x0#64, 0x0#64⟩
  | .CAMP_LQ_PUSH => ⟨.lq, 0x0, 4, 8, 0, 1, false, 0x0#64, 0x0#64, 0x0#64, 0x0#64, 0x0#64, 0x0#64⟩
  | .CAMP_LQ_CTL => ⟨.lq, 0x20, 0, 1, 0, 1, false, 0x1#64, 0x1#64, 0x0#64, 0x1#64, 0x0#64, 0x0#64⟩
  | .CAMP_LQ_STAT => ⟨.lq, 0x24, 0, 1, 0, 1, false, 0x3f01ff#64, 0x0#64, 0x2f0000#64, 0x0#64, 0x0#64, 0x0#64⟩
  | .CAMP_LQ_LAUNCHED => ⟨.lq, 0x28, 0, 1, 0, 1, false, 0xffffffff#64, 0x0#64, 0x0#64, 0x0#64, 0x0#64, 0x0#64⟩
  | .CAMP_LQ_LATE => ⟨.lq, 0x2c, 0, 1, 0, 1, false, 0xffffffff#64, 0x0#64, 0x0#64, 0x0#64, 0x0#64, 0x0#64⟩
  | .CAMP_LQ_DISCARD => ⟨.lq, 0x30, 0, 1, 0, 1, false, 0xffffffff#64, 0x0#64, 0x0#64, 0x0#64, 0x0#64, 0x0#64⟩
  | .CAMP_LQ_LAST_TAG => ⟨.lq, 0x34, 0, 1, 0, 1, false, 0xffffff#64, 0x0#64, 0x0#64, 0x0#64, 0x0#64, 0x0#64⟩
  | .CAMP_LQ_LAST_TIME => ⟨.lq, 0x38, 0, 1, 0, 1, true, 0xffffffffffffffff#64, 0x0#64, 0x0#64, 0x0#64, 0x0#64, 0x0#64⟩
  | .CAMP_LQ_STAGE => ⟨.lqStage, 0x0, 4, 1024, 0, 1, false, 0xffffffff#64, 0xffffffff#64, 0x0#64, 0x0#64, 0x0#64, 0xffffffff#64⟩
  | .LDG_RST_CTL => ⟨.ldgG, 0x0, 0, 1, 0, 1, false, 0x0#64, 0x0#64, 0x0#64, 0x0#64, 0x0#64, 0x0#64⟩
  | .LDG_RST_CAUSE => ⟨.ldgG, 0x4, 0, 1, 0, 1, false, 0xffff00f7#64, 0x0#64, 0x0#64, 0x0#64, 0xffff00f7#64, 0xffff00f7#64⟩
  | .LDG_SUB_CFG => ⟨.ldgG, 0x10, 0, 1, 0, 1, false, 0xc1ffffff#64, 0xc1ffffff#64, 0x0#64, 0x0#64, 0x0#64, 0xc1ffffff#64⟩
  | .LDG_SUB_CTL => ⟨.ldgG, 0x14, 0, 1, 0, 1, false, 0x0#64, 0x0#64, 0x0#64, 0x0#64, 0x0#64, 0x0#64⟩
  | .LDG_SUB_CAND => ⟨.ldgG, 0x18, 0, 1, 0, 1, false, 0xffffffff#64, 0x0#64, 0xffffffff#64, 0x0#64, 0x0#64, 0xffffffff#64⟩
  | .LDG_SUB_STAT => ⟨.ldgG, 0x1c, 0, 1, 0, 1, false, 0xf3f3fff#64, 0x0#64, 0x200080#64, 0x0#64, 0x0#64, 0xf1f3f7f#64⟩
  | .LDG_SUB_MOVE => ⟨.ldgG, 0x20, 0, 1, 0, 1, false, 0xffffffff#64, 0x0#64, 0x0#64, 0x0#64, 0x0#64, 0xffffffff#64⟩
  | .LDG_SUB_CNT => ⟨.ldgG, 0x24, 0, 1, 0, 1, false, 0xffffffff#64, 0x0#64, 0x0#64, 0x0#64, 0x0#64, 0xffffffff#64⟩
  | .LDG_FAILED => ⟨.ldgG, 0x28, 0, 1, 0, 1, true, 0xffffffffffffffff#64, 0x0#64, 0x0#64, 0x0#64, 0x0#64, 0xffffffffffffffff#64⟩
  | .LDG_HOLD_STAT => ⟨.ldgG, 0x30, 0, 1, 0, 1, false, 0x1#64, 0x0#64, 0x0#64, 0x0#64, 0x0#64, 0x1#64⟩
  | .LDG_ELECT_CNT => ⟨.ldgG, 0x34, 0, 1, 0, 1, false, 0xffffffff#64, 0x0#64, 0x0#64, 0x0#64, 0x0#64, 0xffffffff#64⟩
  | .LDG_JRNL_FILL => ⟨.ldgG, 0x38, 0, 1, 0, 1, false, 0x1fff1fff#64, 0x0#64, 0x0#64, 0x0#64, 0x0#64, 0x0#64⟩
  | .LDG_JRNL_WAIT => ⟨.ldgG, 0x3c, 0, 1, 0, 1, false, 0xffffffff#64, 0x0#64, 0x0#64, 0x0#64, 0x0#64, 0xffffffff#64⟩
  | .TEL_ALM_ACT => ⟨.telG, 0x0, 4, 8, 0, 1, false, 0xffffffff#64, 0x0#64, 0xffffffff#64, 0x0#64, 0x0#64, 0xffffffff#64⟩
  | .TEL_CTL => ⟨.telG, 0x40, 0, 1, 0, 1, false, 0x3f#64, 0x3f#64, 0x0#64, 0x0#64, 0x0#64, 0x3f#64⟩
  | .TEL_STAT => ⟨.telG, 0x44, 0, 1, 0, 1, false, 0x7f1f#64, 0x0#64, 0x1e#64, 0x0#64, 0x0#64, 0x0#64⟩
  | .TEL_LOG_BASE => ⟨.telG, 0x48, 0, 1, 0, 1, true, 0xffffffffffffffff#64, 0xffffffffffffffff#64, 0x0#64, 0x0#64, 0x0#64, 0xffffffffffffffff#64⟩
  | .TEL_TRC_BASE => ⟨.telG, 0x60, 0, 1, 0, 1, true, 0xffffffffffffffff#64, 0xffffffffffffffff#64, 0x0#64, 0x0#64, 0x0#64, 0xffffffffffffffff#64⟩
  | .TEL_LOG_CFG => ⟨.telG, 0x50, 0, 1, 0, 1, false, 0xffff0f1f#64, 0xffff0f1f#64, 0x0#64, 0x400408#64, 0x0#64, 0xffff0f1f#64⟩
  | .TEL_LOG_WR => ⟨.telG, 0x54, 0, 1, 0, 1, false, 0xffffffff#64, 0x0#64, 0x0#64, 0x0#64, 0x0#64, 0x0#64⟩
  | .TEL_TRC_WR => ⟨.telG, 0x6c, 0, 1, 0, 1, false, 0xffffffff#64, 0x0#64, 0x0#64, 0x0#64, 0x0#64, 0x0#64⟩
  | .TEL_LOG_RD => ⟨.telG, 0x58, 0, 1, 0, 1, false, 0xffffffff#64, 0xffffffff#64, 0x0#64, 0x0#64, 0x0#64, 0x0#64⟩
  | .TEL_TRC_RD => ⟨.telG, 0x70, 0, 1, 0, 1, false, 0xffffffff#64, 0xffffffff#64, 0x0#64, 0x0#64, 0x0#64, 0x0#64⟩
  | .TEL_TRC_CFG => ⟨.telG, 0x68, 0, 1, 0, 1, false, 0xf1f#64, 0xf1f#64, 0x0#64, 0x8#64, 0x0#64, 0xf1f#64⟩
  | .TEL_TRC_DROP => ⟨.telG, 0x74, 0, 1, 0, 1, false, 0xffffffff#64, 0x0#64, 0x0#64, 0x0#64, 0x0#64, 0xffffffff#64⟩
  | .TEL_SRC_DROP => ⟨.telG, 0x78, 0, 1, 0, 1, false, 0xffffffff#64, 0x0#64, 0x0#64, 0x0#64, 0x0#64, 0xffffffff#64⟩
  | .TEL_LOG_DROP => ⟨.telG, 0x80, 4, 8, 0, 1, false, 0xffffffff#64, 0x0#64, 0x0#64, 0x0#64, 0x0#64, 0xffffffff#64⟩
  | .TEL_INTAKE => ⟨.telG, 0x100, 4, 8, 0, 1, false, 0x0#64, 0x0#64, 0x0#64, 0x0#64, 0x0#64, 0x0#64⟩
  | .TEL_ALM_FIRST => ⟨.telG, 0x1000, 32, 256, 0, 1, true, 0xffffffffffffffff#64, 0x0#64, 0x0#64, 0x0#64, 0x0#64, 0xffffffffffffffff#64⟩
  | .TEL_ALM_CNT => ⟨.telG, 0x1008, 32, 256, 0, 1, false, 0xffffffff#64, 0x0#64, 0x0#64, 0x0#64, 0x0#64, 0xffffffff#64⟩
  | .TEL_ALM_SRC => ⟨.telG, 0x100c, 32, 256, 0, 1, true, 0xffffffffffffffff#64, 0x0#64, 0x0#64, 0x0#64, 0x0#64, 0xffffffffffffffff#64⟩
  | .HEVC_SWRAISE => ⟨.hevc, 0xc, 0, 1, 0, 1, false, 0x0#64, 0x0#64, 0x0#64, 0x0#64, 0x0#64, 0x0#64⟩
  | .HEVC_PEND => ⟨.hevc, 0x100, 4, 64, 0, 1, false, 0xffffffff#64, 0xffffffff#64, 0x0#64, 0x0#64, 0x0#64, 0x0#64⟩
  | .HEVC_MASK => ⟨.hevc, 0x200, 4, 64, 0, 1, false, 0xffffffff#64, 0xffffffff#64, 0x0#64, 0xffffffff#64, 0x0#64, 0xffffffff#64⟩
  | .HEVC_CLASS => ⟨.hevc, 0x300, 4, 64, 0, 1, false, 0xffffffff#64, 0xffffffff#64, 0x0#64, 0x0#64, 0x0#64, 0xffffffff#64⟩
  | .HEVC_SGRP => ⟨.hevc, 0x400, 4, 512, 0, 1, false, 0x3f3f3f3f#64, 0x3f3f3f3f#64, 0x0#64, 0x0#64, 0x0#64, 0x3f3f3f3f#64⟩
  | .HEVC_GRP_ROUTE => ⟨.hevc, 0x1000, 16, 64, 0, 1, false, 0xffff#64, 0xffff#64, 0x0#64, 0xfff9#64, 0x0#64, 0xffff#64⟩
  | .HEVC_CTL => ⟨.hevc, 0x0, 0, 1, 0, 1, false, 0x1#64, 0x1#64, 0x0#64, 0x0#64, 0x0#64, 0x0#64⟩
  | .HEVC_STAT => ⟨.hevc, 0x4, 0, 1, 0, 1, false, 0x7#64, 0x0#64, 0x3#64, 0x0#64, 0x0#64, 0x0#64⟩
  | .HEVC_FB_TMO => ⟨.hevc, 0x8, 0, 1, 0, 1, false, 0xffff#64, 0xffff#64, 0x0#64, 0xa#64, 0x0#64, 0xffff#64⟩
  | .HEVC_GRP_COAL => ⟨.hevc, 0x1004, 16, 64, 0, 1, false, 0x1fff#64, 0x1fff#64, 0x0#64, 0x1#64, 0x0#64, 0x1fff#64⟩
  | .HEVC_GRP_TIME => ⟨.hevc, 0x1008, 16, 64, 0, 1, false, 0x1ffffff#64, 0x1ffffff#64, 0x0#64, 0x1000000#64, 0x0#64, 0x1ffffff#64⟩
  | .HEVC_GRP_STAT => ⟨.hevc, 0x100c, 16, 64, 0, 1, false, 0xf1fff#64, 0x0#64, 0x0#64, 0x0#64, 0x0#64, 0x0#64⟩
  | .HEVC_ACK_0 => ⟨.hevc, 0x2000, 32, 36, 0, 1, false, 0xffffffff#64, 0x0#64, 0x0#64, 0x7ff#64, 0x0#64, 0x0#64⟩
  | .HEVC_ACK_1 => ⟨.hevc, 0x2004, 32, 36, 0, 1, false, 0xffffffff#64, 0x0#64, 0x0#64, 0x7ff#64, 0x0#64, 0x0#64⟩
  | .HEVC_EOI => ⟨.hevc, 0x2008, 32, 36, 0, 1, false, 0x0#64, 0x0#64, 0x0#64, 0x0#64, 0x0#64, 0x0#64⟩
  | .HEVC_TGT_CTL => ⟨.hevc, 0x200c, 32, 36, 0, 1, false, 0x1#64, 0x1#64, 0x0#64, 0x1#64, 0x0#64, 0x1#64⟩
  | .HEVC_TGT_STAT => ⟨.hevc, 0x2010, 32, 36, 0, 1, false, 0x1ff#64, 0x0#64, 0x0#64, 0x0#64, 0x0#64, 0x0#64⟩
  | .ANX_CFG => ⟨.anx, 0x0, 0, 1, 0, 1, false, 0xf#64, 0xf#64, 0x0#64, 0xb#64, 0x0#64, 0xf#64⟩
  | .ANX_ALLOW => ⟨.anx, 0x4, 0, 1, 0, 1, false, 0x7#64, 0x7#64, 0x0#64, 0x0#64, 0x0#64, 0x7#64⟩
  | .ANX_STAT => ⟨.anx, 0x8, 0, 1, 0, 1, false, 0xff7f#64, 0x0#64, 0x0#64, 0x0#64, 0x0#64, 0x0#64⟩
  | .ANX_ID_W => ⟨.anx, 0x10, 4, 4, 0, 1, false, 0xffffffff#64, 0x0#64, 0x0#64, 0x0#64, 0x0#64, 0x0#64⟩
  | .ANX_CRC_CNT => ⟨.anx, 0x20, 0, 1, 0, 1, false, 0xffffffff#64, 0x0#64, 0x0#64, 0x0#64, 0x0#64, 0xffffffff#64⟩
  | .ANX_RETRY_CNT => ⟨.anx, 0x24, 0, 1, 0, 1, false, 0xffffffff#64, 0x0#64, 0x0#64, 0x0#64, 0x0#64, 0xffffffff#64⟩
  | .ANX_DENY_CNT => ⟨.anx, 0x28, 0, 1, 0, 1, false, 0xffffffff#64, 0x0#64, 0x0#64, 0x0#64, 0x0#64, 0xffffffff#64⟩
  | .GPIO_DOUT => ⟨.gpio, 0x0, 4, 6, 0, 1, false, 0xffff#64, 0xffff#64, 0x0#64, 0x0#64, 0x0#64, 0xffff#64⟩
  | .GPIO_OE => ⟨.gpio, 0x20, 4, 6, 0, 1, false, 0xffff#64, 0xffff#64, 0x0#64, 0x0#64, 0x0#64, 0xffff#64⟩
  | .GPIO_DIN => ⟨.gpio, 0x40, 4, 6, 0, 1, false, 0xffff#64, 0x0#64, 0x0#64, 0x0#64, 0x0#64, 0x0#64⟩
  | .GPIO_EVT => ⟨.gpio, 0x60, 4, 6, 0, 1, false, 0xffff#64, 0x0#64, 0xffff#64, 0x0#64, 0x0#64, 0x0#64⟩
  | .GPIO_FUNC => ⟨.gpio, 0x80, 4, 12, 0, 1, false, 0xffffffff#64, 0xffffffff#64, 0x0#64, 0x0#64, 0x0#64, 0xffffffff#64⟩
  | .GPIO_PAD => ⟨.gpio, 0xc0, 4, 12, 0, 1, false, 0xffffffff#64, 0xffffffff#64, 0x0#64, 0x11111111#64, 0x0#64, 0xffffffff#64⟩
  | .GPIO_EDGE => ⟨.gpio, 0x100, 4, 6, 0, 1, false, 0xffffffff#64, 0xffffffff#64, 0x0#64, 0x0#64, 0x0#64, 0xffffffff#64⟩
  | .GPIO_U_CFG => ⟨.gpioU, 0x0, 0, 1, 0, 1, false, 0xc0ffffff#64, 0xc0ffffff#64, 0x0#64, 0x0#64, 0x0#64, 0xc0ffffff#64⟩
  | .GPIO_U_STAT => ⟨.gpioU, 0x4, 0, 1, 0, 1, false, 0x30f1f1f#64, 0x0#64, 0x20f0000#64, 0x0#64, 0x0#64, 0x0#64⟩
  | .GPIO_U_TX => ⟨.gpioU, 0x8, 0, 1, 0, 1, false, 0x0#64, 0x0#64, 0x0#64, 0x0#64, 0x0#64, 0x0#64⟩
  | .GPIO_U_RX => ⟨.gpioU, 0xc, 0, 1, 0, 1, false, 0xffffffff#64, 0x0#64, 0x0#64, 0x0#64, 0x0#64, 0x0#64⟩
  | .DBG_STAT => ⟨.dbgG, 0x0, 0, 1, 0, 1, false, 0x7#64, 0x0#64, 0x0#64, 0x0#64, 0x2#64, 0x2#64⟩
  | .DBG_UNLOCK_CTL => ⟨.dbgG, 0x4, 0, 1, 0, 1, false, 0x0#64, 0x0#64, 0x0#64, 0x0#64, 0x0#64, 0x0#64⟩
  | .DBG_ACC_ADDR => ⟨.dbgG, 0x10, 0, 1, 0, 1, true, 0xffffffffffff#64, 0xffffffffffff#64, 0x0#64, 0x0#64, 0x0#64, 0x0#64⟩
  | .DBG_ACC_DATA => ⟨.dbgG, 0x18, 0, 1, 0, 1, false, 0xffffffff#64, 0xffffffff#64, 0x0#64, 0x0#64, 0x0#64, 0x0#64⟩
  | .DBG_ACC_CTL => ⟨.dbgG, 0x1c, 0, 1, 0, 1, false, 0x4#64, 0x4#64, 0x0#64, 0x0#64, 0x0#64, 0x0#64⟩
  | .DBG_ACC_STAT => ⟨.dbgG, 0x20, 0, 1, 0, 1, false, 0x3f#64, 0x0#64, 0x20#64, 0x0#64, 0x0#64, 0x0#64⟩
  | .PCIE_EP_CTL => ⟨.pcie, 0x0, 16384, 2, 0, 1, false, 0xff#64, 0xff#64, 0x0#64, 0x59#64, 0x0#64, 0xff#64⟩
  | .PCIE_EP_STAT => ⟨.pcie, 0x4, 16384, 2, 0, 1, false, 0x3ff#64, 0x0#64, 0x300#64, 0x0#64, 0x0#64, 0x0#64⟩
  | .PCIE_EP_CE_CNT => ⟨.pcie, 0x8, 16384, 2, 0, 1, false, 0xffffffff#64, 0x0#64, 0x0#64, 0x0#64, 0x0#64, 0xffffffff#64⟩
  | .PCIE_EP_UE_CNT => ⟨.pcie, 0xc, 16384, 2, 0, 1, false, 0xffffffff#64, 0x0#64, 0x0#64, 0x0#64, 0x0#64, 0xffffffff#64⟩
  | .PCIE_FN_CFG => ⟨.pcie, 0x8000, 256, 4, 0, 1, false, 0xfff#64, 0xfff#64, 0x0#64, 0xfff#64, 0x0#64, 0xfff#64⟩
  | .PCIE_FN_STAT => ⟨.pcie, 0x8004, 256, 4, 0, 1, false, 0x3f#64, 0x0#64, 0x20#64, 0x0#64, 0x0#64, 0x0#64⟩
  | .PCIE_FN_ID => ⟨.pcie, 0x8008, 256, 4, 0, 1, false, 0xffffffff#64, 0x0#64, 0x0#64, 0x0#64, 0x0#64, 0x0#64⟩
  | .PCIE_FN_BAD_CNT => ⟨.pcie, 0x800c, 256, 4, 0, 1, false, 0xffffffff#64, 0x0#64, 0x0#64, 0x0#64, 0x0#64, 0xffffffff#64⟩
  | .PCIE_FN_CTO_CNT => ⟨.pcie, 0x8010, 256, 4, 0, 1, false, 0xffffffff#64, 0x0#64, 0x0#64, 0x0#64, 0x0#64, 0xffffffff#64⟩
  | .PCIE_FN_POISON_CNT => ⟨.pcie, 0x8014, 256, 4, 0, 1, false, 0xffffffff#64, 0x0#64, 0x0#64, 0x0#64, 0x0#64, 0xffffffff#64⟩
  | .ETH_CTL => ⟨.eth, 0x0, 0, 1, 0, 1, false, 0x1fff#64, 0x1fff#64, 0x0#64, 0x1000#64, 0x0#64, 0x1fff#64⟩
  | .ETH_STAT => ⟨.eth, 0x4, 0, 1, 0, 1, false, 0xf0f#64, 0x0#64, 0x8#64, 0x0#64, 0x0#64, 0x0#64⟩
  | .ETH_MAC => ⟨.eth, 0x8, 0, 1, 0, 1, true, 0xffffffffffff#64, 0xffffffffffff#64, 0x0#64, 0x0#64, 0x0#64, 0xffffffffffff#64⟩
  | .ETH_MAX_FRAME => ⟨.eth, 0x10, 0, 1, 0, 1, false, 0x3fff#64, 0x3fff#64, 0x0#64, 0x2416#64, 0x0#64, 0x3fff#64⟩
  | .ETH_RX_CNT => ⟨.eth, 0x20, 0, 1, 0, 1, false, 0xffffffff#64, 0x0#64, 0x0#64, 0x0#64, 0x0#64, 0xffffffff#64⟩
  | .ETH_FCS_ERR => ⟨.eth, 0x24, 0, 1, 0, 1, false, 0xffffffff#64, 0x0#64, 0x0#64, 0x0#64, 0x0#64, 0xffffffff#64⟩
  | .ETH_RX_OTHER => ⟨.eth, 0x28, 0, 1, 0, 1, false, 0xffffffff#64, 0x0#64, 0x0#64, 0x0#64, 0x0#64, 0xffffffff#64⟩
  | .ETH_TX_CNT => ⟨.eth, 0x2c, 0, 1, 0, 1, false, 0xffffffff#64, 0x0#64, 0x0#64, 0x0#64, 0x0#64, 0xffffffff#64⟩
  | .ETH_FEC_CORR => ⟨.eth, 0x30, 0, 1, 0, 1, false, 0xffffffff#64, 0x0#64, 0x0#64, 0x0#64, 0x0#64, 0xffffffff#64⟩
  | .ETH_FEC_UNCORR => ⟨.eth, 0x34, 0, 1, 0, 1, false, 0xffffffff#64, 0x0#64, 0x0#64, 0x0#64, 0x0#64, 0xffffffff#64⟩
  | .ETH_SEC_CTL => ⟨.eth, 0x100, 0, 1, 0, 1, false, 0x3f#64, 0x3f#64, 0x0#64, 0x0#64, 0x0#64, 0x3f#64⟩
  | .ETH_SEC_STAT => ⟨.eth, 0x104, 0, 1, 0, 1, false, 0x7#64, 0x0#64, 0x5#64, 0x0#64, 0x0#64, 0x0#64⟩
  | .ETH_SEC_SCI => ⟨.eth, 0x108, 0, 1, 0, 1, true, 0xffffffffffffffff#64, 0xffffffffffffffff#64, 0x0#64, 0x0#64, 0x0#64, 0xffffffffffffffff#64⟩
  | .ETH_SEC_PEER_SCI => ⟨.eth, 0x110, 0, 1, 0, 1, true, 0xffffffffffffffff#64, 0xffffffffffffffff#64, 0x0#64, 0x0#64, 0x0#64, 0xffffffffffffffff#64⟩
  | .ETH_SEC_DROP => ⟨.eth, 0x118, 0, 1, 0, 1, false, 0xffffffff#64, 0x0#64, 0x0#64, 0x0#64, 0x0#64, 0xffffffff#64⟩
  | .ETH_SEC_SA_KEY_W => ⟨.eth, 0x200, 64, 4, 4, 8, false, 0x0#64, 0x0#64, 0x0#64, 0x0#64, 0x0#64, 0xffffffff#64⟩
  | .ETH_SEC_SA_SALT_W => ⟨.eth, 0x220, 64, 4, 4, 3, false, 0x0#64, 0x0#64, 0x0#64, 0x0#64, 0x0#64, 0xffffffff#64⟩
  | .ETH_SEC_SA_SSCI => ⟨.eth, 0x22c, 64, 4, 0, 1, false, 0xffffffff#64, 0xffffffff#64, 0x0#64, 0x0#64, 0x0#64, 0xffffffff#64⟩
  | .ETH_SEC_SA_TXPN => ⟨.eth, 0x230, 64, 4, 0, 1, true, 0xffffffffffffffff#64, 0xffffffffffffffff#64, 0x0#64, 0x0#64, 0x0#64, 0xffffffffffffffff#64⟩
  | .ETH_SEC_SA_RXPN => ⟨.eth, 0x238, 64, 4, 0, 1, true, 0xffffffffffffffff#64, 0xffffffffffffffff#64, 0x0#64, 0x0#64, 0x0#64, 0xffffffffffffffff#64⟩
  | .XCV_QUAD_CFG => ⟨.xcv, 0x0, 32, 5, 0, 1, false, 0xfffff07#64, 0xfffff07#64, 0x0#64, 0x0#64, 0x0#64, 0xfffff07#64⟩
  | .XCV_QUAD_REF => ⟨.xcv, 0x4, 32, 5, 0, 1, false, 0x7ffff#64, 0x7ffff#64, 0x0#64, 0x186a0#64, 0x0#64, 0x7ffff#64⟩
  | .XCV_QUAD_STAT => ⟨.xcv, 0x8, 32, 5, 0, 1, false, 0xffff000f#64, 0x0#64, 0x0#64, 0x80000000#64, 0x0#64, 0x0#64⟩
  | .XCV_LANE_CFG => ⟨.xcv, 0x400, 64, 20, 0, 1, false, 0x3ff#64, 0x3ff#64, 0x0#64, 0x0#64, 0x0#64, 0x3ff#64⟩
  | .XCV_LANE_CTL => ⟨.xcv, 0x404, 64, 20, 0, 1, false, 0x3f#64, 0x3f#64, 0x0#64, 0x3#64, 0x0#64, 0x3b#64⟩
  | .XCV_LANE_TXEQ => ⟨.xcv, 0x408, 64, 20, 0, 1, false, 0x3f3f3f3f#64, 0x3f3f3f3f#64, 0x0#64, 0x0#64, 0x0#64, 0x3f3f3f3f#64⟩
  | .XCV_LANE_STAT => ⟨.xcv, 0x40c, 64, 20, 0, 1, false, 0xff3f#64, 0x0#64, 0x28#64, 0x0#64, 0x0#64, 0x0#64⟩
  | .XCV_LANE_PRBS_ERR => ⟨.xcv, 0x410, 64, 20, 0, 1, false, 0xffffffff#64, 0x0#64, 0x0#64, 0x0#64, 0x0#64, 0x0#64⟩
  | .XCV_LANE_FAC => ⟨.xcv, 0x414, 64, 20, 0, 1, false, 0xffffffff#64, 0x0#64, 0x0#64, 0x0#64, 0x0#64, 0x0#64⟩
  | .ADM_CFG => ⟨.adm, 0x0, 0, 1, 0, 1, false, 0x801fff1f#64, 0x801fff1f#64, 0x0#64, 0x3c006#64, 0x0#64, 0x801fff1f#64⟩
  | .ADM_STAT => ⟨.adm, 0x4, 0, 1, 0, 1, false, 0xffff1fff#64, 0x0#64, 0x60000000#64, 0x0#64, 0x0#64, 0x1fff1fff#64⟩
  | .ADM_SLOT => ⟨.adm, 0x8, 0, 1, 0, 1, false, 0xffffffff#64, 0x0#64, 0x0#64, 0x0#64, 0x0#64, 0x0#64⟩
  | .ADM_STRAY => ⟨.adm, 0xc, 0, 1, 0, 1, false, 0xffffffff#64, 0x0#64, 0x0#64, 0x0#64, 0x0#64, 0xffffffff#64⟩
  | .ADM_DECL_W => ⟨.adm, 0x10, 4, 8, 0, 1, false, 0xffffffff#64, 0xffffffff#64, 0x0#64, 0x0#64, 0x0#64, 0x0#64⟩
  | .ADM_CMD => ⟨.adm, 0x30, 0, 1, 0, 1, false, 0x0#64, 0x0#64, 0x0#64, 0x0#64, 0x0#64, 0x0#64⟩
  | .ADM_CMD_STAT => ⟨.adm, 0x34, 0, 1, 0, 1, false, 0xff01#64, 0x0#64, 0x0#64, 0x0#64, 0x0#64, 0x0#64⟩
  | .ADM_CMD_W => ⟨.adm, 0x38, 0, 1, 0, 1, false, 0xffffffff#64, 0x0#64, 0x0#64, 0x0#64, 0x0#64, 0x0#64⟩
  | .ADM_CMD_GAP => ⟨.adm, 0x3c, 0, 1, 0, 1, false, 0x1fff1fff#64, 0x0#64, 0x0#64, 0x0#64, 0x0#64, 0x0#64⟩
  | .ADM_CMD_EFF => ⟨.adm, 0x40, 0, 1, 0, 1, true, 0xffffffffffffffff#64, 0x0#64, 0x0#64, 0x0#64, 0x0#64, 0x0#64⟩
  | .ADM_D_STAT => ⟨.adm, 0x10000, 16, 4096, 0, 1, false, 0xf3#64, 0x0#64, 0x0#64, 0x0#64, 0x0#64, 0xf3#64⟩
  | .ADM_D_W => ⟨.adm, 0x10004, 16, 4096, 0, 1, false, 0xffffffff#64, 0x0#64, 0x0#64, 0x0#64, 0x0#64, 0xffffffff#64⟩
  | .ADM_D_GAP => ⟨.adm, 0x10008, 16, 4096, 0, 1, false, 0xffffffff#64, 0x0#64, 0x0#64, 0x0#64, 0x0#64, 0xffffffff#64⟩
  | .ADM_D_LATE => ⟨.adm, 0x1000c, 16, 4096, 0, 1, false, 0xffffffff#64, 0x0#64, 0x0#64, 0x0#64, 0x0#64, 0xffffffff#64⟩
  | .RDO_CTL => ⟨.rdo, 0x0, 0, 1, 0, 1, false, 0x1#64, 0x1#64, 0x0#64, 0x0#64, 0x0#64, 0x1#64⟩
  | .RDO_STAT => ⟨.rdo, 0x4, 0, 1, 0, 1, false, 0x7f7fff#64, 0x0#64, 0x8#64, 0x0#64, 0x0#64, 0x0#64⟩
  | .RDO_CFG => ⟨.rdo, 0x8, 0, 1, 0, 1, false, 0xffff#64, 0xffff#64, 0x0#64, 0x643f#64, 0x0#64, 0xffff#64⟩
  | .RDO_EVNUM => ⟨.rdo, 0xc, 0, 1, 0, 1, true, 0xffffffffffffffff#64, 0xffffffffffffffff#64, 0x0#64, 0x0#64, 0x0#64, 0xffffffffffffffff#64⟩
  | .RDO_POLL => ⟨.rdo, 0x14, 0, 1, 0, 1, false, 0xff0fffff#64, 0xff0fffff#64, 0x0#64, 0x40000a10#64, 0x0#64, 0xff0fffff#64⟩
  | .RDO_ACC_RETRY => ⟨.rdo, 0x18, 0, 1, 0, 1, false, 0xffffffff#64, 0x0#64, 0x0#64, 0x0#64, 0x0#64, 0xffffffff#64⟩
  | .RDO_ACC_BAD => ⟨.rdo, 0x1c, 0, 1, 0, 1, false, 0xffffffff#64, 0x0#64, 0x0#64, 0x0#64, 0x0#64, 0xffffffff#64⟩
  | .RDO_EV_CNT => ⟨.rdo, 0x20, 0, 1, 0, 1, false, 0xffffffff#64, 0x0#64, 0x0#64, 0x0#64, 0x0#64, 0xffffffff#64⟩
  | .RDO_EV_PARTIAL => ⟨.rdo, 0x24, 0, 1, 0, 1, false, 0xffffffff#64, 0x0#64, 0x0#64, 0x0#64, 0x0#64, 0xffffffff#64⟩
  | .RDO_NUDGE_IGN => ⟨.rdo, 0x28, 0, 1, 0, 1, false, 0xffffffff#64, 0x0#64, 0x0#64, 0x0#64, 0x0#64, 0xffffffff#64⟩
  | .RDO_ACC_PORT => ⟨.rdo, 0x100, 4, 8, 0, 1, false, 0x0#64, 0x0#64, 0x0#64, 0x0#64, 0x0#64, 0x0#64⟩
  | .RDO_SSET_REF => ⟨.rdo, 0x200, 4, 64, 0, 1, false, 0x7ff#64, 0x0#64, 0x0#64, 0x0#64, 0x0#64, 0x7ff#64⟩
  | .RDO_SSET_W => ⟨.rdo, 0x10000, 1024, 64, 4, 256, false, 0xffffffff#64, 0xffffffff#64, 0x0#64, 0x0#64, 0x0#64, 0xffffffff#64⟩
  | .FARM_CFG => ⟨.rdo, 0x20000, 32, 64, 0, 1, false, 0xbfffffff#64, 0xbfffffff#64, 0x0#64, 0x5dc0000#64, 0x0#64, 0xbfffffff#64⟩
  | .FARM_MAC => ⟨.rdo, 0x20004, 32, 64, 0, 1, true, 0xffffffffffff#64, 0xffffffffffff#64, 0x0#64, 0x0#64, 0x0#64, 0xffffffffffff#64⟩
  | .FARM_LAST => ⟨.rdo, 0x2000c, 32, 64, 0, 1, true, 0xffffffffffffffff#64, 0x0#64, 0x0#64, 0x0#64, 0x0#64, 0xffffffffffffffff#64⟩
  | .FARM_SENT => ⟨.rdo, 0x20014, 32, 64, 0, 1, false, 0xffffffff#64, 0x0#64, 0x0#64, 0x0#64, 0x0#64, 0xffffffff#64⟩
  | .RDO_NUDGE => ⟨.rdo, 0x80000, 4, 4096, 0, 1, false, 0x0#64, 0x0#64, 0x0#64, 0x0#64, 0x0#64, 0x0#64⟩
  | .RDO_QP_SQ_BASE => ⟨.rdoQp, 0x0, 0, 1, 0, 1, true, 0xffffffffffffffff#64, 0xffffffffffffffff#64, 0x0#64, 0x0#64, 0x0#64, 0xffffffffffffffff#64⟩
  | .RDO_QP_CQ_BASE => ⟨.rdoQp, 0x8, 0, 1, 0, 1, true, 0xffffffffffffffff#64, 0xffffffffffffffff#64, 0x0#64, 0x0#64, 0x0#64, 0xffffffffffffffff#64⟩
  | .RDO_QP_DB => ⟨.rdoQp, 0x10, 0, 1, 0, 1, true, 0xffffffffffffffff#64, 0xffffffffffffffff#64, 0x0#64, 0x0#64, 0x0#64, 0xffffffffffffffff#64⟩
  | .RDO_QP_CFG => ⟨.rdoQp, 0x18, 0, 1, 0, 1, false, 0x3fffff#64, 0x3fffff#64, 0x0#64, 0x0#64, 0x0#64, 0x3fffff#64⟩
  | .RDO_QP_CTL => ⟨.rdoQp, 0x1c, 0, 1, 0, 1, false, 0x1#64, 0x1#64, 0x0#64, 0x0#64, 0x0#64, 0x1#64⟩
  | .RDO_QP_STAT => ⟨.rdoQp, 0x20, 0, 1, 0, 1, false, 0xff#64, 0x0#64, 0x8#64, 0x0#64, 0x0#64, 0xf7#64⟩
  | .RDO_QP_SQ_HEAD => ⟨.rdoQp, 0x24, 0, 1, 0, 1, false, 0xffff#64, 0x0#64, 0x0#64, 0x0#64, 0x0#64, 0xffff#64⟩
  | .RDO_QP_CQ_TAIL => ⟨.rdoQp, 0x28, 0, 1, 0, 1, false, 0xffff#64, 0x0#64, 0x0#64, 0x0#64, 0x0#64, 0xffff#64⟩
  | .RDO_QP_JSEQ => ⟨.rdoQp, 0x2c, 0, 1, 0, 1, false, 0xffffffff#64, 0x0#64, 0x0#64, 0x0#64, 0x0#64, 0xffffffff#64⟩
  | .RDO_QP_DSEQ => ⟨.rdoQp, 0x30, 0, 1, 0, 1, false, 0xffffffff#64, 0x0#64, 0x0#64, 0x0#64, 0x0#64, 0xffffffff#64⟩
  | .RDO_QP_ERR_SEQ => ⟨.rdoQp, 0x34, 0, 1, 0, 1, false, 0xffffffff#64, 0x0#64, 0x0#64, 0x0#64, 0x0#64, 0xffffffff#64⟩
  | .EVC_CTL => ⟨.evc, 0x0, 0, 1, 0, 1, false, 0x1#64, 0x1#64, 0x0#64, 0x0#64, 0x0#64, 0x0#64⟩
  | .EVC_STAT => ⟨.evc, 0x4, 0, 1, 0, 1, false, 0x7#64, 0x0#64, 0x3#64, 0x0#64, 0x0#64, 0x0#64⟩
  | .EVC_FB_TMO => ⟨.evc, 0x8, 0, 1, 0, 1, false, 0xffff#64, 0xffff#64, 0x0#64, 0xa#64, 0x0#64, 0xffff#64⟩
  | .EVC_SWRAISE => ⟨.evc, 0xc, 0, 1, 0, 1, false, 0x0#64, 0x0#64, 0x0#64, 0x0#64, 0x0#64, 0x0#64⟩
  | .EVC_PEND => ⟨.evc, 0x100, 4, 16, 0, 1, false, 0xffffffff#64, 0xffffffff#64, 0x0#64, 0x0#64, 0x0#64, 0x0#64⟩
  | .EVC_MASK => ⟨.evc, 0x180, 4, 16, 0, 1, false, 0xffffffff#64, 0xffffffff#64, 0x0#64, 0xffffffff#64, 0x0#64, 0xffffffff#64⟩
  | .EVC_CLASS => ⟨.evc, 0x200, 4, 16, 0, 1, false, 0xffffffff#64, 0xffffffff#64, 0x0#64, 0x0#64, 0x0#64, 0xffffffff#64⟩
  | .EVC_SGRP => ⟨.evc, 0x400, 4, 128, 0, 1, false, 0x3f3f3f3f#64, 0x3f3f3f3f#64, 0x0#64, 0x0#64, 0x0#64, 0x3f3f3f3f#64⟩
  | .EVC_GRP_ROUTE => ⟨.evc, 0x800, 16, 64, 0, 1, false, 0x7ffff#64, 0x7ffff#64, 0x0#64, 0x60008#64, 0x0#64, 0x7ffff#64⟩
  | .EVC_GRP_COAL => ⟨.evc, 0x804, 16, 64, 0, 1, false, 0x1fff#64, 0x1fff#64, 0x0#64, 0x1#64, 0x0#64, 0x1fff#64⟩
  | .EVC_GRP_TIME => ⟨.evc, 0x808, 16, 64, 0, 1, false, 0x1ffffff#64, 0x1ffffff#64, 0x0#64, 0x1000000#64, 0x0#64, 0x1ffffff#64⟩
  | .EVC_GRP_STAT => ⟨.evc, 0x80c, 16, 64, 0, 1, false, 0xf1fff#64, 0x0#64, 0x0#64, 0x0#64, 0x0#64, 0x0#64⟩
  | .EVC_ACK_0 => ⟨.evc, 0x1000, 32, 9, 0, 1, false, 0xffffffff#64, 0x0#64, 0x0#64, 0x7ff#64, 0x0#64, 0x0#64⟩
  | .EVC_ACK_1 => ⟨.evc, 0x1004, 32, 9, 0, 1, false, 0xffffffff#64, 0x0#64, 0x0#64, 0x7ff#64, 0x0#64, 0x0#64⟩
  | .EVC_EOI => ⟨.evc, 0x1008, 32, 9, 0, 1, false, 0x0#64, 0x0#64, 0x0#64, 0x0#64, 0x0#64, 0x0#64⟩
  | .EVC_TGT_CTL => ⟨.evc, 0x100c, 32, 9, 0, 1, false, 0x1#64, 0x1#64, 0x0#64, 0x1#64, 0x0#64, 0x1#64⟩
  | .EVC_TGT_STAT => ⟨.evc, 0x1010, 32, 9, 0, 1, false, 0x1ff#64, 0x0#64, 0x0#64, 0x0#64, 0x0#64, 0x0#64⟩
  | .TSK_CTL => ⟨.tsk, 0x0, 0, 1, 0, 1, false, 0x1f01#64, 0x1f01#64, 0x0#64, 0x600#64, 0x0#64, 0x1f01#64⟩
  | .TSK_STAT => ⟨.tsk, 0x4, 0, 1, 0, 1, false, 0x7fff000f#64, 0x0#64, 0xc#64, 0x0#64, 0x0#64, 0x0#64⟩
  | .TSK_DLY_STAT => ⟨.tsk, 0x8, 0, 1, 0, 1, false, 0x1fff#64, 0x0#64, 0x0#64, 0x0#64, 0x0#64, 0x0#64⟩
  | .TSK_RST_LOST => ⟨.tsk, 0xc, 0, 1, 0, 1, false, 0x7fff#64, 0x0#64, 0x0#64, 0x0#64, 0x0#64, 0x7fff#64⟩
  | .TSK_CMD_W => ⟨.tsk, 0x10, 4, 8, 0, 1, false, 0x0#64, 0x0#64, 0x0#64, 0x0#64, 0x0#64, 0x0#64⟩
  | .TSK_CMD_STAT => ⟨.tsk, 0x30, 0, 1, 0, 1, false, 0x3fff000f#64, 0x0#64, 0x0#64, 0x0#64, 0x0#64, 0x0#64⟩
  | .TSK_CMD_PORT => ⟨.tsk, 0x40, 4, 8, 0, 1, false, 0x0#64, 0x0#64, 0x0#64, 0x0#64, 0x0#64, 0x0#64⟩
  | .TSK_CPL_FIFO_W0 => ⟨.tsk, 0x60, 0, 1, 0, 1, false, 0xffffffff#64, 0x0#64, 0x0#64, 0x0#64, 0x0#64, 0x0#64⟩
  | .TSK_CPL_FIFO_W123 => ⟨.tsk, 0x64, 4, 3, 0, 1, false, 0xffffffff#64, 0x0#64, 0x0#64, 0x0#64, 0x0#64, 0x0#64⟩
  | .TSK_CPL_STAT => ⟨.tsk, 0x70, 0, 1, 0, 1, false, 0x7ff07ff#64, 0x7ff0000#64, 0x0#64, 0x10000#64, 0x0#64, 0x7ff0000#64⟩
  | .TSK_POST_CNT => ⟨.tsk, 0x80, 0, 1, 0, 1, false, 0xffffffff#64, 0x0#64, 0x0#64, 0x0#64, 0x0#64, 0xffffffff#64⟩
  | .TSK_DISP_CNT => ⟨.tsk, 0x84, 0, 1, 0, 1, false, 0xffffffff#64, 0x0#64, 0x0#64, 0x0#64, 0x0#64, 0xffffffff#64⟩
  | .TSK_CANCEL_CNT => ⟨.tsk, 0x88, 0, 1, 0, 1, false, 0xffffffff#64, 0x0#64, 0x0#64, 0x0#64, 0x0#64, 0xffffffff#64⟩
  | .TSK_REFUSE_CNT => ⟨.tsk, 0x8c, 0, 1, 0, 1, false, 0xffffffff#64, 0x0#64, 0x0#64, 0x0#64, 0x0#64, 0xffffffff#64⟩
  | .TSK_FAULT_CNT => ⟨.tsk, 0x90, 0, 1, 0, 1, false, 0xffffffff#64, 0x0#64, 0x0#64, 0x0#64, 0x0#64, 0xffffffff#64⟩
  | .TSK_DLY_PAST => ⟨.tsk, 0x94, 0, 1, 0, 1, false, 0xffffffff#64, 0x0#64, 0x0#64, 0x0#64, 0x0#64, 0xffffffff#64⟩
  | .TSK_LDG_DONE => ⟨.tsk, 0x98, 0, 1, 0, 1, false, 0x0#64, 0x0#64, 0x0#64, 0x0#64, 0x0#64, 0x0#64⟩
  | .TSK_FLOW_CMD => ⟨.tsk, 0xa0, 0, 1, 0, 1, false, 0x0#64, 0x0#64, 0x0#64, 0x0#64, 0x0#64, 0x0#64⟩
  | .TSK_FLOW_CMD_STAT => ⟨.tsk, 0xa4, 0, 1, 0, 1, false, 0x1#64, 0x0#64, 0x0#64, 0x0#64, 0x0#64, 0x0#64⟩
  | .TSK_TGT_CFG => ⟨.tsk, 0x100, 16, 9, 0, 1, false, 0x8003ffff#64, 0x8003ffff#64, 0x0#64, 0x0#64, 0x0#64, 0x8003ffff#64⟩
  | .TSK_TGT_STAT => ⟨.tsk, 0x104, 16, 9, 0, 1, false, 0x80ffffff#64, 0x0#64, 0x0#64, 0x0#64, 0x0#64, 0x0#64⟩
  | .TSK_FLOW => ⟨.tsk, 0x1000, 4, 1024, 0, 1, false, 0x3ffffff#64, 0x3ffffff#64, 0x0#64, 0x0#64, 0x0#64, 0x3ffffff#64⟩
  | .TSK_FSTAT => ⟨.tsk, 0x2000, 4, 1024, 0, 1, false, 0x3ffff#64, 0x0#64, 0x0#64, 0x0#64, 0x0#64, 0x0#64⟩
  | .SPR_CTL => ⟨.spr, 0x0, 0, 1, 0, 1, false, 0x1#64, 0x1#64, 0x0#64, 0x0#64, 0x0#64, 0x0#64⟩
  | .SPR_STAT => ⟨.spr, 0x4, 0, 1, 0, 1, false, 0x7f77#64, 0x0#64, 0x7000#64, 0x0#64, 0x0#64, 0x0#64⟩
  | .SPR_START => ⟨.spr, 0x8, 0, 1, 0, 1, false, 0x0#64, 0x0#64, 0x0#64, 0x0#64, 0x0#64, 0x0#64⟩
  | .SPR_START_ARG => ⟨.spr, 0xc, 0, 1, 0, 1, false, 0xffffffff#64, 0xffffffff#64, 0x0#64, 0x0#64, 0x0#64, 0x0#64⟩
  | .SPR_IMG_BASE => ⟨.spr, 0x10, 0, 1, 0, 1, false, 0x1fffffff#64, 0x1fffffff#64, 0x0#64, 0x0#64, 0x0#64, 0x0#64⟩
  | .SPR_IMG_LEN => ⟨.spr, 0x14, 0, 1, 0, 1, false, 0x7ff#64, 0x7ff#64, 0x0#64, 0x0#64, 0x0#64, 0x0#64⟩
  | .SPR_VEC => ⟨.spr, 0x18, 0, 1, 0, 1, false, 0x1fff1fff#64, 0x1fff1fff#64, 0x0#64, 0x0#64, 0x0#64, 0x0#64⟩
  | .SPR_FAULT0 => ⟨.spr, 0x20, 0, 1, 0, 1, false, 0x1fff000f#64, 0x0#64, 0x0#64, 0x0#64, 0x0#64, 0x0#64⟩
  | .SPR_FAULT1 => ⟨.spr, 0x24, 0, 1, 0, 1, false, 0x1fff000f#64, 0x0#64, 0x0#64, 0x0#64, 0x0#64, 0x0#64⟩
  | .SPR_PC0 => ⟨.spr, 0x28, 0, 1, 0, 1, false, 0x1fff#64, 0x0#64, 0x0#64, 0x0#64, 0x0#64, 0x0#64⟩
  | .SPR_PC1 => ⟨.spr, 0x2c, 0, 1, 0, 1, false, 0x1fff#64, 0x0#64, 0x0#64, 0x0#64, 0x0#64, 0x0#64⟩
  | .SPR_PERR_CNT => ⟨.spr, 0x30, 0, 1, 0, 1, false, 0xffffffff#64, 0x0#64, 0x0#64, 0x0#64, 0x0#64, 0x0#64⟩
  | .SPR_IREFETCH_CNT => ⟨.spr, 0x34, 0, 1, 0, 1, false, 0xffffffff#64, 0x0#64, 0x0#64, 0x0#64, 0x0#64, 0x0#64⟩
  | .SPR_ISSUE0_CNT => ⟨.spr, 0x38, 0, 1, 0, 1, false, 0xffffffff#64, 0x0#64, 0x0#64, 0x0#64, 0x0#64, 0x0#64⟩
  | .SPR_ISSUE1_CNT => ⟨.spr, 0x3c, 0, 1, 0, 1, false, 0xffffffff#64, 0x0#64, 0x0#64, 0x0#64, 0x0#64, 0x0#64⟩
  | .SPR_STALL_CNT => ⟨.spr, 0x40, 0, 1, 0, 1, false, 0xffffffff#64, 0x0#64, 0x0#64, 0x0#64, 0x0#64, 0x0#64⟩
  | .SPR_DMA_LADDR => ⟨.spr, 0x100, 32, 4, 0, 1, false, 0x3ffff#64, 0x3ffff#64, 0x0#64, 0x0#64, 0x0#64, 0x0#64⟩
  | .SPR_DMA_PADDR_LO => ⟨.spr, 0x104, 32, 4, 0, 1, false, 0xffffffff#64, 0xffffffff#64, 0x0#64, 0x0#64, 0x0#64, 0x0#64⟩
  | .SPR_DMA_PADDR_HI => ⟨.spr, 0x108, 32, 4, 0, 1, false, 0xffff#64, 0xffff#64, 0x0#64, 0x0#64, 0x0#64, 0x0#64⟩
  | .SPR_DMA_LEN => ⟨.spr, 0x10c, 32, 4, 0, 1, false, 0x7ffff#64, 0x7ffff#64, 0x0#64, 0x0#64, 0x0#64, 0x0#64⟩
  | .SPR_DMA_CTL => ⟨.spr, 0x110, 32, 4, 0, 1, false, 0xfffe#64, 0xfffe#64, 0x0#64, 0x0#64, 0x0#64, 0x0#64⟩
  | .SPR_DMA_STAT => ⟨.spr, 0x114, 32, 4, 0, 1, false, 0xf3#64, 0x0#64, 0x2#64, 0x0#64, 0x0#64, 0x0#64⟩
  | .SPR_FEED_CFG => ⟨.spr, 0x200, 32, 4, 0, 1, false, 0x7fffff7#64, 0xffff7#64, 0x0#64, 0x0#64, 0x0#64, 0x0#64⟩
  | .SPR_FEED_SBASE => ⟨.spr, 0x204, 32, 4, 0, 1, false, 0x3ffff#64, 0x3ffff#64, 0x0#64, 0x0#64, 0x0#64, 0x0#64⟩
  | .SPR_FEED_SLEN => ⟨.spr, 0x208, 32, 4, 0, 1, false, 0x3ffff#64, 0x3ffff#64, 0x0#64, 0x0#64, 0x0#64, 0x0#64⟩
  | .SPR_FEED_RIDX => ⟨.spr, 0x20c, 32, 4, 0, 1, false, 0x3ffff#64, 0x3ffff#64, 0x0#64, 0x0#64, 0x0#64, 0x0#64⟩
  | .SPR_FEED_WIDX => ⟨.spr, 0x210, 32, 4, 0, 1, false, 0x3ffff#64, 0x0#64, 0x0#64, 0x0#64, 0x0#64, 0x0#64⟩
  | .SPR_FEED_PBASE => ⟨.spr, 0x214, 32, 4, 0, 1, false, 0x3ffff#64, 0x3ffff#64, 0x0#64, 0x0#64, 0x0#64, 0x0#64⟩
  | .SPR_FEED_PLEN => ⟨.spr, 0x218, 32, 4, 0, 1, false, 0x3ffff#64, 0x3ffff#64, 0x0#64, 0x0#64, 0x0#64, 0x0#64⟩
  | .SPR_FEED_PWIDX => ⟨.spr, 0x21c, 32, 4, 0, 1, false, 0x3ffff#64, 0x0#64, 0x0#64, 0x0#64, 0x0#64, 0x0#64⟩
  | .SPR_FEED_DROP => ⟨.spr, 0x300, 4, 4, 0, 1, false, 0xffffffff#64, 0x0#64, 0x0#64, 0x0#64, 0x0#64, 0x0#64⟩
  | .GATE_CTL => ⟨.gate, 0x0, 0, 1, 0, 1, false, 0x1#64, 0x1#64, 0x0#64, 0x0#64, 0x0#64, 0x1#64⟩
  | .GATE_STAT => ⟨.gate, 0x4, 0, 1, 0, 1, false, 0xfff0007#64, 0x0#64, 0x4#64, 0x0#64, 0x0#64, 0x0#64⟩
  | .GATE_COMMIT_TMO => ⟨.gate, 0x8, 0, 1, 0, 1, false, 0xffff#64, 0xffff#64, 0x0#64, 0x28#64, 0x0#64, 0xffff#64⟩
  | .GATE_STRM_CMD => ⟨.gate, 0x10, 0, 1, 0, 1, false, 0x0#64, 0x0#64, 0x0#64, 0x0#64, 0x0#64, 0x0#64⟩
  | .GATE_STRM_CMD_STAT => ⟨.gate, 0x14, 0, 1, 0, 1, false, 0xf01#64, 0x0#64, 0x0#64, 0x0#64, 0x0#64, 0x0#64⟩
  | .GATE_SENT_W => ⟨.gate, 0x1000, 32, 256, 4, 8, false, 0xffffffff#64, 0xffffffff#64, 0x0#64, 0x0#64, 0x0#64, 0xffffffff#64⟩
  | .GATE_SST => ⟨.gate, 0x3000, 32, 256, 0, 1, false, 0xff#64, 0x0#64, 0x0#64, 0x0#64, 0x0#64, 0xff#64⟩
  | .GATE_SSEQ => ⟨.gate, 0x3004, 32, 256, 0, 1, false, 0xffffffff#64, 0x0#64, 0x0#64, 0x0#64, 0x0#64, 0xffffffff#64⟩
  | .GATE_SREFUSED => ⟨.gate, 0x3008, 32, 256, 0, 1, false, 0xffffffff#64, 0x0#64, 0x0#64, 0x0#64, 0x0#64, 0xffffffff#64⟩
  | .GATE_SLATE => ⟨.gate, 0x300c, 32, 256, 0, 1, false, 0xffffffff#64, 0x0#64, 0x0#64, 0x0#64, 0x0#64, 0xffffffff#64⟩
  | .GATE_SCRCERR => ⟨.gate, 0x3010, 32, 256, 0, 1, false, 0xffffffff#64, 0x0#64, 0x0#64, 0x0#64, 0x0#64, 0xffffffff#64⟩
  | .GATE_SRMIN => ⟨.gate, 0x3014, 32, 256, 0, 1, false, 0xffffffff#64, 0x0#64, 0x0#64, 0x0#64, 0x0#64, 0x0#64⟩
  | .GATE_SSLACK => ⟨.gate, 0x3018, 32, 256, 0, 1, false, 0xffffffff#64, 0x0#64, 0x0#64, 0xffffffff#64, 0x0#64, 0x0#64⟩
  | .GATE_SSAT => ⟨.gate, 0x301c, 32, 256, 0, 1, false, 0xffffffff#64, 0x0#64, 0x0#64, 0x0#64, 0x0#64, 0xffffffff#64⟩
  | .DOME_CTL => ⟨.dome, 0x0, 0, 1, 0, 1, false, 0x7#64, 0x7#64, 0x0#64, 0x6#64, 0x0#64, 0x6#64⟩
  | .DOME_STAT => ⟨.dome, 0x4, 0, 1, 0, 1, false, 0xf1f#64, 0x0#64, 0x10#64, 0x0#64, 0x0#64, 0xf#64⟩
  | .DOME_CHAN_STAT => ⟨.dome, 0x8, 0, 1, 0, 1, false, 0xff#64, 0x0#64, 0x0#64, 0x0#64, 0x0#64, 0xff#64⟩
  | .DOME_SCHED => ⟨.dome, 0x10, 0, 1, 0, 1, false, 0xffff3f7f#64, 0xffff3f7f#64, 0x0#64, 0x40141030#64, 0x0#64, 0xffff3f7f#64⟩
  | .DOME_PORT_CFG => ⟨.dome, 0x14, 0, 1, 0, 1, false, 0x7f#64, 0x7f#64, 0x0#64, 0x8#64, 0x0#64, 0x7f#64⟩
  | .DOME_ACT_THR => ⟨.dome, 0x18, 0, 1, 0, 1, false, 0x3fff#64, 0x3fff#64, 0x0#64, 0x800#64, 0x0#64, 0x3fff#64⟩
  | .DOME_REF_CFG => ⟨.dome, 0x1c, 0, 1, 0, 1, false, 0xf#64, 0xf#64, 0x0#64, 0x8#64, 0x0#64, 0xf#64⟩
  | .DOME_RT_CFG => ⟨.dome, 0x20, 0, 1, 0, 1, false, 0xfff1fff#64, 0xfff1fff#64, 0x0#64, 0x1864#64, 0x0#64, 0xfff1fff#64⟩
  | .DOME_RT_WC => ⟨.dome, 0x24, 0, 1, 0, 1, false, 0xffff#64, 0x0#64, 0x0#64, 0x104#64, 0x0#64, 0x0#64⟩
  | .DOME_TEMP => ⟨.dome, 0x28, 0, 1, 0, 1, false, 0x1ff#64, 0x0#64, 0x0#64, 0x0#64, 0x0#64, 0x0#64⟩
  | .DOME_RSV_BASE => ⟨.dome, 0x2c, 0, 1, 0, 1, false, 0x1ffffff#64, 0x0#64, 0x0#64, 0x1f3fc00#64, 0x0#64, 0x1ffffff#64⟩
  | .DOME_RSV_SIZE => ⟨.dome, 0x30, 0, 1, 0, 1, false, 0x1ffffff#64, 0x0#64, 0x0#64, 0xc0400#64, 0x0#64, 0x1ffffff#64⟩
  | .DOME_ECC_STAT => ⟨.dome, 0x34, 0, 1, 0, 1, false, 0x3#64, 0x0#64, 0x3#64, 0x0#64, 0x0#64, 0x0#64⟩
  | .DOME_CE_CNT => ⟨.dome, 0x38, 0, 1, 0, 1, false, 0xffffffff#64, 0x0#64, 0x0#64, 0x0#64, 0x0#64, 0xffffffff#64⟩
  | .DOME_UE_CNT => ⟨.dome, 0x3c, 0, 1, 0, 1, false, 0xffffffff#64, 0x0#64, 0x0#64, 0x0#64, 0x0#64, 0xffffffff#64⟩
  | .DOME_POISON_CNT => ⟨.dome, 0x40, 0, 1, 0, 1, false, 0xffffffff#64, 0x0#64, 0x0#64, 0x0#64, 0x0#64, 0xffffffff#64⟩
  | .DOME_ERR_ADDR => ⟨.dome, 0x44, 0, 1, 0, 1, true, 0xffffffffffffffff#64, 0x0#64, 0x0#64, 0x0#64, 0x0#64, 0xffffffffffffffff#64⟩
  | .DOME_PATROL_CFG => ⟨.dome, 0x4c, 0, 1, 0, 1, false, 0xff#64, 0xff#64, 0x0#64, 0x18#64, 0x0#64, 0xff#64⟩
  | .DOME_NRF_CNT => ⟨.dome, 0x50, 0, 1, 0, 1, false, 0xffffffff#64, 0x0#64, 0x0#64, 0x0#64, 0x0#64, 0xffffffff#64⟩
  | .DOME_COMMIT_CNT => ⟨.dome, 0x54, 0, 1, 0, 1, false, 0xffffffff#64, 0x0#64, 0x0#64, 0x0#64, 0x0#64, 0xffffffff#64⟩
  | .DOME_REFUSE_CNT => ⟨.dome, 0x58, 0, 1, 0, 1, false, 0xffffffff#64, 0x0#64, 0x0#64, 0x0#64, 0x0#64, 0xffffffff#64⟩
  | .DOME_RING_CFG => ⟨.dome, 0x4000, 32, 512, 0, 1, false, 0x81ffffff#64, 0x81ffffff#64, 0x0#64, 0x0#64, 0x0#64, 0x81ffffff#64⟩
  | .DOME_RING_IDX_BASE => ⟨.dome, 0x4004, 32, 512, 0, 1, false, 0x1fffffff#64, 0x1fffffff#64, 0x0#64, 0x0#64, 0x0#64, 0x1fffffff#64⟩
  | .DOME_RING_DATA_BASE => ⟨.dome, 0x4008, 32, 512, 0, 1, false, 0x1fffffff#64, 0x1fffffff#64, 0x0#64, 0x0#64, 0x0#64, 0x1fffffff#64⟩
  | .DOME_RING_DATA_LINES => ⟨.dome, 0x400c, 32, 512, 0, 1, false, 0x1ffffff#64, 0x1ffffff#64, 0x0#64, 0x0#64, 0x0#64, 0x1ffffff#64⟩
  | .DOME_RING_HOLD => ⟨.dome, 0x4010, 32, 512, 0, 1, true, 0xffffffffffff#64, 0xffffffffffff#64, 0x0#64, 0x0#64, 0x0#64, 0xffffffffffff#64⟩
  | .DOME_RING_WR_PTR => ⟨.dome, 0x4018, 32, 512, 0, 1, false, 0x1ffffff#64, 0x0#64, 0x0#64, 0x0#64, 0x0#64, 0x1ffffff#64⟩
  | .DOME_RING_STAT => ⟨.dome, 0x401c, 32, 512, 0, 1, false, 0xfff#64, 0x0#64, 0xc#64, 0x0#64, 0x0#64, 0x0#64⟩
  | .PRM_STAT => ⟨.prm, 0x0, 0, 1, 0, 1, false, 0xf#64, 0x0#64, 0xc#64, 0x0#64, 0x0#64, 0x0#64⟩
  | .PRM_FENCE_CTL => ⟨.prm, 0x4, 0, 1, 0, 1, false, 0x3#64, 0x3#64, 0x0#64, 0x0#64, 0x0#64, 0x0#64⟩
  | .PRM_FENCE_TMO => ⟨.prm, 0x8, 0, 1, 0, 1, false, 0xffff#64, 0xffff#64, 0x0#64, 0x3e8#64, 0x0#64, 0xffff#64⟩
  | .PRM_REQ_TMO => ⟨.prm, 0xc, 0, 1, 0, 1, false, 0xffff#64, 0xffff#64, 0x0#64, 0x64#64, 0x0#64, 0xffff#64⟩
  | .PRM_MGMT => ⟨.prm, 0x10, 0, 1, 0, 1, false, 0x7f#64, 0x7f#64, 0x0#64, 0xa#64, 0x0#64, 0x7f#64⟩
  | .PRM_FENCE_PORT => ⟨.prm, 0x20, 4, 4, 0, 1, false, 0xffffffff#64, 0xffffffff#64, 0x0#64, 0x0#64, 0x0#64, 0xffffffff#64⟩
  | .PRM_ISO => ⟨.prm, 0x30, 0, 1, 0, 1, true, 0xfffffffffff#64, 0xfffffffffff#64, 0x0#64, 0x0#64, 0x0#64, 0xfffffffffff#64⟩
  | .PRM_LINK_STAT => ⟨.prm, 0x100, 4, 4, 0, 1, false, 0xf#64, 0x0#64, 0x0#64, 0x6#64, 0x0#64, 0x0#64⟩
  | .PRM_ERR_RSP_CNT => ⟨.prm, 0x200, 0, 1, 0, 1, false, 0xffffffff#64, 0x0#64, 0x0#64, 0x0#64, 0x0#64, 0xffffffff#64⟩
  | .PRM_ABSORB_CNT => ⟨.prm, 0x204, 0, 1, 0, 1, false, 0xffffffff#64, 0x0#64, 0x0#64, 0x0#64, 0x0#64, 0xffffffff#64⟩
  | .PRM_TMO_CNT => ⟨.prm, 0x208, 0, 1, 0, 1, false, 0xffffffff#64, 0x0#64, 0x0#64, 0x0#64, 0x0#64, 0xffffffff#64⟩
  | .PRM_LATE_RSP_CNT => ⟨.prm, 0x20c, 0, 1, 0, 1, false, 0xffffffff#64, 0x0#64, 0x0#64, 0x0#64, 0x0#64, 0xffffffff#64⟩
  | .PRM_REROUTE_CNT => ⟨.prm, 0x210, 0, 1, 0, 1, false, 0xffffffff#64, 0x0#64, 0x0#64, 0x0#64, 0x0#64, 0xffffffff#64⟩
  | .PRM_RT_MISS_CNT => ⟨.prm, 0x214, 0, 1, 0, 1, false, 0xffffffff#64, 0x0#64, 0x0#64, 0x0#64, 0x0#64, 0xffffffff#64⟩
  | .PRM_BAD_CNT => ⟨.prm, 0x218, 0, 1, 0, 1, false, 0xffffffff#64, 0x0#64, 0x0#64, 0x0#64, 0x0#64, 0xffffffff#64⟩
  | .CFG_PLL_CFG => ⟨.cfgP, 0x4000, 16, 4, 0, 1, false, 0x3fff#64, 0x3fff#64, 0x0#64, 0x0#64, 0x0#64, 0x3fff#64⟩
  | .CFG_PLL_DIV => ⟨.cfgP, 0x4004, 16, 4, 0, 1, false, 0xffffffff#64, 0xffffffff#64, 0x0#64, 0x0#64, 0x0#64, 0xffffffff#64⟩
  | .CFG_PLL_CTL => ⟨.cfgP, 0x4008, 16, 4, 0, 1, false, 0x0#64, 0x0#64, 0x0#64, 0x0#64, 0x0#64, 0x0#64⟩
  | .CFG_PLL_STAT => ⟨.cfgP, 0x400c, 16, 4, 0, 1, false, 0x1f#64, 0x0#64, 0x18#64, 0x0#64, 0x0#64, 0x0#64⟩
  | .CFG_GCLK => ⟨.cfgP, 0x4100, 4, 32, 0, 1, false, 0x3f#64, 0x3f#64, 0x0#64, 0x0#64, 0x0#64, 0x3f#64⟩
  | .CFG_RST => ⟨.cfgP, 0x4180, 4, 8, 0, 1, false, 0x71f#64, 0x71f#64, 0x0#64, 0x100#64, 0x0#64, 0x71f#64⟩
  | .CFG_FEVT => ⟨.cfgP, 0x41a0, 0, 1, 0, 1, false, 0x1f#64, 0x1f#64, 0x0#64, 0x0#64, 0x0#64, 0x1f#64⟩
  | .CFG_FTIME => ⟨.cfgP, 0x41a4, 0, 1, 0, 1, false, 0x1f#64, 0x1f#64, 0x0#64, 0x0#64, 0x0#64, 0x1f#64⟩
  | .CFG_SPORT => ⟨.cfgP, 0x4200, 4, 16, 0, 1, false, 0x80007fff#64, 0x80003fff#64, 0x4000#64, 0x0#64, 0x0#64, 0x80003fff#64⟩
  | .CFG_XOUT => ⟨.cfgP, 0x5000, 256, 4, 4, 64, false, 0x8000001f#64, 0x8000001f#64, 0x0#64, 0x0#64, 0x0#64, 0x8000001f#64⟩
  | .CFG_XIN => ⟨.cfgP, 0x5400, 256, 4, 4, 64, false, 0x8000031f#64, 0x8000031f#64, 0x0#64, 0x0#64, 0x0#64, 0x8000031f#64⟩
  | .CFG_XSTAT => ⟨.cfgP, 0x5800, 256, 4, 4, 64, false, 0x3f#64, 0x0#64, 0x10#64, 0x0#64, 0x0#64, 0x0#64⟩
  | .CFG_FEP => ⟨.cfgP, 0x6000, 8, 64, 0, 1, false, 0x8000003f#64, 0x8000003f#64, 0x0#64, 0x0#64, 0x0#64, 0x8000003f#64⟩
  | .CFG_FEP_STAT => ⟨.cfgP, 0x6004, 8, 64, 0, 1, false, 0x3f#64, 0x0#64, 0x0#64, 0x0#64, 0x0#64, 0x0#64⟩
  | .CFG_STAT => ⟨.cfgP, 0x0, 0, 1, 0, 1, false, 0x1f#64, 0x0#64, 0x0#64, 0x0#64, 0x0#64, 0x10#64⟩
  | .CFG_VER_CTL => ⟨.cfgP, 0x100, 0, 1, 0, 1, false, 0xff01#64, 0xff01#64, 0x0#64, 0xa01#64, 0x0#64, 0xff01#64⟩
  | .CFG_VER_STAT => ⟨.cfgP, 0x104, 0, 1, 0, 1, false, 0x1f#64, 0x0#64, 0x1c#64, 0x0#64, 0x0#64, 0x0#64⟩
  | .CFG_VER_PASS_CNT => ⟨.cfgP, 0x108, 0, 1, 0, 1, false, 0xffffffff#64, 0x0#64, 0x0#64, 0x0#64, 0x0#64, 0xffffffff#64⟩
  | .CFG_VER_REPAIR_CNT => ⟨.cfgP, 0x10c, 0, 1, 0, 1, false, 0xffffffff#64, 0x0#64, 0x0#64, 0x0#64, 0x0#64, 0xffffffff#64⟩
  | .CFG_VER_STUCK_CNT => ⟨.cfgP, 0x110, 0, 1, 0, 1, false, 0xffffffff#64, 0x0#64, 0x0#64, 0x0#64, 0x0#64, 0xffffffff#64⟩
  | .CFG_VER_VOTE_CNT => ⟨.cfgP, 0x114, 0, 1, 0, 1, false, 0xffffffff#64, 0x0#64, 0x0#64, 0x0#64, 0x0#64, 0xffffffff#64⟩
  | .CFG_VER_TBL_ERR_CNT => ⟨.cfgP, 0x118, 0, 1, 0, 1, false, 0xffffffff#64, 0x0#64, 0x0#64, 0x0#64, 0x0#64, 0xffffffff#64⟩
  | .CFG_VER_LAST => ⟨.cfgP, 0x11c, 0, 1, 0, 1, false, 0x33fff#64, 0x0#64, 0x0#64, 0x0#64, 0x0#64, 0x33fff#64⟩
  | .CFG_PLOT_CTL => ⟨.cfgP, 0x200, 32, 4, 0, 1, false, 0x0#64, 0x0#64, 0x0#64, 0x0#64, 0x0#64, 0x0#64⟩
  | .CFG_PLOT_STAT => ⟨.cfgP, 0x204, 32, 4, 0, 1, false, 0xff1f#64, 0x0#64, 0x10#64, 0x8#64, 0x0#64, 0xff0e#64⟩
  | .CFG_PLOT_SRC => ⟨.cfgP, 0x208, 32, 4, 0, 1, false, 0x1fffffff#64, 0x1fffffff#64, 0x0#64, 0x0#64, 0x0#64, 0x1fffffff#64⟩
  | .CFG_PLOT_LEN => ⟨.cfgP, 0x20c, 32, 4, 0, 1, false, 0xffffffff#64, 0xffffffff#64, 0x0#64, 0x0#64, 0x0#64, 0xffffffff#64⟩
  | .CFG_PLOT_HPOL => ⟨.cfgP, 0x8000, 4096, 4, 4, 896, false, 0xffffffff#64, 0xffffffff#64, 0x0#64, 0x0#64, 0x0#64, 0xffffffff#64⟩
  | .MEM_STAT => ⟨.mem, 0x0, 0, 1, 0, 1, false, 0xf7#64, 0x0#64, 0x5#64, 0x0#64, 0x0#64, 0x0#64⟩
  | .MEM_SRAM_CE_CNT => ⟨.mem, 0x4, 0, 1, 0, 1, false, 0xffffffff#64, 0x0#64, 0x0#64, 0x0#64, 0x0#64, 0xffffffff#64⟩
  | .MEM_SRAM_UE_CNT => ⟨.mem, 0x8, 0, 1, 0, 1, false, 0xffffffff#64, 0x0#64, 0x0#64, 0x0#64, 0x0#64, 0xffffffff#64⟩
  | .MEM_SRAM_ERR_LOC => ⟨.mem, 0xc, 0, 1, 0, 1, false, 0x1fffffff#64, 0x0#64, 0x0#64, 0x0#64, 0x0#64, 0x1fffffff#64⟩
  | .MEM_BKT_CFG => ⟨.mem, 0x10, 8, 2, 0, 1, false, 0xffffffff#64, 0xffffffff#64, 0x0#64, 0x3e80010#64, 0x0#64, 0xffffffff#64⟩
  | .MEM_BKT_STAT => ⟨.mem, 0x14, 8, 2, 0, 1, false, 0xffffffff#64, 0x0#64, 0x0#64, 0x0#64, 0x0#64, 0xffff0000#64⟩
  | .MEM_REMAP_SEL => ⟨.mem, 0x20, 0, 1, 0, 1, false, 0x7fff#64, 0x7fff#64, 0x0#64, 0x0#64, 0x0#64, 0x0#64⟩
  | .MEM_REMAP_ENTRY => ⟨.mem, 0x24, 0, 1, 0, 1, false, 0x6001ffff#64, 0x2001ffff#64, 0x0#64, 0x0#64, 0x0#64, 0x2001ffff#64⟩
  | .MEM_KEY_CTL => ⟨.mem, 0x1000, 64, 16, 0, 1, false, 0x0#64, 0x0#64, 0x0#64, 0x0#64, 0x0#64, 0x0#64⟩
  | .MEM_KEY_STAT => ⟨.mem, 0x1004, 64, 16, 0, 1, false, 0xf7f#64, 0x0#64, 0x70#64, 0x0#64, 0x0#64, 0xf#64⟩
  | .MEM_KEY_BASE => ⟨.mem, 0x1008, 64, 16, 0, 1, false, 0x7ffff#64, 0x7ffff#64, 0x0#64, 0x0#64, 0x0#64, 0x7ffff#64⟩
  | .MEM_KEY_PAGES => ⟨.mem, 0x100c, 64, 16, 0, 1, false, 0xfffff#64, 0xfffff#64, 0x0#64, 0x0#64, 0x0#64, 0xfffff#64⟩
  | .MEM_KEY_META => ⟨.mem, 0x1010, 64, 16, 0, 1, false, 0x1ffffff#64, 0x1ffffff#64, 0x0#64, 0x0#64, 0x0#64, 0x1ffffff#64⟩
  | .MEM_KEY_MLINES => ⟨.mem, 0x1014, 64, 16, 0, 1, false, 0x1ffffff#64, 0x1ffffff#64, 0x0#64, 0x0#64, 0x0#64, 0x1ffffff#64⟩
  | .MEM_KEY_MLINES_MIN => ⟨.mem, 0x1018, 64, 16, 0, 1, false, 0x1ffffff#64, 0x0#64, 0x0#64, 0x0#64, 0x0#64, 0x0#64⟩
  | .MEM_KEY_TAG_FAIL_CNT => ⟨.mem, 0x101c, 64, 16, 0, 1, false, 0xffffffff#64, 0x0#64, 0x0#64, 0x0#64, 0x0#64, 0xffffffff#64⟩
  | .MEM_KEY_KEY_W => ⟨.mem, 0x1020, 64, 16, 4, 8, false, 0x0#64, 0x0#64, 0x0#64, 0x0#64, 0x0#64, 0xffffffff#64⟩
  | .CAMP_LTIME => ⟨.campP, 0x0, 0, 1, 0, 1, true, 0xffffffffffffffff#64, 0x0#64, 0x0#64, 0x0#64, 0x0#64, 0xffffffffffffffff#64⟩
  | .THM_TEMP => ⟨.thm, 0x0, 4, 4, 0, 1, false, 0x1fff#64, 0x0#64, 0x0#64, 0x0#64, 0x0#64, 0x0#64⟩
  | .THM_MAX => ⟨.thm, 0x10, 0, 1, 0, 1, false, 0x1ff#64, 0x0#64, 0x0#64, 0x0#64, 0x0#64, 0x0#64⟩
  | .THM_CFG => ⟨.thm, 0x14, 0, 1, 0, 1, false, 0x1ffff#64, 0x1ffff#64, 0x0#64, 0x17364#64, 0x0#64, 0x1ffff#64⟩
  | .THM_STAT => ⟨.thm, 0x18, 0, 1, 0, 1, false, 0x7#64, 0x0#64, 0x6#64, 0x0#64, 0x0#64, 0x0#64⟩
  | .THM_PWR_CTL => ⟨.thm, 0x20, 0, 1, 0, 1, false, 0x3#64, 0x3#64, 0x0#64, 0x0#64, 0x0#64, 0x3#64⟩
  | .THM_PWR_STAT => ⟨.thm, 0x24, 0, 1, 0, 1, false, 0xff#64, 0x0#64, 0x8#64, 0x0#64, 0x0#64, 0x3#64⟩
  | .THM_POWER => ⟨.thm, 0x28, 0, 1, 0, 1, false, 0xffffffff#64, 0x0#64, 0x0#64, 0x0#64, 0x0#64, 0x0#64⟩
  | .THM_LIFE_85 => ⟨.thm, 0x30, 0, 1, 0, 1, false, 0xffffffff#64, 0x0#64, 0x0#64, 0x0#64, 0xffffffff#64, 0xffffffff#64⟩
  | .THM_LIFE_100 => ⟨.thm, 0x34, 0, 1, 0, 1, false, 0xffffffff#64, 0x0#64, 0x0#64, 0x0#64, 0xffffffff#64, 0xffffffff#64⟩

/-- The registers of each block. -/
def Block.regs : Block → List RegId
  | .siteId => [.SITE_ID]
  | .campS => [.CAMP_SITE_TRIM_FAC, .CAMP_SITE_TRIM_USER, .CAMP_SITE_STAT]
  | .lrtFuseS => [.LRT_FUSE]
  | .ldgS => [.LDG_SITE_STAT, .LDG_RING_STAT, .LDG_TERM, .LDG_BOOT_STAT, .LDG_CORE_CTL, .LDG_WDOG_CTL, .LDG_WDOG_KICK, .LDG_WDOG_CNT, .LDG_JRNL_STAT, .LDG_WDOG_RST_CNT]
  | .dbgC => [.DBG_CORE_CTL, .DBG_CORE_STAT, .DBG_CORE_REGSEL, .DBG_CORE_REGDATA, .DBG_CORE_BP_ADDR, .DBG_CORE_BP_CTL, .DBG_CORE_VT_IN, .DBG_CORE_VT_OUT, .DBG_CORE_VT_STAT, .DBG_CORE_IMEM_ADDR, .DBG_CORE_IMEM_DATA, .DBG_PATCH_ADDR, .DBG_PATCH_DATA]
  | .towerId => [.TWR_ID]
  | .campT => [.CAMP_TWR_TRIM_FAC, .CAMP_TWR_TRIM_USER, .CAMP_LANE_TRIM, .CAMP_PIN_TRIM, .CAMP_LTIME_T, .CAMP_PSAMP_FIFO]
  | .xfl => [.XFL_LANE_CFG, .XFL_LANE_CTL, .XFL_LANE_STAT, .XFL_TX_ANCHOR, .XFL_PARTNER_ID, .XFL_PARTNER_INFO, .XFL_LOCAL_ID, .XFL_LOCAL_TAG, .XFL_CRC_ERR_CNT, .XFL_FEC_CORR_CNT, .XFL_FEC_UNCORR_CNT, .XFL_SF_RX]
  | .tio => [.TIO_ANCHOR, .TIO_GRP_CFG, .TIO_GRP_DECL, .TIO_GRP_LAT, .TIO_GRP_LMIN, .TIO_GRP_STAT, .TIO_GRP_LATE_CNT]
  | .lrt => [.LRT_LINK_CTL, .LRT_LINK_STAT, .LRT_LINK_LOCAL, .LRT_LINK_PEER, .LRT_LINK_USED, .LRT_LINK_LANE_THR, .LRT_LINK_REPLAY_CNT, .LRT_LINK_CRC_CNT, .LRT_LINK_SWAP_CNT, .LRT_LINK_STEP_CNT, .LRT_LINK_LERR, .LRT_FUSE_T]
  | .telN => [.TEL_LOG_PORT, .TEL_TRC_PORT, .TEL_ALM_RAISE, .TEL_Q_STAT, .TEL_ALM_PEND]
  | .cfgG => [.CFG_FOLLY_FUSE, .CFG_FOLLY_STAGE, .CFG_FOLLY_MAP, .CFG_PMAP_CTL, .CFG_PMAP, .CFG_LOAD_CTL, .CFG_LOAD_STAT, .CFG_LOAD_PAVMASK, .CFG_HOST_ADDR, .CFG_HOST_LEN, .CFG_BOOT, .CFG_IMG_INFO, .CFG_FAIL_SECT, .CFG_LOAD_START_TIME, .CFG_LOAD_BYTES, .CFG_UKEY_W]
  | .campG => [.CAMP_TIME, .CAMP_CTL, .CAMP_REF_CFG, .CAMP_STAT, .CAMP_REF_DIFF, .CAMP_SLEW_REM, .CAMP_EPOCH_VAL, .CAMP_EPOCH_TIME, .CAMP_ADJ, .CAMP_ADJ_CTL, .CAMP_XFER_CTL, .CAMP_XFER_ASYM, .CAMP_XFER_OFFS, .CAMP_XFER_DELAY, .CAMP_XFER_STAT]
  | .lq => [.CAMP_LQ_PUSH, .CAMP_LQ_CTL, .CAMP_LQ_STAT, .CAMP_LQ_LAUNCHED, .CAMP_LQ_LATE, .CAMP_LQ_DISCARD, .CAMP_LQ_LAST_TAG, .CAMP_LQ_LAST_TIME]
  | .lqStage => [.CAMP_LQ_STAGE]
  | .ldgG => [.LDG_RST_CTL, .LDG_RST_CAUSE, .LDG_SUB_CFG, .LDG_SUB_CTL, .LDG_SUB_CAND, .LDG_SUB_STAT, .LDG_SUB_MOVE, .LDG_SUB_CNT, .LDG_FAILED, .LDG_HOLD_STAT, .LDG_ELECT_CNT, .LDG_JRNL_FILL, .LDG_JRNL_WAIT]
  | .telG => [.TEL_ALM_ACT, .TEL_CTL, .TEL_STAT, .TEL_LOG_BASE, .TEL_TRC_BASE, .TEL_LOG_CFG, .TEL_LOG_WR, .TEL_TRC_WR, .TEL_LOG_RD, .TEL_TRC_RD, .TEL_TRC_CFG, .TEL_TRC_DROP, .TEL_SRC_DROP, .TEL_LOG_DROP, .TEL_INTAKE, .TEL_ALM_FIRST, .TEL_ALM_CNT, .TEL_ALM_SRC]
  | .hevc => [.HEVC_SWRAISE, .HEVC_PEND, .HEVC_MASK, .HEVC_CLASS, .HEVC_SGRP, .HEVC_GRP_ROUTE, .HEVC_CTL, .HEVC_STAT, .HEVC_FB_TMO, .HEVC_GRP_COAL, .HEVC_GRP_TIME, .HEVC_GRP_STAT, .HEVC_ACK_0, .HEVC_ACK_1, .HEVC_EOI, .HEVC_TGT_CTL, .HEVC_TGT_STAT]
  | .anx => [.ANX_CFG, .ANX_ALLOW, .ANX_STAT, .ANX_ID_W, .ANX_CRC_CNT, .ANX_RETRY_CNT, .ANX_DENY_CNT]
  | .gpio => [.GPIO_DOUT, .GPIO_OE, .GPIO_DIN, .GPIO_EVT, .GPIO_FUNC, .GPIO_PAD, .GPIO_EDGE]
  | .gpioU => [.GPIO_U_CFG, .GPIO_U_STAT, .GPIO_U_TX, .GPIO_U_RX]
  | .dbgG => [.DBG_STAT, .DBG_UNLOCK_CTL, .DBG_ACC_ADDR, .DBG_ACC_DATA, .DBG_ACC_CTL, .DBG_ACC_STAT]
  | .pcie => [.PCIE_EP_CTL, .PCIE_EP_STAT, .PCIE_EP_CE_CNT, .PCIE_EP_UE_CNT, .PCIE_FN_CFG, .PCIE_FN_STAT, .PCIE_FN_ID, .PCIE_FN_BAD_CNT, .PCIE_FN_CTO_CNT, .PCIE_FN_POISON_CNT]
  | .eth => [.ETH_CTL, .ETH_STAT, .ETH_MAC, .ETH_MAX_FRAME, .ETH_RX_CNT, .ETH_FCS_ERR, .ETH_RX_OTHER, .ETH_TX_CNT, .ETH_FEC_CORR, .ETH_FEC_UNCORR, .ETH_SEC_CTL, .ETH_SEC_STAT, .ETH_SEC_SCI, .ETH_SEC_PEER_SCI, .ETH_SEC_DROP, .ETH_SEC_SA_KEY_W, .ETH_SEC_SA_SALT_W, .ETH_SEC_SA_SSCI, .ETH_SEC_SA_TXPN, .ETH_SEC_SA_RXPN]
  | .xcv => [.XCV_QUAD_CFG, .XCV_QUAD_REF, .XCV_QUAD_STAT, .XCV_LANE_CFG, .XCV_LANE_CTL, .XCV_LANE_TXEQ, .XCV_LANE_STAT, .XCV_LANE_PRBS_ERR, .XCV_LANE_FAC]
  | .adm => [.ADM_CFG, .ADM_STAT, .ADM_SLOT, .ADM_STRAY, .ADM_DECL_W, .ADM_CMD, .ADM_CMD_STAT, .ADM_CMD_W, .ADM_CMD_GAP, .ADM_CMD_EFF, .ADM_D_STAT, .ADM_D_W, .ADM_D_GAP, .ADM_D_LATE]
  | .rdo => [.RDO_CTL, .RDO_STAT, .RDO_CFG, .RDO_EVNUM, .RDO_POLL, .RDO_ACC_RETRY, .RDO_ACC_BAD, .RDO_EV_CNT, .RDO_EV_PARTIAL, .RDO_NUDGE_IGN, .RDO_ACC_PORT, .RDO_SSET_REF, .RDO_SSET_W, .FARM_CFG, .FARM_MAC, .FARM_LAST, .FARM_SENT, .RDO_NUDGE]
  | .rdoQp => [.RDO_QP_SQ_BASE, .RDO_QP_CQ_BASE, .RDO_QP_DB, .RDO_QP_CFG, .RDO_QP_CTL, .RDO_QP_STAT, .RDO_QP_SQ_HEAD, .RDO_QP_CQ_TAIL, .RDO_QP_JSEQ, .RDO_QP_DSEQ, .RDO_QP_ERR_SEQ]
  | .evc => [.EVC_CTL, .EVC_STAT, .EVC_FB_TMO, .EVC_SWRAISE, .EVC_PEND, .EVC_MASK, .EVC_CLASS, .EVC_SGRP, .EVC_GRP_ROUTE, .EVC_GRP_COAL, .EVC_GRP_TIME, .EVC_GRP_STAT, .EVC_ACK_0, .EVC_ACK_1, .EVC_EOI, .EVC_TGT_CTL, .EVC_TGT_STAT]
  | .tsk => [.TSK_CTL, .TSK_STAT, .TSK_DLY_STAT, .TSK_RST_LOST, .TSK_CMD_W, .TSK_CMD_STAT, .TSK_CMD_PORT, .TSK_CPL_FIFO_W0, .TSK_CPL_FIFO_W123, .TSK_CPL_STAT, .TSK_POST_CNT, .TSK_DISP_CNT, .TSK_CANCEL_CNT, .TSK_REFUSE_CNT, .TSK_FAULT_CNT, .TSK_DLY_PAST, .TSK_LDG_DONE, .TSK_FLOW_CMD, .TSK_FLOW_CMD_STAT, .TSK_TGT_CFG] ++ [.TSK_TGT_STAT, .TSK_FLOW, .TSK_FSTAT]
  | .spr => [.SPR_CTL, .SPR_STAT, .SPR_START, .SPR_START_ARG, .SPR_IMG_BASE, .SPR_IMG_LEN, .SPR_VEC, .SPR_FAULT0, .SPR_FAULT1, .SPR_PC0, .SPR_PC1, .SPR_PERR_CNT, .SPR_IREFETCH_CNT, .SPR_ISSUE0_CNT, .SPR_ISSUE1_CNT, .SPR_STALL_CNT, .SPR_DMA_LADDR, .SPR_DMA_PADDR_LO, .SPR_DMA_PADDR_HI, .SPR_DMA_LEN] ++ [.SPR_DMA_CTL, .SPR_DMA_STAT, .SPR_FEED_CFG, .SPR_FEED_SBASE, .SPR_FEED_SLEN, .SPR_FEED_RIDX, .SPR_FEED_WIDX, .SPR_FEED_PBASE, .SPR_FEED_PLEN, .SPR_FEED_PWIDX, .SPR_FEED_DROP]
  | .gate => [.GATE_CTL, .GATE_STAT, .GATE_COMMIT_TMO, .GATE_STRM_CMD, .GATE_STRM_CMD_STAT, .GATE_SENT_W, .GATE_SST, .GATE_SSEQ, .GATE_SREFUSED, .GATE_SLATE, .GATE_SCRCERR, .GATE_SRMIN, .GATE_SSLACK, .GATE_SSAT]
  | .dome => [.DOME_CTL, .DOME_STAT, .DOME_CHAN_STAT, .DOME_SCHED, .DOME_PORT_CFG, .DOME_ACT_THR, .DOME_REF_CFG, .DOME_RT_CFG, .DOME_RT_WC, .DOME_TEMP, .DOME_RSV_BASE, .DOME_RSV_SIZE, .DOME_ECC_STAT, .DOME_CE_CNT, .DOME_UE_CNT, .DOME_POISON_CNT, .DOME_ERR_ADDR, .DOME_PATROL_CFG, .DOME_NRF_CNT, .DOME_COMMIT_CNT] ++ [.DOME_REFUSE_CNT, .DOME_RING_CFG, .DOME_RING_IDX_BASE, .DOME_RING_DATA_BASE, .DOME_RING_DATA_LINES, .DOME_RING_HOLD, .DOME_RING_WR_PTR, .DOME_RING_STAT]
  | .prm => [.PRM_STAT, .PRM_FENCE_CTL, .PRM_FENCE_TMO, .PRM_REQ_TMO, .PRM_MGMT, .PRM_FENCE_PORT, .PRM_ISO, .PRM_LINK_STAT, .PRM_ERR_RSP_CNT, .PRM_ABSORB_CNT, .PRM_TMO_CNT, .PRM_LATE_RSP_CNT, .PRM_REROUTE_CNT, .PRM_RT_MISS_CNT, .PRM_BAD_CNT]
  | .cfgP => [.CFG_PLL_CFG, .CFG_PLL_DIV, .CFG_PLL_CTL, .CFG_PLL_STAT, .CFG_GCLK, .CFG_RST, .CFG_FEVT, .CFG_FTIME, .CFG_SPORT, .CFG_XOUT, .CFG_XIN, .CFG_XSTAT, .CFG_FEP, .CFG_FEP_STAT, .CFG_STAT, .CFG_VER_CTL, .CFG_VER_STAT, .CFG_VER_PASS_CNT, .CFG_VER_REPAIR_CNT, .CFG_VER_STUCK_CNT] ++ [.CFG_VER_VOTE_CNT, .CFG_VER_TBL_ERR_CNT, .CFG_VER_LAST, .CFG_PLOT_CTL, .CFG_PLOT_STAT, .CFG_PLOT_SRC, .CFG_PLOT_LEN, .CFG_PLOT_HPOL]
  | .mem => [.MEM_STAT, .MEM_SRAM_CE_CNT, .MEM_SRAM_UE_CNT, .MEM_SRAM_ERR_LOC, .MEM_BKT_CFG, .MEM_BKT_STAT, .MEM_REMAP_SEL, .MEM_REMAP_ENTRY, .MEM_KEY_CTL, .MEM_KEY_STAT, .MEM_KEY_BASE, .MEM_KEY_PAGES, .MEM_KEY_META, .MEM_KEY_MLINES, .MEM_KEY_MLINES_MIN, .MEM_KEY_TAG_FAIL_CNT, .MEM_KEY_KEY_W]
  | .campP => [.CAMP_LTIME]
  | .thm => [.THM_TEMP, .THM_MAX, .THM_CFG, .THM_STAT, .THM_PWR_CTL, .THM_PWR_STAT, .THM_POWER, .THM_LIFE_85, .THM_LIFE_100]

/-- A field of a register: its register, its lowest bit and its width. -/
structure Fld where
  r : RegId
  lo : Nat
  w : Nat
deriving DecidableEq, Repr

end Sys2Proof.Machine
end

