-- ==== Sys2Proof/Config.lean ====
section
/-!
DEFINITION. What the spec leaves open. A free value is a constant with no body: nothing in Lean can evaluate it, so a
statement about it holds whatever it is. The step applies it to the state's counter of free values and advances the
counter.
-/
namespace Sys2Proof.Config

/-- DESIGN CHOICE (assumption 1). A value that the spec calls "not defined" and that a run needs: word i of free value
n. -/
opaque freeWord : Nat → Nat → Word

/-- DESIGN CHOICE (assumption 1). The version of the part in its JTAG identity (Table 20.1). -/
opaque jtagVersion : BitVec 4

/-- DESIGN CHOICE (assumption 1). The fused manufacturer identity (Table 20.1). -/
opaque jtagMaker : BitVec 11

/-- DESIGN CHOICE (assumption 119). What free value n shows in the bits of a register (its identity and three indices) that an
analogue part, a link partner or the outside world drives and that no command reports. -/
opaque measured : Machine.RegId → Nat → Nat → Nat → Nat → Word

/-! The user's logic (assumption 169): the spec does not lay out the frame bits, so what an image sets is a free value of its
logic frames, and what a design does next a free value of them and of a count. -/

/-- DESIGN CHOICE (assumption 169). What the logic frames of a plot set of a cell. -/
opaque cellCfg : List Byte → Machine.CellAt → Machine.CellCfg

/-- DESIGN CHOICE (assumption 169). What they set of a port of block RAM k. -/
opaque ramCfg : List Byte → Nat → Bool → Machine.RamPortCfg

/-- DESIGN CHOICE (assumption 169). What they set of slice k. -/
opaque sliceCfg : List Byte → Nat → Machine.SliceCfg

/-- DESIGN CHOICE (assumption 169). The slice directly below slice k of a plot, if there is one. -/
opaque sliceBelow : Nat → Option Nat

/-- DESIGN CHOICE (assumption 169). The carry out of a cell, from its table, the input row and the carry in. -/
opaque carryOut : BitVec 16 → Nat → Bool → Bool

/-- DESIGN CHOICE (assumption 169). The hedge bit, below 8,192, of a wire that leaves its plot: the order Porson reports. -/
opaque hedgeBit : List Byte → Machine.Wire → Nat

/-- DESIGN CHOICE (assumption 169). What the design of a plot does in an idle step. -/
opaque design : List Byte → Nat → List Machine.DesignMove

end Sys2Proof.Config
end

