-- ==== Sys2Proof/Machine/Bits.lean ====
section
/-!
DEFINITION. Bit-field, sign and byte-order helpers shared by every chapter (R6, R27), and the association tables that
hold sparse state.
-/
namespace Sys2Proof.Machine

/-- Bits lo+w-1:lo of a number. -/
def bitsOf (v lo w : Nat) : Nat := v / 2 ^ lo % 2 ^ w

/-- One bit of a number. -/
def bitOf (v i : Nat) : Bool := v / 2 ^ i % 2 == 1

/-- `v` with its bits lo+w-1:lo replaced by the low w bits of x. -/
def setBitsOf (v lo w x : Nat) : Nat :=
  v - bitsOf v lo w * 2 ^ lo + x % 2 ^ w * 2 ^ lo

/-- Set or clear one bit of a number. -/
def setBit (v i : Nat) (b : Bool) : Nat := setBitsOf v i 1 (if b then 1 else 0)

/-- 1 for true. -/
def b2n (b : Bool) : Nat := if b then 1 else 0

/-- A number below 2^w read as a w-bit two's complement value. -/
def signed (w v : Nat) : Int :=
  if v % 2 ^ w < 2 ^ (w - 1) then (v % 2 ^ w : Nat) else (v % 2 ^ w : Nat) - (2 ^ w : Nat)

/-- An integer written in w-bit two's complement. -/
def unsign (w : Nat) (x : Int) : Nat := (x % (2 ^ w : Nat)).toNat

/-- Saturate an integer to lo..hi. -/
def clampI (lo hi x : Int) : Int := if x < lo then lo else if hi < x then hi else x

/-- Add, saturating at `top`. -/
def satAdd (top a b : Nat) : Nat := min top (a + b)

/-- R27: A is later than B when the 64-bit difference A - B is positive as a signed value. -/
def later (a b : Time) : Bool := decide (0 < (a - b).toInt)

/-- R27: A is at or after B. -/
def atOrAfter (a b : Time) : Bool := !later b a

/-- A number of beats as a duration in device time (R3). -/
def beats (n : Nat) : Time := BitVec.ofNat 64 (n * 65536)

/-- The low 32 bits of a pair. -/
def loWord (x : DWord) : Word := x.truncate 32
/-- The high 32 bits of a pair. -/
def hiWord (x : DWord) : Word := (x >>> 32).truncate 32
/-- A pair from its halves (R7). -/
def pairOf (lo hi : Word) : DWord := hi ++ lo

/-- The little-endian bytes of a 32-bit word (R6). -/
def wordBytes (w : Word) : List Byte :=
  [w.truncate 8, (w >>> 8).truncate 8, (w >>> 16).truncate 8, (w >>> 24).truncate 8]

/-- The little-endian value of a list of bytes (R6). -/
def leNat : List Byte → Nat
  | [] => 0
  | b :: bs => b.toNat + 256 * leNat bs

/-- The n low bytes of a number, little-endian (R6). -/
def natBytes : Nat → Nat → List Byte
  | 0, _ => []
  | n + 1, v => BitVec.ofNat 8 v :: natBytes n (v / 256)

/-- Integer ceiling division. -/
def cdiv (a b : Nat) : Nat := if b = 0 then 0 else (a + b - 1) / b

/-- The number of set bits among the low n bits. -/
def popcount : Nat → Nat → Nat
  | 0, _ => 0
  | n + 1, v => v % 2 + popcount n (v / 2)

/-- The indices below n that satisfy p, ascending. -/
def indicesWhere (n : Nat) (p : Nat → Bool) : List Nat := (List.range n).filter p

/-- The lowest index below n that satisfies p. -/
def firstWhere (n : Nat) (p : Nat → Bool) : Option Nat := (List.range n).find? p

/-- Apply an update for each element of a list, first to last. -/
def foldS {σ α : Type} (f : α → σ → σ) : List α → σ → σ
  | [], s => s
  | a :: as, s => foldS f as (f a s)

/-- A sparse table: the entries that differ from the reader's default. -/
abbrev Table (κ α : Type) := List (κ × α)

/-- The entry of a key. -/
def tfind {κ α : Type} [DecidableEq κ] : Table κ α → κ → Option α
  | [], _ => none
  | (k, v) :: t, x => if k = x then some v else tfind t x

/-- The entry of a key, or a default. -/
def tget {κ α : Type} [DecidableEq κ] (t : Table κ α) (x : κ) (d : α) : α := (tfind t x).getD d

/-- A table without a key. -/
def tdel {κ α : Type} [DecidableEq κ] : Table κ α → κ → Table κ α
  | [], _ => []
  | (k, v) :: t, x => if k = x then tdel t x else (k, v) :: tdel t x

/-- A table with one entry replaced or added. -/
def tput {κ α : Type} [DecidableEq κ] (t : Table κ α) (x : κ) (v : α) : Table κ α := (x, v) :: tdel t x

/-- The keys a table lists. -/
def tkeys {κ α : Type} (t : Table κ α) : List κ := t.map Prod.fst

/-- Keep the entries whose key satisfies p. -/
def tfilter {κ α : Type} (t : Table κ α) (p : κ → Bool) : Table κ α := t.filter fun e => p e.1

/-- Replace the element at an index. -/
def listSet {α : Type} : List α → Nat → α → List α
  | [], _, _ => []
  | _ :: as, 0, v => v :: as
  | a :: as, n + 1, v => a :: listSet as n v

end Sys2Proof.Machine
end

