-- ==== Sys2Proof/Machine/Defined.lean ====
section
/-!
DEFINITION. The register values whose effect the spec defines (R9): reserved bits are 0, and a field that lists its
values, or their range, holds one of them.
-/
namespace Sys2Proof.Machine

/-- The reserved bits of the registers that software writes (R8). -/
def RegId.rsv : RegId → Nat
  | .LDG_CORE_CTL => 0xfffffffe
  | .LDG_WDOG_CTL => 0xff0000fc
  | .DBG_CORE_CTL => 0xffffffc0
  | .DBG_CORE_STAT => 0xffe00e0e
  | .DBG_CORE_REGSEL => 0xfffe0000
  | .DBG_CORE_BP_CTL => 0xfffffff8
  | .DBG_CORE_VT_STAT => 0xfffffff0
  | .DBG_CORE_IMEM_ADDR => 0xffffe000
  | .DBG_PATCH_ADDR => 0x7c000003
  | .XFL_LANE_CFG => 0xffff000c
  | .XFL_LANE_CTL => 0xfffffffc
  | .XFL_LANE_STAT => 0xffe000f0
  | .XFL_LOCAL_TAG => 0xffffff00
  | .TIO_GRP_CFG => 0xe0000080
  | .TIO_GRP_DECL => 0xfffff000
  | .TIO_GRP_STAT => 0xffffffc0
  | .LRT_LINK_CTL => 0xfffffff0
  | .LRT_LINK_STAT => 0xe000f800
  | .LRT_LINK_LANE_THR => 0xff000000
  | .TEL_ALM_RAISE => 0xffffff00
  | .TEL_Q_STAT => 0xff80
  | .CFG_FOLLY_STAGE => 0xffff0000
  | .CFG_PMAP_CTL => 0xfffff0fc
  | .CFG_LOAD_CTL => 0xffffff80
  | .CFG_LOAD_STAT => 0xfe0000e0
  | .CAMP_CTL => 0xfffff008
  | .CAMP_REF_CFG => 0xff080000
  | .CAMP_STAT => 0xfffffe00
  | .CAMP_EPOCH_VAL => 0xffff000000000000
  | .CAMP_ADJ_CTL => 0xfffffffe
  | .CAMP_XFER_CTL => 0xfffc0000
  | .CAMP_LQ_CTL => 0xfffffffc
  | .CAMP_LQ_STAT => 0xffc0fe00
  | .LDG_RST_CTL => 0xfffffffc
  | .LDG_SUB_CFG => 0x3e000000
  | .LDG_SUB_CTL => 0xffffe0fc
  | .LDG_SUB_STAT => 0xf0c0c000
  | .TEL_CTL => 0xffffffc0
  | .TEL_STAT => 0xffff80e0
  | .TEL_LOG_CFG => 0xf0e0
  | .TEL_TRC_CFG => 0xfffff0e0
  | .HEVC_SWRAISE => 0xfffff800
  | .HEVC_SGRP => 0xc0c0c0c0
  | .HEVC_GRP_ROUTE => 0xffff0000
  | .HEVC_CTL => 0xfffffffe
  | .HEVC_STAT => 0xfffffff8
  | .HEVC_FB_TMO => 0xffff0000
  | .HEVC_GRP_COAL => 0xffffe000
  | .HEVC_GRP_TIME => 0xfe000000
  | .HEVC_EOI => 0xfffffffe
  | .HEVC_TGT_CTL => 0xfffffffc
  | .ANX_CFG => 0xfffffff0
  | .ANX_ALLOW => 0xfffffff8
  | .GPIO_EVT => 0xffff0000
  | .GPIO_U_CFG => 0x3f000000
  | .GPIO_U_STAT => 0xfcf0e0e0
  | .DBG_UNLOCK_CTL => 0xfffffffe
  | .DBG_ACC_ADDR => 0xffff000000000000
  | .DBG_ACC_CTL => 0xfffffff8
  | .DBG_ACC_STAT => 0xffffffc0
  | .PCIE_EP_CTL => 0xffffff00
  | .PCIE_EP_STAT => 0xfffffc00
  | .PCIE_FN_CFG => 0xfffff000
  | .PCIE_FN_STAT => 0xffffffc0
  | .ETH_CTL => 0xffffe000
  | .ETH_STAT => 0xfffff0f0
  | .ETH_MAC => 0xffff000000000000
  | .ETH_MAX_FRAME => 0xffffc000
  | .ETH_SEC_CTL => 0xffffffc0
  | .ETH_SEC_STAT => 0xfffffff8
  | .XCV_QUAD_CFG => 0xf00000f8
  | .XCV_QUAD_REF => 0xfff80000
  | .XCV_LANE_CFG => 0xfffffc00
  | .XCV_LANE_CTL => 0xffffffc0
  | .XCV_LANE_TXEQ => 0xc0c0c0c0
  | .XCV_LANE_STAT => 0xffff00c0
  | .ADM_CFG => 0x7fe000e0
  | .ADM_STAT => 0xe000
  | .ADM_CMD => 0xffff8000
  | .RDO_CTL => 0xfffffffe
  | .RDO_STAT => 0xff808000
  | .RDO_CFG => 0xffff0000
  | .RDO_POLL => 0xf00000
  | .FARM_CFG => 0x40000000
  | .FARM_MAC => 0xffff000000000000
  | .RDO_QP_CFG => 0xffc00000
  | .RDO_QP_CTL => 0xfffffffc
  | .RDO_QP_STAT => 0xffffff00
  | .EVC_CTL => 0xfffffffe
  | .EVC_STAT => 0xfffffff8
  | .EVC_FB_TMO => 0xffff0000
  | .EVC_SWRAISE => 0xfffffe00
  | .EVC_SGRP => 0xc0c0c0c0
  | .EVC_GRP_ROUTE => 0xfff80000
  | .EVC_GRP_COAL => 0xffffe000
  | .EVC_GRP_TIME => 0xfe000000
  | .EVC_EOI => 0xfffffffe
  | .EVC_TGT_CTL => 0xfffffffc
  | .TSK_CTL => 0xffffe0fe
  | .TSK_STAT => 0x8000fff0
  | .TSK_CPL_STAT => 0xf800f800
  | .TSK_FLOW_CMD => 0xffffcc00
  | .TSK_TGT_CFG => 0x7ffc0000
  | .TSK_FLOW => 0xfc000000
  | .SPR_CTL => 0xffffffe0
  | .SPR_STAT => 0xffff8088
  | .SPR_START => 0xfffee000
  | .SPR_IMG_BASE => 0xe0000000
  | .SPR_IMG_LEN => 0xfffff800
  | .SPR_VEC => 0xe000e000
  | .SPR_DMA_LADDR => 0xfffc0000
  | .SPR_DMA_PADDR_HI => 0xffff0000
  | .SPR_DMA_LEN => 0xfff80000
  | .SPR_DMA_CTL => 0xfffe0000
  | .SPR_DMA_STAT => 0xffffff0c
  | .SPR_FEED_CFG => 0xf8000008
  | .SPR_FEED_SBASE => 0xfffc0000
  | .SPR_FEED_SLEN => 0xfffc0000
  | .SPR_FEED_RIDX => 0xfffc0000
  | .SPR_FEED_PBASE => 0xfffc0000
  | .SPR_FEED_PLEN => 0xfffc0000
  | .GATE_CTL => 0xfffffffe
  | .GATE_STAT => 0xf000fff8
  | .GATE_COMMIT_TMO => 0xffff0000
  | .GATE_STRM_CMD => 0xfffff800
  | .DOME_CTL => 0xfffffff8
  | .DOME_STAT => 0xfffff0e0
  | .DOME_SCHED => 0xc080
  | .DOME_PORT_CFG => 0xffffff80
  | .DOME_ACT_THR => 0xffffc000
  | .DOME_REF_CFG => 0xfffffff0
  | .DOME_RT_CFG => 0xf000e000
  | .DOME_ECC_STAT => 0xfffffffc
  | .DOME_PATROL_CFG => 0xffffff00
  | .DOME_RING_CFG => 0x7e000000
  | .DOME_RING_IDX_BASE => 0xe0000000
  | .DOME_RING_DATA_BASE => 0xe0000000
  | .DOME_RING_DATA_LINES => 0xfe000000
  | .DOME_RING_HOLD => 0xffff000000000000
  | .DOME_RING_STAT => 0xfffff000
  | .PRM_STAT => 0xfffffff0
  | .PRM_FENCE_CTL => 0xfffffffc
  | .PRM_FENCE_TMO => 0xffff0000
  | .PRM_REQ_TMO => 0xffff0000
  | .PRM_MGMT => 0xffffff80
  | .PRM_ISO => 0xfffff00000000000
  | .CFG_PLL_CFG => 0xffffc000
  | .CFG_PLL_CTL => 0xfffffffe
  | .CFG_PLL_STAT => 0xffffffe0
  | .CFG_GCLK => 0xffffffc0
  | .CFG_RST => 0xfffff8e0
  | .CFG_FEVT => 0xffffffe0
  | .CFG_FTIME => 0xffffffe0
  | .CFG_SPORT => 0x7fff8000
  | .CFG_XOUT => 0x7fffffe0
  | .CFG_XIN => 0x7ffffce0
  | .CFG_XSTAT => 0xffffffc0
  | .CFG_FEP => 0x7fffffc0
  | .CFG_VER_CTL => 0xffff00fe
  | .CFG_VER_STAT => 0xffffffe0
  | .CFG_PLOT_CTL => 0xfffffffe
  | .CFG_PLOT_STAT => 0xffff00e0
  | .CFG_PLOT_SRC => 0xe0000000
  | .MEM_STAT => 0xffffff08
  | .MEM_REMAP_SEL => 0xffff8000
  | .MEM_REMAP_ENTRY => 0x9ffe0000
  | .MEM_KEY_CTL => 0xfffffffc
  | .MEM_KEY_STAT => 0xfffff080
  | .MEM_KEY_BASE => 0xfff80000
  | .MEM_KEY_PAGES => 0xfff00000
  | .MEM_KEY_META => 0xfe000000
  | .MEM_KEY_MLINES => 0xfe000000
  | .THM_CFG => 0xfffe0000
  | .THM_STAT => 0xfffffff8
  | .THM_PWR_CTL => 0xfffffffc
  | .THM_PWR_STAT => 0xffffff00
  | _ => 0

/-- A field of w bits from bit lo holds a value from a to b. -/
structure FieldRange where
  lo : Nat
  w : Nat
  a : Nat
  b : Nat
deriving DecidableEq, Repr

/-- The fields that list their values or their range. Ranges that share their bits are alternatives of one field. -/
def RegId.ranges : RegId → List FieldRange
  | .LDG_WDOG_CTL => [⟨8, 16, 1, 65535⟩]
  | .XFL_LANE_CFG => [⟨12, 4, 1, 10⟩]
  | .LRT_LINK_LANE_THR => [⟨0, 16, 1, 65535⟩, ⟨16, 8, 1, 255⟩]
  | .CFG_LOAD_CTL => [⟨3, 2, 0, 2⟩, ⟨1, 2, 1, 2⟩]
  | .CAMP_CTL => [⟨4, 2, 0, 2⟩]
  | .CAMP_REF_CFG => [⟨0, 19, 10000, 400000⟩, ⟨20, 4, 1, 15⟩]
  | .CAMP_XFER_CTL => [⟨0, 2, 0, 1⟩, ⟨5, 5, 0, 19⟩, ⟨10, 4, 1, 10⟩, ⟨14, 4, 0, 10⟩]
  | .TEL_LOG_CFG => [⟨0, 5, 6, 20⟩]
  | .TEL_TRC_CFG => [⟨0, 5, 6, 20⟩]
  | .HEVC_GRP_ROUTE => [⟨3, 6, 0, 35⟩, ⟨3, 6, 63, 63⟩, ⟨9, 6, 0, 35⟩, ⟨9, 6, 63, 63⟩]
  | .HEVC_FB_TMO => [⟨0, 16, 1, 65535⟩]
  | .HEVC_GRP_COAL => [⟨0, 13, 1, 4096⟩]
  | .HEVC_GRP_TIME => [⟨0, 25, 1, 16777216⟩]
  | .ANX_CFG => [⟨1, 3, 0, 5⟩]
  | .DBG_ACC_CTL => [⟨0, 2, 1, 2⟩]
  | .PCIE_EP_CTL => [⟨1, 3, 0, 4⟩, ⟨4, 3, 1, 5⟩]
  | .ETH_CTL => [⟨1, 2, 0, 2⟩]
  | .ETH_MAX_FRAME => [⟨0, 14, 64, 9238⟩]
  | .XCV_QUAD_CFG => [⟨0, 3, 0, 4⟩]
  | .XCV_QUAD_REF => [⟨0, 19, 25000, 500000⟩]
  | .XCV_LANE_CFG => [⟨8, 2, 0, 2⟩]
  | .ADM_CFG => [⟨0, 5, 0, 16⟩]
  | .ADM_CMD => [⟨12, 3, 1, 3⟩]
  | .RDO_CFG => [⟨8, 8, 1, 255⟩]
  | .RDO_POLL => [⟨0, 8, 1, 255⟩, ⟨8, 12, 1, 4095⟩, ⟨24, 8, 1, 255⟩]
  | .FARM_CFG => [⟨16, 14, 1500, 9216⟩]
  | .EVC_FB_TMO => [⟨0, 16, 1, 65535⟩]
  | .EVC_GRP_ROUTE => [⟨0, 4, 0, 9⟩, ⟨14, 4, 0, 8⟩]
  | .EVC_GRP_COAL => [⟨0, 13, 1, 4096⟩]
  | .EVC_GRP_TIME => [⟨0, 25, 1, 16777216⟩]
  | .TSK_CTL => [⟨8, 5, 0, 18⟩]
  | .TSK_CPL_STAT => [⟨16, 11, 1, 1024⟩]
  | .SPR_IMG_LEN => [⟨0, 11, 0, 1024⟩]
  | .GATE_COMMIT_TMO => [⟨0, 16, 1, 65535⟩]
  | .GATE_STRM_CMD => [⟨8, 3, 1, 6⟩]
  | .DOME_SCHED => [⟨0, 7, 2, 64⟩, ⟨16, 8, 1, 255⟩, ⟨24, 8, 1, 255⟩]
  | .DOME_ACT_THR => [⟨0, 14, 256, 8192⟩]
  | .DOME_REF_CFG => [⟨0, 4, 1, 8⟩]
  | .DOME_RT_CFG => [⟨0, 8, 16, 255⟩, ⟨8, 5, 1, 31⟩, ⟨16, 12, 0, 2048⟩]
  | .DOME_PATROL_CFG => [⟨0, 8, 1, 255⟩]
  | .PRM_FENCE_TMO => [⟨0, 16, 1, 65535⟩]
  | .PRM_REQ_TMO => [⟨0, 16, 1, 65535⟩]
  | .PRM_MGMT => [⟨0, 7, 1, 100⟩]
  | .MEM_BKT_CFG => [⟨0, 16, 1, 65535⟩, ⟨16, 16, 1, 65535⟩]
  | .THM_CFG => [⟨0, 8, 60, 125⟩, ⟨8, 8, 100, 125⟩]
  | _ => []

/-- R9. The effect of writing a value to a register is defined: reserved bits are 0, and each field holds a value that
its description lists, or its reset value. -/
def RegId.defined (id : RegId) (v : Nat) : Bool :=
  (v &&& id.rsv) == 0 &&
    id.ranges.all fun f => bitsOf v f.lo f.w == bitsOf id.row.reset.toNat f.lo f.w || id.ranges.any fun g =>
      g.lo == f.lo && decide (g.a ≤ bitsOf v f.lo f.w) && decide (bitsOf v f.lo f.w ≤ g.b)

end Sys2Proof.Machine
end

