-- ==== Sys2Proof/Machine/Fields.lean ====
section
/-!
DEFINITION. The named fields of the register tables, `F.<REGISTER>_<FIELD>`, each with its bits as its table gives them.
-/
namespace Sys2Proof.Machine

def F.SITE_ID_SITE : Fld := ⟨.SITE_ID, 0, 6⟩
def F.SITE_ID_ROW : Fld := ⟨.SITE_ID, 6, 2⟩
def F.SITE_ID_SLOT : Fld := ⟨.SITE_ID, 8, 4⟩
def F.SITE_ID_FOLLY_FUSE : Fld := ⟨.SITE_ID, 12, 1⟩
def F.SITE_ID_FOLLY_NOW : Fld := ⟨.SITE_ID, 13, 1⟩
def F.SITE_ID_LOGICAL : Fld := ⟨.SITE_ID, 16, 5⟩
def F.SITE_ID_LOGICAL_VALID : Fld := ⟨.SITE_ID, 21, 1⟩
def F.CAMP_SITE_TRIM_FAC_FAC : Fld := ⟨.CAMP_SITE_TRIM_FAC, 0, 32⟩
def F.CAMP_SITE_TRIM_USER_USER : Fld := ⟨.CAMP_SITE_TRIM_USER, 0, 32⟩
def F.CAMP_SITE_STAT_TRIM_SAT : Fld := ⟨.CAMP_SITE_STAT, 0, 1⟩
def F.CAMP_SITE_STAT_TRIM_SLEW : Fld := ⟨.CAMP_SITE_STAT, 1, 1⟩
def F.LRT_FUSE_BAD0 : Fld := ⟨.LRT_FUSE, 0, 6⟩
def F.LRT_FUSE_BAD1 : Fld := ⟨.LRT_FUSE, 6, 6⟩
def F.LRT_FUSE_PRESENT : Fld := ⟨.LRT_FUSE, 12, 1⟩
def F.LDG_SITE_STAT_SELFTEST : Fld := ⟨.LDG_SITE_STAT, 0, 2⟩
def F.LDG_SITE_STAT_FAIL_UNIT : Fld := ⟨.LDG_SITE_STAT, 4, 4⟩
def F.LDG_SITE_STAT_FAILED : Fld := ⟨.LDG_SITE_STAT, 8, 1⟩
def F.LDG_SITE_STAT_STANDING : Fld := ⟨.LDG_SITE_STAT, 9, 1⟩
def F.LDG_RING_STAT_PRES : Fld := ⟨.LDG_RING_STAT, 0, 6⟩
def F.LDG_RING_STAT_DEP0 : Fld := ⟨.LDG_RING_STAT, 8, 6⟩
def F.LDG_RING_STAT_DEP1 : Fld := ⟨.LDG_RING_STAT, 16, 6⟩
def F.LDG_RING_STAT_ROLE : Fld := ⟨.LDG_RING_STAT, 24, 2⟩
def F.LDG_RING_STAT_BYPASS : Fld := ⟨.LDG_RING_STAT, 26, 1⟩
def F.LDG_TERM_TERM : Fld := ⟨.LDG_TERM, 0, 32⟩
def F.LDG_BOOT_STAT_STATE : Fld := ⟨.LDG_BOOT_STAT, 0, 2⟩
def F.LDG_BOOT_STAT_SRC : Fld := ⟨.LDG_BOOT_STAT, 3, 2⟩
def F.LDG_BOOT_STAT_ATTEMPTS : Fld := ⟨.LDG_BOOT_STAT, 8, 8⟩
def F.LDG_BOOT_STAT_ERR : Fld := ⟨.LDG_BOOT_STAT, 16, 4⟩
def F.LDG_CORE_CTL_CRST : Fld := ⟨.LDG_CORE_CTL, 0, 1⟩
def F.LDG_WDOG_CTL_EN : Fld := ⟨.LDG_WDOG_CTL, 0, 1⟩
def F.LDG_WDOG_CTL_FREEZE : Fld := ⟨.LDG_WDOG_CTL, 1, 1⟩
def F.LDG_WDOG_CTL_PERIOD : Fld := ⟨.LDG_WDOG_CTL, 8, 16⟩
def F.LDG_WDOG_KICK_KICK : Fld := ⟨.LDG_WDOG_KICK, 0, 32⟩
def F.LDG_WDOG_CNT_CNT : Fld := ⟨.LDG_WDOG_CNT, 0, 16⟩
def F.LDG_JRNL_STAT_HOLDER : Fld := ⟨.LDG_JRNL_STAT, 0, 1⟩
def F.LDG_JRNL_STAT_FILLING : Fld := ⟨.LDG_JRNL_STAT, 1, 1⟩
def F.LDG_JRNL_STAT_WORK : Fld := ⟨.LDG_JRNL_STAT, 4, 13⟩
def F.LDG_WDOG_RST_CNT_COUNT : Fld := ⟨.LDG_WDOG_RST_CNT, 0, 16⟩
def F.LDG_WDOG_RST_CNT_LAST : Fld := ⟨.LDG_WDOG_RST_CNT, 16, 2⟩
def F.DBG_CORE_CTL_HALT : Fld := ⟨.DBG_CORE_CTL, 0, 1⟩
def F.DBG_CORE_CTL_RESUME : Fld := ⟨.DBG_CORE_CTL, 1, 1⟩
def F.DBG_CORE_CTL_STEP : Fld := ⟨.DBG_CORE_CTL, 2, 1⟩
def F.DBG_CORE_CTL_CTX : Fld := ⟨.DBG_CORE_CTL, 3, 1⟩
def F.DBG_CORE_CTL_ATTACH : Fld := ⟨.DBG_CORE_CTL, 4, 1⟩
def F.DBG_CORE_CTL_HALT_ON_START : Fld := ⟨.DBG_CORE_CTL, 5, 1⟩
def F.DBG_CORE_STAT_HALTED0 : Fld := ⟨.DBG_CORE_STAT, 0, 1⟩
def F.DBG_CORE_STAT_CAUSE0 : Fld := ⟨.DBG_CORE_STAT, 4, 4⟩
def F.DBG_CORE_STAT_HALTED1 : Fld := ⟨.DBG_CORE_STAT, 8, 1⟩
def F.DBG_CORE_STAT_CAUSE1 : Fld := ⟨.DBG_CORE_STAT, 12, 4⟩
def F.DBG_CORE_STAT_RESET_SEEN : Fld := ⟨.DBG_CORE_STAT, 16, 1⟩
def F.DBG_CORE_STAT_WR_IGN : Fld := ⟨.DBG_CORE_STAT, 17, 1⟩
def F.DBG_CORE_STAT_REG_ERR : Fld := ⟨.DBG_CORE_STAT, 18, 1⟩
def F.DBG_CORE_STAT_HALT_PEND : Fld := ⟨.DBG_CORE_STAT, 19, 2⟩
def F.DBG_CORE_REGSEL_INDEX : Fld := ⟨.DBG_CORE_REGSEL, 0, 12⟩
def F.DBG_CORE_REGSEL_CLASS : Fld := ⟨.DBG_CORE_REGSEL, 12, 4⟩
def F.DBG_CORE_REGSEL_WRITE : Fld := ⟨.DBG_CORE_REGSEL, 16, 1⟩
def F.DBG_CORE_BP_ADDR_ADDR : Fld := ⟨.DBG_CORE_BP_ADDR, 0, 32⟩
def F.DBG_CORE_BP_CTL_EN : Fld := ⟨.DBG_CORE_BP_CTL, 0, 1⟩
def F.DBG_CORE_BP_CTL_CTXM : Fld := ⟨.DBG_CORE_BP_CTL, 1, 2⟩
def F.DBG_CORE_VT_IN_WORD : Fld := ⟨.DBG_CORE_VT_IN, 0, 32⟩
def F.DBG_CORE_VT_OUT_WORD : Fld := ⟨.DBG_CORE_VT_OUT, 0, 32⟩
def F.DBG_CORE_VT_STAT_IN_FULL : Fld := ⟨.DBG_CORE_VT_STAT, 0, 1⟩
def F.DBG_CORE_VT_STAT_OUT_FULL : Fld := ⟨.DBG_CORE_VT_STAT, 1, 1⟩
def F.DBG_CORE_VT_STAT_IN_OVF : Fld := ⟨.DBG_CORE_VT_STAT, 2, 1⟩
def F.DBG_CORE_VT_STAT_OUT_OVF : Fld := ⟨.DBG_CORE_VT_STAT, 3, 1⟩
def F.DBG_CORE_IMEM_ADDR_ADDR : Fld := ⟨.DBG_CORE_IMEM_ADDR, 0, 13⟩
def F.DBG_PATCH_ADDR_ADDR : Fld := ⟨.DBG_PATCH_ADDR, 2, 24⟩
def F.DBG_PATCH_ADDR_EN : Fld := ⟨.DBG_PATCH_ADDR, 31, 1⟩
def F.DBG_PATCH_DATA_DATA : Fld := ⟨.DBG_PATCH_DATA, 0, 32⟩
def F.TWR_ID_TOWER : Fld := ⟨.TWR_ID, 0, 3⟩
def F.TWR_ID_HOST_TOWER : Fld := ⟨.TWR_ID, 3, 1⟩
def F.TWR_ID_LINK_LIVE : Fld := ⟨.TWR_ID, 4, 4⟩
def F.TWR_ID_FIRST_SLOT : Fld := ⟨.TWR_ID, 8, 4⟩
def F.TWR_ID_EDGE : Fld := ⟨.TWR_ID, 12, 1⟩
def F.CAMP_TWR_TRIM_FAC_FAC : Fld := ⟨.CAMP_TWR_TRIM_FAC, 0, 32⟩
def F.CAMP_TWR_TRIM_USER_USER : Fld := ⟨.CAMP_TWR_TRIM_USER, 0, 32⟩
def F.CAMP_LANE_TRIM_USER : Fld := ⟨.CAMP_LANE_TRIM, 0, 32⟩
def F.CAMP_PIN_TRIM_USER : Fld := ⟨.CAMP_PIN_TRIM, 0, 32⟩
def F.CAMP_PSAMP_FIFO_WORD : Fld := ⟨.CAMP_PSAMP_FIFO, 0, 32⟩
def F.XFL_LANE_CFG_RATE : Fld := ⟨.XFL_LANE_CFG, 0, 2⟩
def F.XFL_LANE_CFG_CH_M1 : Fld := ⟨.XFL_LANE_CFG, 4, 8⟩
def F.XFL_LANE_CFG_TIME_RATE : Fld := ⟨.XFL_LANE_CFG, 12, 4⟩
def F.XFL_LANE_CTL_EN : Fld := ⟨.XFL_LANE_CTL, 0, 1⟩
def F.XFL_LANE_CTL_RETRAIN : Fld := ⟨.XFL_LANE_CTL, 1, 1⟩
def F.XFL_LANE_STAT_STATE : Fld := ⟨.XFL_LANE_STAT, 0, 3⟩
def F.XFL_LANE_STAT_PARTNER_VALID : Fld := ⟨.XFL_LANE_STAT, 3, 1⟩
def F.XFL_LANE_STAT_ATTEMPTS : Fld := ⟨.XFL_LANE_STAT, 8, 8⟩
def F.XFL_LANE_STAT_CRC_ERR : Fld := ⟨.XFL_LANE_STAT, 16, 1⟩
def F.XFL_LANE_STAT_FEC_UNCORR : Fld := ⟨.XFL_LANE_STAT, 17, 1⟩
def F.XFL_LANE_STAT_IDENT_CHG : Fld := ⟨.XFL_LANE_STAT, 18, 1⟩
def F.XFL_LANE_STAT_CH_MISMATCH : Fld := ⟨.XFL_LANE_STAT, 19, 1⟩
def F.XFL_LANE_STAT_FRAME_SLIP : Fld := ⟨.XFL_LANE_STAT, 20, 1⟩
def F.XFL_PARTNER_INFO_LANE_TAG : Fld := ⟨.XFL_PARTNER_INFO, 0, 8⟩
def F.XFL_PARTNER_INFO_VER : Fld := ⟨.XFL_PARTNER_INFO, 8, 8⟩
def F.XFL_PARTNER_INFO_CH_M1 : Fld := ⟨.XFL_PARTNER_INFO, 16, 8⟩
def F.XFL_PARTNER_INFO_CAPS : Fld := ⟨.XFL_PARTNER_INFO, 24, 2⟩
def F.XFL_LOCAL_TAG_LANE_TAG : Fld := ⟨.XFL_LOCAL_TAG, 0, 8⟩
def F.XFL_CRC_ERR_CNT_COUNT : Fld := ⟨.XFL_CRC_ERR_CNT, 0, 32⟩
def F.XFL_FEC_CORR_CNT_COUNT : Fld := ⟨.XFL_FEC_CORR_CNT, 0, 32⟩
def F.XFL_FEC_UNCORR_CNT_COUNT : Fld := ⟨.XFL_FEC_UNCORR_CNT, 0, 32⟩
def F.XFL_SF_RX_SF_NUM : Fld := ⟨.XFL_SF_RX, 0, 16⟩
def F.TIO_GRP_CFG_EN : Fld := ⟨.TIO_GRP_CFG, 0, 1⟩
def F.TIO_GRP_CFG_OWNER : Fld := ⟨.TIO_GRP_CFG, 1, 1⟩
def F.TIO_GRP_CFG_DIR : Fld := ⟨.TIO_GRP_CFG, 2, 1⟩
def F.TIO_GRP_CFG_LVDS : Fld := ⟨.TIO_GRP_CFG, 3, 1⟩
def F.TIO_GRP_CFG_SER : Fld := ⟨.TIO_GRP_CFG, 4, 2⟩
def F.TIO_GRP_CFG_RST_DRV : Fld := ⟨.TIO_GRP_CFG, 6, 1⟩
def F.TIO_GRP_CFG_BITMUL : Fld := ⟨.TIO_GRP_CFG, 8, 8⟩
def F.TIO_GRP_CFG_PAV : Fld := ⟨.TIO_GRP_CFG, 16, 5⟩
def F.TIO_GRP_CFG_EP : Fld := ⟨.TIO_GRP_CFG, 21, 6⟩
def F.TIO_GRP_CFG_SLOT : Fld := ⟨.TIO_GRP_CFG, 27, 2⟩
def F.TIO_GRP_DECL_DECL : Fld := ⟨.TIO_GRP_DECL, 0, 12⟩
def F.TIO_GRP_LAT_LAT : Fld := ⟨.TIO_GRP_LAT, 0, 32⟩
def F.TIO_GRP_LMIN_LMIN : Fld := ⟨.TIO_GRP_LMIN, 0, 32⟩
def F.TIO_GRP_STAT_ERR : Fld := ⟨.TIO_GRP_STAT, 0, 3⟩
def F.TIO_GRP_STAT_WR_IGN : Fld := ⟨.TIO_GRP_STAT, 3, 1⟩
def F.TIO_GRP_STAT_LATE : Fld := ⟨.TIO_GRP_STAT, 4, 1⟩
def F.TIO_GRP_STAT_DEGRADED : Fld := ⟨.TIO_GRP_STAT, 5, 1⟩
def F.TIO_GRP_LATE_CNT_COUNT : Fld := ⟨.TIO_GRP_LATE_CNT, 0, 32⟩
def F.LRT_LINK_CTL_EN : Fld := ⟨.LRT_LINK_CTL, 0, 1⟩
def F.LRT_LINK_CTL_RETRAIN : Fld := ⟨.LRT_LINK_CTL, 1, 1⟩
def F.LRT_LINK_CTL_WIDEN : Fld := ⟨.LRT_LINK_CTL, 2, 1⟩
def F.LRT_LINK_CTL_PRST : Fld := ⟨.LRT_LINK_CTL, 3, 1⟩
def F.LRT_LINK_STAT_STATE : Fld := ⟨.LRT_LINK_STAT, 0, 3⟩
def F.LRT_LINK_STAT_WR_IGN : Fld := ⟨.LRT_LINK_STAT, 3, 1⟩
def F.LRT_LINK_STAT_WIDTH : Fld := ⟨.LRT_LINK_STAT, 4, 2⟩
def F.LRT_LINK_STAT_SPARES : Fld := ⟨.LRT_LINK_STAT, 6, 2⟩
def F.LRT_LINK_STAT_SWAP_BUSY : Fld := ⟨.LRT_LINK_STAT, 8, 1⟩
def F.LRT_LINK_STAT_MISMATCH : Fld := ⟨.LRT_LINK_STAT, 9, 2⟩
def F.LRT_LINK_STAT_ATTEMPTS : Fld := ⟨.LRT_LINK_STAT, 16, 8⟩
def F.LRT_LINK_STAT_PORT : Fld := ⟨.LRT_LINK_STAT, 24, 5⟩
def F.LRT_LINK_LANE_THR_THR : Fld := ⟨.LRT_LINK_LANE_THR, 0, 16⟩
def F.LRT_LINK_LANE_THR_WIN : Fld := ⟨.LRT_LINK_LANE_THR, 16, 8⟩
def F.LRT_LINK_REPLAY_CNT_COUNT : Fld := ⟨.LRT_LINK_REPLAY_CNT, 0, 32⟩
def F.LRT_LINK_CRC_CNT_COUNT : Fld := ⟨.LRT_LINK_CRC_CNT, 0, 32⟩
def F.LRT_LINK_SWAP_CNT_COUNT : Fld := ⟨.LRT_LINK_SWAP_CNT, 0, 32⟩
def F.LRT_LINK_STEP_CNT_COUNT : Fld := ⟨.LRT_LINK_STEP_CNT, 0, 32⟩
def F.LRT_LINK_LERR_COUNT : Fld := ⟨.LRT_LINK_LERR, 0, 32⟩
def F.LRT_FUSE_T_BAD0 : Fld := ⟨.LRT_FUSE_T, 0, 6⟩
def F.LRT_FUSE_T_BAD1 : Fld := ⟨.LRT_FUSE_T, 6, 6⟩
def F.LRT_FUSE_T_PRESENT : Fld := ⟨.LRT_FUSE_T, 12, 1⟩
def F.TEL_LOG_PORT_RECORD : Fld := ⟨.TEL_LOG_PORT, 0, 32⟩
def F.TEL_TRC_PORT_RECORD : Fld := ⟨.TEL_TRC_PORT, 0, 32⟩
def F.TEL_ALM_RAISE_TYPE : Fld := ⟨.TEL_ALM_RAISE, 0, 8⟩
def F.TEL_Q_STAT_FILL : Fld := ⟨.TEL_Q_STAT, 0, 6⟩
def F.TEL_Q_STAT_WR_IGN : Fld := ⟨.TEL_Q_STAT, 6, 1⟩
def F.TEL_Q_STAT_DROPS : Fld := ⟨.TEL_Q_STAT, 16, 16⟩
def F.TEL_ALM_PEND_PEND : Fld := ⟨.TEL_ALM_PEND, 0, 32⟩
def F.CFG_FOLLY_STAGE_ROW0ROW3 : Fld := ⟨.CFG_FOLLY_STAGE, 0, 16⟩
def F.CFG_FOLLY_MAP_ROW0ROW3 : Fld := ⟨.CFG_FOLLY_MAP, 0, 16⟩
def F.CFG_FOLLY_MAP_OVERRIDE : Fld := ⟨.CFG_FOLLY_MAP, 31, 1⟩
def F.CFG_PMAP_CTL_APPLY : Fld := ⟨.CFG_PMAP_CTL, 0, 1⟩
def F.CFG_PMAP_CTL_BUSY : Fld := ⟨.CFG_PMAP_CTL, 1, 1⟩
def F.CFG_PMAP_CTL_ERR : Fld := ⟨.CFG_PMAP_CTL, 8, 4⟩
def F.CFG_LOAD_CTL_GO : Fld := ⟨.CFG_LOAD_CTL, 0, 1⟩
def F.CFG_LOAD_CTL_OP : Fld := ⟨.CFG_LOAD_CTL, 1, 2⟩
def F.CFG_LOAD_CTL_SRC : Fld := ⟨.CFG_LOAD_CTL, 3, 2⟩
def F.CFG_LOAD_CTL_FUNC : Fld := ⟨.CFG_LOAD_CTL, 5, 2⟩
def F.CFG_LOAD_STAT_STATE : Fld := ⟨.CFG_LOAD_STAT, 0, 3⟩
def F.CFG_LOAD_STAT_SRC_USED : Fld := ⟨.CFG_LOAD_STAT, 3, 2⟩
def F.CFG_LOAD_STAT_ERR : Fld := ⟨.CFG_LOAD_STAT, 8, 8⟩
def F.CFG_LOAD_STAT_ATTEMPTS : Fld := ⟨.CFG_LOAD_STAT, 16, 8⟩
def F.CFG_LOAD_STAT_WR_IGN : Fld := ⟨.CFG_LOAD_STAT, 24, 1⟩
def F.CFG_LOAD_PAVMASK_MASK : Fld := ⟨.CFG_LOAD_PAVMASK, 0, 32⟩
def F.CFG_HOST_LEN_LEN : Fld := ⟨.CFG_HOST_LEN, 0, 32⟩
def F.CFG_BOOT_BOOT_MODE : Fld := ⟨.CFG_BOOT, 0, 2⟩
def F.CFG_BOOT_AUTH_REQ : Fld := ⟨.CFG_BOOT, 4, 1⟩
def F.CFG_BOOT_ENC_REQ : Fld := ⟨.CFG_BOOT, 5, 1⟩
def F.CFG_BOOT_SECURE : Fld := ⟨.CFG_BOOT, 6, 1⟩
def F.CFG_BOOT_PK_REVOKED : Fld := ⟨.CFG_BOOT, 8, 4⟩
def F.CFG_BOOT_PK_FUSED : Fld := ⟨.CFG_BOOT, 12, 4⟩
def F.CFG_IMG_INFO_HDR : Fld := ⟨.CFG_IMG_INFO, 0, 13⟩
def F.CFG_IMG_INFO_NSECT : Fld := ⟨.CFG_IMG_INFO, 16, 9⟩
def F.CFG_FAIL_SECT_SECT : Fld := ⟨.CFG_FAIL_SECT, 0, 9⟩
def F.CFG_LOAD_BYTES_BYTES : Fld := ⟨.CFG_LOAD_BYTES, 0, 32⟩
def F.CFG_UKEY_W_KEY : Fld := ⟨.CFG_UKEY_W, 0, 32⟩
def F.CAMP_CTL_REF_SEL : Fld := ⟨.CAMP_CTL, 0, 2⟩
def F.CAMP_CTL_STEP_EN : Fld := ⟨.CAMP_CTL, 2, 1⟩
def F.CAMP_CTL_EPOCH_MODE : Fld := ⟨.CAMP_CTL, 4, 2⟩
def F.CAMP_CTL_EPOCH_PER : Fld := ⟨.CAMP_CTL, 6, 6⟩
def F.CAMP_REF_CFG_FREQ_KHZ : Fld := ⟨.CAMP_REF_CFG, 0, 19⟩
def F.CAMP_REF_CFG_LOSS_CNT : Fld := ⟨.CAMP_REF_CFG, 20, 4⟩
def F.CAMP_STAT_SRC : Fld := ⟨.CAMP_STAT, 0, 2⟩
def F.CAMP_STAT_LOCK : Fld := ⟨.CAMP_STAT, 2, 1⟩
def F.CAMP_STAT_SLEWING : Fld := ⟨.CAMP_STAT, 3, 1⟩
def F.CAMP_STAT_A_OK : Fld := ⟨.CAMP_STAT, 4, 1⟩
def F.CAMP_STAT_B_OK : Fld := ⟨.CAMP_STAT, 5, 1⟩
def F.CAMP_STAT_EPOCH_SEEN : Fld := ⟨.CAMP_STAT, 6, 1⟩
def F.CAMP_STAT_STEP_DONE : Fld := ⟨.CAMP_STAT, 7, 1⟩
def F.CAMP_STAT_EPOCH_MISMATCH : Fld := ⟨.CAMP_STAT, 8, 1⟩
def F.CAMP_REF_DIFF_DIFF : Fld := ⟨.CAMP_REF_DIFF, 0, 32⟩
def F.CAMP_ADJ_CTL_GO : Fld := ⟨.CAMP_ADJ_CTL, 0, 1⟩
def F.CAMP_XFER_CTL_ROLE : Fld := ⟨.CAMP_XFER_CTL, 0, 2⟩
def F.CAMP_XFER_CTL_TOWER : Fld := ⟨.CAMP_XFER_CTL, 2, 3⟩
def F.CAMP_XFER_CTL_LANE : Fld := ⟨.CAMP_XFER_CTL, 5, 5⟩
def F.CAMP_XFER_CTL_RATE : Fld := ⟨.CAMP_XFER_CTL, 10, 4⟩
def F.CAMP_XFER_CTL_FILTER : Fld := ⟨.CAMP_XFER_CTL, 14, 4⟩
def F.CAMP_XFER_ASYM_ALPHA : Fld := ⟨.CAMP_XFER_ASYM, 0, 32⟩
def F.CAMP_XFER_OFFS_THETA : Fld := ⟨.CAMP_XFER_OFFS, 0, 32⟩
def F.CAMP_XFER_DELAY_DELTA : Fld := ⟨.CAMP_XFER_DELAY, 0, 32⟩
def F.CAMP_XFER_STAT_VALID : Fld := ⟨.CAMP_XFER_STAT, 0, 1⟩
def F.CAMP_XFER_STAT_COUNT : Fld := ⟨.CAMP_XFER_STAT, 16, 16⟩
def F.CAMP_LQ_PUSH_WORD : Fld := ⟨.CAMP_LQ_PUSH, 0, 32⟩
def F.CAMP_LQ_CTL_EN : Fld := ⟨.CAMP_LQ_CTL, 0, 1⟩
def F.CAMP_LQ_CTL_FLUSH : Fld := ⟨.CAMP_LQ_CTL, 1, 1⟩
def F.CAMP_LQ_STAT_FILL : Fld := ⟨.CAMP_LQ_STAT, 0, 9⟩
def F.CAMP_LQ_STAT_FULL_ERR : Fld := ⟨.CAMP_LQ_STAT, 16, 1⟩
def F.CAMP_LQ_STAT_KIND_ERR : Fld := ⟨.CAMP_LQ_STAT, 17, 1⟩
def F.CAMP_LQ_STAT_TARGET_ERR : Fld := ⟨.CAMP_LQ_STAT, 18, 1⟩
def F.CAMP_LQ_STAT_LATE : Fld := ⟨.CAMP_LQ_STAT, 19, 1⟩
def F.CAMP_LQ_STAT_FLUSH_BUSY : Fld := ⟨.CAMP_LQ_STAT, 20, 1⟩
def F.CAMP_LQ_STAT_PSAMP_OVF : Fld := ⟨.CAMP_LQ_STAT, 21, 1⟩
def F.CAMP_LQ_LAUNCHED_COUNT : Fld := ⟨.CAMP_LQ_LAUNCHED, 0, 32⟩
def F.CAMP_LQ_LATE_COUNT : Fld := ⟨.CAMP_LQ_LATE, 0, 32⟩
def F.CAMP_LQ_DISCARD_COUNT : Fld := ⟨.CAMP_LQ_DISCARD, 0, 32⟩
def F.CAMP_LQ_LAST_TAG_TAG : Fld := ⟨.CAMP_LQ_LAST_TAG, 0, 16⟩
def F.CAMP_LQ_LAST_TAG_KIND : Fld := ⟨.CAMP_LQ_LAST_TAG, 16, 4⟩
def F.CAMP_LQ_LAST_TAG_RESULT : Fld := ⟨.CAMP_LQ_LAST_TAG, 20, 4⟩
def F.CAMP_LQ_STAGE_WORD : Fld := ⟨.CAMP_LQ_STAGE, 0, 32⟩
def F.LDG_RST_CTL_WARM : Fld := ⟨.LDG_RST_CTL, 0, 1⟩
def F.LDG_RST_CTL_COLD : Fld := ⟨.LDG_RST_CTL, 1, 1⟩
def F.LDG_RST_CAUSE_TYPE : Fld := ⟨.LDG_RST_CAUSE, 0, 3⟩
def F.LDG_RST_CAUSE_SRC : Fld := ⟨.LDG_RST_CAUSE, 4, 4⟩
def F.LDG_RST_CAUSE_COUNT : Fld := ⟨.LDG_RST_CAUSE, 16, 16⟩
def F.LDG_SUB_CFG_STATE_LINE : Fld := ⟨.LDG_SUB_CFG, 0, 25⟩
def F.LDG_SUB_CFG_STATE_EN : Fld := ⟨.LDG_SUB_CFG, 30, 1⟩
def F.LDG_SUB_CFG_AUTO : Fld := ⟨.LDG_SUB_CFG, 31, 1⟩
def F.LDG_SUB_CTL_GO : Fld := ⟨.LDG_SUB_CTL, 0, 1⟩
def F.LDG_SUB_CTL_CANCEL : Fld := ⟨.LDG_SUB_CTL, 1, 1⟩
def F.LDG_SUB_CTL_PAV : Fld := ⟨.LDG_SUB_CTL, 8, 5⟩
def F.LDG_SUB_CAND_CAND : Fld := ⟨.LDG_SUB_CAND, 0, 32⟩
def F.LDG_SUB_STAT_STEP : Fld := ⟨.LDG_SUB_STAT, 0, 4⟩
def F.LDG_SUB_STAT_STATE : Fld := ⟨.LDG_SUB_STAT, 4, 3⟩
def F.LDG_SUB_STAT_STATE_ERR : Fld := ⟨.LDG_SUB_STAT, 7, 1⟩
def F.LDG_SUB_STAT_SITE : Fld := ⟨.LDG_SUB_STAT, 8, 6⟩
def F.LDG_SUB_STAT_PAV : Fld := ⟨.LDG_SUB_STAT, 16, 5⟩
def F.LDG_SUB_STAT_WR_IGN : Fld := ⟨.LDG_SUB_STAT, 21, 1⟩
def F.LDG_SUB_STAT_ABANDON : Fld := ⟨.LDG_SUB_STAT, 24, 4⟩
def F.LDG_SUB_MOVE_MOVE : Fld := ⟨.LDG_SUB_MOVE, 0, 32⟩
def F.LDG_SUB_CNT_COUNT : Fld := ⟨.LDG_SUB_CNT, 0, 32⟩
def F.LDG_HOLD_STAT_ACTIVE : Fld := ⟨.LDG_HOLD_STAT, 0, 1⟩
def F.LDG_ELECT_CNT_COUNT : Fld := ⟨.LDG_ELECT_CNT, 0, 32⟩
def F.LDG_JRNL_FILL_WORK : Fld := ⟨.LDG_JRNL_FILL, 0, 13⟩
def F.LDG_JRNL_FILL_DECL : Fld := ⟨.LDG_JRNL_FILL, 16, 13⟩
def F.LDG_JRNL_WAIT_COUNT : Fld := ⟨.LDG_JRNL_WAIT, 0, 32⟩
def F.TEL_ALM_ACT_ACT : Fld := ⟨.TEL_ALM_ACT, 0, 32⟩
def F.TEL_CTL_LOG_EN : Fld := ⟨.TEL_CTL, 0, 1⟩
def F.TEL_CTL_TRC_EN : Fld := ⟨.TEL_CTL, 1, 1⟩
def F.TEL_CTL_LOG_MEM : Fld := ⟨.TEL_CTL, 2, 1⟩
def F.TEL_CTL_TRC_MEM : Fld := ⟨.TEL_CTL, 3, 1⟩
def F.TEL_CTL_FUNC : Fld := ⟨.TEL_CTL, 4, 2⟩
def F.TEL_STAT_INST : Fld := ⟨.TEL_STAT, 0, 1⟩
def F.TEL_STAT_LOG_ERR : Fld := ⟨.TEL_STAT, 1, 1⟩
def F.TEL_STAT_TRC_FULL : Fld := ⟨.TEL_STAT, 2, 1⟩
def F.TEL_STAT_LOG_DROP : Fld := ⟨.TEL_STAT, 3, 1⟩
def F.TEL_STAT_WR_IGN : Fld := ⟨.TEL_STAT, 4, 1⟩
def F.TEL_STAT_INTAKE : Fld := ⟨.TEL_STAT, 8, 7⟩
def F.TEL_LOG_CFG_SIZE_LOG2 : Fld := ⟨.TEL_LOG_CFG, 0, 5⟩
def F.TEL_LOG_CFG_STEP : Fld := ⟨.TEL_LOG_CFG, 8, 4⟩
def F.TEL_LOG_CFG_WM : Fld := ⟨.TEL_LOG_CFG, 16, 16⟩
def F.TEL_LOG_WR_IDX : Fld := ⟨.TEL_LOG_WR, 0, 32⟩
def F.TEL_TRC_WR_IDX : Fld := ⟨.TEL_TRC_WR, 0, 32⟩
def F.TEL_LOG_RD_IDX : Fld := ⟨.TEL_LOG_RD, 0, 32⟩
def F.TEL_TRC_RD_IDX : Fld := ⟨.TEL_TRC_RD, 0, 32⟩
def F.TEL_TRC_CFG_SIZE_LOG2 : Fld := ⟨.TEL_TRC_CFG, 0, 5⟩
def F.TEL_TRC_CFG_SAMPLE : Fld := ⟨.TEL_TRC_CFG, 8, 4⟩
def F.TEL_TRC_DROP_COUNT : Fld := ⟨.TEL_TRC_DROP, 0, 32⟩
def F.TEL_SRC_DROP_COUNT : Fld := ⟨.TEL_SRC_DROP, 0, 32⟩
def F.TEL_LOG_DROP_COUNT : Fld := ⟨.TEL_LOG_DROP, 0, 32⟩
def F.TEL_INTAKE_RECORD : Fld := ⟨.TEL_INTAKE, 0, 32⟩
def F.TEL_ALM_CNT_COUNT : Fld := ⟨.TEL_ALM_CNT, 0, 32⟩
def F.HEVC_SWRAISE_SOURCE : Fld := ⟨.HEVC_SWRAISE, 0, 11⟩
def F.HEVC_PEND_PEND : Fld := ⟨.HEVC_PEND, 0, 32⟩
def F.HEVC_MASK_MASK : Fld := ⟨.HEVC_MASK, 0, 32⟩
def F.HEVC_CLASS_CLASS : Fld := ⟨.HEVC_CLASS, 0, 32⟩
def F.HEVC_GRP_ROUTE_KIND : Fld := ⟨.HEVC_GRP_ROUTE, 0, 1⟩
def F.HEVC_GRP_ROUTE_FUNC : Fld := ⟨.HEVC_GRP_ROUTE, 1, 2⟩
def F.HEVC_GRP_ROUTE_LODGE : Fld := ⟨.HEVC_GRP_ROUTE, 3, 6⟩
def F.HEVC_GRP_ROUTE_FB_LODGE : Fld := ⟨.HEVC_GRP_ROUTE, 9, 6⟩
def F.HEVC_GRP_ROUTE_FB_EN : Fld := ⟨.HEVC_GRP_ROUTE, 15, 1⟩
def F.HEVC_CTL_HOLD : Fld := ⟨.HEVC_CTL, 0, 1⟩
def F.HEVC_STAT_UNDELIVERABLE : Fld := ⟨.HEVC_STAT, 0, 1⟩
def F.HEVC_STAT_STACK_FAULT : Fld := ⟨.HEVC_STAT, 1, 1⟩
def F.HEVC_STAT_HOLD_ACTIVE : Fld := ⟨.HEVC_STAT, 2, 1⟩
def F.HEVC_FB_TMO_TMO : Fld := ⟨.HEVC_FB_TMO, 0, 16⟩
def F.HEVC_GRP_COAL_COUNT : Fld := ⟨.HEVC_GRP_COAL, 0, 13⟩
def F.HEVC_GRP_TIME_TIME : Fld := ⟨.HEVC_GRP_TIME, 0, 25⟩
def F.HEVC_GRP_STAT_COUNT : Fld := ⟨.HEVC_GRP_STAT, 0, 13⟩
def F.HEVC_GRP_STAT_RIPE : Fld := ⟨.HEVC_GRP_STAT, 16, 1⟩
def F.HEVC_GRP_STAT_TIMER : Fld := ⟨.HEVC_GRP_STAT, 17, 1⟩
def F.HEVC_GRP_STAT_REDIRECTED : Fld := ⟨.HEVC_GRP_STAT, 18, 1⟩
def F.HEVC_GRP_STAT_UNDELIVERABLE : Fld := ⟨.HEVC_GRP_STAT, 19, 1⟩
def F.HEVC_ACK_0_ACK : Fld := ⟨.HEVC_ACK_0, 0, 32⟩
def F.HEVC_ACK_1_ACK : Fld := ⟨.HEVC_ACK_1, 0, 32⟩
def F.HEVC_EOI_CLASS : Fld := ⟨.HEVC_EOI, 0, 1⟩
def F.HEVC_TGT_CTL_WAKE : Fld := ⟨.HEVC_TGT_CTL, 0, 1⟩
def F.HEVC_TGT_CTL_STK_CLR : Fld := ⟨.HEVC_TGT_CTL, 1, 1⟩
def F.HEVC_TGT_STAT_DEPTH : Fld := ⟨.HEVC_TGT_STAT, 0, 2⟩
def F.HEVC_TGT_STAT_TOP : Fld := ⟨.HEVC_TGT_STAT, 2, 1⟩
def F.HEVC_TGT_STAT_FROZEN : Fld := ⟨.HEVC_TGT_STAT, 3, 1⟩
def F.HEVC_TGT_STAT_FAULT_CLASS : Fld := ⟨.HEVC_TGT_STAT, 4, 1⟩
def F.HEVC_TGT_STAT_ASLEEP : Fld := ⟨.HEVC_TGT_STAT, 5, 1⟩
def F.HEVC_TGT_STAT_FENCED : Fld := ⟨.HEVC_TGT_STAT, 6, 1⟩
def F.HEVC_TGT_STAT_REQ_N : Fld := ⟨.HEVC_TGT_STAT, 7, 1⟩
def F.HEVC_TGT_STAT_REQ_F : Fld := ⟨.HEVC_TGT_STAT, 8, 1⟩
def F.ANX_CFG_EN : Fld := ⟨.ANX_CFG, 0, 1⟩
def F.ANX_CFG_MAX_RATE : Fld := ⟨.ANX_CFG, 1, 3⟩
def F.ANX_ALLOW_DOME : Fld := ⟨.ANX_ALLOW, 0, 1⟩
def F.ANX_ALLOW_REG : Fld := ⟨.ANX_ALLOW, 1, 1⟩
def F.ANX_ALLOW_LOCAL : Fld := ⟨.ANX_ALLOW, 2, 1⟩
def F.ANX_STAT_STATE : Fld := ⟨.ANX_STAT, 0, 3⟩
def F.ANX_STAT_RATE : Fld := ⟨.ANX_STAT, 3, 3⟩
def F.ANX_STAT_FITTED : Fld := ⟨.ANX_STAT, 6, 1⟩
def F.ANX_STAT_ATTEMPTS : Fld := ⟨.ANX_STAT, 8, 8⟩
def F.ANX_ID_W_ID : Fld := ⟨.ANX_ID_W, 0, 32⟩
def F.ANX_CRC_CNT_COUNT : Fld := ⟨.ANX_CRC_CNT, 0, 32⟩
def F.ANX_RETRY_CNT_COUNT : Fld := ⟨.ANX_RETRY_CNT, 0, 32⟩
def F.ANX_DENY_CNT_COUNT : Fld := ⟨.ANX_DENY_CNT, 0, 32⟩
def F.GPIO_DOUT_VAL : Fld := ⟨.GPIO_DOUT, 0, 16⟩
def F.GPIO_DOUT_MASK : Fld := ⟨.GPIO_DOUT, 16, 16⟩
def F.GPIO_OE_VAL : Fld := ⟨.GPIO_OE, 0, 16⟩
def F.GPIO_OE_MASK : Fld := ⟨.GPIO_OE, 16, 16⟩
def F.GPIO_DIN_VAL : Fld := ⟨.GPIO_DIN, 0, 16⟩
def F.GPIO_EVT_EDGE : Fld := ⟨.GPIO_EVT, 0, 16⟩
def F.GPIO_U_CFG_DIV : Fld := ⟨.GPIO_U_CFG, 0, 16⟩
def F.GPIO_U_CFG_MODE : Fld := ⟨.GPIO_U_CFG, 16, 8⟩
def F.GPIO_U_CFG_EVT : Fld := ⟨.GPIO_U_CFG, 30, 1⟩
def F.GPIO_U_CFG_EN : Fld := ⟨.GPIO_U_CFG, 31, 1⟩
def F.GPIO_U_STAT_TX_FILL : Fld := ⟨.GPIO_U_STAT, 0, 5⟩
def F.GPIO_U_STAT_RX_FILL : Fld := ⟨.GPIO_U_STAT, 8, 5⟩
def F.GPIO_U_STAT_ERR : Fld := ⟨.GPIO_U_STAT, 16, 4⟩
def F.GPIO_U_STAT_BUSY : Fld := ⟨.GPIO_U_STAT, 24, 1⟩
def F.GPIO_U_STAT_WR_IGN : Fld := ⟨.GPIO_U_STAT, 25, 1⟩
def F.GPIO_U_TX_DATA : Fld := ⟨.GPIO_U_TX, 0, 32⟩
def F.GPIO_U_RX_DATA : Fld := ⟨.GPIO_U_RX, 0, 32⟩
def F.DBG_STAT_SECURE : Fld := ⟨.DBG_STAT, 0, 1⟩
def F.DBG_STAT_UNLOCKED : Fld := ⟨.DBG_STAT, 1, 1⟩
def F.DBG_STAT_ERASING : Fld := ⟨.DBG_STAT, 2, 1⟩
def F.DBG_UNLOCK_CTL_GO : Fld := ⟨.DBG_UNLOCK_CTL, 0, 1⟩
def F.DBG_ACC_DATA_DATA : Fld := ⟨.DBG_ACC_DATA, 0, 32⟩
def F.DBG_ACC_CTL_OP : Fld := ⟨.DBG_ACC_CTL, 0, 2⟩
def F.DBG_ACC_CTL_TOUCH : Fld := ⟨.DBG_ACC_CTL, 2, 1⟩
def F.DBG_ACC_STAT_BUSY : Fld := ⟨.DBG_ACC_STAT, 0, 1⟩
def F.DBG_ACC_STAT_STATUS : Fld := ⟨.DBG_ACC_STAT, 1, 4⟩
def F.DBG_ACC_STAT_OVERRUN : Fld := ⟨.DBG_ACC_STAT, 5, 1⟩
def F.PCIE_EP_CTL_EN : Fld := ⟨.PCIE_EP_CTL, 0, 1⟩
def F.PCIE_EP_CTL_MAXW : Fld := ⟨.PCIE_EP_CTL, 1, 3⟩
def F.PCIE_EP_CTL_MAXGEN : Fld := ⟨.PCIE_EP_CTL, 4, 3⟩
def F.PCIE_EP_CTL_IDE_REQ : Fld := ⟨.PCIE_EP_CTL, 7, 1⟩
def F.PCIE_EP_STAT_LINK_UP : Fld := ⟨.PCIE_EP_STAT, 0, 1⟩
def F.PCIE_EP_STAT_WIDTH : Fld := ⟨.PCIE_EP_STAT, 1, 3⟩
def F.PCIE_EP_STAT_GEN : Fld := ⟨.PCIE_EP_STAT, 4, 3⟩
def F.PCIE_EP_STAT_IDE_SECURE : Fld := ⟨.PCIE_EP_STAT, 7, 1⟩
def F.PCIE_EP_STAT_IDE_FAIL : Fld := ⟨.PCIE_EP_STAT, 8, 1⟩
def F.PCIE_EP_STAT_WR_IGN : Fld := ⟨.PCIE_EP_STAT, 9, 1⟩
def F.PCIE_EP_CE_CNT_COUNT : Fld := ⟨.PCIE_EP_CE_CNT, 0, 32⟩
def F.PCIE_EP_UE_CNT_COUNT : Fld := ⟨.PCIE_EP_UE_CNT, 0, 32⟩
def F.PCIE_FN_CFG_EN : Fld := ⟨.PCIE_FN_CFG, 0, 1⟩
def F.PCIE_FN_CFG_MSIX_N : Fld := ⟨.PCIE_FN_CFG, 1, 11⟩
def F.PCIE_FN_STAT_USABLE : Fld := ⟨.PCIE_FN_STAT, 0, 1⟩
def F.PCIE_FN_STAT_BME : Fld := ⟨.PCIE_FN_STAT, 1, 1⟩
def F.PCIE_FN_STAT_FLR : Fld := ⟨.PCIE_FN_STAT, 2, 1⟩
def F.PCIE_FN_STAT_D3HOT : Fld := ⟨.PCIE_FN_STAT, 3, 1⟩
def F.PCIE_FN_STAT_MSIX_EN : Fld := ⟨.PCIE_FN_STAT, 4, 1⟩
def F.PCIE_FN_STAT_WR_IGN : Fld := ⟨.PCIE_FN_STAT, 5, 1⟩
def F.PCIE_FN_BAD_CNT_COUNT : Fld := ⟨.PCIE_FN_BAD_CNT, 0, 32⟩
def F.PCIE_FN_CTO_CNT_COUNT : Fld := ⟨.PCIE_FN_CTO_CNT, 0, 32⟩
def F.PCIE_FN_POISON_CNT_COUNT : Fld := ⟨.PCIE_FN_POISON_CNT, 0, 32⟩
def F.ETH_CTL_EN : Fld := ⟨.ETH_CTL, 0, 1⟩
def F.ETH_CTL_SPEED : Fld := ⟨.ETH_CTL, 1, 2⟩
def F.ETH_CTL_LANES : Fld := ⟨.ETH_CTL, 3, 2⟩
def F.ETH_CTL_FIRST : Fld := ⟨.ETH_CTL, 5, 5⟩
def F.ETH_CTL_AN_EN : Fld := ⟨.ETH_CTL, 10, 1⟩
def F.ETH_CTL_LT_EN : Fld := ⟨.ETH_CTL, 11, 1⟩
def F.ETH_CTL_PAUSE_EN : Fld := ⟨.ETH_CTL, 12, 1⟩
def F.ETH_STAT_LINK_UP : Fld := ⟨.ETH_STAT, 0, 1⟩
def F.ETH_STAT_PCS_ALIGN : Fld := ⟨.ETH_STAT, 1, 1⟩
def F.ETH_STAT_PAUSED : Fld := ⟨.ETH_STAT, 2, 1⟩
def F.ETH_STAT_WR_IGN : Fld := ⟨.ETH_STAT, 3, 1⟩
def F.ETH_STAT_ERR : Fld := ⟨.ETH_STAT, 8, 4⟩
def F.ETH_MAX_FRAME_BYTES : Fld := ⟨.ETH_MAX_FRAME, 0, 14⟩
def F.ETH_RX_CNT_COUNT : Fld := ⟨.ETH_RX_CNT, 0, 32⟩
def F.ETH_FCS_ERR_COUNT : Fld := ⟨.ETH_FCS_ERR, 0, 32⟩
def F.ETH_RX_OTHER_COUNT : Fld := ⟨.ETH_RX_OTHER, 0, 32⟩
def F.ETH_TX_CNT_COUNT : Fld := ⟨.ETH_TX_CNT, 0, 32⟩
def F.ETH_FEC_CORR_COUNT : Fld := ⟨.ETH_FEC_CORR, 0, 32⟩
def F.ETH_FEC_UNCORR_COUNT : Fld := ⟨.ETH_FEC_UNCORR, 0, 32⟩
def F.ETH_SEC_CTL_TX_EN : Fld := ⟨.ETH_SEC_CTL, 0, 1⟩
def F.ETH_SEC_CTL_RX_EN : Fld := ⟨.ETH_SEC_CTL, 1, 1⟩
def F.ETH_SEC_CTL_XPN : Fld := ⟨.ETH_SEC_CTL, 2, 1⟩
def F.ETH_SEC_CTL_RX_STRICT : Fld := ⟨.ETH_SEC_CTL, 3, 1⟩
def F.ETH_SEC_CTL_TX_AN : Fld := ⟨.ETH_SEC_CTL, 4, 2⟩
def F.ETH_SEC_STAT_PN_WARN : Fld := ⟨.ETH_SEC_STAT, 0, 1⟩
def F.ETH_SEC_STAT_PN_EXH : Fld := ⟨.ETH_SEC_STAT, 1, 1⟩
def F.ETH_SEC_STAT_WR_IGN : Fld := ⟨.ETH_SEC_STAT, 2, 1⟩
def F.ETH_SEC_DROP_COUNT : Fld := ⟨.ETH_SEC_DROP, 0, 32⟩
def F.ETH_SEC_SA_KEY_W_KEY : Fld := ⟨.ETH_SEC_SA_KEY_W, 0, 32⟩
def F.ETH_SEC_SA_SALT_W_SALT : Fld := ⟨.ETH_SEC_SA_SALT_W, 0, 32⟩
def F.ETH_SEC_SA_SSCI_SSCI : Fld := ⟨.ETH_SEC_SA_SSCI, 0, 32⟩
def F.XCV_QUAD_CFG_REFSEL : Fld := ⟨.XCV_QUAD_CFG, 0, 3⟩
def F.XCV_QUAD_CFG_MULT_A : Fld := ⟨.XCV_QUAD_CFG, 8, 10⟩
def F.XCV_QUAD_CFG_MULT_B : Fld := ⟨.XCV_QUAD_CFG, 18, 10⟩
def F.XCV_QUAD_REF_FREF_KHZ : Fld := ⟨.XCV_QUAD_REF, 0, 19⟩
def F.XCV_QUAD_STAT_LOCK_A : Fld := ⟨.XCV_QUAD_STAT, 0, 1⟩
def F.XCV_QUAD_STAT_LOCK_B : Fld := ⟨.XCV_QUAD_STAT, 1, 1⟩
def F.XCV_QUAD_STAT_REF_OK : Fld := ⟨.XCV_QUAD_STAT, 2, 1⟩
def F.XCV_QUAD_STAT_REF_TRACK : Fld := ⟨.XCV_QUAD_STAT, 3, 1⟩
def F.XCV_QUAD_STAT_PPM : Fld := ⟨.XCV_QUAD_STAT, 16, 16⟩
def F.XCV_LANE_CFG_USE : Fld := ⟨.XCV_LANE_CFG, 0, 2⟩
def F.XCV_LANE_CFG_MOD : Fld := ⟨.XCV_LANE_CFG, 2, 1⟩
def F.XCV_LANE_CFG_PLL : Fld := ⟨.XCV_LANE_CFG, 3, 1⟩
def F.XCV_LANE_CFG_DIV : Fld := ⟨.XCV_LANE_CFG, 4, 2⟩
def F.XCV_LANE_CFG_TX_POL : Fld := ⟨.XCV_LANE_CFG, 6, 1⟩
def F.XCV_LANE_CFG_RX_POL : Fld := ⟨.XCV_LANE_CFG, 7, 1⟩
def F.XCV_LANE_CFG_LPBK : Fld := ⟨.XCV_LANE_CFG, 8, 2⟩
def F.XCV_LANE_CTL_TX_EN : Fld := ⟨.XCV_LANE_CTL, 0, 1⟩
def F.XCV_LANE_CTL_RX_EN : Fld := ⟨.XCV_LANE_CTL, 1, 1⟩
def F.XCV_LANE_CTL_PRBS_EN : Fld := ⟨.XCV_LANE_CTL, 2, 1⟩
def F.XCV_LANE_CTL_ADAPT_FREEZE : Fld := ⟨.XCV_LANE_CTL, 3, 1⟩
def F.XCV_LANE_CTL_PRBS_SEL : Fld := ⟨.XCV_LANE_CTL, 4, 2⟩
def F.XCV_LANE_STAT_CDR_LOCK : Fld := ⟨.XCV_LANE_STAT, 0, 1⟩
def F.XCV_LANE_STAT_SIG_DET : Fld := ⟨.XCV_LANE_STAT, 1, 1⟩
def F.XCV_LANE_STAT_PRBS_LOCK : Fld := ⟨.XCV_LANE_STAT, 2, 1⟩
def F.XCV_LANE_STAT_CFG_ERR : Fld := ⟨.XCV_LANE_STAT, 3, 1⟩
def F.XCV_LANE_STAT_RATE_MISMATCH : Fld := ⟨.XCV_LANE_STAT, 4, 1⟩
def F.XCV_LANE_STAT_WR_IGN : Fld := ⟨.XCV_LANE_STAT, 5, 1⟩
def F.XCV_LANE_STAT_EYE : Fld := ⟨.XCV_LANE_STAT, 8, 8⟩
def F.XCV_LANE_PRBS_ERR_COUNT : Fld := ⟨.XCV_LANE_PRBS_ERR, 0, 32⟩
def F.XCV_LANE_FAC_FAC : Fld := ⟨.XCV_LANE_FAC, 0, 32⟩
def F.ADM_CFG_S_LOG2 : Fld := ⟨.ADM_CFG, 0, 5⟩
def F.ADM_CFG_NSLOT : Fld := ⟨.ADM_CFG, 8, 13⟩
def F.ADM_CFG_EN : Fld := ⟨.ADM_CFG, 31, 1⟩
def F.ADM_STAT_COUNT : Fld := ⟨.ADM_STAT, 0, 13⟩
def F.ADM_STAT_FAULTED : Fld := ⟨.ADM_STAT, 16, 13⟩
def F.ADM_STAT_CFG_ERR : Fld := ⟨.ADM_STAT, 29, 1⟩
def F.ADM_STAT_WR_IGN : Fld := ⟨.ADM_STAT, 30, 1⟩
def F.ADM_STAT_RESTORE : Fld := ⟨.ADM_STAT, 31, 1⟩
def F.ADM_SLOT_SLOT : Fld := ⟨.ADM_SLOT, 0, 32⟩
def F.ADM_STRAY_COUNT : Fld := ⟨.ADM_STRAY, 0, 32⟩
def F.ADM_DECL_W_W : Fld := ⟨.ADM_DECL_W, 0, 32⟩
def F.ADM_CMD_ID : Fld := ⟨.ADM_CMD, 0, 12⟩
def F.ADM_CMD_OP : Fld := ⟨.ADM_CMD, 12, 3⟩
def F.ADM_CMD_STAT_BUSY : Fld := ⟨.ADM_CMD_STAT, 0, 1⟩
def F.ADM_CMD_STAT_REASON : Fld := ⟨.ADM_CMD_STAT, 8, 8⟩
def F.ADM_CMD_W_W : Fld := ⟨.ADM_CMD_W, 0, 32⟩
def F.ADM_CMD_GAP_GAP : Fld := ⟨.ADM_CMD_GAP, 0, 13⟩
def F.ADM_CMD_GAP_SLOTS : Fld := ⟨.ADM_CMD_GAP, 16, 13⟩
def F.ADM_D_STAT_STATE : Fld := ⟨.ADM_D_STAT, 0, 2⟩
def F.ADM_D_STAT_FAULT : Fld := ⟨.ADM_D_STAT, 4, 4⟩
def F.ADM_D_W_W : Fld := ⟨.ADM_D_W, 0, 32⟩
def F.ADM_D_GAP_GAP : Fld := ⟨.ADM_D_GAP, 0, 32⟩
def F.ADM_D_LATE_COUNT : Fld := ⟨.ADM_D_LATE, 0, 32⟩
def F.RDO_CTL_EN : Fld := ⟨.RDO_CTL, 0, 1⟩
def F.RDO_STAT_STATE : Fld := ⟨.RDO_STAT, 0, 2⟩
def F.RDO_STAT_INST : Fld := ⟨.RDO_STAT, 2, 1⟩
def F.RDO_STAT_WR_IGN : Fld := ⟨.RDO_STAT, 3, 1⟩
def F.RDO_STAT_INTAKE : Fld := ⟨.RDO_STAT, 4, 11⟩
def F.RDO_STAT_BUILDS : Fld := ⟨.RDO_STAT, 16, 7⟩
def F.RDO_CFG_MAX_EVENT : Fld := ⟨.RDO_CFG, 0, 8⟩
def F.RDO_CFG_HOLD_TMO : Fld := ⟨.RDO_CFG, 8, 8⟩
def F.RDO_POLL_IDLE_POLLS : Fld := ⟨.RDO_POLL, 0, 8⟩
def F.RDO_POLL_INTERVAL : Fld := ⟨.RDO_POLL, 8, 12⟩
def F.RDO_POLL_BUDGET : Fld := ⟨.RDO_POLL, 24, 8⟩
def F.RDO_ACC_RETRY_COUNT : Fld := ⟨.RDO_ACC_RETRY, 0, 32⟩
def F.RDO_ACC_BAD_COUNT : Fld := ⟨.RDO_ACC_BAD, 0, 32⟩
def F.RDO_EV_CNT_COUNT : Fld := ⟨.RDO_EV_CNT, 0, 32⟩
def F.RDO_EV_PARTIAL_COUNT : Fld := ⟨.RDO_EV_PARTIAL, 0, 32⟩
def F.RDO_NUDGE_IGN_COUNT : Fld := ⟨.RDO_NUDGE_IGN, 0, 32⟩
def F.RDO_ACC_PORT_RECORD : Fld := ⟨.RDO_ACC_PORT, 0, 32⟩
def F.RDO_SSET_REF_REF : Fld := ⟨.RDO_SSET_REF, 0, 11⟩
def F.RDO_SSET_W_BITS : Fld := ⟨.RDO_SSET_W, 0, 32⟩
def F.FARM_CFG_TOWER : Fld := ⟨.FARM_CFG, 0, 3⟩
def F.FARM_CFG_VLAN_EN : Fld := ⟨.FARM_CFG, 3, 1⟩
def F.FARM_CFG_VLAN : Fld := ⟨.FARM_CFG, 4, 12⟩
def F.FARM_CFG_MTU : Fld := ⟨.FARM_CFG, 16, 14⟩
def F.FARM_CFG_EN : Fld := ⟨.FARM_CFG, 31, 1⟩
def F.FARM_SENT_COUNT : Fld := ⟨.FARM_SENT, 0, 32⟩
def F.RDO_NUDGE_NUDGE : Fld := ⟨.RDO_NUDGE, 0, 32⟩
def F.RDO_QP_CFG_SQ_LOG2 : Fld := ⟨.RDO_QP_CFG, 0, 4⟩
def F.RDO_QP_CFG_CQ_LOG2 : Fld := ⟨.RDO_QP_CFG, 4, 4⟩
def F.RDO_QP_CFG_TYPE : Fld := ⟨.RDO_QP_CFG, 8, 1⟩
def F.RDO_QP_CFG_IRQ_EN : Fld := ⟨.RDO_QP_CFG, 9, 1⟩
def F.RDO_QP_CFG_FUNC : Fld := ⟨.RDO_QP_CFG, 10, 2⟩
def F.RDO_QP_CFG_EVSRC : Fld := ⟨.RDO_QP_CFG, 12, 10⟩
def F.RDO_QP_CTL_EN : Fld := ⟨.RDO_QP_CTL, 0, 1⟩
def F.RDO_QP_CTL_ABORT : Fld := ⟨.RDO_QP_CTL, 1, 1⟩
def F.RDO_QP_STAT_STATE : Fld := ⟨.RDO_QP_STAT, 0, 3⟩
def F.RDO_QP_STAT_WR_IGN : Fld := ⟨.RDO_QP_STAT, 3, 1⟩
def F.RDO_QP_STAT_ERR : Fld := ⟨.RDO_QP_STAT, 4, 4⟩
def F.RDO_QP_SQ_HEAD_IDX : Fld := ⟨.RDO_QP_SQ_HEAD, 0, 16⟩
def F.RDO_QP_CQ_TAIL_IDX : Fld := ⟨.RDO_QP_CQ_TAIL, 0, 16⟩
def F.RDO_QP_JSEQ_SEQ : Fld := ⟨.RDO_QP_JSEQ, 0, 32⟩
def F.RDO_QP_DSEQ_SEQ : Fld := ⟨.RDO_QP_DSEQ, 0, 32⟩
def F.RDO_QP_ERR_SEQ_SEQ : Fld := ⟨.RDO_QP_ERR_SEQ, 0, 32⟩
def F.EVC_CTL_HOLD : Fld := ⟨.EVC_CTL, 0, 1⟩
def F.EVC_STAT_UNDELIVERABLE : Fld := ⟨.EVC_STAT, 0, 1⟩
def F.EVC_STAT_STACK_FAULT : Fld := ⟨.EVC_STAT, 1, 1⟩
def F.EVC_STAT_HOLD_ACTIVE : Fld := ⟨.EVC_STAT, 2, 1⟩
def F.EVC_FB_TMO_TMO : Fld := ⟨.EVC_FB_TMO, 0, 16⟩
def F.EVC_SWRAISE_SOURCE : Fld := ⟨.EVC_SWRAISE, 0, 9⟩
def F.EVC_PEND_PEND : Fld := ⟨.EVC_PEND, 0, 32⟩
def F.EVC_MASK_MASK : Fld := ⟨.EVC_MASK, 0, 32⟩
def F.EVC_CLASS_CLASS : Fld := ⟨.EVC_CLASS, 0, 32⟩
def F.EVC_GRP_ROUTE_TARGET : Fld := ⟨.EVC_GRP_ROUTE, 0, 4⟩
def F.EVC_GRP_ROUTE_FLOW : Fld := ⟨.EVC_GRP_ROUTE, 4, 10⟩
def F.EVC_GRP_ROUTE_FB_TARGET : Fld := ⟨.EVC_GRP_ROUTE, 14, 4⟩
def F.EVC_GRP_ROUTE_FB_EN : Fld := ⟨.EVC_GRP_ROUTE, 18, 1⟩
def F.EVC_GRP_COAL_COUNT : Fld := ⟨.EVC_GRP_COAL, 0, 13⟩
def F.EVC_GRP_TIME_TIME : Fld := ⟨.EVC_GRP_TIME, 0, 25⟩
def F.EVC_GRP_STAT_COUNT : Fld := ⟨.EVC_GRP_STAT, 0, 13⟩
def F.EVC_GRP_STAT_RIPE : Fld := ⟨.EVC_GRP_STAT, 16, 1⟩
def F.EVC_GRP_STAT_TIMER : Fld := ⟨.EVC_GRP_STAT, 17, 1⟩
def F.EVC_GRP_STAT_REDIRECTED : Fld := ⟨.EVC_GRP_STAT, 18, 1⟩
def F.EVC_GRP_STAT_UNDELIVERABLE : Fld := ⟨.EVC_GRP_STAT, 19, 1⟩
def F.EVC_ACK_0_ACK : Fld := ⟨.EVC_ACK_0, 0, 32⟩
def F.EVC_ACK_1_ACK : Fld := ⟨.EVC_ACK_1, 0, 32⟩
def F.EVC_EOI_CLASS : Fld := ⟨.EVC_EOI, 0, 1⟩
def F.EVC_TGT_CTL_WAKE : Fld := ⟨.EVC_TGT_CTL, 0, 1⟩
def F.EVC_TGT_CTL_STK_CLR : Fld := ⟨.EVC_TGT_CTL, 1, 1⟩
def F.EVC_TGT_STAT_DEPTH : Fld := ⟨.EVC_TGT_STAT, 0, 2⟩
def F.EVC_TGT_STAT_TOP : Fld := ⟨.EVC_TGT_STAT, 2, 1⟩
def F.EVC_TGT_STAT_FROZEN : Fld := ⟨.EVC_TGT_STAT, 3, 1⟩
def F.EVC_TGT_STAT_FAULT_CLASS : Fld := ⟨.EVC_TGT_STAT, 4, 1⟩
def F.EVC_TGT_STAT_ASLEEP : Fld := ⟨.EVC_TGT_STAT, 5, 1⟩
def F.EVC_TGT_STAT_FENCED : Fld := ⟨.EVC_TGT_STAT, 6, 1⟩
def F.EVC_TGT_STAT_REQ_N : Fld := ⟨.EVC_TGT_STAT, 7, 1⟩
def F.EVC_TGT_STAT_REQ_F : Fld := ⟨.EVC_TGT_STAT, 8, 1⟩
def F.TSK_CTL_EN : Fld := ⟨.TSK_CTL, 0, 1⟩
def F.TSK_CTL_TICK : Fld := ⟨.TSK_CTL, 8, 5⟩
def F.TSK_STAT_STATE : Fld := ⟨.TSK_STAT, 0, 2⟩
def F.TSK_STAT_WR_IGN : Fld := ⟨.TSK_STAT, 2, 1⟩
def F.TSK_STAT_CPL_FULL : Fld := ⟨.TSK_STAT, 3, 1⟩
def F.TSK_STAT_SLOTS : Fld := ⟨.TSK_STAT, 16, 15⟩
def F.TSK_DLY_STAT_USED : Fld := ⟨.TSK_DLY_STAT, 0, 13⟩
def F.TSK_RST_LOST_COUNT : Fld := ⟨.TSK_RST_LOST, 0, 15⟩
def F.TSK_CMD_W_W : Fld := ⟨.TSK_CMD_W, 0, 32⟩
def F.TSK_CMD_STAT_STATUS : Fld := ⟨.TSK_CMD_STAT, 0, 4⟩
def F.TSK_CMD_STAT_HANDLE : Fld := ⟨.TSK_CMD_STAT, 16, 14⟩
def F.TSK_CMD_PORT_RECORD : Fld := ⟨.TSK_CMD_PORT, 0, 32⟩
def F.TSK_CPL_FIFO_W0_W0 : Fld := ⟨.TSK_CPL_FIFO_W0, 0, 32⟩
def F.TSK_CPL_FIFO_W123_W : Fld := ⟨.TSK_CPL_FIFO_W123, 0, 32⟩
def F.TSK_CPL_STAT_FILL : Fld := ⟨.TSK_CPL_STAT, 0, 11⟩
def F.TSK_CPL_STAT_THR : Fld := ⟨.TSK_CPL_STAT, 16, 11⟩
def F.TSK_POST_CNT_COUNT : Fld := ⟨.TSK_POST_CNT, 0, 32⟩
def F.TSK_DISP_CNT_COUNT : Fld := ⟨.TSK_DISP_CNT, 0, 32⟩
def F.TSK_CANCEL_CNT_COUNT : Fld := ⟨.TSK_CANCEL_CNT, 0, 32⟩
def F.TSK_REFUSE_CNT_COUNT : Fld := ⟨.TSK_REFUSE_CNT, 0, 32⟩
def F.TSK_FAULT_CNT_COUNT : Fld := ⟨.TSK_FAULT_CNT, 0, 32⟩
def F.TSK_DLY_PAST_COUNT : Fld := ⟨.TSK_DLY_PAST, 0, 32⟩
def F.TSK_LDG_DONE_DONE : Fld := ⟨.TSK_LDG_DONE, 0, 32⟩
def F.TSK_FLOW_CMD_FLOW : Fld := ⟨.TSK_FLOW_CMD, 0, 10⟩
def F.TSK_FLOW_CMD_OP : Fld := ⟨.TSK_FLOW_CMD, 12, 2⟩
def F.TSK_FLOW_CMD_STAT_BUSY : Fld := ⟨.TSK_FLOW_CMD_STAT, 0, 1⟩
def F.TSK_TGT_CFG_MBOX : Fld := ⟨.TSK_TGT_CFG, 0, 18⟩
def F.TSK_TGT_CFG_EN : Fld := ⟨.TSK_TGT_CFG, 31, 1⟩
def F.TSK_TGT_STAT_HANDLE : Fld := ⟨.TSK_TGT_STAT, 0, 14⟩
def F.TSK_TGT_STAT_FLOW : Fld := ⟨.TSK_TGT_STAT, 14, 10⟩
def F.TSK_TGT_STAT_BUSY : Fld := ⟨.TSK_TGT_STAT, 31, 1⟩
def F.TSK_FLOW_EN : Fld := ⟨.TSK_FLOW, 0, 1⟩
def F.TSK_FLOW_DISPATCH : Fld := ⟨.TSK_FLOW, 1, 1⟩
def F.TSK_FLOW_PRIO : Fld := ⟨.TSK_FLOW, 2, 1⟩
def F.TSK_FLOW_CPL_DONE : Fld := ⟨.TSK_FLOW, 3, 1⟩
def F.TSK_FLOW_TARGETS : Fld := ⟨.TSK_FLOW, 4, 9⟩
def F.TSK_FLOW_ENTRY : Fld := ⟨.TSK_FLOW, 13, 13⟩
def F.TSK_FSTAT_COUNT : Fld := ⟨.TSK_FSTAT, 0, 15⟩
def F.TSK_FSTAT_RUNNING : Fld := ⟨.TSK_FSTAT, 15, 1⟩
def F.TSK_FSTAT_ERR : Fld := ⟨.TSK_FSTAT, 16, 2⟩
def F.SPR_CTL_EN : Fld := ⟨.SPR_CTL, 0, 1⟩
def F.SPR_CTL_LOAD : Fld := ⟨.SPR_CTL, 1, 1⟩
def F.SPR_CTL_CRST : Fld := ⟨.SPR_CTL, 2, 1⟩
def F.SPR_CTL_CLRF0 : Fld := ⟨.SPR_CTL, 3, 1⟩
def F.SPR_CTL_CLRF1 : Fld := ⟨.SPR_CTL, 4, 1⟩
def F.SPR_STAT_CTX0 : Fld := ⟨.SPR_STAT, 0, 3⟩
def F.SPR_STAT_CTX1 : Fld := ⟨.SPR_STAT, 4, 3⟩
def F.SPR_STAT_IMEM_VALID : Fld := ⟨.SPR_STAT, 8, 1⟩
def F.SPR_STAT_LOADING : Fld := ⟨.SPR_STAT, 9, 1⟩
def F.SPR_STAT_STATE : Fld := ⟨.SPR_STAT, 10, 2⟩
def F.SPR_STAT_WR_IGN : Fld := ⟨.SPR_STAT, 12, 1⟩
def F.SPR_STAT_START_ERR : Fld := ⟨.SPR_STAT, 13, 1⟩
def F.SPR_STAT_LOAD_ERR : Fld := ⟨.SPR_STAT, 14, 1⟩
def F.SPR_START_ADDR : Fld := ⟨.SPR_START, 0, 13⟩
def F.SPR_START_CTX : Fld := ⟨.SPR_START, 16, 1⟩
def F.SPR_START_ARG_ARG : Fld := ⟨.SPR_START_ARG, 0, 32⟩
def F.SPR_IMG_BASE_BASE : Fld := ⟨.SPR_IMG_BASE, 0, 29⟩
def F.SPR_IMG_LEN_LINES : Fld := ⟨.SPR_IMG_LEN, 0, 11⟩
def F.SPR_VEC_NORMAL : Fld := ⟨.SPR_VEC, 0, 13⟩
def F.SPR_VEC_FAST : Fld := ⟨.SPR_VEC, 16, 13⟩
def F.SPR_FAULT0_CAUSE : Fld := ⟨.SPR_FAULT0, 0, 4⟩
def F.SPR_FAULT0_PC : Fld := ⟨.SPR_FAULT0, 16, 13⟩
def F.SPR_FAULT1_CAUSE : Fld := ⟨.SPR_FAULT1, 0, 4⟩
def F.SPR_FAULT1_PC : Fld := ⟨.SPR_FAULT1, 16, 13⟩
def F.SPR_PC0_PC : Fld := ⟨.SPR_PC0, 0, 13⟩
def F.SPR_PC1_PC : Fld := ⟨.SPR_PC1, 0, 13⟩
def F.SPR_PERR_CNT_COUNT : Fld := ⟨.SPR_PERR_CNT, 0, 32⟩
def F.SPR_IREFETCH_CNT_COUNT : Fld := ⟨.SPR_IREFETCH_CNT, 0, 32⟩
def F.SPR_ISSUE0_CNT_COUNT : Fld := ⟨.SPR_ISSUE0_CNT, 0, 32⟩
def F.SPR_ISSUE1_CNT_COUNT : Fld := ⟨.SPR_ISSUE1_CNT, 0, 32⟩
def F.SPR_STALL_CNT_COUNT : Fld := ⟨.SPR_STALL_CNT, 0, 32⟩
def F.SPR_DMA_LADDR_LADDR : Fld := ⟨.SPR_DMA_LADDR, 0, 18⟩
def F.SPR_DMA_PADDR_LO_PADDR : Fld := ⟨.SPR_DMA_PADDR_LO, 0, 32⟩
def F.SPR_DMA_PADDR_HI_PADDR : Fld := ⟨.SPR_DMA_PADDR_HI, 0, 16⟩
def F.SPR_DMA_LEN_LEN : Fld := ⟨.SPR_DMA_LEN, 0, 19⟩
def F.SPR_DMA_CTL_GO : Fld := ⟨.SPR_DMA_CTL, 0, 1⟩
def F.SPR_DMA_CTL_DIR : Fld := ⟨.SPR_DMA_CTL, 1, 1⟩
def F.SPR_DMA_CTL_EVT : Fld := ⟨.SPR_DMA_CTL, 2, 1⟩
def F.SPR_DMA_CTL_RT : Fld := ⟨.SPR_DMA_CTL, 3, 1⟩
def F.SPR_DMA_CTL_DECL : Fld := ⟨.SPR_DMA_CTL, 4, 12⟩
def F.SPR_DMA_CTL_ABORT : Fld := ⟨.SPR_DMA_CTL, 16, 1⟩
def F.SPR_DMA_STAT_BUSY : Fld := ⟨.SPR_DMA_STAT, 0, 1⟩
def F.SPR_DMA_STAT_DONE : Fld := ⟨.SPR_DMA_STAT, 1, 1⟩
def F.SPR_DMA_STAT_ERR : Fld := ⟨.SPR_DMA_STAT, 4, 4⟩
def F.SPR_FEED_CFG_EN : Fld := ⟨.SPR_FEED_CFG, 0, 1⟩
def F.SPR_FEED_CFG_SAMP : Fld := ⟨.SPR_FEED_CFG, 1, 1⟩
def F.SPR_FEED_CFG_PRIM : Fld := ⟨.SPR_FEED_CFG, 2, 1⟩
def F.SPR_FEED_CFG_STREAM : Fld := ⟨.SPR_FEED_CFG, 4, 8⟩
def F.SPR_FEED_CFG_KEEP : Fld := ⟨.SPR_FEED_CFG, 12, 8⟩
def F.SPR_FEED_CFG_ERR : Fld := ⟨.SPR_FEED_CFG, 20, 4⟩
def F.SPR_FEED_CFG_V : Fld := ⟨.SPR_FEED_CFG, 24, 3⟩
def F.SPR_FEED_SBASE_BASE : Fld := ⟨.SPR_FEED_SBASE, 0, 18⟩
def F.SPR_FEED_SLEN_LEN : Fld := ⟨.SPR_FEED_SLEN, 0, 18⟩
def F.SPR_FEED_RIDX_IDX : Fld := ⟨.SPR_FEED_RIDX, 0, 18⟩
def F.SPR_FEED_WIDX_IDX : Fld := ⟨.SPR_FEED_WIDX, 0, 18⟩
def F.SPR_FEED_PBASE_BASE : Fld := ⟨.SPR_FEED_PBASE, 0, 18⟩
def F.SPR_FEED_PLEN_LEN : Fld := ⟨.SPR_FEED_PLEN, 0, 18⟩
def F.SPR_FEED_PWIDX_IDX : Fld := ⟨.SPR_FEED_PWIDX, 0, 18⟩
def F.SPR_FEED_DROP_COUNT : Fld := ⟨.SPR_FEED_DROP, 0, 32⟩
def F.GATE_CTL_EN : Fld := ⟨.GATE_CTL, 0, 1⟩
def F.GATE_STAT_STATE : Fld := ⟨.GATE_STAT, 0, 2⟩
def F.GATE_STAT_WR_IGN : Fld := ⟨.GATE_STAT, 2, 1⟩
def F.GATE_STAT_BUF_FILL : Fld := ⟨.GATE_STAT, 16, 12⟩
def F.GATE_COMMIT_TMO_TMO : Fld := ⟨.GATE_COMMIT_TMO, 0, 16⟩
def F.GATE_STRM_CMD_IDX : Fld := ⟨.GATE_STRM_CMD, 0, 8⟩
def F.GATE_STRM_CMD_OP : Fld := ⟨.GATE_STRM_CMD, 8, 3⟩
def F.GATE_STRM_CMD_STAT_BUSY : Fld := ⟨.GATE_STRM_CMD_STAT, 0, 1⟩
def F.GATE_STRM_CMD_STAT_ERR : Fld := ⟨.GATE_STRM_CMD_STAT, 8, 4⟩
def F.GATE_SENT_W_W : Fld := ⟨.GATE_SENT_W, 0, 32⟩
def F.GATE_SST_STATE : Fld := ⟨.GATE_SST, 0, 3⟩
def F.GATE_SST_DEGRADED : Fld := ⟨.GATE_SST, 3, 1⟩
def F.GATE_SST_LAST_REASON : Fld := ⟨.GATE_SST, 4, 4⟩
def F.GATE_SSEQ_SEQ : Fld := ⟨.GATE_SSEQ, 0, 32⟩
def F.GATE_SREFUSED_COUNT : Fld := ⟨.GATE_SREFUSED, 0, 32⟩
def F.GATE_SLATE_COUNT : Fld := ⟨.GATE_SLATE, 0, 32⟩
def F.GATE_SCRCERR_COUNT : Fld := ⟨.GATE_SCRCERR, 0, 32⟩
def F.GATE_SRMIN_RMIN : Fld := ⟨.GATE_SRMIN, 0, 32⟩
def F.GATE_SSLACK_SLACK : Fld := ⟨.GATE_SSLACK, 0, 32⟩
def F.GATE_SSAT_COUNT : Fld := ⟨.GATE_SSAT, 0, 32⟩
def F.DOME_CTL_SR_REQ : Fld := ⟨.DOME_CTL, 0, 1⟩
def F.DOME_CTL_ECC_WB : Fld := ⟨.DOME_CTL, 1, 1⟩
def F.DOME_CTL_PATROL_EN : Fld := ⟨.DOME_CTL, 2, 1⟩
def F.DOME_STAT_STATE : Fld := ⟨.DOME_STAT, 0, 2⟩
def F.DOME_STAT_THERM_STEP : Fld := ⟨.DOME_STAT, 2, 2⟩
def F.DOME_STAT_WR_IGN : Fld := ⟨.DOME_STAT, 4, 1⟩
def F.DOME_STAT_LAST_SUB : Fld := ⟨.DOME_STAT, 8, 4⟩
def F.DOME_CHAN_STAT_CH_DOWN : Fld := ⟨.DOME_CHAN_STAT, 0, 8⟩
def F.DOME_SCHED_WM_HI : Fld := ⟨.DOME_SCHED, 0, 7⟩
def F.DOME_SCHED_WM_LO : Fld := ⟨.DOME_SCHED, 8, 6⟩
def F.DOME_SCHED_WR_AGE : Fld := ⟨.DOME_SCHED, 16, 8⟩
def F.DOME_SCHED_IDLE_CLOSE : Fld := ⟨.DOME_SCHED, 24, 8⟩
def F.DOME_PORT_CFG_CLOSE : Fld := ⟨.DOME_PORT_CFG, 0, 7⟩
def F.DOME_ACT_THR_THR : Fld := ⟨.DOME_ACT_THR, 0, 14⟩
def F.DOME_REF_CFG_POSTPONE_MAX : Fld := ⟨.DOME_REF_CFG, 0, 4⟩
def F.DOME_RT_CFG_PANIC_NS : Fld := ⟨.DOME_RT_CFG, 0, 8⟩
def F.DOME_RT_CFG_PANIC_FILL : Fld := ⟨.DOME_RT_CFG, 8, 5⟩
def F.DOME_RT_CFG_RATE : Fld := ⟨.DOME_RT_CFG, 16, 12⟩
def F.DOME_RT_WC_NS : Fld := ⟨.DOME_RT_WC, 0, 16⟩
def F.DOME_TEMP_TEMP : Fld := ⟨.DOME_TEMP, 0, 9⟩
def F.DOME_RSV_BASE_BASE : Fld := ⟨.DOME_RSV_BASE, 0, 25⟩
def F.DOME_RSV_SIZE_SIZE : Fld := ⟨.DOME_RSV_SIZE, 0, 25⟩
def F.DOME_ECC_STAT_CE : Fld := ⟨.DOME_ECC_STAT, 0, 1⟩
def F.DOME_ECC_STAT_UE : Fld := ⟨.DOME_ECC_STAT, 1, 1⟩
def F.DOME_CE_CNT_COUNT : Fld := ⟨.DOME_CE_CNT, 0, 32⟩
def F.DOME_UE_CNT_COUNT : Fld := ⟨.DOME_UE_CNT, 0, 32⟩
def F.DOME_POISON_CNT_COUNT : Fld := ⟨.DOME_POISON_CNT, 0, 32⟩
def F.DOME_PATROL_CFG_HOURS : Fld := ⟨.DOME_PATROL_CFG, 0, 8⟩
def F.DOME_NRF_CNT_COUNT : Fld := ⟨.DOME_NRF_CNT, 0, 32⟩
def F.DOME_COMMIT_CNT_COUNT : Fld := ⟨.DOME_COMMIT_CNT, 0, 32⟩
def F.DOME_REFUSE_CNT_COUNT : Fld := ⟨.DOME_REFUSE_CNT, 0, 32⟩
def F.DOME_RING_CFG_STREAM : Fld := ⟨.DOME_RING_CFG, 0, 13⟩
def F.DOME_RING_CFG_COPY : Fld := ⟨.DOME_RING_CFG, 13, 1⟩
def F.DOME_RING_CFG_FRAG_SHIFT : Fld := ⟨.DOME_RING_CFG, 14, 4⟩
def F.DOME_RING_CFG_IDX_LOG2 : Fld := ⟨.DOME_RING_CFG, 18, 5⟩
def F.DOME_RING_CFG_HOLD_EN : Fld := ⟨.DOME_RING_CFG, 23, 1⟩
def F.DOME_RING_CFG_HOLD_POLICY : Fld := ⟨.DOME_RING_CFG, 24, 1⟩
def F.DOME_RING_CFG_EN : Fld := ⟨.DOME_RING_CFG, 31, 1⟩
def F.DOME_RING_IDX_BASE_BASE : Fld := ⟨.DOME_RING_IDX_BASE, 0, 29⟩
def F.DOME_RING_DATA_BASE_BASE : Fld := ⟨.DOME_RING_DATA_BASE, 0, 29⟩
def F.DOME_RING_DATA_LINES_LINES : Fld := ⟨.DOME_RING_DATA_LINES, 0, 25⟩
def F.DOME_RING_WR_PTR_PTR : Fld := ⟨.DOME_RING_WR_PTR, 0, 25⟩
def F.DOME_RING_STAT_INIT : Fld := ⟨.DOME_RING_STAT, 0, 1⟩
def F.DOME_RING_STAT_BUSY : Fld := ⟨.DOME_RING_STAT, 1, 1⟩
def F.DOME_RING_STAT_HOLD_LOST : Fld := ⟨.DOME_RING_STAT, 2, 1⟩
def F.DOME_RING_STAT_TIME_BACK : Fld := ⟨.DOME_RING_STAT, 3, 1⟩
def F.DOME_RING_STAT_ERR : Fld := ⟨.DOME_RING_STAT, 4, 4⟩
def F.DOME_RING_STAT_LAST_SUB : Fld := ⟨.DOME_RING_STAT, 8, 4⟩
def F.PRM_STAT_FENCE : Fld := ⟨.PRM_STAT, 0, 2⟩
def F.PRM_STAT_WR_IGN : Fld := ⟨.PRM_STAT, 2, 1⟩
def F.PRM_STAT_DRAIN_TMO : Fld := ⟨.PRM_STAT, 3, 1⟩
def F.PRM_FENCE_CTL_REQ : Fld := ⟨.PRM_FENCE_CTL, 0, 1⟩
def F.PRM_FENCE_CTL_SCOPE : Fld := ⟨.PRM_FENCE_CTL, 1, 1⟩
def F.PRM_FENCE_TMO_TMO : Fld := ⟨.PRM_FENCE_TMO, 0, 16⟩
def F.PRM_REQ_TMO_TMO : Fld := ⟨.PRM_REQ_TMO, 0, 16⟩
def F.PRM_MGMT_LIMIT : Fld := ⟨.PRM_MGMT, 0, 7⟩
def F.PRM_FENCE_PORT_PORTS : Fld := ⟨.PRM_FENCE_PORT, 0, 32⟩
def F.PRM_ISO_NODES : Fld := ⟨.PRM_ISO, 0, 44⟩
def F.PRM_LINK_STAT_UP : Fld := ⟨.PRM_LINK_STAT, 0, 1⟩
def F.PRM_LINK_STAT_WIDTH : Fld := ⟨.PRM_LINK_STAT, 1, 2⟩
def F.PRM_LINK_STAT_REACH3 : Fld := ⟨.PRM_LINK_STAT, 3, 1⟩
def F.PRM_ERR_RSP_CNT_COUNT : Fld := ⟨.PRM_ERR_RSP_CNT, 0, 32⟩
def F.PRM_ABSORB_CNT_COUNT : Fld := ⟨.PRM_ABSORB_CNT, 0, 32⟩
def F.PRM_TMO_CNT_COUNT : Fld := ⟨.PRM_TMO_CNT, 0, 32⟩
def F.PRM_LATE_RSP_CNT_COUNT : Fld := ⟨.PRM_LATE_RSP_CNT, 0, 32⟩
def F.PRM_REROUTE_CNT_COUNT : Fld := ⟨.PRM_REROUTE_CNT, 0, 32⟩
def F.PRM_RT_MISS_CNT_COUNT : Fld := ⟨.PRM_RT_MISS_CNT, 0, 32⟩
def F.PRM_BAD_CNT_COUNT : Fld := ⟨.PRM_BAD_CNT, 0, 32⟩
def F.CFG_PLL_CFG_M : Fld := ⟨.CFG_PLL_CFG, 0, 10⟩
def F.CFG_PLL_CFG_NM1 : Fld := ⟨.CFG_PLL_CFG, 10, 4⟩
def F.CFG_PLL_CTL_APPLY : Fld := ⟨.CFG_PLL_CTL, 0, 1⟩
def F.CFG_PLL_STAT_LOCK : Fld := ⟨.CFG_PLL_STAT, 0, 1⟩
def F.CFG_PLL_STAT_RELOCKING : Fld := ⟨.CFG_PLL_STAT, 1, 1⟩
def F.CFG_PLL_STAT_ALIGNED : Fld := ⟨.CFG_PLL_STAT, 2, 1⟩
def F.CFG_PLL_STAT_CFG_ERR : Fld := ⟨.CFG_PLL_STAT, 3, 1⟩
def F.CFG_PLL_STAT_LOSS : Fld := ⟨.CFG_PLL_STAT, 4, 1⟩
def F.CFG_GCLK_SRC : Fld := ⟨.CFG_GCLK, 0, 5⟩
def F.CFG_GCLK_GATE_EN : Fld := ⟨.CFG_GCLK, 5, 1⟩
def F.CFG_RST_SYNC_CLK : Fld := ⟨.CFG_RST, 0, 5⟩
def F.CFG_RST_WARM : Fld := ⟨.CFG_RST, 8, 1⟩
def F.CFG_RST_SW : Fld := ⟨.CFG_RST, 9, 1⟩
def F.CFG_RST_FABRIC : Fld := ⟨.CFG_RST, 10, 1⟩
def F.CFG_FEVT_CLK : Fld := ⟨.CFG_FEVT, 0, 5⟩
def F.CFG_FTIME_CLK : Fld := ⟨.CFG_FTIME, 0, 5⟩
def F.CFG_SPORT_STREAM : Fld := ⟨.CFG_SPORT, 0, 8⟩
def F.CFG_SPORT_CLK : Fld := ⟨.CFG_SPORT, 8, 5⟩
def F.CFG_SPORT_PRIM : Fld := ⟨.CFG_SPORT, 13, 1⟩
def F.CFG_SPORT_SKEW : Fld := ⟨.CFG_SPORT, 14, 1⟩
def F.CFG_SPORT_EN : Fld := ⟨.CFG_SPORT, 31, 1⟩
def F.CFG_XOUT_CLK : Fld := ⟨.CFG_XOUT, 0, 5⟩
def F.CFG_XOUT_EN : Fld := ⟨.CFG_XOUT, 31, 1⟩
def F.CFG_XIN_CLK : Fld := ⟨.CFG_XIN, 0, 5⟩
def F.CFG_XIN_PIN : Fld := ⟨.CFG_XIN, 8, 1⟩
def F.CFG_XIN_FPOL : Fld := ⟨.CFG_XIN, 9, 1⟩
def F.CFG_XIN_EN : Fld := ⟨.CFG_XIN, 31, 1⟩
def F.CFG_XSTAT_LAT : Fld := ⟨.CFG_XSTAT, 0, 3⟩
def F.CFG_XSTAT_PINNED : Fld := ⟨.CFG_XSTAT, 3, 1⟩
def F.CFG_XSTAT_FAULT : Fld := ⟨.CFG_XSTAT, 4, 1⟩
def F.CFG_XSTAT_NO_PEER : Fld := ⟨.CFG_XSTAT, 5, 1⟩
def F.CFG_FEP_CLK : Fld := ⟨.CFG_FEP, 0, 5⟩
def F.CFG_FEP_MODE : Fld := ⟨.CFG_FEP, 5, 1⟩
def F.CFG_FEP_EN : Fld := ⟨.CFG_FEP, 31, 1⟩
def F.CFG_FEP_STAT_PINNED : Fld := ⟨.CFG_FEP_STAT, 0, 1⟩
def F.CFG_FEP_STAT_ACTIVE : Fld := ⟨.CFG_FEP_STAT, 1, 1⟩
def F.CFG_FEP_STAT_SLOTS : Fld := ⟨.CFG_FEP_STAT, 2, 4⟩
def F.CFG_STAT_PLOTS_READY : Fld := ⟨.CFG_STAT, 0, 4⟩
def F.CFG_STAT_LOADED : Fld := ⟨.CFG_STAT, 4, 1⟩
def F.CFG_VER_CTL_EN : Fld := ⟨.CFG_VER_CTL, 0, 1⟩
def F.CFG_VER_CTL_GAP : Fld := ⟨.CFG_VER_CTL, 8, 8⟩
def F.CFG_VER_STAT_STATE : Fld := ⟨.CFG_VER_STAT, 0, 2⟩
def F.CFG_VER_STAT_TBL_ERR : Fld := ⟨.CFG_VER_STAT, 2, 1⟩
def F.CFG_VER_STAT_STUCK : Fld := ⟨.CFG_VER_STAT, 3, 1⟩
def F.CFG_VER_STAT_UNREPAIRABLE : Fld := ⟨.CFG_VER_STAT, 4, 1⟩
def F.CFG_VER_PASS_CNT_COUNT : Fld := ⟨.CFG_VER_PASS_CNT, 0, 32⟩
def F.CFG_VER_REPAIR_CNT_COUNT : Fld := ⟨.CFG_VER_REPAIR_CNT, 0, 32⟩
def F.CFG_VER_STUCK_CNT_COUNT : Fld := ⟨.CFG_VER_STUCK_CNT, 0, 32⟩
def F.CFG_VER_VOTE_CNT_COUNT : Fld := ⟨.CFG_VER_VOTE_CNT, 0, 32⟩
def F.CFG_VER_TBL_ERR_CNT_COUNT : Fld := ⟨.CFG_VER_TBL_ERR_CNT, 0, 32⟩
def F.CFG_VER_LAST_FRAME : Fld := ⟨.CFG_VER_LAST, 0, 12⟩
def F.CFG_VER_LAST_PLOT : Fld := ⟨.CFG_VER_LAST, 12, 2⟩
def F.CFG_VER_LAST_KIND : Fld := ⟨.CFG_VER_LAST, 16, 2⟩
def F.CFG_PLOT_CTL_GO : Fld := ⟨.CFG_PLOT_CTL, 0, 1⟩
def F.CFG_PLOT_STAT_PLOT_READY : Fld := ⟨.CFG_PLOT_STAT, 0, 1⟩
def F.CFG_PLOT_STAT_STATE : Fld := ⟨.CFG_PLOT_STAT, 1, 3⟩
def F.CFG_PLOT_STAT_WR_IGN : Fld := ⟨.CFG_PLOT_STAT, 4, 1⟩
def F.CFG_PLOT_STAT_ERR : Fld := ⟨.CFG_PLOT_STAT, 8, 8⟩
def F.CFG_PLOT_SRC_BASE : Fld := ⟨.CFG_PLOT_SRC, 0, 29⟩
def F.CFG_PLOT_LEN_LEN : Fld := ⟨.CFG_PLOT_LEN, 0, 32⟩
def F.CFG_PLOT_HPOL_POL : Fld := ⟨.CFG_PLOT_HPOL, 0, 32⟩
def F.MEM_STAT_SRAM_UE : Fld := ⟨.MEM_STAT, 0, 1⟩
def F.MEM_STAT_REMAP_BUSY : Fld := ⟨.MEM_STAT, 1, 1⟩
def F.MEM_STAT_WR_IGN : Fld := ⟨.MEM_STAT, 2, 1⟩
def F.MEM_STAT_REMAP_ERR : Fld := ⟨.MEM_STAT, 4, 4⟩
def F.MEM_SRAM_CE_CNT_COUNT : Fld := ⟨.MEM_SRAM_CE_CNT, 0, 32⟩
def F.MEM_SRAM_UE_CNT_COUNT : Fld := ⟨.MEM_SRAM_UE_CNT, 0, 32⟩
def F.MEM_SRAM_ERR_LOC_ADDR : Fld := ⟨.MEM_SRAM_ERR_LOC, 0, 17⟩
def F.MEM_SRAM_ERR_LOC_GROUP : Fld := ⟨.MEM_SRAM_ERR_LOC, 17, 12⟩
def F.MEM_BKT_CFG_CAP : Fld := ⟨.MEM_BKT_CFG, 0, 16⟩
def F.MEM_BKT_CFG_LEAK : Fld := ⟨.MEM_BKT_CFG, 16, 16⟩
def F.MEM_BKT_STAT_LEVEL : Fld := ⟨.MEM_BKT_STAT, 0, 16⟩
def F.MEM_BKT_STAT_OVF : Fld := ⟨.MEM_BKT_STAT, 16, 16⟩
def F.MEM_REMAP_SEL_GROUP : Fld := ⟨.MEM_REMAP_SEL, 0, 12⟩
def F.MEM_REMAP_SEL_ENTRY : Fld := ⟨.MEM_REMAP_SEL, 12, 3⟩
def F.MEM_REMAP_ENTRY_ADDR : Fld := ⟨.MEM_REMAP_ENTRY, 0, 17⟩
def F.MEM_REMAP_ENTRY_VALID : Fld := ⟨.MEM_REMAP_ENTRY, 29, 1⟩
def F.MEM_REMAP_ENTRY_FACTORY : Fld := ⟨.MEM_REMAP_ENTRY, 30, 1⟩
def F.MEM_KEY_CTL_START : Fld := ⟨.MEM_KEY_CTL, 0, 1⟩
def F.MEM_KEY_CTL_RETIRE : Fld := ⟨.MEM_KEY_CTL, 1, 1⟩
def F.MEM_KEY_STAT_STATE : Fld := ⟨.MEM_KEY_STAT, 0, 3⟩
def F.MEM_KEY_STAT_KEY_SET : Fld := ⟨.MEM_KEY_STAT, 3, 1⟩
def F.MEM_KEY_STAT_WARN : Fld := ⟨.MEM_KEY_STAT, 4, 1⟩
def F.MEM_KEY_STAT_EXHAUSTED : Fld := ⟨.MEM_KEY_STAT, 5, 1⟩
def F.MEM_KEY_STAT_TAMPER : Fld := ⟨.MEM_KEY_STAT, 6, 1⟩
def F.MEM_KEY_STAT_ERR : Fld := ⟨.MEM_KEY_STAT, 8, 4⟩
def F.MEM_KEY_BASE_PAGE : Fld := ⟨.MEM_KEY_BASE, 0, 19⟩
def F.MEM_KEY_PAGES_PAGES : Fld := ⟨.MEM_KEY_PAGES, 0, 20⟩
def F.MEM_KEY_META_LINE : Fld := ⟨.MEM_KEY_META, 0, 25⟩
def F.MEM_KEY_MLINES_LINES : Fld := ⟨.MEM_KEY_MLINES, 0, 25⟩
def F.MEM_KEY_MLINES_MIN_LINES : Fld := ⟨.MEM_KEY_MLINES_MIN, 0, 25⟩
def F.MEM_KEY_TAG_FAIL_CNT_COUNT : Fld := ⟨.MEM_KEY_TAG_FAIL_CNT, 0, 32⟩
def F.MEM_KEY_KEY_W_KEY : Fld := ⟨.MEM_KEY_KEY_W, 0, 32⟩
def F.THM_TEMP_TEMP : Fld := ⟨.THM_TEMP, 0, 12⟩
def F.THM_TEMP_BAD : Fld := ⟨.THM_TEMP, 12, 1⟩
def F.THM_MAX_MAX : Fld := ⟨.THM_MAX, 0, 9⟩
def F.THM_CFG_ALARM_C : Fld := ⟨.THM_CFG, 0, 8⟩
def F.THM_CFG_TRIP_C : Fld := ⟨.THM_CFG, 8, 8⟩
def F.THM_CFG_TRIP_EN : Fld := ⟨.THM_CFG, 16, 1⟩
def F.THM_STAT_ALARM : Fld := ⟨.THM_STAT, 0, 1⟩
def F.THM_STAT_TRIPPED : Fld := ⟨.THM_STAT, 1, 1⟩
def F.THM_STAT_SENSOR_BAD : Fld := ⟨.THM_STAT, 2, 1⟩
def F.THM_PWR_CTL_TARGET : Fld := ⟨.THM_PWR_CTL, 0, 2⟩
def F.THM_PWR_STAT_STATE : Fld := ⟨.THM_PWR_STAT, 0, 2⟩
def F.THM_PWR_STAT_BUSY : Fld := ⟨.THM_PWR_STAT, 2, 1⟩
def F.THM_PWR_STAT_WR_IGN : Fld := ⟨.THM_PWR_STAT, 3, 1⟩
def F.THM_PWR_STAT_ERR : Fld := ⟨.THM_PWR_STAT, 4, 4⟩
def F.THM_POWER_MW : Fld := ⟨.THM_POWER, 0, 32⟩
def F.THM_LIFE_85_MIN : Fld := ⟨.THM_LIFE_85, 0, 32⟩
def F.THM_LIFE_100_MIN : Fld := ⟨.THM_LIFE_100, 0, 32⟩

end Sys2Proof.Machine
end

