-- ==== Sys2Proof/Machine/Hid.lean ====
section
/-!
DEFINITION. The numeric state the spec gives the machine outside its registers, one name each. An entry is indexed by an
instance w and up to two more indices i and j, and is 0 at reset.
-/
namespace Sys2Proof.Machine

/-- Hidden counters, flags, indices and times. -/
inductive Hid where
  /-- Raise count of source (i) of event controller (w; 32 is the HEVC), saturating at 65,535 (R259). -/
  | evcCount
  /-- Raises of source (i) of controller (w) recorded while HOLD is in force (R275). -/
  | evcShadow
  /-- 1 + the old group of source (i) of controller (w) whose group register changed while it was pending (R260). -/
  | evcMoved
  /-- COUNT captured by group (i) of controller (w) at its first counted raise (R261). -/
  | evcCoal
  /-- Expiry time of the running timer of group (i) of controller (w), device time (R261). -/
  | evcExpiry
  /-- Stack of core target (i) of controller (w): 0 empty, 1 [normal], 2 [fast], 3 [normal, fast] (R269). -/
  | evcStack
  /-- Pending raises of alarm type (i) at node (w), saturating at 65,535 (R428). -/
  | almCount
  /-- Count carried by the alarm write of type (i) in flight from node (w), 0 when none is (R428). -/
  | almSent
  /-- Replica time of the first pending raise of alarm type (i) at node (w) (R428). -/
  | almTime
  /-- 1 + the site of the presiding lodge, 0 when there is none (R403, R404). -/
  | presiding
  /-- Fence of the endpoints of plot (i) of pavilion (w) by the configuration controller: 0 OPEN, 1 DRAINING, 2 FENCED (R327, R376). -/
  | plotFence
  /-- 1 while the lodge at site (w) is asleep in WFI (R439). -/
  | lodgeWfi
  /-- The beat in force as the FREQ_KHZ value taken at the last acquisition or at the end of reset, 0 for the POWER-ON value (R28, R34). -/
  | campFreq
  /-- The sum of the steps that device time has made, 64-bit complement; device time less this sum runs without steps
  (R38). -/
  | stepped
  /-- Units of device time of the slew since the accumulator last moved by one unit, below 1,000,000 (R37). -/
  | slewPhase
  /-- The measured phase of REF B less REF A before trims, 64-bit complement, 0.25 ps units (R32). -/
  | refRaw
  /-- The trim, 32-bit complement, from which the replica of site (w), or of tower (w - 64), moves to a changed one (R40). -/
  | trimFrom
  /-- 1 + the stepless time at which that move began, 0 when none is in progress (R40). -/
  | trimAt
  /-- Exchanges in the current filter window (R43). -/
  | xferN
  /-- Sum of theta over the window, 64-bit complement, 0.25 ps units (R43). -/
  | xferTheta
  /-- Sum of delta over the window (R43). -/
  | xferDelta
  /-- 1 while the head entry of queue (i) of home (w) has been forwarded (R48). -/
  | lqForwarded
  /-- Effective launch time of the entry that last left queue (i) of home (w) by launching (R48). -/
  | lqPrevTime
  /-- 1 once an entry of queue (i) of home (w) has launched (R48). -/
  | lqHasPrev
  /-- 1 + the replica time at which the head PRM_SEND of queue (i) of home (w) first found no credit, 0 when it did not
  (R51). -/
  | lqCredit
  /-- Driven value of the pins of group (i) of tower (w) (R47). -/
  | pinOut
  /-- Output-enable of the pins of group (i) of tower (w) (R47). -/
  | pinOe
  /-- Major counter of node (j) of key (i) of the dome of pavilion (w), leaves first, the root last (R389). -/
  | keyMajor
  /-- Minor counter of child (j mod 64) of node (j div 64) of key (i) of the dome of pavilion (w) (R389). -/
  | keyMinor
  /-- Major-counter changes in progress for key (i) of pavilion (w) (R391). -/
  | keyChange
  /-- 1 + the value of the MEM_REMAP_ENTRY write whose copy runs in pavilion (w) (R384). -/
  | remapPend
  /-- The group of that copy (R384). -/
  | remapGroup
  /-- The entry of that copy (R384). -/
  | remapEntry
  /-- 1 once the dome of pavilion (w) has been initialised (R137). -/
  | domeReady
  /-- Self-refresh of the dome of pavilion (w): 0 out, 1 entering, 2 in, 3 leaving (R133). -/
  | domeSr
  /-- 1 when the self-refresh of the dome of pavilion (w) was last caused by temperature (R133, R136). -/
  | domeSrHot
  /-- 1 when node (j) of key (i) of pavilion (w) has failed: the lines beneath it are unverifiable (R393). -/
  | keyBad
  /-- 1 while a power state of pavilion (w) requires self-refresh of its dome (R133, R438). -/
  | domePower
  /-- 1 while a substitution holds the dome of pavilion (w) quiesced (R21, R413). -/
  | domeQuiesce
  /-- Transaction numbers given so far (w = 0) (R117). -/
  | domeTxn
  /-- Activation count of row (j) of bank (i mod 16) of pseudo-channel (i div 16) of the dome of pavilion (w) (R131). -/
  | domeAct
  /-- Refresh intervals owed by pseudo-channel (i) of the dome of pavilion (w) (R130). -/
  | domeRefDue
  /-- Refreshes issued ahead of time by pseudo-channel (i) of the dome of pavilion (w) (R130). -/
  | domeRefAhead
  /-- Refreshes of the 32 ms pass issued by pseudo-channel (i) of the dome of pavilion (w) (R130). -/
  | domeRefCount
  /-- 1 while pseudo-channel (i) of the dome of pavilion (w) is in write-batch mode (R127). -/
  | domeBatch
  /-- The port whose read pseudo-channel (i) of the dome of pavilion (w) served last (R126). -/
  | domeRr
  /-- 1 + the open row of bank (j) of pseudo-channel (i) of the dome of pavilion (w) (R128). -/
  | domeRow
  /-- The 1 us window in which pseudo-channel (i) of the dome of pavilion (w) last transferred (R132). -/
  | domeCapWin
  /-- Line transfers of that window (R132). -/
  | domeCapCnt
  /-- The next line of the patrol pass of the dome of pavilion (w) (R134). -/
  | domePatrol
  /-- Condition of 64-bit word (i) of the dome of pavilion (w): 0 good, 2 two bits in error, 3 poison (R134). -/
  | domeErr
  /-- Commits at port 0 of the dome of pavilion (w) for ring (i), not yet decided (R125). -/
  | ringBusy
  /-- Controlling temperature of pavilion (w) in 0.25 C units, 32-bit complement (R434). -/
  | thmCtl
  /-- 1 + the declaration whose ADMIT has written its tables and not taken effect (R187, R192). -/
  | admPending
  /-- 1 + the declaration whose RELEASE waits for its boundary (R187). -/
  | admReleasing
  /-- The boundary at which that ADMIT or RELEASE takes effect, device time (R187). -/
  | admEffect
  /-- The boundary at which declaration (i) moves to its new reservation, device time (R190). -/
  | admMoveAt
  /-- 1 while an ADMIT of declaration (i) that a WARM reset kept has not taken effect (R192). -/
  | admKept
  /-- The boundary at which those ADMITs take effect (R192). -/
  | admKeptAt
  /-- 1 + the device time at which the slot tables were last rewritten, 0 before (R192). -/
  | admRestored
  /-- 1 + the number, counted from time 0, of the slot of output (i) of node (w) that last carried a flit (R178). -/
  | rtSlot
  /-- Channels of the last source frame of the Ethernet block of tower (w) (R76). -/
  | ethSrcCh
  /-- 1 once a source frame has arrived since the link of the Ethernet block of tower (w) came up (R76). -/
  | ethSrcSeen
  /-- DEV_ID of the last source frame of the Ethernet block of tower (w) (R76). -/
  | ethSrcId
  /-- COUNT of stream (i) of pavilion (w) last sent in a REFUSED page (R71). -/
  | refSent
  /-- The superframe that sent it (R71). -/
  | refSentAt
  /-- Bitmap of the packets completed by DMA channel (j) of Spire (i) of pavilion (w) (R226). -/
  | dmaDone
  /-- 1 + the packets that complete after an ABORT of that channel, 0 when none was written (R226). -/
  | dmaLimit
  /-- Packets that channel (j) of Spire (i) of pavilion (w) has sent (R226). -/
  | dmaSent
  /-- CRC-32C recorded at LOAD for instruction line (j) of Spire (i) of pavilion (w) (R213). -/
  | imemCrc
  /-- 1 once a debugger has written instruction line (j) of Spire (i) of pavilion (w) since its LOAD (R495). -/
  | imemDebug
  /-- 1 + the Spire clock at the last CORE reset of Spire (i) of pavilion (w), 0 when none since a WARM reset (R210). -/
  | sprCycBase
  /-- 1 while context 1 of Spire (i) of pavilion (w) is to end at its next bundle boundary under a PCANCEL (R251). -/
  | tskEnd
  /-- 1 + flow + 1,024 x TAG of the task whose fault holds context 1 of Spire (i) of pavilion (w) in FAULT (R251). -/
  | tskFaulted
  /-- 1 + flow + 1,024 x TAG of the task that last completed by itself on target (i) of pavilion (w) (R249). -/
  | tskEnded
  /-- The Spire clock at that completion (R249). -/
  | tskEndedAt
  /-- The flow of the CANCEL_ALL in progress in pavilion (w) (R250). -/
  | tskAllFlow
  /-- 1 while vector (i) of PCI Express function (w) is not masked in its MSI-X table (R454). -/
  | msixOpen
  /-- Message address of that vector (R267, R452). -/
  | msixAddr
  /-- Message data of that vector (R267, R452). -/
  | msixData
  /-- 1 while router (w) holds the torus link of edge (j) of pavilion (i) as announced down (R325, R327). -/
  | linkDown
  /-- The input that output (i) of node (w) served last, by class (j) (R319). -/
  | prmRr
  /-- Router cycles with telemetry waiting at output (i) of node (w), modulo 100 (R319). -/
  | prmTelCyc
  /-- Telemetry flits owed at output (i) of node (w), 0..16 (R319). -/
  | prmOwed
  /-- Router cycles of the current window of 100 at output (i) of node (w) (R318). -/
  | prmMgmtCyc
  /-- Management flits sent in that window (R318). -/
  | prmMgmtSent
  /-- Lanes marked failed of physical port (i) of side (w: site s, or 64 + t for a tower), 34 bits (R339). -/
  | lrtFailed
  /-- Journalled width cap of physical port (i) of side (w): 0 is 32 lanes, 1 is 16, 2 is 8 (R343). -/
  | lrtCap
  /-- Field swaps of physical port (i) of side (w) (R338). -/
  | lrtSwaps
  /-- The part's speed grade less 1 (R24). -/
  | speedGrade
  /-- M and N minus 1 in force in fabric PLL (i) of pavilion (w), as CFG_PLL_k_CFG (R289). -/
  | pllCfg
  /-- Output dividers in force in fabric PLL (i) of pavilion (w), as CFG_PLL_k_DIV (R289). -/
  | pllDiv
  /-- Source in force of global clock net (i) of pavilion (w) (R291). -/
  | gclkSrc
  /-- 1 while reset net (i) of pavilion (w) is asserted (R293). -/
  | rstNet
  /-- 1 + the edge of its clock on which stream port (i) of pavilion (w) last presented a frame (R299). -/
  | sportEdge
  /-- The word last presented on the pin bus of group (i) of tower (w) (R304). -/
  | tioVal
  /-- 1 when that word was late (R304). -/
  | tioLateBit
  /-- 1 while the candidate (w) was named for a Lartum link alone (R411). -/
  | candOnGo
  /-- 1 while recovery from the fault of kind (w: 0 pavilion, 1 Lartum link, 2 tower, 3 lodge) of part (i) has not finished (R172). -/
  | faultOpen
  /-- Copies of MOVE journalled as done (R413). -/
  | subCopies
  /-- 1 when QUIESCE paused stream (i) of pavilion (w) (R413). -/
  | subPaused
  /-- 1 while Spire (i) of pavilion (w) is left out of service (R411). -/
  | sprDead
  /-- DROPS that the alarm record of type (i) in flight from node (w) carries (R425). -/
  | almDrops
  /-- 1 once the collector has taken the alarm record of type (i) in flight from node (w) (R428, R429). -/
  | almTaken
  /-- Records dropped at node (w) since its last record was sent, saturating at 255 (R425). -/
  | telDrops
  /-- Pending gap count of log class (i), saturating at 65,535 (R432). -/
  | telGap
  /-- DROPS received since the last gap record (R430). -/
  | telGapSum
  /-- 1 while a failed write keeps the log ring full (R432). -/
  | telLogErr
  /-- Traces taken since TRC_EN was set (R433). -/
  | telSample
  /-- Reading of sensor (i) of the folly at site (w), 12 bits, and bit 12 while it is BAD (R18, R434). -/
  | follyTemp
  /-- 1 while a thermal trip holds pavilion (w) (R435). -/
  | thmTrip
  /-- The pavilions of the load in progress or last started (R367). -/
  | loadMask
  /-- The source that load reads: 0 T0 flash, 1 T4 flash, 2 host (R354). -/
  | loadSrc
  /-- 1 when that load is a PAV_RELOAD (R367). -/
  | loadPav
  /-- Its back-off in ms (R354). -/
  | loadBackoff
  /-- 1 + OP of a GO that waits for CFG_PMAP_CTL.BUSY (R22, R367). -/
  | loadWait
  /-- The start time T_s chosen in STARTING (R366). -/
  | loadTs
  /-- 1 when plot (i) of pavilion (w) has been written by the attempt in progress (R364). -/
  | loadPlot
  /-- 1 when plot (i) of pavilion (w) has been written by a load since COLD (Table 14.11). -/
  | plotWritten
  /-- The next frame of the verifier's pass in pavilion (w), 3,072 q + f (R371). -/
  | verNext
  /-- The map of an accepted APPLY (R22). -/
  | pmapNext
  /-- 1 while the controlling temperature of pavilion (w) has exceeded TRIP_C with TRIP_EN at 1 since the last sample (R435). -/
  | thmOver
  /-- 1 once the first election since POWER-ON or COLD reset has created the journal (R410). -/
  | jrnlMade
  /-- 1 while the SRAM of site (w) holds a complete journal copy (R407, R410). -/
  | jrnlCopy
  /-- Entry counter of the journal copy at site (w) (R404, R409). -/
  | jrnlCount
  /-- The term of the election in progress, 0 when there is none (R404). -/
  | elecTerm
  /-- 1 + its candidate site, 0 when no standing site has been met (R404). -/
  | elecCand
  /-- 1 + the site that started it (R404). -/
  | elecStart
  /-- 1 + the site announced as winner of the last election, 0 before one (R404). -/
  | elecWin
  /-- 1 once that winner has acted as presiding lodge (R404, R409). -/
  | presides
  /-- Term of the heartbeat sent last (R402). -/
  | hbTerm
  /-- Deputies of that heartbeat: first + 64 x second, 63 for none (R402). -/
  | hbDep
  /-- Boot back-off of the lodge at site (w) in ms (R401). -/
  | lodgeBackoff
  /-- 1 while the lodge at site (w) stays out of service (R411). -/
  | lodgeDead
  /-- 1 when local source 505 is due once the lodge at site (w) has booted (R421). -/
  | wdogPend
  /-- Device time from which the watchdog count of site (w) runs (R421). -/
  | wdogBase
  /-- 1 + the period, in ms, from which the watchdog of site (w) counts, 0 for 1,000 (R421, Table 16.6). -/
  | wdogLoad
  /-- Device-time units of the period already counted at that time (R421). -/
  | wdogUsed
  /-- Successive 1 ms windows in which the reference of quad (i) of tower (w) stayed within 0.01 ppm (R447). -/
  | xcvTrack
  /-- The drive held on GPIO pin (i) during a function switch: 0 none, else 1 + its value + 2 x its output enable (R472). -/
  | gpioHeld
  /-- Function switches in progress in GPIO_FUNC word (i) (R472). -/
  | gpioSwN
  /-- The pins of each of them, 8 bits each, the oldest lowest (R472). -/
  | gpioSwPins
  /-- Level last seen on GPIO pin (i) from outside: 0 none seen, 1 low, 2 high (R468, R475). -/
  | gpioIn
  /-- 1 + the PWM or pulse word in effect in unit (i) of tower (w): 0 for T0, 1 for T4 (R476). -/
  | unitWord
  /-- A halt asked of context (j) of Spire (i) of pavilion (w), not yet taken: 0 none, 1 by a request, 2 by a step (R489, R491). -/
  | haltReq
  /-- 1 + the TAP instruction in force, 0 for IDCODE, which Test-Logic-Reset selects (R479). -/
  | jtagIr
  /-- The boundary register's update cells (R480). -/
  | boundary
  /-- What the selected data register captured last (R479, R481). -/
  | jtagTdo
  /-- Access of debug front end (i), 0 JTAG, 1 DBG_ACC, that is not complete: 0 none, else OP + 4 TOUCH (R482). -/
  | dbgOp
  /-- Its address. -/
  | dbgAddr
  /-- Its write data. -/
  | dbgData
  /-- 1 + the front end whose access is on its way (R482). -/
  | dbgCur
  /-- STATUS of the JTAG front end's last access (R481). -/
  | dbgStat
  /-- Read data of its last READ. -/
  | dbgRead
  /-- 1 while the JTAG front end shows OVERRUN. -/
  | dbgOver
  /-- 1 + the Spire clock at the last WARM reset of pavilion (w), 0 before (R210, R233). -/
  | sprWarm
  /-- Spire cycles counted up to the last change of the beat in force, and the stepless time of that change (R210). -/
  | cycAcc
  /-- That time (R210). -/
  | cycFrom
  /-- 1 while POR_N or the keep rail holds the POWER-ON reset (R506). -/
  | porHeld
  /-- 1 when SAVE wrote the state area of pavilion (w) (R413). -/
  | subSaved
  /-- 1 while entry (i) of pavilion (w) runs and the lane frame under way began before it did (R78). -/
  | strmSkip
  /-- Consecutive CHECK mismatches at width 8 of link (i) of node (w) (R344). -/
  | lrtMis8
  /-- The training under way of link (i) of node (w) is that of a width step (R341). -/
  | lrtStepping
  /-- 1 once count (j: 0 refused, 1 late, 2 CRC) of entry (i) of pavilion (w) has raised source 400 since its last
  delivery (R97). -/
  | gateNoted
  /-- Replica time of the last write of word 6 or 7 of entry (i) of pavilion (w) to an enabled stream (R101). -/
  | codecWrote
  /-- What a register write of queue pair (w)'s CTL asked of the host: 1 its doorbell record (R165), 2 its tail and
  descriptors (R173). -/
  | qpAsked
deriving DecidableEq, Repr

/-- Kept across a WARM reset. -/
def Hid.warmKept : Hid → Bool
  | .almCount => true
  | .almSent => true
  | .almTime => true
  | .presiding => true
  | .plotFence => true
  | .campFreq => true
  | .stepped => true
  | .slewPhase => true
  | .refRaw => true
  | .pinOut => true
  | .pinOe => true
  | .keyMajor => true
  | .keyMinor => true
  | .domeReady => true
  | .domeSr => true
  | .domeSrHot => true
  | .keyBad => true
  | .domePower => true
  | .domeQuiesce => true
  | .domeAct => true
  | .domePatrol => true
  | .domeErr => true
  | .thmCtl => true
  | .admMoveAt => true
  | .admKept => true
  | .msixOpen => true
  | .msixAddr => true
  | .msixData => true
  | .lrtFailed => true
  | .lrtCap => true
  | .lrtSwaps => true
  | .speedGrade => true
  | .pllCfg => true
  | .pllDiv => true
  | .gclkSrc => true
  | .candOnGo => true
  | .faultOpen => true
  | .subCopies => true
  | .subPaused => true
  | .sprDead => true
  | .almDrops => true
  | .almTaken => true
  | .thmTrip => true
  | .loadMask => true
  | .loadSrc => true
  | .loadPav => true
  | .loadBackoff => true
  | .plotWritten => true
  | .pmapNext => true
  | .jrnlMade => true
  | .jrnlCopy => true
  | .jrnlCount => true
  | .elecWin => true
  | .presides => true
  | .hbTerm => true
  | .hbDep => true
  | .lodgeDead => true
  | .wdogPend => true
  | .gpioIn => true
  | .jtagIr => true
  | .boundary => true
  | .jtagTdo => true
  | .cycAcc => true
  | .cycFrom => true
  | .subSaved => true
  | _ => false

/-- Kept across a COLD reset too. -/
def Hid.coldKept : Hid → Bool
  | .speedGrade => true
  | .jtagIr => true
  | .boundary => true
  | .jtagTdo => true
  | _ => false

end Sys2Proof.Machine
end

