-- ==== Sys2Proof/Machine/State.lean ====
section
/-!
DEFINITION. The state of the block as plain data: device time, registers, fuses, hidden state, memories, queues, and the
commands that wait.
-/
namespace Sys2Proof.Machine

/-- Why a command stops with a fault. -/
inductive Fault where
  /-- Raised by a register write that gives a field a value its description calls reserved: R9 leaves the effect of
  such a write undefined. Safe: the model stops where the spec gives no effect. -/
  | undefinedFieldValue
deriving DecidableEq, Repr

/-- Why a command has no meaning. -/
inductive Refusal where
  /-- A command whose meaning is not written yet. Safe. -/
  | notModelled (mnemonic : String)
deriving DecidableEq, Repr

/-- One register of one instance: `w` is the window (pavilion, tower, site, node or 0), `i` and `j` the indices. -/
structure RegKey where
  id : RegId
  w : Nat
  i : Nat
  j : Nat
deriving DecidableEq, Repr

/-- One entry of hidden state. -/
structure HidKey where
  id : Hid
  w : Nat
  i : Nat
  j : Nat
deriving DecidableEq, Repr

/-- A run of memory whose contents the spec leaves undefined: its unwritten bytes are free values of this seed. -/
structure UndefRange where
  base : Nat
  len : Nat
  seed : Nat
deriving DecidableEq, Repr

/-- One line request at a dome port (R117). A write carries `bytes` from byte `off` of its line; a read asks for `len`
bytes from there, and `bytes` are what it returns: the line's contents in the order of arrival. `known` is the condition of
each word of the line that a read then found: 0 the DRAM's, 2 in error, 3 poison, 4 taken whole from a queued write. The
ring ports name their ring and period. -/
structure DomeReq where
  port : Nat
  line : Nat
  write : Bool
  off : Nat
  len : Nat
  bytes : List Byte
  poison : Bool
  hint : Nat
  txn : Nat
  part : Nat
  aged : Bool
  known : List Nat
  ring : Option (Nat × Nat)
deriving DecidableEq, Repr

/-- A transaction of several line requests at dome `pav`: how many are left, whether one was answered DOME_HOLD, and then
whether in self-refresh caused by temperature, whether one returned poison, and the bytes read so far by part; the key it
uses, with the metadata lines, and whether it changes them (R390); the request it answers, with the node that holds it, and
an atomic's answer (R330). -/
structure DomeTxn where
  pav : Nat
  left : Nat
  hold : Bool
  hot : Bool
  poison : Bool
  data : List (Nat × List Byte)
  key : Option Nat
  metas : List (Nat × Bool)
  req : Option (Nat × List Word)
  answer : Option (List Word)
deriving DecidableEq, Repr

/-- A line of a dome's counter-and-tag cache (R390): its key, its line address, and whether it is dirty. -/
structure MetaLine where
  key : Nat
  line : Nat
  dirty : Bool
deriving DecidableEq, Repr

/-- One launch-queue entry: its eight words (Table 2.3), and whether it is already known to be late (R48, R38). -/
structure LqEntry where
  words : List Word
  late : Bool
deriving DecidableEq, Repr

/-- A resource that has a slot table (R178). -/
inductive Res where
  /-- a tower's Lartum port l -/
  | tower (t l : Nat)
  /-- the torus output e of a pavilion -/
  | torus (p e : Nat)
  /-- the delivery port of an endpoint: its kind and identity (Table 7.2) -/
  | deliver (kind id : Nat)
  /-- the bridge input of an annex -/
  | annex (a : Nat)
deriving DecidableEq, Repr

/-- A reservation (R180, R185): its worst case, gap, source slots, the slots held in each resource of its route as a
bitmap, the dome lines per us it adds, and the pavilions and tower links (tower, link) its route passes (R190). -/
structure Plan where
  w : Nat
  gap : Nat
  nsrc : Nat
  phase : Nat
  res : List (Res × Nat)
  lines : Nat
  pavs : List Nat
  links : List (Nat × Nat)
deriving DecidableEq, Repr

/-- A declaration that is not FREE (R181, R190): its words, its reservation, and the one it moves to. -/
structure Decl where
  words : List Nat
  plan : Plan
  next : Option Plan
deriving DecidableEq, Repr

/-- A lane frame of one stream (R68, R69): its timestamp, that of the frame expected next, its samples, whether frames are
missing before it, and whether it holds data of a superframe that failed its CRC. -/
structure LaneFrame where
  ts : Time
  nxt : Time
  xs : List Nat
  gap : Bool
  crc : Bool
deriving DecidableEq, Repr

/-- An XFL lane's receiver and transmitter (R68, R71..R74): runs of good superframes, missing SOS and failed CRCs; the
frame being gathered; the last boundary; the identity received since the lane left DOWN; the exchange of R72; the
SOS, page and EOS words of the superframe last sent; the scrambler's last 58 bits, the latest on top, and the payloads it
put on the line (R62). -/
structure XflLane where
  good : Nat
  noSos : Nat
  badCrc : Nat
  lastSf : Option Nat
  synced : Bool
  slots : List Nat
  ts : Time
  crc : Bool
  gap : Bool
  boundary : Time
  identSeen : Bool
  identOk : Bool
  backoff : Nat
  waiting : Bool
  rxTimeSf : Nat
  rxTime : Time
  t12 : Option (Time × Time)
  t3 : Option (Time × Nat)
  txSf : Nat
  txRr : Nat
  tx : List Word
  txScr : Nat
  txLine : List DWord
deriving DecidableEq, Repr

/-- A fragment that is open (R88, R101): its period, the CODEC word and pedestal it opened with, its frames, and whether the
coded copy of one is poison (R381). -/
structure OpenFrag where
  pn : Nat
  codec : Nat
  ped : Nat
  ts : Time
  frames : List (List Nat)
  gap : Bool
  late : Bool
  crc : Bool
  full : Bool
  poison : Bool
deriving DecidableEq, Repr

/-- A fragment that is closed and coded (R102). -/
structure Frag where
  fs : Nat
  codec : Nat
  ts : Time
  n : Nat
  coded : List Word
  csat : Bool
  gap : Bool
  late : Bool
  crc : Bool
  full : Bool
  poison : Bool
deriving DecidableEq, Repr

/-- What has become of one copy of a commit: on its way to the dome, its lines being written, answered by the dome with
a reason of Table 3.10 (0 acknowledged), or that answer received. -/
inductive CopyState where
  | unused
  | flight
  | writing
  | answered (reason : Nat)
  | got (reason : Nat)
deriving DecidableEq, Repr

/-- One copy of a commit: its dome, and where its lines lie. -/
structure CommitCopy where
  pav : Nat
  st : CopyState
  ring : Nat
  ofs : Nat
  lines : Nat
  txn : Nat
deriving DecidableEq, Repr

/-- A commit in flight (R89): its fragment, SEQ, copies, whether its stream was DEGRADED, and the counts its header was
issued with. -/
structure Commit where
  frag : Frag
  seq : Nat
  home : CommitCopy
  twin : CommitCopy
  degraded : Bool
  gap : Bool
  before : Nat
  deadline : Time
deriving DecidableEq, Repr

/-- The primitives of one beat (R87), with the frames expected and presented. -/
structure BeatAcc where
  beat : Nat
  sum : Nat
  hit : Nat
  nsamp : Nat
  formed : Nat
  shown : Nat
  late : Bool
deriving DecidableEq, Repr

/-- A stream entry's run state: frames on their way and held for release, fragments open and closed, commits in flight,
refused commits that may still be acknowledged, and what the next fragment or record must carry. `nextTs` is the
timestamp of the lane frame expected next, `missed` the first and last beats of runs of frames that never came (R87);
`oldW6`, `oldW7` are the words that `w6`, `w7` replaced at the beat edge `codecAt` (R101). -/
structure Stream where
  transit : List LaneFrame
  held : List LaneFrame
  opens : List OpenFrag
  closed : List Frag
  flight : List Commit
  orphans : List Commit
  beats : List BeatAcc
  nextBeat : Option Nat
  lastTs : Option Time
  nextTs : Option Time
  missed : List (Nat × Nat)
  gapNext : Bool
  gapRec : Bool
  lateRec : Bool
  gapAcc : Bool
  before : Nat
  issued : Nat
  newTwin : Bool
  w6 : Nat
  w7 : Nat
  oldW6 : Nat
  oldW7 : Nat
  codecAt : Time
deriving DecidableEq, Repr

/-- An open hardware loop: its first and last bundle and the remaining count (R204). -/
structure SprLoop where
  first : Nat
  last : Nat
  count : Nat
deriving DecidableEq, Repr

/-- An address generator: base, length, index and modifier, 18 bits each, the modifier in two's complement (R206). -/
structure SprAg where
  b : Nat
  l : Nat
  i : Nat
  m : Nat
deriving DecidableEq, Repr

/-- A Spire context (R195): its registers by number (lanes by 8r + lane), each absent register reading 0; its loops,
innermost first; its CSRs; the line it holds a reservation on (R229). Of a run: whether an AMO is outstanding (R228),
whether an instruction line is being fetched again (R212), what a WAITE or WAITT waits for (R203), the state a halt left
(R220), and whether its first bundle is still to issue. -/
structure SprCtx where
  pc : Nat
  x : Table Nat Word
  v : Table Nat (BitVec 16)
  c : Table Nat (BitVec 18)
  a : Table Nat (BitVec 48)
  ag : Table Nat SprAg
  loops : List SprLoop
  tap : Nat
  tapLen : Nat
  flags : Nat
  wrap : Bool
  epc : Nat
  eie : Bool
  inEvt : Bool
  phi : Nat
  timeHi : Nat
  cycHi : Nat
  rsv : Option Nat
  amo : Bool
  refetch : Bool
  waitMask : Nat
  waitTime : Time
  haltFrom : Nat
  fresh : Bool
deriving DecidableEq, Repr

/-- A task (R235): its slot, flow, task word, argument, order of acceptance, and the tick boundary it waits for. -/
structure Task where
  slot : Nat
  flow : Nat
  word : Nat
  arg : Nat
  seq : Nat
  due : Time
deriving DecidableEq, Repr

/-- A task scheduler (R235..R253): ready tasks in the order they became ready, delayed tasks by boundary, running tasks
with their targets, mailbox writes under way (target, address, record), completed tasks whose record waits for room, the
completion FIFO, the words of the record popped last, and what was served last (1 + number, by priority). -/
structure TskUnit where
  ready : List Task
  delayed : List Task
  running : List (Nat × Task)
  mbox : List (Nat × Nat × List Byte)
  waiting : List (Task × List Word)
  fifo : List (List Word)
  seq : Nat
  lastTgt : Nat
  last0 : Nat
  last1 : Nat
deriving DecidableEq, Repr

/-- An accept on its way to the commit journal (R143): its record (Table 6.1), the queue pair and SEQ of its descriptor
when it has one, and the node and the request packet to be answered OK once it is accepted (R141). -/
structure AccIn where
  words : List Word
  qp : Option (Nat × Word)
  req : Option (Nat × List Word)
deriving DecidableEq, Repr

/-- A ring data read in progress (R123): from the twin ring or the home ring, the dome, its ring and period, the
transaction of its lines, the byte address of the index entry, and whether that entry was cleared or replaced since. -/
structure RingRd where
  twin : Bool
  pav : Nat
  ring : Nat
  pn : Nat
  txn : Nat
  slot : Nat
  expired : Bool
deriving DecidableEq, Repr

/-- A stream section being gathered (R146): its stream, the release and commit time-out fixed at acceptance (R145), the
next period to read once reading has begun, the read in progress, the ring whose dome answers DOME_HOLD (0 none, 1 home,
2 twin), the flag of Table 6.4 that the home ring gave for that period, its flags, and its fragments as stored. -/
structure Sect where
  stream : Nat
  wait : Nat
  next : Option Nat
  rd : Option RingRd
  held : Nat
  homeFlag : Nat
  flags : Nat
  frags : List (List Byte)
  done : Bool
deriving DecidableEq, Repr

/-- An accepted accept whose event has not completed (R143..R153): its number, record and submitter; its sections;
whether it holds a build slot; the event record once built, with its flags; the bytes delivered; whether it is sent again
(R153); the SEQ of the buffer that took its last byte; when its last fragment was read (R150); and whether its last frame
has been handed to the MAC (R152). -/
structure Event where
  num : Nat
  words : List Word
  qp : Option (Nat × Word)
  sects : List Sect
  building : Bool
  built : Bool
  bytes : List Byte
  flags : Nat
  pos : Nat
  resend : Bool
  last : Option Word
  readAt : Option Time
  sent : Bool
deriving DecidableEq, Repr

/-- A descriptor of a queue pair (Table 6.6): its words, whether it has started, its outcome (status, RESULT, RESULT2) once
it is to complete, and for a buffer the event bytes it took before it filled. -/
structure QDesc where
  words : List Word
  started : Bool
  result : Option (Nat × Nat × Nat)
  before : Nat
deriving DecidableEq, Repr

/-- The engine's part of a queue pair (R154..R173): descriptors fetched and not accepted, and accepted and not completed,
each oldest first; the doorbell indices last fetched; idle fetches; whether it has written WAKE = 1 and not fetched since;
whether it enters ERROR when it is empty; whether it recovers from a COLD reset; and EPOCH. -/
structure QPair where
  fetched : List QDesc
  acc : List QDesc
  tail : Nat
  head : Nat
  polls : Nat
  wake : Bool
  failing : Bool
  cold : Bool
  epoch : Nat
deriving DecidableEq, Repr

/-- A packet at a router (R314, R319..R325): its words, the input it came in by, its class and virtual channel, the
dimension it is in (0 none, 1 row, 2 column) with the edge of a detour, and the flits still to be sent at its output; when
it was formed (R180), and the reservation a real-time packet left its source under, whose path it keeps (R190). -/
structure Flight where
  words : List Word
  inp : Nat
  cls : Nat
  vc : Nat
  dim : Nat
  dir : Option Nat
  left : Nat
  born : Time
  plan : Option Plan
deriving DecidableEq, Repr

/-- A data frame that a Lartum sender keeps until it is acknowledged (R335): its SEQ, its packet, and whether it carries
the packet's last flit. -/
structure LrtFlit where
  seq : Nat
  pkt : Flight
  last : Bool
deriving DecidableEq, Repr

/-- A spare swap (R340): the failing lane, the spare, and the frames still to be taken before it completes, once the
SWAP_ACK has named its first frame. -/
structure LrtSwap where
  lane : Nat
  spare : Nat
  first : Option Nat
  left : Nat
deriving DecidableEq, Repr

/-- One side of a Lartum link (R334..R344): the next SEQ it sends, the frames not acknowledged, the SEQ it expects, the
SEQ of its last replay and how often it was replayed in a row; its swap, and lanes found failing meanwhile; the lanes that
passed the lane test, the width cap it trains with (0 is 32 lanes, 1 is 16, 2 is 8), whether it retests failed lanes; the
CHECK frames matched; whether the lane test is the short one; whether the link has been UP since it was last DOWN; its
back-off in ms; and the link-control frame it repeats, 0 when none. -/
structure LrtSide where
  seq : Nat
  unacked : List LrtFlit
  expect : Nat
  replaySeq : Nat
  replays : Nat
  swap : Option LrtSwap
  queued : List Nat
  test : Nat
  cap : Nat
  widen : Bool
  matched : Nat
  short : Bool
  wasUp : Bool
  backoff : Nat
  ctl : Nat
deriving DecidableEq, Repr

/-- A lodge core (R398..R400): its pc, its normal and fast banks of x registers, its CSRs by number, and the snapshot of
LTIMEH. -/
structure LodgeCore where
  pc : Nat
  x : Table Nat Word
  f : Table Nat Word
  csr : Table Nat Word
  timeHi : Word
deriving DecidableEq, Repr

/-- A log or trace record (Table 17.2) in a node's queue or the collector's intake: whether it is a trace, its words, and
the DROPS of its packet (R425). -/
structure TelRec where
  trace : Bool
  words : List Word
  drops : Nat
deriving DecidableEq, Repr

/-- What a fabric stream port presented last (R299): the 32 samples, the lane timestamp and the GAP marker of a frame, and
the two words of a primitive record. -/
structure SportOut where
  xs : List Nat
  ts : Time
  gap : Bool
  prim : Nat × Nat
deriving DecidableEq, Repr

/-- A crossing group at its receiving end (R296, R297): the receiving register, the values that are crossing, newest first,
and the number of the last sending edge. -/
structure Crossing where
  reg : Nat
  pipe : List Nat
  edge : Nat
deriving DecidableEq, Repr

/-- A register write that a launch queue made (R52, R53): the register and the half of a pair, its value before, the data
and the mask, and the device time of its cycle. -/
structure LqShot where
  key : RegKey
  hi : Bool
  old : Word
  data : Word
  mask : Word
  at_ : Time
deriving DecidableEq, Repr

/-- The block's state. -/
structure State where
  /-- Device time (R2). -/
  time : Time
  /-- The model's own: how many free values have been taken. -/
  free : Nat
  /-- The fuse-loaded bits of the registers whose Reset column names a fuse (R11). -/
  fuses : Table RegKey DWord
  /-- The registers that differ from their POWER-ON value (Tables 1.3 to 20.4). -/
  regs : Table RegKey DWord
  /-- The write stage of each _LO/_HI pair (R7, R524). -/
  stage : Table RegKey Word
  /-- The read snapshot of each _LO/_HI pair (R7, R524). -/
  snap : Table RegKey Word
  /-- Hidden counters, flags and times. -/
  hid : Table HidKey Nat
  /-- Every byte of memory the block holds or writes, one region per memory, in canonical form. -/
  mem : List Host.Cell
  /-- The runs of memory whose contents are not defined (R56, R394). -/
  undef : List UndefRange
  /-- The launch queues, oldest entry first, by home (pavilion p, tower 32 + t, or 40 for the global block) and number
  (R45). -/
  lq : Table (Nat × Nat) (List LqEntry)
  /-- The launched register writes of the cycle in which the last of them was made (R53). -/
  shots : List LqShot
  /-- R468. The levels of the 96 management pins over the last 16 ns, the latest first: units of device time, and a bitmap. -/
  pinSeen : List (Nat × Nat)
  /-- CAMP_PSAMP_FIFO of each tower, oldest first (R57). -/
  psamp : Table Nat (List Word)
  /-- The read queue of each pseudo-channel (pavilion, PC), oldest first (R126). -/
  domeRq : Table (Nat × Nat) (List DomeReq)
  /-- The write queue of each pseudo-channel, oldest first (R126). -/
  domeWq : Table (Nat × Nat) (List DomeReq)
  /-- The reads each pseudo-channel has issued and not yet returned. -/
  domeIssued : Table (Nat × Nat) (List DomeReq)
  /-- The neighbour refreshes due in each pseudo-channel: bank and row (R131). -/
  domeNrf : Table (Nat × Nat) (List (Nat × Nat))
  /-- The line transactions in progress, by number. -/
  domeTxns : Table Nat DomeTxn
  /-- The counter-and-tag cache of each dome, the line used longest ago first (R390). -/
  keyCache : Table Nat (List MetaLine)
  /-- The declarations that are not FREE, as the recovery journal holds them (R181, R192). -/
  decls : Table Nat Decl
  /-- The XFL lanes, by tower and lane. -/
  xfl : Table (Nat × Nat) XflLane
  /-- The streams of the gatehouses, by pavilion and entry. -/
  streams : Table (Nat × Nat) Stream
  /-- The Spire contexts, by pavilion, Spire and context; an absent context has every register 0. -/
  spr : Table (Nat × Nat × Nat) SprCtx
  /-- The task schedulers, by pavilion. -/
  tsk : Table Nat TskUnit
  /-- The reservation entries of each dome (pavilion), Spire data memory (64 + 8p + k) and lodge SRAM (400 + site): line,
  requester node and port, oldest first (R331). -/
  resv : Table Nat (List (Nat × Nat × Nat))
  /-- Accepts on their way to the commit journal, oldest first (R143). -/
  accIn : List AccIn
  /-- Accepted accepts whose events have not completed, by event number (R143). -/
  events : List Event
  /-- The stream descriptors that wait at each gatehouse for BUSY to clear, oldest first: queue pair and SEQ (R82). -/
  strmWait : Table Nat (List (Nat × Word))
  /-- The queue pairs. -/
  qps : Table Nat QPair
  /-- The frame last handed to the MAC of each tower's Ethernet block (R152). -/
  ethTx : Table Nat (List Byte)
  /-- The packets in the input buffers of each node, by node and input, oldest first (R320). -/
  prmIn : Table (Nat × Nat) (List Flight)
  /-- The packets that wait at each node's outputs, by node and output (R319). -/
  prmOut : Table (Nat × Nat) (List Flight)
  /-- The packets delivered at each node and not yet taken by their port. -/
  prmRx : Table Nat (List (List Word))
  /-- The non-posted requests of each node that wait for a response: port and TAG (R326). -/
  prmReq : Table Nat (List (Nat × Nat))
  /-- The packet last sent to each annex die. -/
  annexOut : Table Nat (List Word)
  /-- The sides of the Lartum links, by node and link. -/
  lrt : Table (Nat × Nat) LrtSide
  /-- The words in flight of each tower I/O port, by tower and group, oldest first: the device time of the first bit, and
  the word (R304, R305). -/
  tio : Table (Nat × Nat) (List (Time × Nat))
  /-- The telemetry queue of each node, oldest first (R431). -/
  telQ : Table Nat (List TelRec)
  /-- The collector's intake, oldest first (R431). -/
  telIntake : List TelRec
  /-- REG_INIT values staged by a load: pavilion, offset in its CFG block, value (R360). -/
  loadInit : List (Nat × Nat × Word)
  /-- The lodge cores, by site; an absent core has every register 0. -/
  lodges : Table Nat LodgeCore
  /-- The TX FIFO of each GPIO peripheral unit, oldest first, by tower (0 for T0, 1 for T4) and unit (R476). -/
  gpioTx : Table (Nat × Nat) (List Word)
  /-- The RX FIFO of each unit (R476). -/
  gpioRx : Table (Nat × Nat) (List Word)
  /-- What each fabric stream port presented last, by pavilion and port (R299). -/
  sport : Table (Nat × Nat) SportOut
  /-- The user's logic, by pavilion and plot; an absent plot's signals are all 0 and its flip-flops initial (R281, R282,
  R364). -/
  plots : Table (Nat × Nat) PlotLogic
  /-- The crossing groups at their receiving ends, by pavilion, edge and group (R296). -/
  cross : Table (Nat × Nat × Nat) Crossing
  /-- The snapshot of each _LO/_HI pair that peek reads take and return (R484). -/
  peekSnap : Table RegKey Word
  /-- The commands that wait, first in, first out. -/
  pending : List Instr
deriving DecidableEq, Repr

/-- The part the worked examples of the spec use: folly slots 4, 1, 1 and 8 (R19). DESIGN CHOICE (assumption 2): the
spec leaves the fuses to the part. -/
def State.resetFuses : Table RegKey DWord :=
  [(⟨.CFG_FOLLY_FUSE, 0, 0, 0⟩, 0x8114#64), (⟨.SITE_ID, 4, 0, 0⟩, 0x1000#64), (⟨.SITE_ID, 10, 0, 0⟩, 0x1000#64),
    (⟨.SITE_ID, 19, 0, 0⟩, 0x1000#64), (⟨.SITE_ID, 35, 0, 0⟩, 0x1000#64)]

/-- The block at POWER-ON, before any command. -/
def State.reset : State where
  time := 0
  free := 1
  fuses := State.resetFuses
  regs := []
  stage := []
  snap := []
  hid := []
  mem := []
  undef := [⟨2 ^ 41, 256 * 2 ^ 18, 0⟩, ⟨2 ^ 42, 256 * 2 ^ 16, 0⟩, ⟨2 ^ 43, 36 * 2 ^ 18, 0⟩, ⟨2 ^ 44, 41 * 4096, 0⟩]
  lq := []
  shots := []
  pinSeen := []
  psamp := []
  domeRq := []
  domeWq := []
  domeIssued := []
  domeNrf := []
  domeTxns := []
  keyCache := []
  decls := []
  xfl := []
  streams := []
  spr := []
  tsk := []
  resv := []
  accIn := []
  events := []
  strmWait := []
  qps := []
  ethTx := []
  prmIn := []
  prmOut := []
  prmRx := []
  prmReq := []
  annexOut := []
  lrt := []
  tio := []
  telQ := []
  telIntake := []
  loadInit := []
  lodges := []
  gpioTx := []
  gpioRx := []
  sport := []
  plots := []
  cross := []
  peekSnap := []
  pending := []

end Sys2Proof.Machine
end

