-- ==== Sys2Proof/Machine/Ops.lean ====
section
/-!
DEFINITION. The named operations over registers, hidden state, memory and free values that every chapter uses.
-/
namespace Sys2Proof.Machine

/-! ### Registers (R6..R11) -/

/-- Groups of the four sources of a group register at reset: source s lies in group s >> sh (R260). -/
def sgrpReset (w sh : Nat) : DWord :=
  BitVec.ofNat 64 (foldS (fun j v => v + ((4 * w + j) / 2 ^ sh % 64) * 2 ^ (8 * j)) (List.range 4) 0)

/-- The fuse-loaded bits of a register. -/
def State.fuse (s : State) (k : RegKey) : DWord := tget s.fuses k 0

/-- The POWER-ON value of a register: its table's Reset column (R11), with the fuse bits where the column names a fuse. -/
def State.initial (s : State) (k : RegKey) : DWord :=
  match k.id with
  | .CFG_FOLLY_STAGE => s.fuse ⟨.CFG_FOLLY_FUSE, 0, 0, 0⟩
  | .CFG_FOLLY_MAP => s.fuse ⟨.CFG_FOLLY_FUSE, 0, 0, 0⟩
  | .EVC_SGRP => sgrpReset k.i 3
  | .HEVC_SGRP => sgrpReset k.i 5
  | .XCV_LANE_CFG => if (k.w = 0 ∨ k.w = 4) ∧ k.i < 16 then 3 else 0
  | .CFG_LOAD_CTL => 2 ||| ((s.fuse ⟨.CFG_BOOT, 0, 0, 0⟩ &&& 3) <<< 3)
  | .DBG_STAT =>
    if (s.fuse ⟨.DBG_STAT, 0, 0, 0⟩) &&& 1 = 1 then 1 else 2
  | id => id.row.reset ||| s.fuse k

/-- The value a register holds. -/
def State.reg (s : State) (id : RegId) (w : Nat := 0) (i : Nat := 0) (j : Nat := 0) : DWord :=
  match tfind s.regs ⟨id, w, i, j⟩ with
  | some v => v
  | none => s.initial ⟨id, w, i, j⟩

/-- The value a register holds, as a number. -/
def State.regN (s : State) (id : RegId) (w : Nat := 0) (i : Nat := 0) (j : Nat := 0) : Nat := (s.reg id w i j).toNat

/-- Replace the value a register holds. -/
def State.setReg (s : State) (id : RegId) (v : DWord) (w : Nat := 0) (i : Nat := 0) (j : Nat := 0) : State :=
  { s with regs := tput s.regs ⟨id, w, i, j⟩ v }

/-- Replace the value a register holds by a number of its width. -/
def State.setRegN (s : State) (id : RegId) (v : Nat) (w : Nat := 0) (i : Nat := 0) (j : Nat := 0) : State :=
  s.setReg id (BitVec.ofNat 64 v) w i j

/-- A field of a register. -/
def State.fld (s : State) (f : Fld) (w : Nat := 0) (i : Nat := 0) (j : Nat := 0) : Nat :=
  bitsOf (s.regN f.r w i j) f.lo f.w

/-- Replace a field of a register. -/
def State.setFld (s : State) (f : Fld) (v : Nat) (w : Nat := 0) (i : Nat := 0) (j : Nat := 0) : State :=
  s.setRegN f.r (setBitsOf (s.regN f.r w i j) f.lo f.w v) w i j

/-- A one-bit field. -/
def State.flag (s : State) (f : Fld) (w : Nat := 0) (i : Nat := 0) (j : Nat := 0) : Bool := s.fld f w i j == 1

/-- Set or clear a one-bit field. -/
def State.setFlag (s : State) (f : Fld) (b : Bool) (w : Nat := 0) (i : Nat := 0) (j : Nat := 0) : State :=
  s.setFld f (b2n b) w i j

/-- Add to a counting field, wrapping at its width. -/
def State.addFld (s : State) (f : Fld) (n : Nat) (w : Nat := 0) (i : Nat := 0) (j : Nat := 0) : State :=
  s.setFld f (s.fld f w i j + n) w i j

/-- Add to a counting field, saturating at its width. -/
def State.satFld (s : State) (f : Fld) (n : Nat) (w : Nat := 0) (i : Nat := 0) (j : Nat := 0) : State :=
  s.setFld f (satAdd (2 ^ f.w - 1) (s.fld f w i j) n) w i j

/-- One bit of a register. -/
def State.bit (s : State) (id : RegId) (b : Nat) (w : Nat := 0) (i : Nat := 0) (j : Nat := 0) : Bool :=
  bitOf (s.regN id w i j) b

/-- Set or clear one bit of a register. -/
def State.setBit (s : State) (id : RegId) (b : Nat) (v : Bool) (w : Nat := 0) (i : Nat := 0) (j : Nat := 0) : State :=
  s.setRegN id (Machine.setBit (s.regN id w i j) b v) w i j

/-- R9. The outcome of a software write of `v` to a register: `t` where the effect of the value is defined. -/
def wrOut (id : RegId) (v : Word) (t : State) : Host.Outcome State Fault Refusal :=
  if id.defined v.toNat then .next t else .fault .undefinedFieldValue

/-! ### Hidden state -/

/-- An entry of hidden state. -/
def State.h (s : State) (k : Hid) (w : Nat := 0) (i : Nat := 0) (j : Nat := 0) : Nat := tget s.hid ⟨k, w, i, j⟩ 0

/-- Replace an entry of hidden state. -/
def State.setH (s : State) (k : Hid) (v : Nat) (w : Nat := 0) (i : Nat := 0) (j : Nat := 0) : State :=
  { s with hid := tput s.hid ⟨k, w, i, j⟩ v }

/-- A hidden flag. -/
def State.hb (s : State) (k : Hid) (w : Nat := 0) (i : Nat := 0) (j : Nat := 0) : Bool := s.h k w i j != 0

/-- A hidden value of w bits read as a time. -/
def State.hTime (s : State) (k : Hid) (w : Nat := 0) (i : Nat := 0) (j : Nat := 0) : Time :=
  BitVec.ofNat 64 (s.h k w i j)

/-! ### Free values -/

/-- Take the next free value: a value the spec calls "not defined" (assumption 1). -/
def State.takeFree (s : State) : Word × State := (Config.freeWord s.free 0, { s with free := s.free + 1 })

/-! ### Memory: one list of bytes, each memory a region of its own

A byte nothing has written reads 0 (R137 for a dome; assumption 3 for the others). -/

/-- The byte at an address of a memory list. -/
def memGet : List Host.Cell → Nat → Byte
  | [], _ => 0
  | (b, v) :: m, a => if a = b then v else memGet m a

/-- A memory list with one byte written, in canonical form: addresses rise, and no entry holds 0. -/
def memSet : List Host.Cell → Nat → Byte → List Host.Cell
  | [], a, v => if v = 0 then [] else [(a, v)]
  | (b, w) :: m, a, v =>
    if a < b then (if v = 0 then (b, w) :: m else (a, v) :: (b, w) :: m)
    else if a = b then (if v = 0 then m else (a, v) :: m)
    else (b, w) :: memSet m a v

/-- Write consecutive bytes. -/
def memSetList : List Host.Cell → Nat → List Byte → List Host.Cell
  | m, _, [] => m
  | m, a, v :: vs => memSetList (memSet m a v) (a + 1) vs

/-- The canonical form: addresses strictly rising above a bound, and no entry at the default. -/
def memWfFrom : Nat → List Host.Cell → Bool
  | _, [] => true
  | lo, (a, v) :: m => decide (lo ≤ a) && decide (v ≠ 0) && memWfFrom (a + 1) m

/-- The canonical form of a memory. -/
def Memory.wf (m : List Host.Cell) : Bool := memWfFrom 0 m

/-- The dome memory of logical pavilion p, by the 35-bit dome address of R116. -/
def domeBase (p : Nat) : Nat := p * 2 ^ 35
/-- The data memory of Spire k of pavilion p: 256 KiB (R195). -/
def dmemBase (p k : Nat) : Nat := 2 ^ 41 + (p * 8 + k) * 2 ^ 18
/-- The instruction memory of Spire k of pavilion p: 8,192 bundles of 8 bytes (R195). -/
def imemBase (p k : Nat) : Nat := 2 ^ 42 + (p * 8 + k) * 2 ^ 16
/-- The memory of the lodge at site x: 256 KiB (R398). -/
def sramBase (x : Nat) : Nat := 2 ^ 43 + x * 2 ^ 18
/-- The host memory behind endpoint e, as the block reads and writes it (R452). -/
def hostBase (e : Nat) : Nat := 2 ^ 64 * (1 + e)

/-- The staging area CAMP_LQ_STAGE of a home: 4 KiB (R59). -/
def stageBase (h : Nat) : Nat := 2 ^ 44 + h * 4096

/-- The configuration cells of plot q of pavilion p: 3,648 frames of 4,096 bytes (R360). They are named by the logical
pavilion, not by a site (R309). -/
def cellBase (p q : Nat) : Nat := 2 ^ 45 + (4 * p + q) * 2 ^ 24

/-- The verifier's copy of the frame table of pavilion p: 12,289 words (R370). -/
def verTblBase (p : Nat) : Nat := 2 ^ 46 + p * 2 ^ 16

/-- The undefined run that holds an address, if one does. -/
def undefAt (l : List UndefRange) (a : Nat) : Option UndefRange :=
  l.find? fun r => decide (r.base ≤ a) && decide (a < r.base + r.len)

/-- The undefined runs left after n bytes at a have been written. -/
def undefCut (l : List UndefRange) (a n : Nat) : List UndefRange :=
  if n = 0 then l
  else l.flatMap fun r =>
    if r.base + r.len ≤ a ∨ a + n ≤ r.base then [r]
    else
      (if r.base < a then [⟨r.base, a - r.base, r.seed⟩] else []) ++
        (if a + n < r.base + r.len then [⟨a + n, r.base + r.len - (a + n), r.seed⟩] else [])

/-- A byte of a free value. -/
def freeByte (seed a : Nat) : Byte := (Config.freeWord seed (a / 4) >>> (8 * (a % 4))).truncate 8

/-- Read one byte: what was written, a free value where the contents are not defined, else 0. -/
def State.ldByte (s : State) (a : Nat) : Byte :=
  match undefAt s.undef a with
  | none => memGet s.mem a
  | some r => freeByte r.seed a
/-- Write consecutive bytes. -/
def State.stBytes (s : State) (a : Nat) (vs : List Byte) : State :=
  { s with mem := memSetList s.mem a vs, undef := undefCut s.undef a vs.length }
/-- Write one byte. -/
def State.stByte (s : State) (a : Nat) (v : Byte) : State := s.stBytes a [v]
/-- Read n consecutive bytes. -/
def State.ldBytes (s : State) (a n : Nat) : List Byte := (List.range n).map fun i => s.ldByte (a + i)
/-- Read n bytes as a little-endian number (R6). -/
def State.ldN (s : State) (a n : Nat) : Nat := leNat (s.ldBytes a n)
/-- Write a number as n little-endian bytes (R6). -/
def State.stN (s : State) (a n v : Nat) : State := s.stBytes a (natBytes n v)
/-- Fill n bytes with zeros. -/
def State.clearBytes (s : State) (a n : Nat) : State :=
  { s with mem := s.mem.filter (fun c => !(decide (a ≤ c.1) && decide (c.1 < a + n))), undef := undefCut s.undef a n }

/-- The contents of n bytes become undefined. -/
def State.makeUndef (s : State) (a n : Nat) : State :=
  let s := s.clearBytes a n
  { s with undef := ⟨a, n, s.free⟩ :: s.undef, free := s.free + 1 }

/-! ### Pairs (R7, R524) -/

/-- The write stage of a pair. -/
def State.stageOf (s : State) (k : RegKey) : Word := tget s.stage k 0
/-- The read snapshot of a pair. -/
def State.snapOf (s : State) (k : RegKey) : Word := tget s.snap k 0

end Sys2Proof.Machine
end

