-- ==== Sys2Proof/Machine/Place.lean ====
section
/-!
DEFINITION. The placement of logical pavilions on sites (R13, R14, R19), and which nodes and ports can take traffic
(R327, R329, R437); the time base and its replicas (R28, R39).
-/
namespace Sys2Proof.Machine

/-- The physical row of a logical row (R19). -/
def prow (r : Nat) : Nat := [0, 2, 3, 1].getD (r % 4) 0

/-- The position of a logical column within its physical row (R19). -/
def posOf (c : Nat) : Nat := if c ≤ 3 then 2 * c else 15 - 2 * c

/-- The folly slot of a physical row in a folly map word (Table 1.5). -/
def follySlot (map prow : Nat) : Nat := bitsOf map (4 * prow) 4

/-- The slot of P(r,c) under a folly map word (R19). -/
def slotOf (map r c : Nat) : Nat := if posOf c < follySlot map (prow r) then posOf c else posOf c + 1

/-- The site of logical pavilion p under a folly map word (R19). -/
def siteUnder (map p : Nat) : Nat := 9 * prow (p / 8) + slotOf map (p / 8) (p % 8)

/-- The folly map in force (R20). -/
def State.follyMap (s : State) : Nat := bitsOf (s.regN .CFG_FOLLY_MAP) 0 16

/-- The fused folly map (R16). -/
def State.follyFuse (s : State) : Nat := bitsOf (s.fuse ⟨.CFG_FOLLY_FUSE, 0, 0, 0⟩).toNat 0 16

/-- SITE_ID.FOLLY_FUSE: a site is fused as the folly of its row (Table 1.3). -/
def State.siteFolly (s : State) (x : Nat) : Bool := bitOf (s.fuse ⟨.SITE_ID, x, 0, 0⟩).toNat 12

/-- The site that holds logical pavilion p (R19). -/
def State.siteOf (s : State) (p : Nat) : Nat := siteUnder s.follyMap p

/-- The logical pavilion that a site holds, if it is an active pavilion (R19). -/
def State.pavAt (s : State) (x : Nat) : Option Nat := firstWhere 32 fun p => s.siteOf p == x

/-- The four sites a tower reaches, left to right (Table 1.2). -/
def towerSites (t : Nat) : List Nat :=
  let first := [0, 2, 3, 5].getD (t % 4) 0
  (List.range 4).map fun i => (if t < 4 then 0 else 27) + first + i

/-- The towers that reach a site, ascending (Table 1.2). -/
def siteTowers (x : Nat) : List Nat := (List.range 8).filter fun t => (towerSites t).contains x

/-- The bridge site of an annex (Table 1.1). -/
def bridgeSite (a : Nat) : Nat := [9, 17, 18, 26].getD a 9

/-- The node numbers (Table 12.1). -/
def towerNode (t : Nat) : Nat := 32 + t
/-- The node of an annex (Table 12.1). -/
def annexNode (a : Nat) : Nat := 40 + a

/-- The router of pavilion q masks node n (R329); an annex node is isolated while its link is not UP (R349). -/
def State.isoAt (s : State) (q n : Nat) : Bool :=
  s.bit .PRM_ISO n q || (decide (40 ≤ n) && s.fld F.ANX_STAT_STATE 0 (n - 40) != 6)

/-- A node is isolated when every other pavilion router masks it (R329). -/
def State.isolated (s : State) (n : Nat) : Bool := (List.range 32).all fun q => q == n || s.isoAt q n

/-- The power state of a pavilion: 0 RUN, 1 FABRIC_OFF, 2 STANDBY, 3 OFF (R437). -/
def State.power (s : State) (p : Nat) : Nat := s.fld F.THM_PWR_STAT_STATE p

/-- A port of a pavilion takes no request: its node or port is draining or fenced (R327), or its plot is BLANK (R366). -/
def State.portClosed (s : State) (p port : Nat) : Bool :=
  (s.fld F.PRM_STAT_FENCE p != 0 &&
    (s.fld F.PRM_FENCE_CTL_SCOPE p == 0 || s.bit .PRM_FENCE_PORT (port % 32) p (port / 32))) ||
  (port < 64 && (s.h .plotFence p (port / 16) != 0 || s.fld F.CFG_PLOT_STAT_STATE p (port / 16) == 4))

/-- A port of a pavilion is fenced by either fence instance (R327). -/
def State.portFenced (s : State) (p port : Nat) : Bool :=
  (s.fld F.PRM_STAT_FENCE p == 2 &&
    (s.fld F.PRM_FENCE_CTL_SCOPE p == 0 || s.bit .PRM_FENCE_PORT (port % 32) p (port / 32))) ||
  (port < 64 && (s.h .plotFence p (port / 16) == 2 || s.fld F.CFG_PLOT_STAT_STATE p (port / 16) == 4))

/-- The presiding lodge's site: the one the latest heartbeat named (R406), if there has been one. -/
def State.presSite (s : State) : Option Nat :=
  if s.h .presiding = 0 then none else some (s.h .presiding - 1)

/-- The presiding lodge that writes the journal: one that a higher term deposed writes nothing more to it (R405). -/
def State.jrnlHead (s : State) : Option Nat :=
  if s.h .presiding = s.h .elecWin then s.presSite else none

/-- The lodge of a site runs its firmware (Table 16.6). -/
def State.lodgeRuns (s : State) (x : Nat) : Bool := s.fld F.LDG_BOOT_STAT_STATE x == 1

/-- R480. The opcode of the TAP instruction in force. -/
def State.tapIr (s : State) : Nat := if s.h .jtagIr = 0 then 2 else s.h .jtagIr - 1

/-- R480. Boundary scan holds the covered balls: EXTEST, HIGHZ, CLAMP, EXTEST_PULSE or EXTEST_TRAIN is in force. -/
def State.scanning (s : State) : Bool := [0x00, 0x08, 0x09, 0x0c, 0x0d].contains s.tapIr

/-- The node that serves the global TEL block (R426). -/
def State.telNode (s : State) : Nat := if s.flag F.TEL_STAT_INST then 36 else 32

/-! ### The time base and its replicas -/

/-- The beat in force, kHz (R28, R34). -/
def State.freq (s : State) : Nat := if s.h .campFreq = 0 then 100000 else s.h .campFreq

/-- Cycles of the Spire clock, at 1.2 GHz, since POWER-ON (R210): the steps of device time and its changes of rate move it
not. -/
def State.sprClock (s : State) : Nat :=
  s.h .cycAcc + (s.time - s.hTime .stepped - s.hTime .cycFrom).toNat * 1200000 / (65536 * s.freq)

/-- R28, R34. The beat takes a frequency. -/
def State.setFreq (s : State) (khz : Nat) : State :=
  s.setH .cycAcc s.sprClock |>.setH .cycFrom (s.time - s.hTime .stepped).toNat |>.setH .campFreq khz

/-- A duration in ns as device-time units of the beat in force, rounded down. -/
def State.nsUnits (s : State) (ns : Nat) : Nat := ns * s.freq * 65536 / 1000000

/-- A signed quantity in 0.25 ps units as device-time units of the beat in force, rounded toward minus infinity
(assumption 10). -/
def State.quarterPsUnits (s : State) (x : Int) : Int := x * s.freq * 65536 / 4000000000

/-- R39. The bound of a trim sum: 8.000 ns in 0.25 ps units. -/
def trimBound : Int := 32000

/-- R39. The trim at which the replica of a place settles, the sum of its factory and user trims saturated at the bound:
place x is site x, place 64 + t tower t. -/
def State.trimSumOf (s : State) (k : Nat) : Int :=
  if k < 64 then signed 32 (s.regN .CAMP_SITE_TRIM_FAC k) + signed 32 (s.regN .CAMP_SITE_TRIM_USER k)
  else signed 32 (s.regN .CAMP_TWR_TRIM_FAC (k - 64)) + signed 32 (s.regN .CAMP_TWR_TRIM_USER (k - 64))

/-- R39. The trim at which the replica of a place settles. -/
def State.trimOf (s : State) (k : Nat) : Int := clampI (-trimBound) trimBound (s.trimSumOf k)

/-- Device time as it would stand without the steps it made: what intervals are counted on (R38). -/
def State.runTime (s : State) : Time := s.time - s.hTime .stepped

/-- Device-time units since a change of a place's trim began (R40). -/
def State.trimElapsed (s : State) (k : Nat) : Nat := (s.runTime - BitVec.ofNat 64 (s.h .trimAt k - 1)).toNat

/-- R40. The trim of a place as it stands: a change moves by 1 ps, four units of trim, per beat. -/
def State.trimNow (s : State) (k : Nat) : Int :=
  let goal := s.trimOf k
  if s.h .trimAt k = 0 then goal
  else
    let m : Int := (s.trimElapsed k * 4 / 65536 : Nat)
    let from_ := signed 32 (s.h .trimFrom k)
    if from_ ≤ goal then min goal (from_ + m) else max goal (from_ - m)

/-- R40. Device-time units until the change of a place's trim is complete. -/
def State.trimLeft (s : State) (k : Nat) : Nat :=
  if s.h .trimAt k = 0 then 0
  else (s.trimOf k - signed 32 (s.h .trimFrom k)).natAbs * 16384 - s.trimElapsed k

/-- R39. Device time as the replicas of a site present it: the factory trim takes out the bell-line delay. -/
def State.siteTime (s : State) (x : Nat) : Time :=
  s.time + BitVec.ofInt 64 (s.quarterPsUnits (s.trimNow x - signed 32 (s.regN .CAMP_SITE_TRIM_FAC x)))

/-- R39. Device time at a logical pavilion. -/
def State.pavTime (s : State) (p : Nat) : Time := s.siteTime (s.siteOf p)

/-- R39. Device time at a tower. -/
def State.towerTime (s : State) (t : Nat) : Time :=
  s.time + BitVec.ofInt 64 (s.quarterPsUnits (s.trimNow (64 + t) - signed 32 (s.regN .CAMP_TWR_TRIM_FAC t)))

/-- R41. The trim of a lane, saturated, in device-time units. -/
def State.laneTrim (s : State) (t l : Nat) : Int :=
  s.quarterPsUnits (clampI (-trimBound) trimBound (signed 32 (s.regN .CAMP_LANE_TRIM t l)))

/-- R41. The trim of a pin group, saturated, in device-time units. -/
def State.pinTrim (s : State) (t g : Nat) : Int :=
  s.quarterPsUnits (clampI (-trimBound) trimBound (signed 32 (s.regN .CAMP_PIN_TRIM t g)))

/-- R39. Device time at a pavilion (below 32), a tower (32 + t), or elsewhere. -/
def State.nodeTime (s : State) (n : Nat) : Time :=
  if n < 32 then s.pavTime n else if n < 40 then s.towerTime (n - 32) else s.time

end Sys2Proof.Machine
end

