-- ==== Sys2Proof/Machine/Alarm.lean ====
section
/-!
DEFINITION. Raising an alarm at a node (R427, R428).
-/
namespace Sys2Proof.Machine

/-- R428, R425. A node sends its alarm write: with the count so far, and the records dropped since its last record. -/
def State.alarmSend (s : State) (n ty : Nat) : State :=
  s.setH .almSent (s.h .almCount n ty) n ty |>.setH .almDrops (s.h .telDrops n) n ty |>.setH .telDrops 0 n
    |>.setH .almTaken 0 n ty

/-- R428. A node raises an alarm type: the pending bit and its count; if the type was not pending, the time, and the
node sends its one alarm write. -/
def State.alarm (s : State) (n ty : Nat) : State :=
  let was := s.bit .TEL_ALM_PEND (ty % 32) n (ty / 32)
  let s := s.setH .almCount (satAdd 65535 (s.h .almCount n ty) 1) n ty
  if was then s
  else
    (s.setBit .TEL_ALM_PEND (ty % 32) true n (ty / 32)
      |>.setH .almTime (s.nodeTime n).toNat n ty).alarmSend n ty

/-- The node at which the device's own units raise an alarm: the node of the global block (R426). -/
def State.devAlarm (s : State) (ty : Nat) : State := s.alarm s.telNode ty

/-- R172. A fault of a kind begins; one that arrives before recovery from another has finished raises an alarm. Kinds: 0
pavilion, 1 Lartum link, 2 tower, 3 lodge, 4 Spire, 5 transceiver lane. -/
def State.faultStart (s : State) (kind id : Nat) : State :=
  if s.hb .faultOpen kind id then s
  else
    let other := s.hid.any fun e => e.1.id == .faultOpen && e.2 != 0
    let s := s.setH .faultOpen 1 kind id
    if other then s.devAlarm 0x48 else s

/-- Recovery from a fault has finished. -/
def State.faultEnd (s : State) (kind id : Nat) : State := if s.hb .faultOpen kind id then s.setH .faultOpen 0 kind id else s

end Sys2Proof.Machine
end

