-- ==== Sys2Proof/Machine/Events.lean ====
section
/-!
DEFINITION. The event controllers (R259..R279): raises, groups, acknowledge, end of interrupt, hold. Controller c is the
EVC of pavilion c for c < 32, and the HEVC for c = 32.
-/
namespace Sys2Proof.Machine

/-- The HEVC's controller number. -/
def hevc : Nat := 32

/-- The registers the two kinds of controller share (R278, R279). -/
inductive EvReg where
  | ctl | stat | fbTmo | pend | mask | cls | sgrp | route | coal | tim | gstat | ack0 | ack1 | eoi | tctl | tstat
deriving DecidableEq, Repr

/-- The register of a controller. -/
def evId (c : Nat) : EvReg → RegId
  | .ctl => if c < 32 then .EVC_CTL else .HEVC_CTL
  | .stat => if c < 32 then .EVC_STAT else .HEVC_STAT
  | .fbTmo => if c < 32 then .EVC_FB_TMO else .HEVC_FB_TMO
  | .pend => if c < 32 then .EVC_PEND else .HEVC_PEND
  | .mask => if c < 32 then .EVC_MASK else .HEVC_MASK
  | .cls => if c < 32 then .EVC_CLASS else .HEVC_CLASS
  | .sgrp => if c < 32 then .EVC_SGRP else .HEVC_SGRP
  | .route => if c < 32 then .EVC_GRP_ROUTE else .HEVC_GRP_ROUTE
  | .coal => if c < 32 then .EVC_GRP_COAL else .HEVC_GRP_COAL
  | .tim => if c < 32 then .EVC_GRP_TIME else .HEVC_GRP_TIME
  | .gstat => if c < 32 then .EVC_GRP_STAT else .HEVC_GRP_STAT
  | .ack0 => if c < 32 then .EVC_ACK_0 else .HEVC_ACK_0
  | .ack1 => if c < 32 then .EVC_ACK_1 else .HEVC_ACK_1
  | .eoi => if c < 32 then .EVC_EOI else .HEVC_EOI
  | .tctl => if c < 32 then .EVC_TGT_CTL else .HEVC_TGT_CTL
  | .tstat => if c < 32 then .EVC_TGT_STAT else .HEVC_TGT_STAT

/-- The register window of a controller. -/
def evWin (c : Nat) : Nat := if c < 32 then c else 0

/-- The number of sources of a controller. -/
def evSources (c : Nat) : Nat := if c < 32 then 512 else 2048

/-- The number of core targets of a controller (R263). -/
def evTargets (c : Nat) : Nat := if c < 32 then 9 else 36

/-- A field of a controller register. -/
def State.ev (s : State) (c : Nat) (r : EvReg) (i lo w : Nat) : Nat := bitsOf (s.regN (evId c r) (evWin c) i) lo w

/-- Replace a field of a controller register. -/
def State.setEv (s : State) (c : Nat) (r : EvReg) (i lo w v : Nat) : State :=
  s.setRegN (evId c r) (setBitsOf (s.regN (evId c r) (evWin c) i) lo w v) (evWin c) i

/-- Source q is pending (R259). -/
def State.evPend (s : State) (c q : Nat) : Bool := s.ev c .pend (q / 32) (q % 32) 1 == 1
/-- Source q is masked (R259). -/
def State.evMasked (s : State) (c q : Nat) : Bool := s.ev c .mask (q / 32) (q % 32) 1 == 1
/-- The class of a source: 1 fast, 0 normal (R263). -/
def State.evClass (s : State) (c q : Nat) : Nat := s.ev c .cls (q / 32) (q % 32) 1
/-- The group a source counts in: its group register, or its old group until the next arbitration (R260). -/
def State.evGroup (s : State) (c q : Nat) : Nat :=
  if s.h .evcMoved c q = 0 then s.ev c .sgrp (q / 4) (8 * (q % 4)) 6 else s.h .evcMoved c q - 1

/-- HOLD is in force (R275). -/
def State.evHold (s : State) (c : Nat) : Bool := s.ev c .stat 0 2 1 == 1

/-- Where a route leads (R263). -/
inductive EvTarget where
  /-- a core: a Spire or the lodge of the pavilion, or the lodge of a site -/
  | core (t : Nat)
  /-- the task scheduler, on a flow -/
  | sched (flow : Nat)
  /-- the MSI-X vectors of a PCI Express function -/
  | msix (func : Nat)
  /-- no target: the route's value is reserved, or there is no presiding lodge -/
  | none
deriving DecidableEq, Repr

/-- A lodge field of an HEVC route: a site, or 63 for the presiding lodge. -/
def State.lodgeTarget (s : State) (v : Nat) : EvTarget :=
  if v < 36 then .core v
  else if v = 63 then match s.presSite with | some x => .core x | none => .none
  else .none

/-- The target of a group's route (Tables 10.2, 10.3). -/
def State.evRoute (s : State) (c g : Nat) : EvTarget :=
  if c < 32 then
    let t := s.ev c .route g 0 4
    if t < 9 then .core t else if t = 9 then .sched (s.ev c .route g 4 10) else .none
  else if s.ev c .route g 0 1 = 0 then .msix (s.ev c .route g 1 2)
  else s.lodgeTarget (s.ev c .route g 3 6)

/-- The fallback of a group's route, when one is enabled (R273). -/
def State.evFallback (s : State) (c g : Nat) : EvTarget :=
  if c < 32 then
    (if s.ev c .route g 18 1 = 1 ∧ s.ev c .route g 14 4 < 9 then .core (s.ev c .route g 14 4) else .none)
  else if s.ev c .route g 15 1 = 1 then s.lodgeTarget (s.ev c .route g 9 6) else .none

/-- The target a group delivers to now (R273). -/
def State.evDeliverTo (s : State) (c g : Nat) : EvTarget :=
  if s.ev c .gstat g 18 1 = 1 then s.evFallback c g else s.evRoute c g

/-- A core target is fenced: powered down, in CORE reset, out of service (R411; log entry 139), or fenced by its
pavilion (R273). -/
def State.coreFenced (s : State) (c t : Nat) : Bool :=
  if c < 32 then
    if t < 8 then decide (2 ≤ s.power c) || s.hb .sprDead c t || s.portFenced c (64 + 2 * t)
    else !s.lodgeRuns (s.siteOf c) || s.hb .lodgeDead (s.siteOf c) || s.portFenced c 112
  else !s.lodgeRuns t || s.hb .lodgeDead t

/-- An MSI-X function is fenced for a source: not usable, or its table too small (R273, R454). -/
def State.msixFenced (s : State) (f q : Nat) : Bool :=
  !s.flag F.PCIE_FN_STAT_USABLE 0 f || decide (s.fld F.PCIE_FN_CFG_MSIX_N 0 f + 1 ≤ q)

/-- A target is fenced for the sources of a group. -/
def State.targetFenced (s : State) (c : Nat) (q : Nat) : EvTarget → Bool
  | .core t => s.coreFenced c t
  | .sched _ => decide (2 ≤ s.power c) || s.portFenced c 115
  | .msix f => s.msixFenced f q
  | .none => true

/-- A core target sleeps: a lodge in WFI (R439). -/
def State.coreAsleep (s : State) (c t : Nat) : Bool :=
  if c < 32 then t == 8 && s.hb .lodgeWfi (s.siteOf c) else s.hb .lodgeWfi t

/-- The sources of a group that are pending and unmasked, lowest first. -/
def State.evLive (s : State) (c g : Nat) : List Nat :=
  indicesWhere (evSources c) fun q => s.evPend c q && !s.evMasked c q && s.evGroup c q == g

/-- R261. A group none of whose sources is pending and unmasked resets: its count returns to 0 and its timer stops. -/
def State.evSettle (s : State) (c g : Nat) : State :=
  if (s.evLive c g).isEmpty then
    (s.setEv c .gstat g 0 13 0 |>.setEv c .gstat g 16 1 0 |>.setEv c .gstat g 17 1 0 |>.setEv c .gstat g 19 1 0
      |>.setH .evcExpiry 0 c g)
  else s

/-- R261. n counted raises of a group. The first starts the timer, on the router replica, and captures COUNT. -/
def State.evCount (s : State) (c g n : Nat) : State :=
  if n = 0 then s
  else
    let was := s.ev c .gstat g 0 13
    let s := if was = 0 then
        (s.setH .evcCoal (s.ev c .coal g 0 13) c g
          |>.setH .evcExpiry (s.nodeTime c + beats (s.ev c .tim g 0 25)).toNat c g
          |>.setEv c .gstat g 17 1 1)
      else s
    let now := satAdd 4096 was n
    let s := s.setEv c .gstat g 0 13 now
    if s.h .evcCoal c g ≤ now then s.setEv c .gstat g 16 1 1 else s

/-- R259, R275. Raise event source q of a controller once. -/
def State.raise (s : State) (c q : Nat) : State :=
  let s := s.setH .evcCount (satAdd 65535 (s.h .evcCount c q) 1) c q
  if s.evHold c then s.setH .evcShadow (s.h .evcShadow c q + 1) c q
  else
    let s := s.setEv c .pend (q / 32) (q % 32) 1 1
    if s.evMasked c q then s else s.evCount c (s.evGroup c q) 1

/-- Raise a local event source of a pavilion. -/
def State.local (s : State) (p q : Nat) : State := s.raise p q
/-- Raise a device-level event source. -/
def State.device (s : State) (q : Nat) : State := s.raise hevc q

/-- R269. A class may be delivered to a core target whose stack is as given and not frozen. -/
def stackTakes (stack cls : Nat) : Bool :=
  if cls = 1 then decide (stack = 0) || decide (stack = 1) else decide (stack = 0)

/-- R269. The stack after a class is pushed. -/
def stackPush (stack cls : Nat) : Nat := if cls = 1 then (if stack = 1 then 3 else 2) else 1

/-- The class on top of a stack (Table 10.2). -/
def stackTop (stack : Nat) : Nat := if stack = 2 ∨ stack = 3 then 1 else 0

/-- The stack after its top is popped (R270). -/
def stackPop (stack : Nat) : Nat := if stack = 3 then 1 else 0

/-- The depth of a stack. -/
def stackDepth (stack : Nat) : Nat := if stack = 0 then 0 else if stack = 3 then 2 else 1

/-- Replace a core target's stack, and show it in TGT_STAT. -/
def State.setStack (s : State) (c t st : Nat) : State :=
  (s.setH .evcStack st c t |>.setEv c .tstat t 0 2 (stackDepth st) |>.setEv c .tstat t 2 1 (stackTop st))

/-- A core target's stack is frozen (R270). -/
def State.frozen (s : State) (c t : Nat) : Bool := s.ev c .tstat t 3 1 == 1

/-- R265, R269. Source q is eligible for core target t in class cls, apart from the target's stack. -/
def State.evOffers (s : State) (c t cls q : Nat) : Bool :=
  s.evPend c q && !s.evMasked c q && s.evClass c q == cls &&
    s.ev c .gstat (s.evGroup c q) 16 1 == 1 && s.evDeliverTo c (s.evGroup c q) == .core t

/-- R265. The source that an acknowledge read of class cls by target t delivers. -/
def State.evNext (s : State) (c t cls : Nat) : Option Nat :=
  if s.evHold c || s.frozen c t || !stackTakes (s.h .evcStack c t) cls then none
  else firstWhere (evSources c) (s.evOffers c t cls)

/-- R265. The acknowledge word of a delivery, or the spurious vector. -/
def State.ackWord (s : State) (c t cls : Nat) : Word :=
  match s.evNext c t cls with
  | none => 0x7ff
  | some q => BitVec.ofNat 32 (q + cls * 2 ^ 11 + s.h .evcCount c q * 2 ^ 12 + 2 ^ 31)

/-- R265, R267. A source is delivered: its pending bit and count clear. After a delivery of a gatehouse's source 400 its
stream counts may raise it again (R97). -/
def State.evClear (s : State) (c q : Nat) : State :=
  let s := s.setEv c .pend (q / 32) (q % 32) 1 0 |>.setH .evcCount 0 c q
  if c < 32 ∧ q = 400 then { s with hid := tfilter s.hid fun k => !(k.id == .gateNoted && k.w == c) } else s

/-- R265. The effect of an acknowledge read: the source's pending bit and count clear, and the class is pushed. -/
def State.ackTake (s : State) (c t cls : Nat) : State :=
  match s.evNext c t cls with
  | none => s
  | some q =>
    (s.evClear c q
      |>.setStack c t (stackPush (s.h .evcStack c t) cls) |>.evSettle c (s.evGroup c q))

/-- R265. One acknowledge read. -/
def State.ack (s : State) (c t cls : Nat) : Word × State := (s.ackWord c t cls, s.ackTake c t cls)

/-- R270. An end of interrupt: pop a matching top, or freeze the stack. -/
def State.eoi (s : State) (c t cls : Nat) : State :=
  if s.frozen c t then s
  else if s.h .evcStack c t ≠ 0 ∧ stackTop (s.h .evcStack c t) = cls then s.setStack c t (stackPop (s.h .evcStack c t))
  else
    let s := (s.setEv c .tstat t 3 1 1 |>.setEv c .tstat t 4 1 cls |>.setEv c .stat 0 1 1 1
      |>.setEv c .tstat t 7 1 0 |>.setEv c .tstat t 8 1 0)
    let s := s.raise c (if c < 32 then 500 else 1028)
    if c < 32 ∧ t = 8 then s.alarm c 0x38 else if c < 32 then s else s.devAlarm 0x38

/-- R270. STK_CLR empties and unfreezes a stack. -/
def State.stkClear (s : State) (c t : Nat) : State :=
  (s.setStack c t 0 |>.setEv c .tstat t 3 1 0)

/-- R271. A context 1 leaving RUN pops a fast class on top of its target's stack. -/
def State.fastLeave (s : State) (p k : Nat) : State :=
  if s.h .evcStack p k = 2 ∨ s.h .evcStack p k = 3 then s.eoi p k 1 else s

/-- R275. HOLD takes effect. -/
def State.holdSet (s : State) (c : Nat) : State := s.setEv c .ctl 0 0 1 1 |>.setEv c .stat 0 2 1 1

/-- R275. HOLD is released: the shadow is ORed into the pending bits, and each recorded raise counts under R261. -/
def State.holdRelease (s : State) (c : Nat) : State :=
  let s := s.setEv c .ctl 0 0 1 0 |>.setEv c .stat 0 2 1 0
  foldS (fun q s =>
      let n := s.h .evcShadow c q
      if n = 0 then s
      else
        let s := s.setH .evcShadow 0 c q |>.setEv c .pend (q / 32) (q % 32) 1 1
        if s.evMasked c q then s else s.evCount c (s.evGroup c q) n)
    (indicesWhere (evSources c) fun q => s.hb .evcShadow c q) s

/-- R274. A software write of a pending word: the word lands, and nothing else; while HOLD is in force too (R275). A
group left with no pending unmasked source resets (R261). -/
def State.pendWrite (s : State) (c w : Nat) (v : Word) : State :=
  let s' := s.setRegN (evId c .pend) v.toNat (evWin c) w
  foldS (fun g s => s.evSettle c g) ((List.range 32).map fun b => s.evGroup c (32 * w + b)) s'

/-- R261, R268. A software write of a mask word: each pending source it unmasks counts as one raise of its group, and a
group left with no pending unmasked source resets. -/
def State.maskWrite (s : State) (c w : Nat) (v : Word) : State :=
  let s' := s.setRegN (evId c .mask) v.toNat (evWin c) w
  let s' := foldS (fun b s' =>
      let q := 32 * w + b
      if s.evPend c q && s.evMasked c q && !s'.evMasked c q then s'.evCount c (s'.evGroup c q) 1 else s')
    (List.range 32) s'
  foldS (fun g s => s.evSettle c g) ((List.range 32).map fun b => s.evGroup c (32 * w + b)) s'

/-- R260. A software write of a group word: a pending source moves at the next arbitration. -/
def State.sgrpWrite (s : State) (c w : Nat) (v : Word) : State :=
  let s' := s.setReg (evId c .sgrp) ((v &&& 0x3f3f3f3f).zeroExtend 64) (evWin c) w
  foldS (fun j s' =>
      let q := 4 * w + j
      if s.evPend c q && s.evGroup c q != bitsOf v.toNat (8 * j) 6 then s'.setH .evcMoved (s.evGroup c q + 1) c q
      else s'.setH .evcMoved 0 c q)
    (List.range 4) s'

/-- R261. The timer of a group expires: the group is ripe. -/
def State.timerExpire (s : State) (c g : Nat) : State :=
  if s.ev c .gstat g 17 1 = 1 then
    s.setEv c .gstat g 16 1 1 |>.setEv c .gstat g 17 1 0
  else s

/-- R262. Running timers at a step of device time by `d` units: a forward step expires the timers it skipped; after a
backward step a timer expires when device time reaches its expiry, which is that much later. -/
def State.timersStep (s : State) (new : Time) (d : Int) : State :=
  foldS (fun c s => foldS (fun g s =>
      if s.ev c .gstat g 17 1 = 1 then
        if d < 0 then s
        else if atOrAfter (s.nodeTime c + (new - s.time)) (s.hTime .evcExpiry c g) then s.timerExpire c g else s
      else s) (List.range 64) s) (List.range 33) s

/-- R260. At an arbitration the moved sources of a controller join their new groups, each counting as one raise. -/
def State.evMove (s : State) (c : Nat) : State :=
  foldS (fun q s =>
      let s := s.setH .evcMoved 0 c q
      if s.evPend c q then s.evCount c (s.evGroup c q) 1 else s)
    (indicesWhere (evSources c) fun q => s.hb .evcMoved c q) s

/-- R272, R273. At an arbitration every group settles, and a redirected or undeliverable group whose own target is no
longer fenced delivers to it. -/
def State.evRefresh (s : State) (c : Nat) : State :=
  foldS (fun g s =>
      let s := s.evSettle c g
      if (s.ev c .gstat g 18 1 = 1 ∨ s.ev c .gstat g 19 1 = 1) ∧ ¬ s.targetFenced c ((s.evLive c g).headD 0) (s.evRoute c g) then
        s.setEv c .gstat g 18 1 0 |>.setEv c .gstat g 19 1 0
      else s)
    (List.range 64) s

/-- R264, R269. The requests of every core target follow what is eligible for it. -/
def State.evRequests (s : State) (c : Nat) : State :=
  foldS (fun t s =>
      (s.setEv c .tstat t 7 1 (b2n (s.evNext c t 0).isSome) |>.setEv c .tstat t 8 1 (b2n (s.evNext c t 1).isSome)
        |>.setEv c .tstat t 5 1 (b2n (s.coreAsleep c t)) |>.setEv c .tstat t 6 1 (b2n (s.coreFenced c t))))
    (List.range (evTargets c)) s

/-- R273. A ripe group whose target has been fenced for FB_TMO delivers to its fallback; with no fallback, or a fenced
one, its sources stay pending and are reported as undeliverable. -/
def State.fallback (s : State) (c g : Nat) : State :=
  let q := (s.evLive c g).headD 0
  if s.ev c .gstat g 16 1 = 1 ∧ s.targetFenced c q (s.evRoute c g) then
    if s.targetFenced c q (s.evFallback c g) then
      if s.ev c .gstat g 19 1 = 1 then s
      else (s.setEv c .stat 0 0 1 1 |>.setEv c .gstat g 19 1 1 |>.raise c (if c < 32 then 501 else 1029))
    else s.setEv c .gstat g 18 1 1 |>.setEv c .gstat g 19 1 0
  else s

/-- R277. A WARM reset of a controller. -/
def State.evWarm (s : State) (c : Nat) : State :=
  { s with
    regs := tfilter s.regs fun k =>
      !(k.w == evWin c && (k.id == evId c .pend || k.id == evId c .gstat || k.id == evId c .tstat ||
        k.id == evId c .ctl || k.id == evId c .stat))
    hid := tfilter s.hid fun k =>
      !(k.w == c && (k.id == .evcCount || k.id == .evcShadow || k.id == .evcMoved || k.id == .evcCoal ||
        k.id == .evcExpiry || k.id == .evcStack)) }

end Sys2Proof.Machine
end

