-- ==== Sys2Proof/Machine/Pins.lean ====
section
/-!
DEFINITION. The levels of the management pins, and what a read of GPIO_DIN sees of them (R465, R468, R469, R472, R474).
-/
namespace Sys2Proof.Machine

/-- GPIO_FUNC_w of a pin (Table 19.1). -/
def State.gpioFunc (s : State) (n : Nat) : Nat := bitsOf (s.regN .GPIO_FUNC 0 (n / 8)) (4 * (n % 8)) 4

/-- R465. The tower of a GPIO pin. -/
def gpioTower (n : Nat) : Nat := if n < 48 then 0 else 4
/-- R465. The launch-queue pin group of a GPIO pin. -/
def gpioGroup (n : Nat) : Nat := 18 + n % 48 / 8

/-- A pin's OD bit (Table 19.4). -/
def State.gpioOd (s : State) (n : Nat) : Bool := s.bit .GPIO_PAD (4 * (n % 8) + 3) 0 (n / 8)

/-- What a pin carries of a peripheral unit (Table 19.1): nothing or an input, an output, or an open-drain line. -/
inductive PinWave where
  | none
  | output
  | openDrain
deriving DecidableEq, Repr

/-- R469, Table 19.1. The wave of pin n in function f. A timer channel drives its pin in its PWM and pulse modes. -/
def State.pinWave (s : State) (n f : Nat) : PinWave :=
  let m := n % 48
  if 1 ≤ f ∧ f ≤ 4 then (if m % 2 = 0 then .output else .none)
  else if 5 ≤ f ∧ f ≤ 8 then .openDrain
  else if 9 ≤ f ∧ f ≤ 12 then (if m % 4 = 2 then .none else .output)
  else if f = 13 then (if bitOf (s.fld F.GPIO_U_CFG_MODE (n / 48) (12 + m % 8)) 1 then .output else .none)
  else if f = 14 then (if m % 4 = 0 then .output else if m % 4 = 1 then .openDrain else .none)
  else .none

/-- What its function drives on a pin: a level, or nothing. The level of a peripheral unit's wave is a free value
(assumption 70). -/
def State.gpioFnDrive (s : State) (n : Nat) : Option Bool :=
  let od (b : Bool) : Option Bool := if b && s.gpioOd n then none else some b
  let f := s.gpioFunc n
  match f with
  | 0 => if s.bit .GPIO_OE (n % 16) 0 (n / 16) then od (s.bit .GPIO_DOUT (n % 16) 0 (n / 16)) else none
  | 15 =>
    if bitOf (s.h .pinOe (gpioTower n) (gpioGroup n)) (n % 8) then
      some (bitOf (s.h .pinOut (gpioTower n) (gpioGroup n)) (n % 8))
    else none
  | _ =>
    if f = 14 ∧ n % 4 = 2 then od ((List.range 8).all fun w => s.regN .TEL_ALM_ACT 0 w == 0)
    else if f = 14 ∧ n % 4 = 3 then od (!s.flag F.LDG_HOLD_STAT_ACTIVE)
    else
      match s.pinWave n f with
      | .none => none
      | .output => od (bitOf (Config.freeWord s.free n).toNat 0)
      | .openDrain => if bitOf (Config.freeWord s.free n).toNat 0 then none else some false

/-- R472. The drive of a pin: the held one while a function switch is in progress. -/
def State.gpioDrive (s : State) (n : Nat) : Option Bool :=
  match s.h .gpioHeld 0 n with
  | 0 => s.gpioFnDrive n
  | h => if bitOf (h - 1) 1 then some (bitOf (h - 1) 0) else none

/-! ### The boundary register (R480): its cells are numbered in the order of its balls (assumption 126) -/

/-- The first cell of a tower: T0 and T4 have 616 cells, the others 472. -/
def scanBase (t : Nat) : Nat := 472 * t + (if 0 < t then 144 else 0) + (if 4 < t then 144 else 0)

/-- The input cell of user I/O pin m of tower t; its output and output-enable cells follow. -/
def userCell (t m : Nat) : Nat := scanBase t + 3 * m

/-- The input cell of GPIO pin n; its output and output-enable cells follow. -/
def gpioCell (n : Nat) : Nat := scanBase (gpioTower n) + 432 + 3 * (n % 48)

/-- R480. What the boundary register drives on the ball whose input cell is c. -/
def State.scanDrive (s : State) (c : Nat) : Option Bool :=
  let b := s.h .boundary
  if bitOf b (c + 2) then some (bitOf b (c + 1)) else none

/-- R480. What is driven on GPIO pin n: the boundary register's while it has the balls, else its function's. -/
def State.gpioBall (s : State) (n : Nat) : Option Bool := if s.scanning then s.scanDrive (gpioCell n) else s.gpioDrive n

/-- R480. What is driven on user I/O pin m of tower t. -/
def State.userBall (s : State) (t m : Nat) : Option Bool :=
  if s.scanning then s.scanDrive (userCell t m)
  else if bitOf (s.h .pinOe t (m / 8)) (m % 8) then some (bitOf (s.h .pinOut t (m / 8)) (m % 8))
  else none

/-- R468. The level on a pin: what is driven, else what was last seen from outside, else its pull. -/
def State.gpioLevel (s : State) (n : Nat) : Bool :=
  match s.gpioBall n with
  | some b => b
  | none =>
    match s.h .gpioIn 0 n with
    | 0 => bitsOf (s.regN .GPIO_PAD 0 (n / 8)) (4 * (n % 8)) 2 == 2
    | v => v == 2

/-- The levels of all the pins, as a bitmap. -/
def State.pinLevels (s : State) : Nat := foldS (fun n v => v + b2n (s.gpioLevel n) * 2 ^ n) (List.range 96) 0

/-- R479, R480. What the boundary register captures of the ball with input cell c: its level, what drives it, and whether
that is enabled. -/
def cellBits (c : Nat) (level : Bool) (drive : Option Bool) : Nat :=
  b2n level * 2 ^ c + b2n (drive.getD false) * 2 ^ (c + 1) + b2n drive.isSome * 2 ^ (c + 2)

/-- R479, R480. The boundary register at Capture-DR. The level of a user I/O ball that nothing here drives, and the cells of
the lanes, are free values. -/
def State.boundaryCapture (s : State) : Nat :=
  let free (c : Nat) : Bool := bitOf (Config.freeWord s.free (c / 32)).toNat (c % 32)
  let lanes (t : Nat) : Nat := scanBase t + 432 + (if t % 4 = 0 then 144 else 0)
  foldS (fun t v =>
    let v := foldS (fun m v =>
      let d := s.userBall t m
      v + cellBits (userCell t m) (d.getD (free (userCell t m))) d) (List.range 144) v
    foldS (fun i v => v + b2n (free (lanes t + i)) * 2 ^ (lanes t + i)) (List.range 40) v) (List.range 8)
    (foldS (fun n v => v + cellBits (gpioCell n) (s.gpioLevel n) (s.gpioBall n)) (List.range 96) 0)

/-- The part of a history of levels, the latest first, that lies in the last u units of device time. -/
def spanTake : Nat → List (Nat × Nat) → List (Nat × Nat)
  | _, [] => []
  | u, (d, v) :: l => if u ≤ d then [(u, v)] else (d, v) :: spanTake (u - d) l

/-- The levels that the pins had u units ago. -/
def spanAt : Nat → List (Nat × Nat) → Nat
  | _, [] => 0
  | u, (d, v) :: l => if u ≤ d then v else spanAt (u - d) l

/-- Some pin carries a peripheral unit's wave. -/
def State.pinsWave (s : State) : Bool := (List.range 96).any fun n => s.pinWave n (s.gpioFunc n) != .none

/-- R468. n units pass with the pins at their levels: what a read of GPIO_DIN can still see of them is kept. A peripheral
unit's wave takes a new free value. -/
def State.pinsPass (s : State) (n : Nat) : State :=
  if n = 0 then s
  else
    let v := s.pinLevels
    let l := match s.pinSeen with
      | (d, w) :: l => if w = v then (d + n, v) :: l else (n, v) :: (d, w) :: l
      | [] => [(n, v)]
    { s with pinSeen := spanTake (s.nsUnits 16) l, free := s.free + b2n (s.pinsWave) }

/-- R468. GPIO_DIN_k: the levels of two GPIO clocks, 16 ns, before the read. -/
def State.gpioDin (s : State) (k : Nat) : Nat := bitsOf (spanAt (s.nsUnits 16) s.pinSeen) (16 * k) 16

end Sys2Proof.Machine
end

