-- ==== Sys2Proof/Machine/Campanile.lean ====
section
/-!
DEFINITION. Campanile (R27..R61): reference inputs, slewing and stepping, EPOCH, trims, time transfer, and the launch
queues up to the launch of an entry.
-/
namespace Sys2Proof.Machine

/-! ### The time base and its corrections -/

/-- R36. Add to the slew accumulator; SLEWING reads 1 while it is non-zero (R37). -/
def State.slewAdd (s : State) (d : Int) : State :=
  let v := s.reg .CAMP_SLEW_REM + BitVec.ofInt 64 d
  s.setReg .CAMP_SLEW_REM v |>.setFlag F.CAMP_STAT_SLEWING (v != 0)

/-- R37, R468. n units of device time pass, and the pins are seen. With STEP_EN at 0 a non-zero accumulator is removed meanwhile by one unit in a
million. -/
def State.pass (s : State) (n : Nat) : State :=
  let s := s.pinsPass n
  let rem := (s.reg .CAMP_SLEW_REM).toInt
  if s.flag F.CAMP_CTL_STEP_EN || rem == 0 then { s with time := s.time + BitVec.ofNat 64 n }
  else
    let m := s.h .slewPhase + n
    let k := min (m / 1000000) rem.natAbs
    let d : Int := if 0 < rem then k else -k
    (({ s with time := s.time + BitVec.ofNat 64 n + BitVec.ofInt 64 d }).setH .slewPhase
      (if k = rem.natAbs then 0 else m % 1000000)).slewAdd (-d)

/-- The units of device time that the slew under way still takes (R37). -/
def State.slewLeft (s : State) : Nat := (s.reg .CAMP_SLEW_REM).toInt.natAbs * 1000000 - s.h .slewPhase

/-- An entry's target time (Table 2.3). -/
def LqEntry.time (e : LqEntry) : Time := pairOf (e.words.getD 0 0) (e.words.getD 1 0)
/-- Word 2 of an entry. -/
def LqEntry.w2 (e : LqEntry) : Nat := (e.words.getD 2 0).toNat
/-- The kind of an entry. -/
def LqEntry.kind (e : LqEntry) : Nat := bitsOf e.w2 0 4
/-- PARAM n of an entry. -/
def LqEntry.param (e : LqEntry) (n : Nat) : Nat := (e.words.getD (3 + n) 0).toNat

/-- R38. A forward step marks the queued entries whose targets it skipped as late. -/
def State.lqSkip (s : State) (old new : Time) : State :=
  { s with lq := s.lq.map fun e =>
      (e.1, e.2.map fun x => if later x.time old && later new x.time then { x with late := true } else x) }

/-- n gatehouse cycles of 0.8 ns, in units (R83). -/
def State.gateCycles (s : State) (n : Nat) : Nat := n * 4 * s.freq * 65536 / 5000000

/-- The beat of a timestamp. -/
def beatOf (t : Time) : Nat := t.toNat / 65536

/-- R27. Beat a comes before beat b. -/
def beatBefore (a b : Nat) : Bool := later (beats b) (beats a)

/-- R87. The first beat of stream i of pavilion p whose primitive record falls due at `now` or later. -/
def State.firstBeat (s : State) (p i : Nat) (now : Time) : Nat :=
  let rel := BitVec.ofNat 64 (s.regN .GATE_SENT_W p i 3 + s.gateCycles 4)
  (cdiv (now - rel).toNat 65536 + 2 ^ 48 - 1) % 2 ^ 48

/-- R86, Table 3.8. A step of device time to `new`: no stream presents the records whose time it skipped, and the next
record of each carries GAP; the edges that stream ports have used count anew. -/
def State.stepStreams (s : State) (new : Time) : State :=
  { s with
    hid := s.hid.filter fun e => e.1.id != .sportEdge
    streams := s.streams.map fun e =>
      let first := s.firstBeat e.1.1 e.1.2 new
      let next := e.2.nextBeat.map fun b => if beatBefore b first then first else b
      (e.1, { e.2 with
        gapRec := true
        nextBeat := next
        beats := e.2.beats.filter fun a => match next with | some b => !beatBefore a.beat b | none => true }) }

/-- R38, R86, R262. A step of device time to `new`: coalescing timers and launch queues act on it, STEP_DONE is set and
alarm 0x02 is raised. -/
def State.stepTo (s : State) (new : Time) : State :=
  let d := (new - s.time).toInt
  let s := if 0 < d then s.lqSkip s.time new else s
  let s := ((s.timersStep new d).stepStreams new).setH .stepped (s.hTime .stepped + (new - s.time)).toNat
  ({ s with time := new } |>.setFlag F.CAMP_STAT_STEP_DONE true |>.devAlarm 0x02)

/-! ### Reference inputs -/

/-- R31. The input that CAMP_CTL.REF_SEL selects: 0 REF A, 1 REF B. -/
def refSelect (sel : Nat) (a b : Bool) : Option Nat :=
  match sel with
  | 0 => if a then some 0 else if b then some 1 else none
  | 1 => if a then some 0 else none
  | 2 => if b then some 1 else none
  | _ => if b then some 1 else if a then some 0 else none

/-- The device is a slave of a lane (R43). -/
def State.xferSlave (s : State) : Bool := s.fld F.CAMP_XFER_CTL_ROLE == 1

/-- R31..R34. The selection follows the good inputs. A switch adds the measured difference, a reacquisition the measured
phase error; an acquisition takes FREQ_KHZ as the beat in force and sets LOCK. -/
def State.refFollow (s : State) (diff phase : Int) : State :=
  let src := s.fld F.CAMP_STAT_SRC
  match refSelect (s.fld F.CAMP_CTL_REF_SEL) (s.flag F.CAMP_STAT_A_OK) (s.flag F.CAMP_STAT_B_OK) with
  | none =>
    (s.setFld F.CAMP_STAT_SRC (if src = 3 then 3 else 2) |>.setFlag F.CAMP_STAT_LOCK false)
  | some x =>
    let s' := s.setFld F.CAMP_STAT_SRC x |>.setFlag F.CAMP_STAT_LOCK true
    if src < 2 then
      if src = x ∨ s.xferSlave then s'
      else s'.slewAdd (if x = 1 then s.quarterPsUnits diff else s.quarterPsUnits (-diff))
    else
      let s' := s'.setFreq (s.fld F.CAMP_REF_CFG_FREQ_KHZ)
      if src = 2 ∧ ¬ s.xferSlave then s'.slewAdd phase else s'

/-- R32. The phase of REF B less REF A after the trims of T4 and T0 (Table 2.8), in 0.25 ps units. -/
def State.refDiff (s : State) : Int := signed 64 (s.h .refRaw) + s.trimOf 68 - s.trimOf 64

/-- CAMP_REF_DIFF shows that phase, or 0x8000_0000 while the inputs are not both good (R32). -/
def State.refShow (s : State) : State :=
  if s.flag F.CAMP_STAT_A_OK && s.flag F.CAMP_STAT_B_OK then s.setRegN .CAMP_REF_DIFF (unsign 32 s.refDiff)
  else s.setRegN .CAMP_REF_DIFF 0x80000000

/-- A change of the two inputs' good flags (R30..R33); `raw` is the measured phase of B minus A before trims. -/
def State.refChange (s : State) (a b : Bool) (raw phase : Int) : State :=
  let s := s.setFlag F.CAMP_STAT_A_OK a |>.setFlag F.CAMP_STAT_B_OK b |>.setH .refRaw (unsign 64 raw)
  s.refShow.refFollow s.refDiff phase

/-- R30. Input `b` (REF B when true) becomes good. `diff` is the measured phase of B minus A before trims, in 0.25 ps
units, `phase` the measured phase error of device time in 2^-16 beat. -/
def execRefGood (b : Bool) (diff phase : Int) (s : State) : Host.Outcome State Fault Refusal :=
  .next (s.refChange (!b || s.flag F.CAMP_STAT_A_OK) (b || s.flag F.CAMP_STAT_B_OK) diff phase)

/-- R30, R31. The named inputs are lost in one detection period; `goodA` and `goodB` name an input that becomes good in
the same cycle. -/
def execRefLost (lostA lostB goodA goodB : Bool) (diff phase : Int) (s : State) :
    Host.Outcome State Fault Refusal :=
  .next (s.refChange ((s.flag F.CAMP_STAT_A_OK && !lostA) || goodA) ((s.flag F.CAMP_STAT_B_OK && !lostB) || goodB)
    diff phase)

/-- R34. A write of CAMP_REF_CFG: FREQ_KHZ is held for the next acquisition. -/
def State.freqWrite (s : State) (v : Word) : State :=
  s.setReg .CAMP_REF_CFG ((v.zeroExtend 64) &&& RegId.CAMP_REF_CFG.row.rw)

/-- R34. A write of CAMP_REF_CFG.FREQ_KHZ. -/
def execFreqKhzWrite (v : Word) (s : State) : Host.Outcome State Fault Refusal :=
  wrOut .CAMP_REF_CFG v (s.freqWrite v)

/-- A write of CAMP_CTL: the selection follows REF_SEL (R31). The phase error that a reacquisition out of holdover
measures then is a free value (R33; assumption 6). -/
def State.campCtlWrite (s : State) (v : Word) : State :=
  let diff := s.refDiff
  let s := s.setReg .CAMP_CTL ((v.zeroExtend 64) &&& RegId.CAMP_CTL.row.rw)
  if s.fld F.CAMP_STAT_SRC = 2 then
    let r := s.takeFree
    r.2.refFollow diff (signed 32 r.1.toNat)
  else s.refFollow diff 0

/-- A write of CAMP_XFER_CTL: setting ROLE restarts the exchange count (R43). -/
def State.xferCtlWrite (s : State) (v : Word) : State :=
  let s' := s.setReg .CAMP_XFER_CTL ((v.zeroExtend 64) &&& RegId.CAMP_XFER_CTL.row.rw)
  if s'.xferSlave && !s.xferSlave then
    (s'.setFld F.CAMP_XFER_STAT_COUNT 0 |>.setH .xferN 0 |>.setH .xferTheta 0 |>.setH .xferDelta 0)
  else if s'.xferSlave then s' else s'.setFlag F.CAMP_XFER_STAT_VALID false

/-- R43. One exchange on the slave lane, stamps in 0.25 ps units: the offset and delay averaged over the filter window
are shown, and minus the offset is added to the slew accumulator. The windows of 2^FILTER exchanges follow one another
without overlap (DESIGN CHOICE, assumption 140). -/
def State.xferExchange (s : State) (t1 t2 t3 t4 : Int) : State :=
  let alpha := signed 32 (s.regN .CAMP_XFER_ASYM)
  let theta := ((t2 - t1) - (t4 - t3) - alpha) / 2
  let delta := ((t2 - t1) + (t4 - t3)) / 2
  let n := s.h .xferN + 1
  let st := signed 64 (s.h .xferTheta) + theta
  let sd := signed 64 (s.h .xferDelta) + delta
  let len := 2 ^ s.fld F.CAMP_XFER_CTL_FILTER
  let s := s.setFlag F.CAMP_XFER_STAT_VALID true |>.satFld F.CAMP_XFER_STAT_COUNT 1
  if n < len then (s.setH .xferN n |>.setH .xferTheta (unsign 64 st) |>.setH .xferDelta (unsign 64 sd))
  else
    (s.setH .xferN 0 |>.setH .xferTheta 0 |>.setH .xferDelta 0
      |>.setRegN .CAMP_XFER_OFFS (unsign 32 (st / (len : Nat)))
      |>.setRegN .CAMP_XFER_DELAY (unsign 32 (sd / (len : Nat)))
      |>.slewAdd (s.quarterPsUnits (-(st / (len : Nat)))))

/-! ### EPOCH, steps and slews -/

/-- R35. An EPOCH sampled high at edge k of the selected reference, at which device time is taken. In mode 0b01 the
command takes the block to edge k + 1, one beat later, where the beat count steps to CAMP_EPOCH_VAL. Without a selected
reference there is no edge to sample at. -/
def execEpochSampled (s : State) : Host.Outcome State Fault Refusal :=
  let val := s.regN .CAMP_EPOCH_VAL % 2 ^ 48
  let mode := s.fld F.CAMP_CTL_EPOCH_MODE
  let s' := s.setFlag F.CAMP_STAT_EPOCH_SEEN true |>.setReg .CAMP_EPOCH_TIME s.time
  if 2 ≤ s.fld F.CAMP_STAT_SRC then .next s
  else if mode = 1 then
    .next (((s'.pass 65536).stepTo (BitVec.ofNat 64 (val * 65536))).setFld F.CAMP_CTL_EPOCH_MODE 2)
  else if mode = 2 then
    let k1 := (s.time.toNat / 65536 + 1) % 2 ^ 48
    if (k1 + 2 ^ 48 - val) % 2 ^ 48 % 2 ^ s.fld F.CAMP_CTL_EPOCH_PER = 0 then .next s'
    else .next (s'.setFlag F.CAMP_STAT_EPOCH_MISMATCH true |>.devAlarm 0x03)
  else .next s'

/-- R36. CAMP_ADJ_CTL.GO adds CAMP_ADJ to the slew accumulator. -/
def State.adjGo (s : State) : State := s.slewAdd (s.reg .CAMP_ADJ).toInt

/-- R36. A write of CAMP_ADJ_CTL.GO. -/
def execAdjGo (s : State) : Host.Outcome State Fault Refusal := .next s.adjGo

/-- R38. With STEP_EN at 1 a non-zero accumulator is applied as one step. -/
def execStepApply (s : State) : Host.Outcome State Fault Refusal :=
  let rem := s.reg .CAMP_SLEW_REM
  if s.flag F.CAMP_CTL_STEP_EN && rem != 0 then
    .next ((s.stepTo (s.time + rem)).setReg .CAMP_SLEW_REM 0 |>.setFlag F.CAMP_STAT_SLEWING false)
  else .next s

/-- R37. With STEP_EN at 0 the slew removes the last of the accumulator: the command takes the block to that moment. -/
def execSlewDone (s : State) : Host.Outcome State Fault Refusal :=
  if s.flag F.CAMP_CTL_STEP_EN then .next s else .next (s.pass s.slewLeft)

/-! ### Trims -/

/-- R40. The replica of a place begins to move from the trim it has to the one its registers give. -/
def State.trimMove (s : State) (k : Nat) (from_ : Int) : State :=
  if s.trimOf k = from_ then s.setH .trimAt 0 k
  else s.setH .trimFrom (unsign 32 from_) k |>.setH .trimAt (1 + s.runTime.toNat) k

/-- R39, R40. A write of a site's user trim starts a local slew, and TRIM_SAT shows a saturated sum. -/
def State.siteTrimWrite (s : State) (x : Nat) (v : Word) : State :=
  let s' := (s.setRegN .CAMP_SITE_TRIM_USER v.toNat x).trimMove x (s.trimNow x)
  s'.setFlag F.CAMP_SITE_STAT_TRIM_SAT (s'.trimSumOf x != s'.trimOf x) x
    |>.setFlag F.CAMP_SITE_STAT_TRIM_SLEW (s'.h .trimAt x != 0) x

/-- R32, R36, Table 2.8. A write of a tower's user trim. On T0 it applies to REF A and on T4 to REF B: CAMP_REF_DIFF
follows it, and where that input is the selected one its change joins the slew accumulator. -/
def State.towerTrimWrite (s : State) (t : Nat) (v : Word) : State :=
  let s' := (s.setRegN .CAMP_TWR_TRIM_USER v.toNat t).trimMove (64 + t) (s.trimNow (64 + t))
  let d := s.quarterPsUnits (s'.trimOf (64 + t) - s.trimOf (64 + t))
  if t % 4 ≠ 0 then s'
  else
    let s' := if s.flag F.CAMP_STAT_A_OK && s.flag F.CAMP_STAT_B_OK then s'.refShow else s'
    if s.fld F.CAMP_STAT_SRC = t / 4 ∧ ¬ s.xferSlave then s'.slewAdd d else s'

/-- R40. A write of CAMP_SITE_TRIM_USER. -/
def execUserTrimWrite (x : Nat) (v : Word) (s : State) : Host.Outcome State Fault Refusal :=
  .next (s.siteTrimWrite x v)

/-- R40. The trim change at a site completes: the command takes the block to that moment. -/
def execTrimSlewDone (x : Nat) (s : State) : Host.Outcome State Fault Refusal :=
  .next (((s.pass (s.trimLeft x)).setH .trimAt 0 x).setFlag F.CAMP_SITE_STAT_TRIM_SLEW false x)

/-! ### Launch queues -/

/-- The global CAMP block as a home of queues. -/
def globalHome : Nat := 40

/-- The entries of a queue, oldest first. -/
def State.lqOf (s : State) (h q : Nat) : List LqEntry := tget s.lq (h, q) []

/-- Replace the entries of a queue; FILL shows their number. -/
def State.setLq (s : State) (h q : Nat) (l : List LqEntry) : State :=
  { s with lq := tput s.lq (h, q) l } |>.setFld F.CAMP_LQ_STAT_FILL l.length h q

/-- R48. The lead time of a home's queues, in device-time units. -/
def State.lqLead (s : State) (h : Nat) : Nat := s.nsUnits (if h < 32 ∨ h = 40 then 256 else 1000)

/-- R45. The kinds permitted in the queues of a home. -/
def kindPermitted (h kind : Nat) : Bool :=
  if h < 32 then [0, 1, 2, 3, 7].contains kind
  else if h < 40 then [0, 3, 4, 5, 6, 7].contains kind
  else [0, 3, 7].contains kind

/-- R47. A pin group that a tower has: 0..17, and 18..23 on T0 and T4. -/
def pinGroupExists (h g : Nat) : Bool := decide (g < 18) || (decide (g < 24) && (h == 32 || h == 36))

/-- R46, R47. The parameters of an entry are valid: words its kind does not list are 0, and a listed field names
something the unit has. Bits 15:6 of word 2, and bits of a listed parameter word outside its field, are not looked at
(DESIGN CHOICE, assumption 144). -/
def lqParamsValid (h : Nat) (e : LqEntry) : Bool :=
  let p := e.param
  let z (l : List Nat) := l.all fun n => p n == 0
  match e.kind with
  | 0 => z [0, 1, 2, 3, 4]
  | 1 => z [3, 4]
  | 2 => z [3, 4]
  | 3 => z [1, 2, 3, 4]
  | 4 => z [2, 3, 4] && decide (bitsOf (p 0) 0 5 < 20) && decide (bitsOf (p 1) 0 4 ≤ 5)
  | 5 => z [2, 3, 4] && pinGroupExists h (bitsOf (p 0) 0 5)
  | 6 => z [1, 2, 3, 4] && pinGroupExists h (bitsOf (p 0) 0 5)
  | 7 => z [3, 4] && p 0 % 4 == 0
  | _ => false

/-- R58. The error event of a queue, raised when an error bit goes from 0 to 1. -/
def State.lqErr (s : State) (f : Fld) (h q : Nat) : State :=
  if s.flag f h q then s
  else
    let s := s.setFlag f true h q
    if h < 32 then s.local h 496 else s.device 1980

/-- R58. The launch event of a queue. -/
def State.lqEvent (s : State) (h q : Nat) : State :=
  if h < 32 then s.local h (480 + q)
  else if h < 40 then s.device (1984 + 8 * (h - 32) + q)
  else s.device (1976 + q)

/-- T is less than the lead time ahead of the replica (R48). -/
def State.lqShort (s : State) (h : Nat) (t : Time) : Bool := later (s.nodeTime h + BitVec.ofNat 64 (s.lqLead h)) t

/-- R46, R48. The write of CAMP_LQ_PUSH7 commits the entry or rejects it. An entry that meets both causes of rejection
sets FULL_ERR alone (DESIGN CHOICE, assumption 143). -/
def State.lqPush (s : State) (h q : Nat) (w7 : Word) : State :=
  let s := s.setRegN .CAMP_LQ_PUSH w7.toNat h q 7
  let e : LqEntry := ⟨(List.range 8).map fun n => BitVec.ofNat 32 (s.regN .CAMP_LQ_PUSH h q n), false⟩
  if (s.lqOf h q).length ≥ 256 ∨ s.flag F.CAMP_LQ_STAT_FLUSH_BUSY h q then s.lqErr F.CAMP_LQ_STAT_FULL_ERR h q
  else if !(kindPermitted h e.kind && lqParamsValid h e) then s.lqErr F.CAMP_LQ_STAT_KIND_ERR h q
  else s.setLq h q (s.lqOf h q ++ [{ e with late := s.lqShort h e.time }])

/-- R46. A write of CAMP_LQ_PUSH7. -/
def execLqPush (h q : Nat) (w7 : Word) (s : State) : Host.Outcome State Fault Refusal := .next (s.lqPush h q w7)

/-- R48, R56. The head entry is forwarded to its island, while the queue is enabled: no later than the lead time before
its target, and so at any time up to then. -/
def execLqForward (h q : Nat) (s : State) : Host.Outcome State Fault Refusal :=
  match s.lqOf h q with
  | [] => .next s
  | _ :: _ => if s.flag F.CAMP_LQ_CTL_EN h q then .next (s.setH .lqForwarded 1 h q) else .next s

/-- R48. The head entry is late: found so at commit, or its target lies before the launch of the entry before it. -/
def State.lqIsLate (s : State) (h q : Nat) (e : LqEntry) : Bool :=
  e.late || (s.hb .lqHasPrev h q && later (s.hTime .lqPrevTime h q) e.time)

/-- R41, R49. When an entry acts: at its target, which the lane's or pin group's trim delays for an action at a ball
(DEDUCED, assumption 141). -/
def State.lqActTime (s : State) (h : Nat) (e : LqEntry) : Time :=
  e.time + BitVec.ofInt 64
    (match e.kind with
    | 4 => s.laneTrim (h - 32) (bitsOf (e.param 0) 0 5)
    | 5 => s.pinTrim (h - 32) (bitsOf (e.param 0) 0 5)
    | 6 => s.pinTrim (h - 32) (bitsOf (e.param 0) 0 5)
    | _ => 0)

/-- R48..R50. The head entry of a queue when it may act now: forwarded, of the kind asked, and at or past its time, or
late. -/
def State.lqHead (s : State) (h q kind : Nat) : Option LqEntry :=
  match s.lqOf h q with
  | [] => none
  | e :: _ =>
    if s.hb .lqForwarded h q && e.kind == kind && (s.lqIsLate h q e || atOrAfter (s.nodeTime h) (s.lqActTime h e)) then some e
    else none

/-- The head entry leaves its queue with a result (Table 2.9). -/
def State.lqLeave (s : State) (h q : Nat) (e : LqEntry) (result : Nat) : State :=
  let s := s.setLq h q ((s.lqOf h q).drop 1) |>.setH .lqForwarded 0 h q
  (s.setRegN .CAMP_LQ_LAST_TAG (bitsOf e.w2 16 16 + e.kind * 2 ^ 16 + result * 2 ^ 20) h q
    |>.setReg .CAMP_LQ_LAST_TIME (s.nodeTime h) h q)

/-- R48..R51. The head entry acts through `act`, which answers whether the target took it. A late entry launches at
once, or is discarded as its LATE_DISCARD says. The launch time that the next entry is held against (R48) is the target
of an entry launched on time, and the replica time of a late one's launch (DESIGN CHOICE, assumption 142). -/
def State.lqLaunch (s : State) (h q kind : Nat) (act : LqEntry → State → Bool × State) : State :=
  match s.lqHead h q kind with
  | none => s
  | some e =>
    let late := s.lqIsLate h q e
    if late && bitOf e.w2 4 then s.lqLeave h q e 2 |>.addFld F.CAMP_LQ_DISCARD_COUNT 1 h q
    else
      let (ok, s) := act e s
      if ok then
        let s := s.lqLeave h q e (b2n late) |>.addFld F.CAMP_LQ_LAUNCHED_COUNT 1 h q
        let s := s.setH .lqPrevTime (if late then s.nodeTime h else e.time).toNat h q |>.setH .lqHasPrev 1 h q
        let s := if late then s.addFld F.CAMP_LQ_LATE_COUNT 1 h q |>.setFlag F.CAMP_LQ_STAT_LATE true h q else s
        if bitOf e.w2 5 then s.lqEvent h q else s
      else
        (s.lqLeave h q e 3 |>.addFld F.CAMP_LQ_DISCARD_COUNT 1 h q).lqErr F.CAMP_LQ_STAT_TARGET_ERR h q

/-- R47. A NOP entry counts as launched. -/
def execLaunchNop (h q : Nat) (s : State) : Host.Outcome State Fault Refusal :=
  .next (s.lqLaunch h q 0 fun _ s => (true, s))

/-- R55. A flush discards every entry not launched. -/
def State.lqFlush (s : State) (h q : Nat) : State :=
  let l := s.lqOf h q
  let s := s.setFlag F.CAMP_LQ_STAT_FLUSH_BUSY true h q
  match l.getLast? with
  | none => s
  | some e =>
    (s.setLq h q [e] |>.lqLeave h q e 4 |>.addFld F.CAMP_LQ_DISCARD_COUNT l.length h q)

/-- R55. A write of CAMP_LQ_CTL.FLUSH. -/
def execLqFlush (h q : Nat) (s : State) : Host.Outcome State Fault Refusal := .next (s.lqFlush h q)

/-- R55. The flush is done. -/
def execLqFlushDone (h q : Nat) (s : State) : Host.Outcome State Fault Refusal :=
  .next (s.setFlag F.CAMP_LQ_STAT_FLUSH_BUSY false h q)

/-- R56. A write of CAMP_LQ_CTL.EN. When forwarding resumes, a queued entry whose target has come within the lead time
is late. -/
def State.lqEnable (s : State) (h q : Nat) (en : Bool) : State :=
  let was := s.flag F.CAMP_LQ_CTL_EN h q
  let s := s.setFlag F.CAMP_LQ_CTL_EN en h q
  if en && !was then
    s.setLq h q ((s.lqOf h q).map fun e => { e with late := e.late || s.lqShort h e.time })
  else s

/-- R56. A write of CAMP_LQ_CTL.EN. -/
def execLqEnWrite (h q : Nat) (en : Bool) (s : State) : Host.Outcome State Fault Refusal :=
  .next (s.lqEnable h q en)

/-- A write of CAMP_LQ_CTL: EN, and a flush when FLUSH is written 1. -/
def State.lqCtlWrite (s : State) (h q : Nat) (v : Word) : State :=
  let s := s.lqEnable h q (bitOf v.toNat 0)
  if bitOf v.toNat 1 then s.lqFlush h q else s

/-- R57. One PIN_SAMPLE result enters the tower's FIFO, or is dropped when it is full. -/
def State.psampPush (s : State) (t h q : Nat) (w : Word) : State :=
  let l := tget s.psamp t []
  if l.length ≥ 64 then s.lqErr F.CAMP_LQ_STAT_PSAMP_OVF h q else { s with psamp := tput s.psamp t (l ++ [w]) }

/-- R57. A PIN_SAMPLE entry samples its group; `pins` is what the eight pins show. -/
def execLaunchPinSample (t q : Nat) (pins : Byte) (s : State) : Host.Outcome State Fault Refusal :=
  .next (s.lqLaunch (towerNode t) q 6 fun e s =>
    (true, s.psampPush t (towerNode t) q
      (BitVec.ofNat 32 (pins.toNat + bitsOf (e.param 0) 0 5 * 2 ^ 8 + bitsOf e.w2 16 16 * 2 ^ 16))))

/-- R57. A read of CAMP_PSAMP_FIFO pops one word. -/
def State.psampPop (s : State) (t : Nat) : Word × State :=
  match tget s.psamp t [] with
  | [] => (0, s)
  | w :: l => (w, { s with psamp := tput s.psamp t l })

/-- R57. A read of CAMP_PSAMP_FIFO. -/
def execPsampFifoRead (t : Nat) (s : State) : Host.Outcome State Fault Refusal := .next (s.psampPop t).2

end Sys2Proof.Machine
end

