-- ==== Sys2Proof/Machine/Integrity.lean ====
section
/-!
DEFINITION. Stored-data integrity (R380..R397): leaky buckets, remap tables, and the keys of protected regions with
their counter trees. Stored lines are modelled by their plaintext: encryption and tags are what the spec says they
protect (assumption 20).
-/
namespace Sys2Proof.Machine

/-! ### Counting errors -/

/-- R382. A corrected error adds 1 to bucket b: 0 dome, 1 SRAM. -/
def State.bucketAdd (s : State) (p b : Nat) : State :=
  let lvl := s.fld F.MEM_BKT_STAT_LEVEL p b + 1
  if s.fld F.MEM_BKT_CFG_CAP p b ≤ lvl then
    (s.setFld F.MEM_BKT_STAT_LEVEL 0 p b |>.satFld F.MEM_BKT_STAT_OVF 1 p b |>.local p 472 |>.alarm p 0x19)
  else s.setFld F.MEM_BKT_STAT_LEVEL lvl p b

/-- R382. Every LEAK ms one is taken from the level. -/
def execBucketLeak (p b : Nat) (s : State) : Host.Outcome State Fault Refusal :=
  .next (s.setFld F.MEM_BKT_STAT_LEVEL (s.fld F.MEM_BKT_STAT_LEVEL p b - 1) p b)

/-- R380. A corrected SRAM error. -/
def State.sramCorrected (s : State) (p : Nat) : State := (s.addFld F.MEM_SRAM_CE_CNT_COUNT 1 p).bucketAdd p 1

/-- R380. An uncorrectable SRAM error at word `addr` of a group of Table 15.2. -/
def State.sramUncorrectable (s : State) (p group addr : Nat) : State :=
  (s.addFld F.MEM_SRAM_UE_CNT_COUNT 1 p |>.setFld F.MEM_SRAM_ERR_LOC_ADDR addr p
    |>.setFld F.MEM_SRAM_ERR_LOC_GROUP group p |>.setFlag F.MEM_STAT_SRAM_UE true p
    |>.local p 473 |>.alarm p 0x18)

/-! ### Remap tables (R383, R384) -/

/-- The largest ADDR of a remap group, plus 1; 0 where the group does not exist (Table 15.2). -/
def remapSize (g : Nat) : Nat :=
  if g < 2048 then 512
  else if g < 2080 then 4096
  else if g < 2088 then 1024
  else if g < 2092 then 4096
  else if g = 2092 then 16384
  else if g = 2093 then 32768
  else if g < 2096 then 0
  else if g < 2104 then 320
  else if g < 2112 then 0
  else if g < 2128 then 131072
  else 0

/-- The requester is a lodge. -/
def reqIsLodge : Requester → Bool
  | .lodge _ => true
  | _ => false

/-- The requester is the presiding lodge (R20). -/
def State.isPresiding (s : State) : Requester → Bool
  | .lodge x => s.presSite == some x
  | _ => false

/-- The requester is the presiding lodge or the lodge of pavilion p. -/
def State.isOwnLodge (s : State) (p : Nat) (who : Requester) : Bool :=
  s.isPresiding who || who == .lodge (s.siteOf p)

/-- A refused remap: REMAP_ERR and source 475. -/
def State.remapRefuse (s : State) (p e : Nat) : State := (s.setFld F.MEM_STAT_REMAP_ERR e p).local p 475

/-- R384. A write of MEM_REMAP_ENTRY by a lodge. -/
def State.remapWrite (s : State) (p : Nat) (v : Nat) (who : Requester) : State :=
  let g := s.fld F.MEM_REMAP_SEL_GROUP p
  let e := s.fld F.MEM_REMAP_SEL_ENTRY p
  let addr := bitsOf v 0 17
  let valid := bitOf v 29
  let isV (n : Nat) := s.flag F.MEM_REMAP_ENTRY_VALID p g n
  if !reqIsLodge who then s.setFlag F.MEM_STAT_WR_IGN true p
  else if valid && (List.range 8).all isV then s.remapRefuse p 1
  else if decide (remapSize g ≤ addr) ||
      (valid && (List.range 8).any fun n => n != e && isV n && s.fld F.MEM_REMAP_ENTRY_ADDR p g n == addr) then
    s.remapRefuse p 2
  else if s.flag F.MEM_REMAP_ENTRY_FACTORY p g e then s.remapRefuse p 3
  else if s.flag F.MEM_STAT_REMAP_BUSY p then s.remapRefuse p 4
  else
    (s.setFlag F.MEM_STAT_REMAP_BUSY true p |>.setH .remapPend (bitsOf v 0 17 + b2n valid * 2 ^ 29 + 1) p
      |>.setH .remapGroup g p |>.setH .remapEntry e p)

/-- R384. A write of MEM_REMAP_ENTRY. -/
def execRemapEntryWrite (p : Nat) (v : Word) (who : Requester) (s : State) : Host.Outcome State Fault Refusal :=
  wrOut .MEM_REMAP_ENTRY v (s.remapWrite p v.toNat who)

/-- R384. The copy ends and the entry switches. -/
def execRemapCopyDone (p : Nat) (s : State) : Host.Outcome State Fault Refusal :=
  if s.hb .remapPend p then
    .next (s.setRegN .MEM_REMAP_ENTRY (s.h .remapPend p - 1) p (s.h .remapGroup p) (s.h .remapEntry p)
      |>.setH .remapPend 0 p |>.setFlag F.MEM_STAT_REMAP_BUSY false p |>.local p 475)
  else .next s

/-! ### Keys (R385..R394) -/

/-- The state of a key: 0 OFF, 1 INIT, 2 ACTIVE, 3 LOST, 4 RETIRING (Table 15.3). -/
def State.keyState (s : State) (p k : Nat) : Nat := s.fld F.MEM_KEY_STAT_STATE p k

/-- A key changes state: source 474 (R397). -/
def State.setKeyState (s : State) (p k st : Nat) : State :=
  if s.keyState p k = st then s else (s.setFld F.MEM_KEY_STAT_STATE st p k).local p 474

/-- A key status bit is set: source 474 when it was 0, and its alarm (R392, R393, R397). -/
def State.keyFlag (s : State) (f : Fld) (p k ty : Nat) : State :=
  let was := s.flag f p k
  let s := (s.setFlag f true p k).alarm p ty
  if was then s else s.local p 474

/-- A byte address lies in a key's protected range. -/
def State.inKeyRange (s : State) (p k a : Nat) : Bool :=
  let b := s.regN .MEM_KEY_BASE p k * 4096
  decide (b ≤ a) && decide (a < b + s.regN .MEM_KEY_PAGES p k * 4096)

/-- A byte address lies in a key's metadata. -/
def State.inKeyMeta (s : State) (p k a : Nat) : Bool :=
  let b := s.regN .MEM_KEY_META p k * 64
  decide (b ≤ a) && decide (a < b + s.regN .MEM_KEY_MLINES p k * 64)

/-- How an access is handled (R386). -/
inductive KeyAccess where
  | plain
  | guarded
  | refused
deriving DecidableEq, Repr

/-- R386. The handling of an access with key identifier k at byte address a. -/
def State.keyAccess (s : State) (p k a : Nat) : KeyAccess :=
  if s.keyState p k = 2 ∧ s.inKeyRange p k a then .guarded
  else if s.keyState p k = 0 ∧
      (List.range 16).all (fun q => s.keyState p q == 0 || !(s.inKeyRange p q a || s.inKeyMeta p q a)) then .plain
  else .refused

/-- R389. Stored nodes of a tree over n children, level by level, at most `fuel` levels. -/
def treeNodes : Nat → Nat → Nat
  | 0, n => n
  | fuel + 1, n => if n ≤ 64 then n else n + treeNodes fuel (cdiv n 64)

/-- R389. MLINES_MIN of a page count. -/
def mlinesMin (pages : Nat) : Nat :=
  let nodes := treeNodes 4 pages
  nodes + 8 * pages + cdiv nodes 8

/-- R389. MLINES_MIN follows PAGES. -/
def State.keyPagesWrite (s : State) (p k v : Nat) : State :=
  s.setFld F.MEM_KEY_PAGES_PAGES v p k |>.setFld F.MEM_KEY_MLINES_MIN_LINES (mlinesMin (bitsOf v 0 20)) p k

/-- The path from a leaf to the root of a tree with n children at this level: each node's number and the child taken.
`base` is the number of the level's first node. -/
def treePath : Nat → Nat → Nat → Nat → Nat → List (Nat × Nat)
  | 0, base, n, node, child => [(base + node, child), (base + n, node % 64)]
  | fuel + 1, base, n, node, child =>
    (base + node, child) ::
      (if n ≤ 64 then [(base + n, node % 64)] else treePath fuel (base + n) (cdiv n 64) (node / 64) (node % 64))

/-- The nodes that a write to a protected byte address advances, each with the child's counter (R391). -/
def State.keyPath (s : State) (p k a : Nat) : List (Nat × Nat) :=
  treePath 4 0 (s.regN .MEM_KEY_PAGES p k) (a / 4096 - s.regN .MEM_KEY_BASE p k) (a / 64 % 64)

/-- R392. A write beneath this path would advance a major counter already at its limit. -/
def State.keyExhausted (s : State) (p k a : Nat) : Bool :=
  (s.keyPath p k a).any fun e =>
    s.h .keyMinor p k (e.1 * 64 + e.2) == 127 && decide (2 ^ 57 - 1 ≤ s.h .keyMajor p k e.1)

/-- R391. One node of the path: its minor counter advances, or its major counter does and its minors return to 0. -/
def State.keyBump (s : State) (p k : Nat) (e : Nat × Nat) : State :=
  let m := s.h .keyMinor p k (e.1 * 64 + e.2)
  if m < 127 then s.setH .keyMinor (m + 1) p k (e.1 * 64 + e.2)
  else
    let s := foldS (fun c s => s.setH .keyMinor 0 p k (e.1 * 64 + c)) (List.range 64) s
    let s := s.setH .keyMajor (s.h .keyMajor p k e.1 + 1) p k e.1 |>.setH .keyChange (s.h .keyChange p k + 1) p k
    if s.h .keyMajor p k e.1 = 2 ^ 57 - 2 ^ 40 then s.keyFlag F.MEM_KEY_STAT_WARN p k 0x1A else s

/-- R386, R391, R392. A line write with key k at byte address a: the state after its counters, or none when the write is
refused; a refusal at the counter limit is recorded by `keyExhaust`. -/
def State.keyWrite (s : State) (p k a : Nat) : Option State :=
  match s.keyAccess p k a with
  | .plain => some s
  | .refused => none
  | .guarded => if s.keyExhausted p k a then none else some (foldS (fun e s => s.keyBump p k e) (s.keyPath p k a) s)

/-- R392. The record of a write refused at the counter limit. -/
def State.keyExhaust (s : State) (p k a : Nat) : State :=
  if s.keyAccess p k a = .guarded ∧ s.keyExhausted p k a then s.keyFlag F.MEM_KEY_STAT_EXHAUSTED p k 0x1B else s

/-- R393. A line lies beneath a node that has failed. -/
def State.keyBeneathBad (s : State) (p k a : Nat) : Bool := (s.keyPath p k a).any fun e => s.hb .keyBad p k e.1

/-- R393. A data tag mismatch. -/
def State.keyTamper (s : State) (p k : Nat) : State :=
  (s.addFld F.MEM_KEY_TAG_FAIL_CNT_COUNT 1 p k).keyFlag F.MEM_KEY_STAT_TAMPER p k 0x1C

/-- R393. A node error: an ACTIVE key is lost. -/
def State.keyLost (s : State) (p k : Nat) : State :=
  if s.keyState p k = 2 then (s.setKeyState p k 3).alarm p 0x1D else s

/-- R387. A key register write that is ignored. -/
def State.memIgn (s : State) (p : Nat) : State := s.setFlag F.MEM_STAT_WR_IGN true p

/-- R387. A write of one of a key's set-up registers: taken while the key is OFF, from its own requesters. -/
def State.keySetup (s : State) (p k : Nat) (id : RegId) (j : Nat) (v : Word) (who : Requester) : State :=
  if !s.isOwnLodge p who || s.keyState p k != 0 then s.memIgn p
  else if id = .MEM_KEY_PAGES then s.keyPagesWrite p k v.toNat
  else s.setReg id ((v.zeroExtend 64) &&& (if id = .MEM_KEY_KEY_W then 0xffffffff else id.row.rw)) p k j

/-- R387. The write of KEY_W7 sets KEY_SET. -/
def State.keyW7 (s : State) (p k : Nat) (v : Word) (who : Requester) : State :=
  if !s.isOwnLodge p who || s.keyState p k != 0 then s.memIgn p
  else s.setRegN .MEM_KEY_KEY_W v.toNat p k 7 |>.setFlag F.MEM_KEY_STAT_KEY_SET true p k

/-- R387. A write of MEM_KEY_k_KEY_W7. -/
def execKeyW7Write (p k : Nat) (v : Word) (who : Requester) (s : State) : Host.Outcome State Fault Refusal :=
  .next (s.keyW7 p k v who)

/-- Two runs of units overlap. -/
def overlaps (a n b m : Nat) : Bool := decide (0 < n) && decide (0 < m) && decide (a < b + m) && decide (b < a + n)

/-- R387. The first START check that fails, 0 when none does. -/
def State.keyCheck (s : State) (p k : Nat) : Nat :=
  let base := s.regN .MEM_KEY_BASE p k * 64
  let pages := s.regN .MEM_KEY_PAGES p k
  let len := pages * 64
  let mb := s.regN .MEM_KEY_META p k
  let ml := s.regN .MEM_KEY_MLINES p k
  let rb := s.regN .DOME_RSV_BASE p
  let rl := s.regN .DOME_RSV_SIZE p
  if ¬ (1 ≤ pages ∧ s.regN .MEM_KEY_BASE p k + pages ≤ 524288) then 1
  else if overlaps base len rb rl || overlaps mb ml rb rl then 2
  else if overlaps base len mb ml || (List.range 16).any (fun q => q != k && s.keyState p q != 0 &&
      (overlaps base len (s.regN .MEM_KEY_BASE p q * 64) (s.regN .MEM_KEY_PAGES p q * 64) ||
       overlaps base len (s.regN .MEM_KEY_META p q) (s.regN .MEM_KEY_MLINES p q) ||
       overlaps mb ml (s.regN .MEM_KEY_BASE p q * 64) (s.regN .MEM_KEY_PAGES p q * 64) ||
       overlaps mb ml (s.regN .MEM_KEY_META p q) (s.regN .MEM_KEY_MLINES p q))) then 3
  else if ¬ (mlinesMin pages ≤ ml ∧ mb + ml ≤ 2 ^ 25) then 4
  else if !s.flag F.MEM_KEY_STAT_KEY_SET p k then 5
  else 0

/-- R387. A write of CTL.START. -/
def State.keyStart (s : State) (p k : Nat) (who : Requester) : State :=
  if !s.isOwnLodge p who || s.keyState p k != 0 then s.memIgn p
  else
    let e := s.keyCheck p k
    let s := s.setFld F.MEM_KEY_STAT_ERR e p k
    if e = 0 then s.setKeyState p k 1 else s

/-- R387. A write of MEM_KEY_k_CTL.START. -/
def execKeyStart (p k : Nat) (who : Requester) (s : State) : Host.Outcome State Fault Refusal :=
  .next (s.keyStart p k who)

/-- R387. The region is initialised: every data line holds zeros under counters 0, and the key is ACTIVE. -/
def execKeyInitDone (p k : Nat) (s : State) : Host.Outcome State Fault Refusal :=
  if s.keyState p k = 1 then
    .next ((s.clearBytes (domeBase p + s.regN .MEM_KEY_BASE p k * 4096) (s.regN .MEM_KEY_PAGES p k * 4096)
      |>.setKeyState p k 2))
  else .next s

/-- R394. A write of CTL.RETIRE: INIT, ACTIVE or LOST becomes RETIRING. -/
def State.keyRetire (s : State) (p k : Nat) (who : Requester) : State :=
  if !s.isOwnLodge p who || s.keyState p k == 0 || s.keyState p k == 4 then s.memIgn p
  else s.setKeyState p k 4

/-- R394. A write of MEM_KEY_k_CTL.RETIRE. -/
def execKeyRetire (p k : Nat) (who : Requester) (s : State) : Host.Outcome State Fault Refusal :=
  .next (s.keyRetire p k who)

/-- R390, R394. The counters of a key, its words and its cache lines are discarded. -/
def State.keyForget (s : State) (p k : Nat) : State :=
  { s with
    hid := tfilter s.hid fun e => !(e.w == p && e.i == k && (e.id == .keyMajor || e.id == .keyMinor || e.id == .keyBad))
    keyCache := s.keyCache.map fun (e : Nat × List MetaLine) =>
      if e.1 = p then (e.1, e.2.filter fun x => x.key != k) else e
    regs := tfilter s.regs fun e => !(e.w == p && e.i == k && e.id == .MEM_KEY_KEY_W) }

/-- R389. MLINES_MIN shows the result for the PAGES in force, after a reset that keeps PAGES too. -/
def State.keysShow (s : State) (p : Nat) : State :=
  foldS (fun k s => s.setFld F.MEM_KEY_MLINES_MIN_LINES (mlinesMin (s.regN .MEM_KEY_PAGES p k)) p k) (List.range 16) s

/-- R394. An access of a key that was accepted has not completed. -/
def State.keyBusy (s : State) (p k : Nat) : Bool :=
  s.domeTxns.any fun (e : Nat × DomeTxn) => e.2.pav == p && e.2.key == some k

/-- R394. The accepted accesses have finished: the key reads OFF, its words are cleared, and the contents of its range
are not defined, nor those of the metadata region its tree was kept in. -/
def execKeyRetireDone (p k : Nat) (s : State) : Host.Outcome State Fault Refusal :=
  if s.keyState p k = 4 ∧ s.h .keyChange p k = 0 ∧ ¬ s.keyBusy p k then
    .next ((s.makeUndef (domeBase p + s.regN .MEM_KEY_BASE p k * 4096) (s.regN .MEM_KEY_PAGES p k * 4096)
      |>.makeUndef (domeBase p + s.regN .MEM_KEY_META p k * 64) (s.regN .MEM_KEY_MLINES p k * 64)
      |>.keyForget p k |>.setFlag F.MEM_KEY_STAT_KEY_SET false p k |>.setKeyState p k 0))
  else .next s

/-- R391. A major-counter change and the re-encryption of its children complete. -/
def execMajorCounterChangeDone (p k : Nat) (s : State) : Host.Outcome State Fault Refusal :=
  .next (s.setH .keyChange (s.h .keyChange p k - 1) p k)

end Sys2Proof.Machine
end

