-- ==== Sys2Proof/Machine/Dome.lean ====
section
/-!
DEFINITION. The domes and their controllers (R115..R139): address mapping, line queues and their scheduler, refresh,
pipeline rings, self-refresh and errors.
-/
namespace Sys2Proof.Machine

/-! ### Addresses (Table 5.1) -/

/-- The pseudo-channel of a line. -/
def linePc (line : Nat) : Nat := (bitsOf line 0 4) ^^^ (bitsOf line 12 4)
/-- The bank of a line: 4 x group + bank. -/
def lineBank (line : Nat) : Nat := 4 * bitsOf line 8 2 + bitsOf line 10 2
/-- The row of a line. -/
def lineRow (line : Nat) : Nat := bitsOf line 12 13

/-! ### State of the controller -/

/-- The thermal step (R132). -/
def State.thermStep (s : State) (p : Nat) : Nat := s.fld F.DOME_STAT_THERM_STEP p

/-- A trigger of self-refresh holds (R133). -/
def State.srTrigger (s : State) (p : Nat) : Bool :=
  s.thermStep p == 3 || s.flag F.DOME_CTL_SR_REQ p || s.hb .domePower p

/-- The commit port is fenced by a channel fault (R135). -/
def State.chanDown (s : State) (p : Nat) : Bool := s.regN .DOME_CHAN_STAT p != 0

/-- R137. DOME_STAT.STATE: INIT, then SELF_REFRESH, then FENCED, then RUN. -/
def State.domeShow (s : State) (p : Nat) : State :=
  s.setFld F.DOME_STAT_STATE
    (if !s.hb .domeReady p then 0 else if s.hb .domeSr p then 2 else if s.chanDown p || s.portFenced p 114 then 3 else 1) p

/-- R133, R136. Entry and exit follow the triggers. Self-refresh is caused by temperature while step 3 is one of them; an
exit keeps the cause it had. -/
def State.srUpdate (s : State) (p : Nat) : State :=
  let sr := s.h .domeSr p
  let s := if s.srTrigger p then s.setH .domeSrHot (b2n (s.thermStep p == 3)) p else s
  (if s.srTrigger p then (if sr = 0 then s.setH .domeSr 1 p else if sr = 3 then s.setH .domeSr 2 p else s)
  else if sr = 2 then s.setH .domeSr 3 p else s).domeShow p

/-- New requests are answered DOME_HOLD without being performed (R133, R413). -/
def State.domeHolds (s : State) (p : Nat) : Bool := s.hb .domeSr p || s.hb .domeQuiesce p

/-- The controller's clock runs and its schedulers issue: the dome is initialised and not in self-refresh (R133, R137). A
dome that is quiesced finishes what is queued, and is refreshed. -/
def State.domeRuns (s : State) (p : Nat) : Bool := s.hb .domeReady p && !s.hb .domeSr p

/-- The dome performs requests: initialised, and neither held nor unpowered. -/
def State.domeServes (s : State) (p : Nat) : Bool := s.hb .domeReady p && !s.domeHolds p

/-! ### Queues -/

/-- The read queue of a pseudo-channel. -/
def State.rqOf (s : State) (p c : Nat) : List DomeReq := tget s.domeRq (p, c) []
/-- The write queue of a pseudo-channel. -/
def State.wqOf (s : State) (p c : Nat) : List DomeReq := tget s.domeWq (p, c) []
/-- The issued reads of a pseudo-channel. -/
def State.issuedOf (s : State) (p c : Nat) : List DomeReq := tget s.domeIssued (p, c) []
/-- Replace a read queue. -/
def State.setRq (s : State) (p c : Nat) (l : List DomeReq) : State := { s with domeRq := tput s.domeRq (p, c) l }
/-- Replace a write queue. -/
def State.setWq (s : State) (p c : Nat) (l : List DomeReq) : State := { s with domeWq := tput s.domeWq (p, c) l }
/-- Replace the issued reads. -/
def State.setIssued (s : State) (p c : Nat) (l : List DomeReq) : State :=
  { s with domeIssued := tput s.domeIssued (p, c) l }

/-- A transaction of n line requests at dome p that uses no key and answers no packet. -/
def DomeTxn.plain (p n : Nat) : DomeTxn := ⟨p, n, false, false, false, [], none, [], none, none⟩

/-- A new transaction. -/
def State.newTxn (s : State) (x : DomeTxn) : Nat × State :=
  let t := s.h .domeTxn + 1
  let s := s.setH .domeTxn t
  (t, { s with domeTxns := tput s.domeTxns t x })

/-- A transaction in progress. -/
def State.txn (s : State) (t : Nat) : Option DomeTxn := tfind s.domeTxns t

/-- Every line request of a transaction has finished. -/
def State.txnOver (s : State) (t : Nat) : Bool :=
  match s.txn t with
  | some x => x.left == 0
  | none => false

/-- One part of a transaction has finished. A part answered DOME_HOLD records why the dome holds (R136). -/
def State.txnPart (s : State) (t part : Nat) (hold poison : Bool) (bytes : List Byte) : State :=
  match s.txn t with
  | none => s
  | some x =>
    let y := { x with
      left := x.left - 1
      hold := x.hold || hold
      hot := x.hot || (hold && s.hb .domeSrHot x.pav)
      poison := x.poison || poison
      data := (part, bytes) :: x.data }
    { s with domeTxns := tput s.domeTxns t y }

/-- A transaction is forgotten. -/
def State.txnDone (s : State) (t : Nat) : State := { s with domeTxns := tdel s.domeTxns t }

/-- The bytes a transaction read, in the order of its parts. -/
def DomeTxn.bytes (x : DomeTxn) : List Byte :=
  (List.range x.data.length).flatMap fun i => match x.data.find? fun e => e.1 == i with | some e => e.2 | none => []

/-- The watermark at which a write batch ends (R127). -/
def State.wmLo (s : State) (p : Nat) : Nat :=
  let hi := s.fld F.DOME_SCHED_WM_HI p
  if s.fld F.DOME_SCHED_WM_LO p < hi then s.fld F.DOME_SCHED_WM_LO p else hi - 1

/-- R127. Batch mode begins at the entry watermark. -/
def State.batchEnter (s : State) (p c : Nat) : State :=
  if s.fld F.DOME_SCHED_WM_HI p ≤ (s.wqOf p c).length then s.setH .domeBatch 1 p c else s

/-- R127. A write of DOME_SCHED: the queues meet the new watermarks at once, and a queue at or above the entry watermark is
in batch mode. -/
def State.batchFollow (s : State) (p : Nat) : State :=
  foldS (fun c s => (if (s.wqOf p c).length ≤ s.wmLo p then s.setH .domeBatch 0 p c else s).batchEnter p c) (List.range 16) s

/-- A line request joins its queue (R117, R126). A write of a unit other than a Promenade requester clears the
reservation entries of its line (R331). -/
def State.domeEnq (s : State) (p : Nat) (r : DomeReq) : State :=
  let c := linePc r.line
  if r.write then
    let s := if r.port = 2 ∨ r.port = 3 then s
      else { s with resv := tput s.resv p ((tget s.resv p []).filter fun e => e.1 != r.line) }
    (s.setWq p c (s.wqOf p c ++ [r])).batchEnter p c
  else s.setRq p c (s.rqOf p c ++ [r])

/-- R129. The real-time requests in port 2's queue of 32 lines, over all pseudo-channels. -/
def State.rtWaiting (s : State) (p : Nat) : List DomeReq :=
  ((List.range 16).flatMap fun c => (s.rqOf p c ++ s.wqOf p c).filter fun r => r.port == 2).take 32

/-- R129. Panic on port 2. -/
def State.panic (s : State) (p : Nat) : Bool :=
  (s.rtWaiting p).any (fun r => r.aged) || decide (s.fld F.DOME_RT_CFG_PANIC_FILL p ≤ (s.rtWaiting p).length)

/-! ### Contents -/

/-- The byte a queued write leaves at a byte of a line, oldest write first (R117). -/
def overlayByte (line off : Nat) : List DomeReq → Byte → Byte
  | [], b => b
  | r :: rs, b =>
    overlayByte line off rs
      (if r.line = line ∧ r.off ≤ off ∧ off < r.off + r.bytes.length then r.bytes.getD (off - r.off) 0 else b)

/-- The byte at a dome byte address, taking queued writes (R117). -/
def State.domeByte (s : State) (p a : Nat) : Byte :=
  let a := a % 2 ^ 31
  overlayByte (a / 64) (a % 64) (s.wqOf p (linePc (a / 64))) (s.ldByte (domeBase p + a))

/-- n bytes at a dome byte address. -/
def State.domeBytes (s : State) (p a n : Nat) : List Byte := (List.range n).map fun i => s.domeByte p (a + i)

/-- The condition of the 64-bit word at a dome byte address: 0 good, 2 two bits in error, 3 poison (R134). -/
def State.wordErr (s : State) (p a : Nat) : Nat := s.h .domeErr p (a % 2 ^ 31 / 8)

/-- The condition of a word of a line once the queued writes are applied, oldest first: one that covers it whole takes its
error or poison away (4: nothing of it comes from the DRAM), and one with poison brings poison. -/
def overlayCond (line i : Nat) : List DomeReq → Nat → Nat
  | [], e => e
  | r :: rs, e =>
    overlayCond line i rs
      (if r.line = line ∧ overlaps r.off r.bytes.length (8 * i) 8 then
        (if r.poison then 3 else if r.off ≤ 8 * i ∧ 8 * i + 8 ≤ r.off + r.bytes.length then 4 else e)
      else e)

/-- R117, R134. What a read that reaches a dome now knows of each of the eight words of its line. -/
def State.lineKnown (s : State) (p line : Nat) : List Nat :=
  (List.range 8).map fun i => overlayCond line i (s.wqOf p (linePc line)) (s.wordErr p (64 * line + 8 * i))

/-- The channel of a line has failed (R135). -/
def State.lineDown (s : State) (p line : Nat) : Bool := s.bit .DOME_CHAN_STAT (linePc line / 2) p

/-- R134, R135. A byte range holds a word in error or poison, or lies in a failed channel. -/
def State.domePoison (s : State) (p a n : Nat) : Bool :=
  let a := a % 2 ^ 31
  (List.range (cdiv (a % 64 + n) 64)).any fun l =>
    let line := a / 64 + l
    s.lineDown p line || (List.range 8).any fun i =>
      overlaps a n (64 * line + 8 * i) 8 && (s.lineKnown p line).getD i 0 % 4 != 0

/-- R134. Bytes are written to the DRAM: a whole word written clean is good again, a word written with poison holds the
poison pattern. -/
def State.domeStore (s : State) (p a : Nat) (bytes : List Byte) (poison : Bool) : State :=
  let n := bytes.length
  let s := foldS (fun i s =>
      let w := a / 8 + i
      if poison then s.setH .domeErr 3 p w
      else if a ≤ 8 * w ∧ 8 * w + 8 ≤ a + n then s.setH .domeErr 0 p w else s)
    (List.range (cdiv (a % 8 + n) 8)) s
  s.stBytes (domeBase p + a) bytes

/-! ### Rows and refresh -/

/-- R131. The neighbours of a row that exist. -/
def neighbours (r : Nat) : List Nat :=
  (if 2 ≤ r then [r - 2] else []) ++ (if 1 ≤ r then [r - 1] else []) ++
    (if r + 1 < 8192 then [r + 1] else []) ++ (if r + 2 < 8192 then [r + 2] else [])

/-- R131. The neighbour refreshes due in a bank are made before the bank is activated. -/
def State.nrfBank (s : State) (p c bank : Nat) : State :=
  { s with domeNrf := tput s.domeNrf (p, c) ((tget s.domeNrf (p, c) []).filter fun e => e.1 != bank) }

/-- R128, R131. A row is accessed: an activation counts unless the row is open; at the threshold its neighbours are due
a refresh. `close` closes the row after the access. -/
def State.rowTouch (s : State) (p c bank row : Nat) (close : Bool) : State :=
  let s :=
    if s.h .domeRow p c bank = row + 1 then s
    else
      let s := s.nrfBank p c bank
      let n := s.h .domeAct p (16 * c + bank) row + 1
      if s.fld F.DOME_ACT_THR_THR p ≤ n then
        let s := s.setH .domeAct 0 p (16 * c + bank) row
        { s with
          domeNrf := tput s.domeNrf (p, c) (tget s.domeNrf (p, c) [] ++ (neighbours row).map fun r => (bank, r)) }
          |>.addFld F.DOME_NRF_CNT_COUNT 1 p
      else s.setH .domeAct n p (16 * c + bank) row
  s.setH .domeRow (if close then 0 else row + 1) p c bank

/-- R128. The page hint of a request closes the row. -/
def State.closes (s : State) (p : Nat) (r : DomeReq) : Bool :=
  if r.port = 0 ∨ r.port = 1 ∨ r.port = 6 then false
  else if r.hint = 1 then false
  else if r.hint = 2 then true
  else s.bit .DOME_PORT_CFG r.port p

/-- R130, R131. One refresh of the 32 ms pass; the pass's end clears the activation counters. -/
def State.refreshOnce (s : State) (p c : Nat) : State :=
  let n := s.h .domeRefCount p c + 1
  if n < 8192 then s.setH .domeRefCount n p c
  else
    let s := s.setH .domeRefCount 0 p c
    { s with hid := tfilter s.hid fun k => !(k.id == .domeAct && k.w == p && k.i / 16 == c) }

/-- R132. The 1 us window that device time lies in. -/
def State.usWindow (s : State) : Nat := s.time.toNat * 1000 / (s.freq * 65536)

/-- R132. At step 2 and above a pseudo-channel transfers at most half its peak of 250 lines in each 1 us. -/
def State.capAllows (s : State) (p c : Nat) : Bool :=
  decide (s.thermStep p < 2) || s.h .domeCapWin p c != s.usWindow || decide (s.h .domeCapCnt p c < 125)

/-- R132. A line transfer counts in its 1 us. -/
def State.capCount (s : State) (p c : Nat) : State :=
  if s.h .domeCapWin p c = s.usWindow then s.setH .domeCapCnt (s.h .domeCapCnt p c + 1) p c
  else s.setH .domeCapWin s.usWindow p c |>.setH .domeCapCnt 1 p c

/-- One line is transferred: its row is accessed, and its pseudo-channel counts it. -/
def State.lineMove (s : State) (p line : Nat) (close : Bool) : State :=
  (s.rowTouch p (linePc line) (lineBank line) (lineRow line) close).capCount p (linePc line)

/-- A read issues. The round-robin of R126 goes on from its port, but for the real-time port, which is before it. -/
def State.issueRead (s : State) (p c : Nat) (r : DomeReq) : State :=
  let s := s.setRq p c ((s.rqOf p c).erase r) |>.setIssued p c (s.issuedOf p c ++ [r])
  let s := (s.rowTouch p c (lineBank r.line) (lineRow r.line) (s.closes p r)).capCount p c
  if r.port = 2 then s else s.setH .domeRr r.port p c

/-- A write issues: its bytes reach the DRAM, and batch mode ends at its watermark (R127). -/
def State.issueWrite (s : State) (p c : Nat) (r : DomeReq) : State :=
  let s := s.setWq p c ((s.wqOf p c).erase r)
  let s := s.domeStore p (64 * r.line + r.off) r.bytes r.poison |>.txnPart r.txn r.part false false []
  let s := (s.rowTouch p c (lineBank r.line) (lineRow r.line) (s.closes p r)).capCount p c
  if (s.wqOf p c).length ≤ s.wmLo p then s.setH .domeBatch 0 p c else s

/-- R126. The read that is served next: the real-time port first, then round-robin over ports 1, 3, 4 and 5. -/
def State.nextRead (s : State) (p c : Nat) : Option DomeReq :=
  let q := (s.rqOf p c).take 64
  let last := s.h .domeRr p c
  let order := if last = 1 then [2, 3, 4, 5, 1] else if last = 3 then [2, 4, 5, 1, 3]
    else if last = 4 then [2, 5, 1, 3, 4] else [2, 1, 3, 4, 5]
  order.findSome? fun port => q.find? fun r => r.port == port

/-- R126. One cycle of a pseudo-channel's scheduler: the first eligible candidate issues. Writes to one line issue in
arrival order: a real-time write under panic brings the older writes to its line before it (DEDUCED from R117,
assumption 54). -/
def State.schedIssue (s : State) (p c : Nat) : State :=
  let nrf := tget s.domeNrf (p, c) []
  let limit := if s.hb .domeBatch p c || s.panic p then s.fld F.DOME_REF_CFG_POSTPONE_MAX p else 1
  let rt := ((s.rqOf p c).take 64 ++ (s.wqOf p c).take 64).find? fun r => r.port == 2
  if !s.domeRuns p then s
  else if 0 < s.h .domeRefDue p c ∧ limit ≤ s.h .domeRefDue p c then
    (s.setH .domeRefDue (s.h .domeRefDue p c - 1) p c).refreshOnce p c
  else if !nrf.isEmpty then { s with domeNrf := tput s.domeNrf (p, c) (nrf.drop 1) }
  else if s.panic p && rt.isSome && s.capAllows p c then
    match rt with
    | some r =>
      if r.write then s.issueWrite p c (((s.wqOf p c).find? fun q => q.line == r.line).getD r) else s.issueRead p c r
    | none => s
  else if s.hb .domeBatch p c && !(s.wqOf p c).isEmpty && s.capAllows p c then
    match s.wqOf p c with
    | r :: _ => s.issueWrite p c r
    | [] => s
  else if !s.capAllows p c then s
  else match s.nextRead p c with
    | some r => s.issueRead p c r
    | none => match s.wqOf p c with
      | r :: _ => s.issueWrite p c r
      | [] =>
        if s.h .domeRefAhead p c < 8 then (s.setH .domeRefAhead (s.h .domeRefAhead p c + 1) p c).refreshOnce p c else s

/-- R130. The refresh interval elapses: a refresh issued ahead is owed back, or one more becomes due; beyond the
postponement limit one is forced at once. In self-refresh and during initialisation the interval does not run
(assumption 59). -/
def execRefreshInterval (p c : Nat) (s : State) : Host.Outcome State Fault Refusal :=
  if !s.domeRuns p then .next s
  else if 0 < s.h .domeRefAhead p c then .next (s.setH .domeRefAhead (s.h .domeRefAhead p c - 1) p c)
  else if s.h .domeRefDue p c < s.fld F.DOME_REF_CFG_POSTPONE_MAX p then
    .next (s.setH .domeRefDue (s.h .domeRefDue p c + 1) p c)
  else .next (s.refreshOnce p c)

/-- R127. The oldest write has waited WR_AGE. -/
def execWriteAgeExpiry (p c : Nat) (s : State) : Host.Outcome State Fault Refusal :=
  if (s.wqOf p c).isEmpty then .next s else .next (s.setH .domeBatch 1 p c)

/-- Mark the first real-time request of a queue as having waited PANIC_NS. -/
def ageFirst : List DomeReq → List DomeReq
  | [] => []
  | r :: rs => if r.port = 2 ∧ ¬ r.aged then { r with aged := true } :: rs else r :: ageFirst rs

/-- R129. The oldest real-time request of a pseudo-channel has waited PANIC_NS: panic is raised. -/
def execPanicAgeExpiry (p c : Nat) (s : State) : Host.Outcome State Fault Refusal :=
  if (s.rqOf p c).any fun r => r.port == 2 then .next (s.setRq p c (ageFirst (s.rqOf p c)))
  else .next (s.setWq p c (ageFirst (s.wqOf p c)))

/-- R128. An open row has been idle for IDLE_CLOSE cycles. -/
def execIdleCloseExpiry (p c bank : Nat) (s : State) : Host.Outcome State Fault Refusal :=
  .next (s.setH .domeRow 0 p c bank)

/-! ### Errors (R134) -/

/-- R134, R135. What a read finds in one 64-bit word: every word of a failed channel has two bits in error; a word whose
condition was `known` is found so, and one taken from a queued write is not looked at; else `found` is 1 for one bit in
error and 2 for two. Answers whether the word is returned as poison. -/
def State.eccWord (s : State) (p a known found : Nat) (down : Bool) : Bool × State :=
  let e := if down then 2 else if known = 0 then found else known
  match e with
  | 1 =>
    (false, (s.addFld F.DOME_CE_CNT_COUNT 1 p |>.setFlag F.DOME_ECC_STAT_CE true p).bucketAdd p 0)
  | 2 =>
    let was := s.flag F.DOME_ECC_STAT_UE p
    let s := s.addFld F.DOME_UE_CNT_COUNT 1 p |>.setRegN .DOME_ERR_ADDR a p |>.setFlag F.DOME_ECC_STAT_UE true p
    let s := if down then s else s.setH .domeErr 2 p (a / 8)
    (true, (if was then s else s.local p 410).alarm p 0x11)
  | 3 => (true, s.addFld F.DOME_POISON_CNT_COUNT 1 p)
  | _ => (false, s)

/-- R134. The eight words of a line are checked, and whether one that the read asked for is returned as poison. -/
def State.eccLine (s : State) (p line : Nat) (known found : List Nat) (off len : Nat) : Bool × State :=
  let down := s.lineDown p line
  foldS (fun i (r : Bool × State) =>
    let x := r.2.eccWord p (64 * line + 8 * i) (known.getD i 0) (found.getD i 0) down
    (r.1 || (x.1 && overlaps off len (8 * i) 8), x.2)) (List.range 8) (false, s)

/-- R126. Nothing of a pseudo-channel is eligible before a patrol read: no refresh due, forced or neighbour, no queued
request, no refresh that may be pulled in; and the cap of R132 lets a line pass. -/
def State.patrolTurn (s : State) (p c : Nat) : Bool :=
  s.domeRuns p && s.h .domeRefDue p c == 0 && (tget s.domeNrf (p, c) []).isEmpty && (s.rqOf p c).isEmpty &&
    (s.wqOf p c).isEmpty && s.h .domeRefAhead p c == 8 && s.capAllows p c

/-- R134. The patrol reads the next line of its pass, when nothing else of its pseudo-channel is eligible. -/
def execPatrolRead (p : Nat) (found : List Nat) (s : State) : Host.Outcome State Fault Refusal :=
  let line := s.h .domePatrol p
  if s.flag F.DOME_CTL_PATROL_EN p && s.patrolTurn p (linePc line) then
    let s := s.lineMove p line false
    .next ((s.eccLine p line (s.lineKnown p line) found 0 64).2.setH .domePatrol ((line + 1) % 2 ^ 25) p)
  else .next s

/-- R386, R393. The handling of a read with key identifier k at byte address a: with a key in LOST, reads of its range are
still verified. -/
def State.keyRead (s : State) (p k a : Nat) : KeyAccess :=
  if s.keyState p k = 3 ∧ s.inKeyRange p k a then .guarded else s.keyAccess p k a

/-! ### The counter-and-tag cache (R390) -/

/-- The cache of a dome. -/
def State.cacheOf (s : State) (p : Nat) : List MetaLine := tget s.keyCache p []

/-- A line of metadata of key k is held. -/
def State.cacheHas (s : State) (p k l : Nat) : Bool := (s.cacheOf p).any fun x => x.key == k && x.line == l

/-- The stored nodes of a key (R389). -/
def State.keyNodes (s : State) (p k : Nat) : Nat := treeNodes 4 (s.regN .MEM_KEY_PAGES p k)

/-- The line of a stored node (R389). -/
def State.nodeLine (s : State) (p k j : Nat) : Nat := s.regN .MEM_KEY_META p k + j
/-- The line of a node's tag (R389). -/
def State.nodeTagLine (s : State) (p k j : Nat) : Nat :=
  s.regN .MEM_KEY_META p k + s.keyNodes p k + 8 * s.regN .MEM_KEY_PAGES p k + j / 8
/-- The line of the tag of the data line at a byte address (R389). -/
def State.dataTagLine (s : State) (p k a : Nat) : Nat :=
  s.regN .MEM_KEY_META p k + s.keyNodes p k + (a / 64 - s.regN .MEM_KEY_BASE p k * 64) / 8

/-- The first elements of a list, up to and with the first that satisfies a test. -/
def upTo (f : Nat → Bool) : List Nat → List Nat
  | [] => []
  | x :: xs => if f x then [x] else x :: upTo f xs

/-- R390, R391. The metadata lines that an access to a protected line uses, each with the node it was fetched for: the data
tag line, and of the nodes from the leaf up each one's line and tag line. A read walks up to a node already held; a write
changes a counter in every ancestor. -/
def State.keyUses (s : State) (p k a : Nat) (write : Bool) : List (Nat × Option Nat) :=
  let nodes := (s.keyPath p k a).dropLast.map Prod.fst
  let walk := if write then nodes else upTo (fun j => s.cacheHas p k (s.nodeLine p k j)) nodes
  (s.dataTagLine p k a, none) :: walk.flatMap fun j => [(s.nodeLine p k j, some j), (s.nodeTagLine p k j, some j)]

/-- R390. Those of them that the cache does not hold, each once. A node that is held needs no tag. -/
def State.keyMisses (s : State) (p k a : Nat) (write : Bool) : List (Nat × Option Nat) :=
  ((s.keyUses p k a write).filter fun e =>
    !s.cacheHas p k e.1 && (match e.2 with | some j => !s.cacheHas p k (s.nodeLine p k j) | none => true)).eraseDups

/-- R390. A dirty line that leaves the cache is written back on port 5. The tree's counters are held as such
(`Hid.keyMajor`, `Hid.keyMinor`), so the transfer carries no bytes (assumption 20). -/
def State.metaBack (s : State) (p : Nat) (x : MetaLine) : State :=
  if x.dirty then s.domeEnq p ⟨5, x.line, true, 0, 0, [], false, 0, 0, 0, false, [], none⟩ else s

/-- R390. A verified line of metadata is used: it enters the cache of 512 lines, or becomes its latest; the line used
longest ago leaves (DESIGN CHOICE, assumption 158). -/
def State.cacheUse (s : State) (p k l : Nat) (dirty : Bool) : State :=
  let c := s.cacheOf p
  let same (x : MetaLine) : Bool := x.key == k && x.line == l
  let c' := (c.filter fun x => !same x) ++ [⟨k, l, dirty || c.any fun x => same x && x.dirty⟩]
  match c' with
  | x :: xs =>
    if 512 < c'.length then { s with keyCache := tput s.keyCache p xs }.metaBack p x
    else { s with keyCache := tput s.keyCache p c' }
  | [] => s

/-- R390. Dirty lines are written back at entry to self-refresh. -/
def State.cacheClean (s : State) (p : Nat) : State :=
  if (s.cacheOf p).isEmpty then s
  else { s with keyCache := tput s.keyCache p ((s.cacheOf p).map fun x => { x with dirty := false }) }

/-- R390. The metadata lines of a verified access enter the cache. -/
def State.cacheUses (s : State) (p k : Nat) (ls : List (Nat × Bool)) : State :=
  foldS (fun e s => s.cacheUse p k e.1 e.2) ls s

/-- R390. The requests of metadata lines on port 5, for a transaction: a node's own line, or the tag line it needs. -/
def State.metaEnq (s : State) (p t : Nat) (ls : List (Nat × Option Nat)) : State :=
  foldS (fun e s => s.domeEnq p ⟨5, e.1, false, 0, 64, [], false, 0, t,
    2 ^ 20 + (match e.2 with | some j => j + 1 | none => 0), false, s.lineKnown p e.1, none⟩) ls s

/-- R390. A protected line is accessed within one command: its missing metadata lines are transferred, and all are held. -/
def State.keyTouch (s : State) (p k a : Nat) (write : Bool) : State :=
  let uses := s.keyUses p k a write
  let s := foldS (fun e s => s.lineMove p e.1 false) (s.keyMisses p k a write) s
  s.cacheUses p k (uses.map fun e => (e.1, write))

/-! ### Transfers within one command

The engines whose table rows stand for a whole exchange with a dome (descriptors, images, telemetry, index entries,
configuration) move their lines in the step of that command: the lines come after every queued write to them, their rows are
accessed and their transfers counted (DESIGN CHOICE, assumption 159). -/

/-- The queued writes to a line issue, oldest first. -/
def State.lineFlush (s : State) (p line : Nat) : State :=
  foldS (fun r s => s.issueWrite p (linePc line) r) ((s.wqOf p (linePc line)).filter fun r => r.line == line) s

/-- R134. Read n bytes: whether they are poison, the bytes, and the state with what was found counted. -/
def State.domeGet (s : State) (p a n : Nat) : Bool × List Byte × State :=
  let a := a % 2 ^ 31
  let bytes := s.domeBytes p a n
  let r := foldS (fun l (r : Bool × State) =>
      let x := (r.2.lineMove p l false).eccLine p l (r.2.lineKnown p l) [] (a - 64 * l)
        (if 64 * l ≤ a then n else a + n - 64 * l)
      (r.1 || x.1, x.2))
    ((List.range (cdiv (a % 64 + n) 64)).map fun i => a / 64 + i) (false, s)
  (r.1, bytes, r.2)

/-- R134. Write bytes. A write of a unit other than a Promenade requester clears the reservation entries of its lines
(R331). -/
def State.domePut (s : State) (p a : Nat) (bytes : List Byte) (poison prm : Bool) : State :=
  let a := a % 2 ^ 31
  let s := foldS (fun l s =>
      let s := (s.lineFlush p l).lineMove p l false
      if prm then s else { s with resv := tput s.resv p ((tget s.resv p []).filter fun e => e.1 != l) })
    ((List.range (cdiv (a % 64 + bytes.length) 64)).map fun i => a / 64 + i) s
  s.domeStore p a bytes poison

/-! ### Self-refresh (R133) and initialisation (R137) -/

/-- A write of DOME_CTL: SR_REQ asks for self-refresh or its end. -/
def State.domeCtlWrite (s : State) (p : Nat) (v : Word) : State :=
  (s.setReg .DOME_CTL ((v.zeroExtend 64) &&& RegId.DOME_CTL.row.rw) p).srUpdate p

/-- R133. A write of DOME_CTL.SR_REQ. -/
def execSrReqWrite (p : Nat) (v : Word) (s : State) : Host.Outcome State Fault Refusal :=
  wrOut .DOME_CTL v (s.domeCtlWrite p v)

/-- Answer a queue of requests DOME_HOLD, without performing them. -/
def State.holdQueue (s : State) (l : List DomeReq) : State := foldS (fun r s => s.txnPart r.txn r.part true false []) l s

/-- R133. Queued requests are answered DOME_HOLD without being performed, and rows close. What was issued completes. -/
def State.domeDrop (s : State) (p : Nat) : State :=
  foldS (fun c s =>
    let s := (s.holdQueue (s.rqOf p c)).holdQueue (s.wqOf p c)
    let s := s.setRq p c [] |>.setWq p c [] |>.setH .domeBatch 0 p c
    foldS (fun b s => s.setH .domeRow 0 p c b) (List.range 16) s) (List.range 16) s

/-- R133. The dome serves requests again. -/
def execSrExitDone (p : Nat) (s : State) : Host.Outcome State Fault Refusal :=
  if s.h .domeSr p = 3 then .next ((s.setH .domeSr 0 p).domeShow p) else .next s

/-- R137. Every line of a dome holds zeros and valid check bits. -/
def State.domeZero (s : State) (p : Nat) : State :=
  let s := s.clearBytes (domeBase p) (2 ^ 31)
  { s with hid := tfilter s.hid fun k => !(k.id == .domeErr && k.w == p) }

/-- R137. Initialisation completes: the dome holds zeros and STATE leaves INIT. -/
def execDomeInitDone (p : Nat) (s : State) : Host.Outcome State Fault Refusal :=
  if s.hb .domeReady p then .next s else .next ((s.domeZero p |>.setH .domeReady 1 p).domeShow p)

/-! ### Pipeline rings (R118..R125) -/

/-- The byte address of a ring's index. -/
def State.ringIdx (s : State) (p r : Nat) : Nat := s.regN .DOME_RING_IDX_BASE p r % 2 ^ 25 * 64
/-- The byte address of a ring's data area. -/
def State.ringData (s : State) (p r : Nat) : Nat := s.regN .DOME_RING_DATA_BASE p r % 2 ^ 25 * 64
/-- The lines of a ring's data area. -/
def State.ringLines (s : State) (p r : Nat) : Nat := s.regN .DOME_RING_DATA_LINES p r
/-- The index slots of a ring. -/
def State.ringSlots (s : State) (p r : Nat) : Nat := 2 ^ s.fld F.DOME_RING_CFG_IDX_LOG2 p r

/-- R118. The enabled ring of a stream and copy. -/
def State.ringFor (s : State) (p stream : Nat) (twin : Bool) : Option Nat :=
  firstWhere 512 fun r => s.flag F.DOME_RING_CFG_EN p r && s.fld F.DOME_RING_CFG_STREAM p r == stream &&
    s.flag F.DOME_RING_CFG_COPY p r == twin

/-- One index entry (Table 5.3). -/
structure IdxEntry where
  pstart : Nat
  valid : Bool
  twin : Bool
  ofs : Nat
  nlines : Nat
  nfrag : Nat
deriving DecidableEq, Repr

/-- An index entry from its 16 bytes. -/
def idxOfBytes (bs : List Byte) : IdxEntry :=
  let n := leNat bs
  ⟨bitsOf n 0 48, bitOf n 48, bitOf n 49, bitsOf n 64 32, bitsOf n 96 20, bitsOf n 116 8⟩

/-- The 16 bytes of an index entry. -/
def idxBytes (e : IdxEntry) : List Byte :=
  natBytes 16 (e.pstart % 2 ^ 48 + b2n e.valid * 2 ^ 48 + b2n e.twin * 2 ^ 49 + e.ofs % 2 ^ 32 * 2 ^ 64 +
    e.nlines % 2 ^ 20 * 2 ^ 96 + e.nfrag % 256 * 2 ^ 116)

/-- The byte address of the index entry of period pn (R119). -/
def State.ringSlotAddr (s : State) (p r pn : Nat) : Nat := s.ringIdx p r + 16 * (pn % s.ringSlots p r)

/-- The index entry at a byte address. -/
def State.idxAt (s : State) (p a : Nat) : IdxEntry := idxOfBytes (s.domeBytes p a 16)

/-- The byte addresses of the valid index entries of a ring. -/
def State.ringValid (s : State) (p r : Nat) : List Nat :=
  let base := domeBase p + s.ringIdx p r
  (s.mem.filter fun c => decide (base ≤ c.1) && decide (c.1 < base + 16 * s.ringSlots p r) &&
    (c.1 - base) % 16 == 6 && bitOf c.2.toNat 0).map fun c => c.1 - 6 - domeBase p

/-- Two runs of a circular area of d lines overlap. -/
def circOverlap (d a n b m : Nat) : Bool :=
  decide (0 < n) && decide (0 < m) && (decide ((b + d - a % d) % d < n) || decide ((a + d - b % d) % d < m))

/-- R120. The valid entries whose lines a fragment of n lines at the write pointer will overwrite. -/
def State.ringDoomed (s : State) (p r n : Nat) : List Nat :=
  (s.ringValid p r).filter fun a =>
    let e := s.idxAt p a
    circOverlap (s.ringLines p r) (s.regN .DOME_RING_WR_PTR p r) n e.ofs e.nlines

/-- A list in rising order of a key, for few elements. -/
def risingBy (key : Nat → Nat) (l : List Nat) : List Nat :=
  l.foldl (fun m x => (m.takeWhile fun y => decide (key y ≤ key x)) ++ [x] ++ m.dropWhile fun y => decide (key y ≤ key x)) []

/-- R120. Those entries, the oldest first: the one whose lines the write pointer reaches first. -/
def State.ringClears (s : State) (p r n : Nat) : List Nat :=
  let d := s.ringLines p r
  let w := s.regN .DOME_RING_WR_PTR p r
  risingBy (fun a => ((s.idxAt p a).ofs + (s.idxAt p a).nlines + d - w % d - 1) % d) (s.ringDoomed p r n)

/-- Count a beat count as at or after another, modulo 2^48 (R27). -/
def beatAtOrAfter (a b : Nat) : Bool := decide ((a + 2 ^ 48 - b) % 2 ^ 48 < 2 ^ 47)

/-- What a commit brings to a dome (R118..R120). -/
structure CommitIn where
  stream : Nat
  twin : Bool
  fs : Nat
  time : Time
  bytes : List Byte
  poison : List Nat
deriving DecidableEq, Repr

/-- The period of a commit (R119). -/
def CommitIn.pn (c : CommitIn) : Nat := c.time.toNat / 65536 / 2 ^ c.fs
/-- The lines of a commit (R120). -/
def CommitIn.lines (c : CommitIn) : Nat := cdiv c.bytes.length 64

/-- A line run wraps in its data area: the byte address of line i of a fragment at offset ofs (R120). -/
def State.ringLineAddr (s : State) (p r ofs i : Nat) : Nat := s.ringData p r + 64 * ((ofs + i) % s.ringLines p r)

/-- The key identifiers of a ring's regions allow its accesses (R136, R386). -/
def State.ringKeyOk (s : State) (p r : Nat) (c : CommitIn) : Bool :=
  s.keyAccess p (s.regN .DOME_RING_IDX_BASE p r / 2 ^ 25) (s.ringSlotAddr p r c.pn) != .refused &&
    (List.range c.lines).all fun i =>
      s.keyAccess p (s.regN .DOME_RING_DATA_BASE p r / 2 ^ 25)
        (s.ringLineAddr p r (s.regN .DOME_RING_WR_PTR p r) i) != .refused

/-- R120. The commit is too large: for the data area, or for its period's entry. -/
def State.ringTooLarge (s : State) (p r : Nat) (c : CommitIn) : Bool :=
  let e := s.idxAt p (s.ringSlotAddr p r c.pn)
  decide (s.ringLines p r < c.lines) ||
    (e.valid && e.pstart == c.pn * 2 ^ c.fs % 2 ^ 48 && decide (1048575 < e.nlines + c.lines))

/-- R121. The commit replaces the valid entry of its slot, which holds another period. -/
def State.ringReplaces (s : State) (p r : Nat) (c : CommitIn) : Bool :=
  let e := s.idxAt p (s.ringSlotAddr p r c.pn)
  e.valid && e.pstart != c.pn * 2 ^ c.fs % 2 ^ 48

/-- R122. The commit would take a valid entry at or after HOLD out of reach: one whose lines it overwrites, or the one that
it replaces in its slot (DEDUCED, assumption 62). -/
def State.ringHeld (s : State) (p r : Nat) (c : CommitIn) : Bool :=
  s.flag F.DOME_RING_CFG_HOLD_EN p r &&
    ((if s.ringReplaces p r c then [s.ringSlotAddr p r c.pn] else []) ++ s.ringDoomed p r c.lines).any fun a =>
      beatAtOrAfter (s.idxAt p a).pstart (s.regN .DOME_RING_HOLD p r % 2 ^ 48)

/-- R136. The first cause that refuses a commit at the dome, as a reason of Table 3.10 and a subcode of Table 5.5. -/
def State.commitCause (s : State) (p : Nat) (c : CommitIn) : Option (Nat × Nat) :=
  if s.chanDown p then some (7, 6)
  else if s.domeHolds p then (if s.hb .domeSr p ∧ s.hb .domeSrHot p then some (3, 0) else some (7, 7))
  else if !s.hb .domeReady p then some (7, 5)
  else match s.ringFor p c.stream c.twin with
    | none => some (7, 1)
    | some r =>
      if s.fld F.DOME_RING_CFG_FRAG_SHIFT p r ≠ c.fs then some (7, 2)
      else if s.flag F.DOME_RING_STAT_INIT p r then some (7, 5)
      else if !s.ringKeyOk p r c then some (7, 8)
      else if s.ringTooLarge p r c then some (7, 4)
      else if s.ringHeld p r c && !s.flag F.DOME_RING_CFG_HOLD_POLICY p r then some (7, 3)
      else none

/-- R136. A refusal is counted and its subcode reported: in the ring's status when a ring matched, else in the dome's. -/
def State.commitRefuse (s : State) (p : Nat) (ring : Option Nat) (sub : Nat) : State :=
  let s := s.addFld F.DOME_REFUSE_CNT_COUNT 1 p
  if sub = 0 then s
  else match ring with
    | some r => s.setFld F.DOME_RING_STAT_LAST_SUB sub p r
    | none => s.setFld F.DOME_STAT_LAST_SUB sub p

/-- R139. A ring status bit is set: source 412 when it was 0. -/
def State.ringFlag (s : State) (f : Fld) (p r : Nat) : State :=
  if s.flag f p r then s else (s.setFlag f true p r).local p 412

/-- The key counters of every line a commit writes advance, up to a line write that is refused (R392); whether none
was. -/
def State.ringKeyWrite (s : State) (p r ofs n : Nat) : Bool × State :=
  (List.range n).foldl (fun o i =>
    if !o.1 then o
    else
      let k := s.regN .DOME_RING_DATA_BASE p r / 2 ^ 25
      let a := s.ringLineAddr p r ofs i
      match o.2.keyWrite p k a with
      | some t => (true, t)
      | none => (false, o.2.keyExhaust p k a)) (true, s)

/-- R123. The entry at a byte address is cleared or replaced: a data read of its period that is in progress expires. -/
def State.readsExpire (s : State) (p a : Nat) : State :=
  { s with events := s.events.map fun e => { e with sects := e.sects.map fun x => { x with
      rd := x.rd.map fun d => if d.pav = p ∧ d.slot = a then { d with expired := true } else d } } }

/-- A write of an index entry of a ring (R119), with the counters and metadata of a protected index (R390, R391); none when
the line write is refused, with the state that records it (R392, R136). -/
def State.idxStore (s : State) (p r a : Nat) (e : IdxEntry) : Bool × State :=
  let k := s.regN .DOME_RING_IDX_BASE p r / 2 ^ 25
  match s.keyWrite p k a with
  | none => (false, s.keyExhaust p k a)
  | some t => (true, (if s.keyAccess p k a = .guarded then t.keyTouch p k a true else t).domePut p a (idxBytes e) false false)

/-- R120. The valid entries whose lines a commit overwrites are cleared, oldest first, up to a line write that is
refused. -/
def State.ringClear (s : State) (p r : Nat) (as : List Nat) : Bool × State :=
  as.foldl (fun o a =>
    if !o.1 then o
    else
      let x := o.2.idxStore p r a { o.2.idxAt p a with valid := false }
      (x.1, if x.1 then x.2.readsExpire p a else x.2)) (true, s)

/-- What becomes of a commit at the dome. -/
inductive CommitFate where
  /-- refused, with its reason of Table 3.10 -/
  | refused (reason : Nat)
  /-- its lines are being written: ring, offset, lines, transaction -/
  | writing (ring ofs lines txn : Nat)
  /-- it waits at port 0 for the commit of its ring that is being written -/
  | waiting
deriving DecidableEq, Repr

/-- R120. Commits of one ring are written one after another, so that the fragments of a period are contiguous: one that
no cause before the checks of the ring's space refuses waits while another is being written (DESIGN CHOICE, assumption 63). -/
def State.commitWaits (s : State) (p : Nat) (c : CommitIn) : Bool :=
  !s.chanDown p && s.domeServes p &&
    (match s.ringFor p c.stream c.twin with
    | some r => s.fld F.DOME_RING_CFG_FRAG_SHIFT p r == c.fs && !s.flag F.DOME_RING_STAT_INIT p r && s.hb .ringBusy p r
    | none => false)

/-- R120, R390. The lines of a commit join the write queues, each with its ring and period, as one transaction; a protected
ring's missing metadata lines are fetched with it. -/
def State.commitQueue (s : State) (p r ofs : Nat) (c : CommitIn) : Nat × State :=
  let k := s.regN .DOME_RING_DATA_BASE p r / 2 ^ 25
  let as := ((List.range c.lines).map (s.ringLineAddr p r ofs ·)).filter fun a => s.keyAccess p k a == .guarded
  let miss := (as.flatMap fun a => s.keyMisses p k a true).eraseDups
  let uses := (as.flatMap fun a => (s.keyUses p k a true).map fun e => (e.1, true)).eraseDups
  let t := s.newTxn { DomeTxn.plain p (c.lines + miss.length) with
    key := if as.isEmpty then none else some k
    metas := uses }
  let s' := t.2.metaEnq p t.1 miss
  let padded := c.bytes ++ List.replicate (64 * c.lines - c.bytes.length) (0 : Byte)
  (t.1, foldS (fun i s' =>
    s'.domeEnq p ⟨0, s.ringLineAddr p r ofs i / 64, true, 0, 64, (padded.drop (64 * i)).take 64, c.poison.contains i, 1, t.1, i, false,
      [], some (r, c.pn)⟩) (List.range c.lines) s')

/-- R120, R136. A commit at port 0: checked against its ring, then refused, or its overwritten entries cleared and its
lines queued from the ring's write pointer on. -/
def State.commitArrive (s : State) (p : Nat) (c : CommitIn) : CommitFate × State :=
  if s.commitWaits p c then (.waiting, s)
  else
    match s.commitCause p c with
    | some (reason, sub) => (.refused reason, s.commitRefuse p (s.ringFor p c.stream c.twin) sub)
    | none =>
      match s.ringFor p c.stream c.twin with
      | none => (.refused 7, s.commitRefuse p none 1)
      | some r =>
        let ofs := s.regN .DOME_RING_WR_PTR p r
        let s' := if s.ringHeld p r c then s.ringFlag F.DOME_RING_STAT_HOLD_LOST p r else s
        match s'.ringClear p r (s.ringClears p r c.lines) with
        | (false, s') => (.refused 7, s'.commitRefuse p (some r) 8)
        | (true, s') =>
          match s'.ringKeyWrite p r ofs c.lines with
          | (false, s') => (.refused 7, s'.commitRefuse p (some r) 8)
          | (true, s') =>
            let q := s'.commitQueue p r ofs c
            (.writing r ofs c.lines q.1, q.2.setH .ringBusy (q.2.h .ringBusy p r + 1) p r)

/-- A commit at port 0 is decided: BUSY clears with the last one after EN was cleared (R125). -/
def State.ringUnbusy (s : State) (p r : Nat) : State :=
  let n := s.h .ringBusy p r - 1
  let s := s.setH .ringBusy n p r
  if n = 0 then s.setFlag F.DOME_RING_STAT_BUSY false p r else s

/-- R120, R121. The index entry of a commit whose lines are written, and the write pointer after them; whether the line
write was taken (R136). -/
def State.ringIndex (s : State) (p r : Nat) (twin : Bool) (pstart pn ofs n : Nat) : Bool × State :=
  let a := s.ringSlotAddr p r pn
  let e := s.idxAt p a
  let x :=
    if e.valid ∧ e.pstart = pstart then
      s.idxStore p r a { e with nlines := e.nlines + n, nfrag := min 255 (e.nfrag + 1) }
    else
      let x := s.idxStore p r a ⟨pstart, true, twin, ofs, n, 1⟩
      if !x.1 then x
      else
        let t := x.2.readsExpire p a
        (true, if e.valid && !beatAtOrAfter pstart e.pstart then t.ringFlag F.DOME_RING_STAT_TIME_BACK p r else t)
  if x.1 then (true, x.2.setRegN .DOME_RING_WR_PTR ((ofs + n) % s.ringLines p r) p r) else x

/-- R120. A commit whose line writes are over is acknowledged, with its index entry written; or it was refused because the
dome began to hold, or because the index line was (R136). None while lines wait. -/
def State.commitFinish (s : State) (p r : Nat) (c : CommitIn) (ofs n t : Nat) : Option (Option Nat × State) :=
  match s.txn t with
  | none => none
  | some x =>
    if x.left ≠ 0 then none
    else
      let s := (s.txnDone t).ringUnbusy p r
      if x.hold then
        if x.hot then some (some 3, s.commitRefuse p (some r) 0) else some (some 7, s.commitRefuse p (some r) 7)
      else
        let s := match x.key with | some k => s.cacheUses p k x.metas | none => s
        match s.ringIndex p r c.twin (c.pn * 2 ^ c.fs % 2 ^ 48) c.pn ofs n with
        | (true, s) => some (none, s.addFld F.DOME_COMMIT_CNT_COUNT 1 p)
        | (false, s) => some (some 7, s.commitRefuse p (some r) 8)

/-! ### Ring set-up (R124, R125) -/

/-- R124. The first check that a ring's set-up fails, 0 when none does. -/
def State.ringCheck (s : State) (p r : Nat) (cfg : Nat) : Nat :=
  let log2 := bitsOf cfg 18 5
  let ib := s.regN .DOME_RING_IDX_BASE p r % 2 ^ 25
  let il := 2 ^ log2 / 4
  let db := s.regN .DOME_RING_DATA_BASE p r % 2 ^ 25
  let dl := s.ringLines p r
  let other (q : Nat) : Bool := q != r && s.flag F.DOME_RING_CFG_EN p q
  let hits (b n q : Nat) : Bool :=
    overlaps b n (s.regN .DOME_RING_IDX_BASE p q % 2 ^ 25) (s.ringSlots p q / 4) ||
      overlaps b n (s.regN .DOME_RING_DATA_BASE p q % 2 ^ 25) (s.ringLines p q)
  if 2 ^ 25 < ib + il ∨ 2 ^ 25 < db + dl then 1
  else if (List.range 512).any fun q => other q && (hits ib il q || hits db dl q) then 2
  else if overlaps ib il (s.regN .DOME_RSV_BASE p) (s.regN .DOME_RSV_SIZE p) ||
      overlaps db dl (s.regN .DOME_RSV_BASE p) (s.regN .DOME_RSV_SIZE p) then 3
  else if (List.range 512).any fun q => other q && s.regN .DOME_RING_CFG p q % 2 ^ 14 == cfg % 2 ^ 14 then 4
  else if log2 < 8 ∨ 24 < log2 ∨ dl < 1024 then 5
  else 0

/-- R123, R124. Every entry of a ring is cleared: its data reads in progress expire. -/
def State.ringExpire (s : State) (p r : Nat) : State :=
  { s with events := s.events.map fun e => { e with sects := e.sects.map fun x => { x with
      rd := x.rd.map fun d => if d.pav = p ∧ d.ring = r then { d with expired := true } else d } } }

/-- R124, R125. A write of word 0 of a ring entry. -/
def State.ringCfgWrite (s : State) (p r : Nat) (v : Word) : State :=
  let v := v.toNat
  let old := s.regN .DOME_RING_CFG p r
  if bitOf old 31 then
    if bitsOf v 0 23 ≠ bitsOf old 0 23 then s.setFlag F.DOME_STAT_WR_IGN true p
    else
      let s := s.setFld F.DOME_RING_CFG_HOLD_EN (bitsOf v 23 1) p r
        |>.setFld F.DOME_RING_CFG_HOLD_POLICY (bitsOf v 24 1) p r
      if bitOf v 31 then s
      else s.setFlag F.DOME_RING_CFG_EN false p r |>.setFlag F.DOME_RING_STAT_BUSY (s.hb .ringBusy p r) p r
  else
    let s := s.setRegN .DOME_RING_CFG (bitsOf v 0 25) p r
    if bitOf v 31 then
      let e := s.ringCheck p r v
      let s := s.setFld F.DOME_RING_STAT_ERR e p r
      if e = 0 then
        s.setFlag F.DOME_RING_CFG_EN true p r |>.setRegN .DOME_RING_WR_PTR 0 p r
          |>.setFlag F.DOME_RING_STAT_INIT true p r |>.ringExpire p r
      else s
    else s

/-- R124. A write of word 0 with EN = 1. -/
def execRingEnable (p r : Nat) (v : Word) (s : State) : Host.Outcome State Fault Refusal :=
  wrOut .DOME_RING_CFG v (s.ringCfgWrite p r v)

/-- R125. A write of word 0 with EN = 0. -/
def execRingDisable (p r : Nat) (v : Word) (s : State) : Host.Outcome State Fault Refusal :=
  wrOut .DOME_RING_CFG v (s.ringCfgWrite p r v)

/-- R124, R134. The words of a ring's index hold zeros and valid check bits. -/
def State.ringZero (s : State) (p r : Nat) : State :=
  let base := s.ringIdx p r
  let n := 16 * s.ringSlots p r
  let s := s.clearBytes (domeBase p + base) n
  { s with hid := tfilter s.hid fun k => !(k.id == .domeErr && k.w == p && overlaps base n (8 * k.i) 8) }

/-- R124. The index is cleared. -/
def execRingInitDone (p r : Nat) (s : State) : Host.Outcome State Fault Refusal :=
  if s.flag F.DOME_RING_STAT_INIT p r then .next ((s.ringZero p r).setFlag F.DOME_RING_STAT_INIT false p r) else .next s

/-- R124. A WARM reset of pavilions returns STAT.INIT to 0: the clearing of an index that was under way is complete when the
reset ends (DESIGN CHOICE, assumption 160). -/
def State.ringsZero (s : State) (sc : Nat → Bool) : State :=
  foldS (fun (k : RegKey) s =>
    if k.id == .DOME_RING_STAT && decide (k.w < 32) && sc k.w && s.flag F.DOME_RING_STAT_INIT k.w k.i then s.ringZero k.w k.i
    else s) (tkeys s.regs) s

/-- R124. A write of words 1..3 of a ring entry: taken while EN is 0. -/
def State.ringWordWrite (s : State) (p r : Nat) (id : RegId) (v : Word) : State :=
  if s.flag F.DOME_RING_CFG_EN p r then s.setFlag F.DOME_STAT_WR_IGN true p
  else s.setReg id ((v.zeroExtend 64) &&& id.row.rw) p r

/-! ### Reading a ring (R123, R146) -/

/-- What the index entry of a period says to a read of it. -/
inductive PeriodLook where
  /-- the lines that hold its fragments -/
  | lines (e : IdxEntry)
  | missing
  | expired
  | poison
  | unreachable
deriving DecidableEq, Repr

/-- R123, R146. The index entry of period pn of ring r is read. -/
def State.periodLook (s : State) (p r pn : Nat) : PeriodLook × State :=
  let fs := s.fld F.DOME_RING_CFG_FRAG_SHIFT p r
  let a := s.ringSlotAddr p r pn
  let ki := s.regN .DOME_RING_IDX_BASE p r / 2 ^ 25
  let want := pn * 2 ^ fs % 2 ^ 48
  if !s.domeServes p || s.portFenced p 114 || s.isolated p || decide (2 ≤ s.power p) || s.keyRead p ki a == .refused ||
      s.keyRead p (s.regN .DOME_RING_DATA_BASE p r / 2 ^ 25) (s.ringData p r) == .refused then (.unreachable, s)
  else
    let e := s.idxAt p a
    let guarded := s.keyRead p ki a == .guarded
    let lost := guarded && s.keyBeneathBad p ki a
    let x := (if guarded then s.keyTouch p ki a false else s).domeGet p a 16
    let s := x.2.2
    if x.1 || lost then (.poison, s)
    else if !e.valid || (e.pstart != want && beatAtOrAfter want e.pstart) then (.missing, s)
    else if e.pstart ≠ want then (.expired, s)
    else (.lines e, s)

/-- R117, R123, R390. A ring data read on port 1: the lines of an entry join the read queues with their ring and period, as
one transaction. -/
def State.periodQueue (s : State) (p r pn : Nat) (e : IdxEntry) : Nat × State :=
  let k := s.regN .DOME_RING_DATA_BASE p r / 2 ^ 25
  let as := (List.range e.nlines).map (s.ringLineAddr p r e.ofs ·)
  let ks := as.filter fun a => s.keyRead p k a == .guarded
  let miss := (ks.flatMap fun a => s.keyMisses p k a false).eraseDups
  let uses := (ks.flatMap fun a => (s.keyUses p k a false).map fun u => (u.1, false)).eraseDups
  let t := s.newTxn { DomeTxn.plain p (e.nlines + miss.length) with
    poison := ks.any fun a => s.keyBeneathBad p k a
    key := if ks.isEmpty then none else some k
    metas := uses }
  (t.1, foldS (fun (x : Nat × Nat) s' =>
      s'.domeEnq p ⟨1, x.1 / 64, false, 0, 64, s.domeBytes p x.1 64, false, 1, t.1, x.2, false, s.lineKnown p (x.1 / 64),
        some (r, pn)⟩) as.zipIdx (t.2.metaEnq p t.1 miss))

end Sys2Proof.Machine
end

