-- ==== Sys2Proof/Machine/Journal.lean ====
section
/-!
DEFINITION. What the recovery journal lets the device accept (R408, R410, R416, R167).
-/
namespace Sys2Proof.Machine

/-- A site's lodge holds a complete journal copy. -/
def State.jrnlHolder (s : State) (x : Nat) : Bool := s.flag F.LDG_JRNL_STAT_HOLDER x

/-- R416. The device is in safe hold. -/
def State.safeHold (s : State) : Bool := s.flag F.LDG_HOLD_STAT_ACTIVE

/-- R408, R410. An entry can be held: by the presiding lodge and one deputy. -/
def State.jrnlOk (s : State) : Bool :=
  match s.jrnlHead with
  | none => false
  | some x => !s.safeHold && s.jrnlHolder x && (List.range 36).any fun y => y != x && s.jrnlHolder y

/-- R408. The Work entries in use: accepted descriptors not yet covered by DSEQ, and accepts whose events have not
completed. An accept that a descriptor submitted has its descriptor's entry. -/
def State.jrnlWork (s : State) : Nat :=
  s.qps.foldl (fun n e => n + e.2.acc.length) 0 + (s.events.filter fun e => e.qp.isNone).length

/-- R408. The Work section has a free entry. -/
def State.jrnlRoom (s : State) : Bool := decide (s.jrnlWork < 4096)

/-- R408. An acceptance waits for journal room. -/
def State.jrnlWait (s : State) : State := s.addFld F.LDG_JRNL_WAIT_COUNT 1

/-- R407. The journal's bytes in a holder's SRAM change; the spec gives its sections, not their bytes. -/
def State.jrnlBytes (s : State) (x : Nat) : State := s.makeUndef (sramBase x + 0x10000) 0x30000

/-- R407. The journal is written: its bytes change in every holder (assumption 57). -/
def State.jrnlWritten (s : State) : State :=
  foldS (fun x s => if s.jrnlHolder x then s.jrnlBytes x else s) (List.range 36) s

/-- LDG_JRNL_FILL: Work entries in use and declaration records (Table 16.9). -/
def State.jrnlFill (s : State) : Nat := s.jrnlWork + s.decls.length * 2 ^ 16

/-- LDG_JRNL_STAT: a holder counts the Work entries it holds (Table 16.6). -/
def State.jrnlStat (s : State) (x : Nat) : Nat :=
  setBitsOf (s.regN .LDG_JRNL_STAT x) 4 13 (if s.jrnlHolder x then s.jrnlWork else 0)

end Sys2Proof.Machine
end

