-- ==== Sys2Proof/Machine/Topology.lean ====
section
/-!
DEFINITION. The torus of logical pavilions, its links and their reaches (R313, R321, Table 7.3), and which units can
take part in a route (R14, R182, R301, R351).
-/
namespace Sys2Proof.Machine

/-- The neighbour of pavilion p over edge e: 0 W, 1 E, 2 N, 3 S (R295). Neighbours are logical: no site takes part (R309). -/
def neighbour (p e : Nat) : Nat :=
  let r := p / 8
  let c := p % 8
  match e with
  | 0 => 8 * r + (c + 7) % 8
  | 1 => 8 * r + (c + 1) % 8
  | 2 => 8 * ((r + 3) % 4) + c
  | _ => 8 * ((r + 1) % 4) + c

/-- The opposite edge. -/
def opposite (e : Nat) : Nat := e / 2 * 2 + (1 - e % 2)

/-- The distance of two numbers. -/
def absDiff (a b : Nat) : Nat := (a - b) + (b - a)

/-- Table 7.3. The link of edge e takes three router cycles: reach 3 in its row, or two physical rows apart. -/
def State.reach3 (s : State) (p e : Nat) : Bool :=
  let x := s.siteOf p
  let y := s.siteOf (neighbour p e)
  if x / 9 = y / 9 then decide (3 ≤ absDiff (x % 9) (y % 9)) else decide (2 ≤ absDiff (x / 9) (y / 9))

/-- Link l of node n carries traffic: it is UP, or trains again after having been UP, while new flits wait (R336). -/
def State.lrtUp (s : State) (n l : Nat) : Bool :=
  s.fld F.LRT_LINK_STAT_STATE n l == 5 ||
    (s.fld F.LRT_LINK_STAT_STATE n l != 0 && match tfind s.lrt (n, l) with | some x => x.wasUp | none => false)

/-- The width of a Lartum link: 0 is 32 lanes, 1 is 16, 2 is 8, 3 is down. -/
def State.lrtWidth (s : State) (n l : Nat) : Nat := if s.lrtUp n l then s.fld F.LRT_LINK_STAT_WIDTH n l else 3

/-- A pavilion takes part in routes: not isolated, powered, not draining or fenced, not in substitution (Table 7.5). -/
def State.pavServes (s : State) (p : Nat) : Bool :=
  decide (p < 32) && !s.isolated p && decide (s.power p < 2) && !s.portClosed p 127 && !s.hb .domeQuiesce p

/-- A torus link is usable from both of its ends (R325). -/
def State.torusUp (s : State) (p e : Nat) : Bool :=
  s.flag F.PRM_LINK_STAT_UP p e && s.flag F.PRM_LINK_STAT_UP (neighbour p e) (opposite e)

/-- The pavilion that link i of tower t reaches, when it carries traffic (R14). -/
def State.towerLink (s : State) (t i : Nat) : Option Nat :=
  match s.pavAt ((towerSites t).getD i 0) with
  | some p => if s.pavServes p && s.lrtUp (towerNode t) i then some p else none
  | none => none

/-- A tower serves (R182, Table 7.5). -/
def State.towerServes (s : State) (t : Nat) : Bool := decide (t < 8) && !s.isolated (towerNode t)

/-- The pavilion at an annex's bridge site (R13). -/
def State.bridgePav (s : State) (a : Nat) : Option Nat := s.pavAt (bridgeSite a)

/-- R351. An annex is active while it is UP at 16 GT/s or above with RT = 1. -/
def State.annexActive (s : State) (a : Nat) : Bool :=
  s.fld F.ANX_STAT_STATE 0 a == 6 && decide (3 ≤ s.fld F.ANX_STAT_RATE 0 a) && s.bit .ANX_ID_W 8 0 a 1 &&
    (s.bridgePav a).isSome

/-- R321. The edge a packet takes next from pavilion p toward pavilion q, along its row first. -/
def dimOrder (p q : Nat) : Option Nat :=
  let dc := (q % 8 + 8 - p % 8) % 8
  let dr := (q / 8 + 4 - p / 8) % 4
  if 0 < dc then some (if dc ≤ 4 then 1 else 0)
  else if 0 < dr then some (if dr ≤ 2 then 3 else 2)
  else none

/-- The path of R321, at most `fuel` hops. -/
def dimPath : Nat → Nat → Nat → List Nat
  | 0, _, _ => []
  | fuel + 1, p, q => match dimOrder p q with
    | none => []
    | some e => e :: dimPath fuel (neighbour p e) q

/-- The number of hops between two pavilions. -/
def hops (p q : Nat) : Nat :=
  let dc := (q % 8 + 8 - p % 8) % 8
  let dr := (q / 8 + 4 - p / 8) % 4
  min dc (8 - dc) + min dr (4 - dr)

/-- The edges that bring a packet nearer, in the order E, W, S, N. -/
def nearer (p q : Nat) : List Nat := [1, 0, 3, 2].filter fun e => decide (hops (neighbour p e) q < hops p q)

/-- R184. Every torus path with the fewest hops, in the order of its rule 4. -/
def shortest : Nat → Nat → Nat → List (List Nat)
  | 0, _, _ => [[]]
  | fuel + 1, p, q =>
    if p = q then [[]] else (nearer p q).flatMap fun e => (shortest fuel (neighbour p e) q).map (e :: ·)

/-- R184, rule 3. How many row hops a path makes before each of its column hops, summed. -/
def rowFirst : Nat → List Nat → Nat
  | _, [] => 0
  | n, e :: es => if e < 2 then rowFirst (n + 1) es else n + rowFirst n es

/-- Place a path before the first one whose key is smaller; equal keys keep their order. -/
def insertPath (l : List Nat) : List (List Nat) → List (List Nat)
  | [] => [l]
  | m :: ms => if rowFirst 0 m < rowFirst 0 l then l :: m :: ms else m :: insertPath l ms

/-- R184. The shortest paths from p to q in the order the engine tries them. -/
def orderedPaths (p q : Nat) : List (List Nat) :=
  let first := dimPath 6 p q
  first :: (((shortest 6 p q).filter (· != first)).foldl (fun l x => insertPath x l) [])

end Sys2Proof.Machine
end

