-- ==== Sys2Proof/Machine/Admission.lean ====
section
/-!
DEFINITION. Deadline admission (R178..R194): declarations, routes and their worst case, slot reservations, commands, and
the loss of capacity.
-/
namespace Sys2Proof.Machine

/-! ### Declarations (R181, R182) -/

/-- The source kind of a declaration's words. -/
def dSrcKind (w : List Nat) : Nat := bitsOf (w.getD 0 0) 0 4
/-- The source identity. -/
def dSrcId (w : List Nat) : Nat := bitsOf (w.getD 0 0) 4 12
/-- The destination kind. -/
def dDstKind (w : List Nat) : Nat := bitsOf (w.getD 0 0) 16 4
/-- The destination identity. -/
def dDstId (w : List Nat) : Nat := bitsOf (w.getD 0 0) 20 12
/-- BYTES. -/
def dBytes (w : List Nat) : Nat := bitsOf (w.getD 1 0) 0 24
/-- DEADLINE, in 2^-16 beat. -/
def dDeadline (w : List Nat) : Nat := w.getD 2 0
/-- FAB_MHZ. -/
def dFab (w : List Nat) : Nat := bitsOf (w.getD 3 0) 0 10

/-- The identity bits a kind lays out (Table 7.2). -/
def kindBits (k : Nat) : Nat := [0, 3, 8, 5, 11, 8, 6, 5, 2].getD k 12

/-- R182. BAD_FIELD. -/
def declBadField (w : List Nat) : Bool :=
  let idBad (k id : Nat) : Bool := decide (2 ^ kindBits k ≤ id) || (k == 6 && bitOf id 5 && id % 32 != 0)
  let fabric := dSrcKind w == 4 || dDstKind w == 4
  bitsOf (w.getD 1 0) 24 8 != 0 || bitsOf (w.getD 3 0) 10 22 != 0 || w.getD 6 0 != 0 || w.getD 7 0 != 0 ||
    decide (dBytes w < 64) || idBad (dSrcKind w) (dSrcId w) || idBad (dDstKind w) (dDstId w) ||
    (fabric && !(decide (100 ≤ dFab w) && decide (dFab w ≤ 650))) || (!fabric && dFab w != 0)

/-- The tower that a source enters by: TOWER_PORT, or T0 for the global CAMP block (R182). -/
def srcTower (k id : Nat) : Option Nat :=
  if k = 1 then some (id % 8) else if k = 6 ∧ bitOf id 5 then some 0 else none

/-- The pavilion of a pavilion endpoint. -/
def kindPav (k id : Nat) : Nat := if k = 5 then id / 8 % 32 else id % 32

/-- The port of a pavilion endpoint (Table 12.1). -/
def kindPort (k id : Nat) : Nat :=
  match k with
  | 3 => 113
  | 4 => bitsOf id 5 6
  | 5 => 64 + 2 * (id % 8)
  | 6 => 117
  | _ => 114

/-- R182. An endpoint is an active, unfenced unit; a Spire left out of service is not (R411; log entry 139). -/
def State.endActive (s : State) (k id : Nat) : Bool :=
  match srcTower k id with
  | some t => s.towerServes t
  | none =>
    if k = 2 then s.towerServes (id % 8)
    else if k = 8 then s.annexActive (id % 4) && !s.isolated (annexNode (id % 4))
    else
      let p := kindPav k id
      s.pavServes p && !s.portClosed p (kindPort k id) &&
        (k != 4 || (s.flag F.CFG_FEP_STAT_ACTIVE p (bitsOf id 5 6) && s.power p == 0)) &&
        (k != 5 || !s.hb .sprDead p (id % 8)) &&
        (k != 7 || (decide (s.thermStep p < 2) && !s.chanDown p))

/-- R182. The kinds permitted on each side (Table 7.2). -/
def State.declBadEnd (s : State) (w : List Nat) : Bool :=
  ! [1, 4, 5, 6, 8].contains (dSrcKind w) || ! [2, 3, 4, 5, 7, 8].contains (dDstKind w) ||
    (dDstKind w == 2 && !(decide (bitsOf (dDstId w) 3 5 < 20) || bitsOf (dDstId w) 3 5 == 31)) ||
    !s.endActive (dSrcKind w) (dSrcId w) || !s.endActive (dDstKind w) (dDstId w)

/-! ### Costs (Table 7.3)

A cost is a number of thirds of a picosecond over FAB_MHZ (or over 1), so that router cycles and fabric cycles are
exact. DEDUCED (assumption 30): 5.093, 1.333 and 7.333 ns are 7.64, 2 and 11 router cycles. -/

/-- n router cycles: 2/3 ns each. -/
def cycCost (fab n : Nat) : Nat := 2000 * n * fab

/-- The penalty of a link's width. -/
def widthCost (fab width : Nat) : Nat := cycCost fab (if width = 1 then 1 else if width = 2 then 3 else 0)

/-- The XFL transmit term of a lane's rate, in ps. -/
def xflTxPs (rate : Nat) : Nat := [12800, 5120, 15360, 7680].getD rate 0

/-- A route: the source's first resource, its router, the hops, and the tower link it leaves by. -/
structure Route where
  first : Option Res
  enter : Nat
  path : List Nat
  exitLink : Option Nat
deriving DecidableEq, Repr

/-- The source side's cost before the first router, without the slot of alignment. -/
def State.entryCost (s : State) (w : List Nat) (r : Route) : Nat :=
  let fab := max 1 (dFab w)
  match r.first with
  | some (.tower t l) => 15280 * fab + widthCost fab (s.lrtWidth (towerNode t) l)
  | some _ => 22000 * fab
  | none => 4000 * fab + (if dSrcKind w = 4 then 18000000 else 0)

/-- The torus outputs of a path from pavilion p, each with the cost before it, and the cost and router after the last. -/
def State.hopCosts (s : State) (fab : Nat) : Nat → Nat → List Nat → List (Res × Nat) × Nat × Nat
  | c, p, [] => ([], c, p)
  | c, p, e :: es =>
    let out := c + cycCost fab 3
    let next := out + cycCost fab (if s.reach3 p e then 3 else 2) + widthCost fab (s.fld F.PRM_LINK_STAT_WIDTH p e)
    let rest := s.hopCosts fab next (neighbour p e) es
    ((.torus p e, out) :: rest.1, rest.2)

/-- R184, Table 7.3. The resources of a route with the cost before each, and its fixed cost without the slot of
alignment. -/
def State.routeCost (s : State) (w : List Nat) (r : Route) : List (Res × Nat) × Nat :=
  let fab := max 1 (dFab w)
  let c0 := s.entryCost w r
  let (hops, c, _) := s.hopCosts fab c0 r.enter r.path
  let dk := dDstKind w
  let did := dDstId w
  let head := match r.first with | some x => [(x, 0)] | none => []
  match r.exitLink with
  | some l =>
    let lane := bitsOf did 3 5
    let out := c + cycCost fab 3
    (head ++ hops ++ [(.deliver dk did, out)],
      out + 17280 * fab + widthCost fab (s.lrtWidth (towerNode (did % 8)) l) +
        (if lane = 31 then 0 else 3 * xflTxPs (s.fld F.XFL_LANE_CFG_RATE (did % 8) lane) * fab))
  | none =>
    let c := if dk = 8 then c + cycCost fab 3 else c
    (head ++ hops ++ [(.deliver dk did, c)],
      c + cycCost fab 6 + (if dk = 4 then 18000000 else 0) +
        (if dk = 7 then 3000 * s.fld F.DOME_RT_WC_NS (did % 32) * fab else 0))

/-- The entries of a source: its first resource and router, lowest tower link first. -/
def State.entries (s : State) (k id : Nat) : List (Option Res × Nat) :=
  match srcTower k id with
  | some t => (List.range 4).filterMap fun l => (s.towerLink t l).map fun p => (some (.tower t l), p)
  | none =>
    if k = 8 then match s.bridgePav (id % 4) with | some p => [(some (.annex (id % 4)), p)] | none => []
    else [(none, kindPav k id)]

/-- The last routers of a destination, with the tower link left by. -/
def State.exits (s : State) (k id : Nat) : List (Option Nat × Nat) :=
  if k = 2 then (List.range 4).filterMap fun l => (s.towerLink (id % 8) l).map fun p => (some l, p)
  else if k = 8 then match s.bridgePav (id % 4) with | some p => [(none, p)] | none => []
  else [(none, kindPav k id)]

/-- Every link and router of a path is usable. -/
def State.pathUp (s : State) : Nat → List Nat → Bool
  | p, [] => s.pavServes p
  | p, e :: es => s.pavServes p && s.torusUp p e && s.pathUp (neighbour p e) es

/-- R184. The candidate routes, in the order the engine tries equal costs. -/
def State.routes (s : State) (w : List Nat) : List Route :=
  (s.entries (dSrcKind w) (dSrcId w)).flatMap fun a =>
    (s.exits (dDstKind w) (dDstId w)).flatMap fun b =>
      ((orderedPaths a.2 b.2).filter fun l => s.pathUp a.2 l).map fun l => ⟨a.1, a.2, l, b.1⟩

/-! ### Slots (R178..R180, R185) -/

/-- S in beats. -/
def State.admS (s : State) : Nat := 2 ^ s.fld F.ADM_CFG_S_LOG2
/-- NSLOT. -/
def State.admN (s : State) : Nat := s.fld F.ADM_CFG_NSLOT
/-- The nominal beat's frequency, kHz (R179). -/
def State.nomFreq (s : State) : Nat := s.fld F.CAMP_REF_CFG_FREQ_KHZ

/-- The common denominator of costs and slots in 2^-16 beat: 3 x 10^9 x NSLOT x FAB_MHZ. -/
def State.admDen (s : State) (fab : Nat) : Nat := 3000000000 * s.admN * fab
/-- A cost over that denominator. -/
def State.costNum (s : State) (c : Nat) : Nat := c * s.nomFreq * 65536 * s.admN
/-- One slot over that denominator. -/
def State.slotNum (s : State) (fab : Nat) : Nat := s.admS * 65536 * 3000000000 * fab
/-- One router cycle over that denominator. -/
def State.cycNum (s : State) (fab : Nat) : Nat := s.costNum (cycCost fab 1)

/-- The bitmap of (phase + k GAP) mod n for k < count (R180). -/
def slotMap (n gap phase : Nat) : Nat → Nat
  | 0 => 0
  | k + 1 => slotMap n gap phase k ||| 2 ^ ((phase + k * gap) % n)

/-- A bitmap of n slots moved up by o, modulo n. -/
def rotMap (n m o : Nat) : Nat :=
  let x := m * 2 ^ (o % n)
  x % 2 ^ n ||| x / 2 ^ n

/-- R180. The bitmaps a phase needs: the source's slots, and the one or two slots the passage overlaps downstream. -/
def State.needed (s : State) (fab gap phase : Nat) (res : List (Res × Nat)) : List (Res × Nat) :=
  let n := s.admN
  let base := slotMap n gap phase (cdiv n gap)
  let at0 := (res.headD (.annex 0, 0)).2
  res.map fun r =>
    let off := s.costNum (r.2 - at0)
    let lo := off / s.slotNum fab
    let hi := cdiv (off + s.cycNum fab) (s.slotNum fab) - 1
    (r.1, if r.2 = at0 then base else rotMap n base lo ||| rotMap n base hi)

/-- The slots of a resource reserved by declarations other than `self`; a declaration that moves holds both of its
reservations (R190). -/
def State.taken (s : State) (self : Nat) (x : Res) : Nat :=
  s.decls.foldl (fun m d =>
    if d.1 = self then m
    else
      let of (p : Plan) : Nat := (p.res.filter fun r => r.1 == x).foldl (fun m r => m ||| r.2) 0
      m ||| of d.2.plan ||| (match d.2.next with | some p => of p | none => 0)) 0

/-- R185. The first phase, from `ph` upward, whose slots are all free. -/
def State.phaseFrom (s : State) (fab gap : Nat) (res : List (Res × Nat)) (held : List Nat) : Nat → Nat → Option Nat
  | 0, _ => none
  | fuel + 1, ph =>
    if ((s.needed fab gap ph res).zip held).all (fun x => (x.1.2 &&& x.2) == 0) then some ph
    else s.phaseFrom fab gap res held fuel (ph + 1)

/-- The answer of the engine: a reason of Table 7.4, and the reservation, or the least W. -/
inductive AdmAnswer where
  | ok (p : Plan)
  | no (reason w : Nat)
deriving DecidableEq, Repr

/-- The pavilions a path visits. -/
def pathPavs : Nat → List Nat → List Nat
  | p, [] => [p]
  | p, e :: es => p :: pathPavs (neighbour p e) es

/-- The tower links of a route: the source's and the destination's. -/
def Route.links (r : Route) (did : Nat) : List (Nat × Nat) :=
  (match r.first with | some (.tower t l) => [(t, l)] | _ => []) ++
    (match r.exitLink with | some l => [(did % 8, l)] | none => [])

/-- R184, R185. The first route of least cost on which the phase search finds a fit. -/
def State.fitRoute (s : State) (self fab gap w lines did : Nat) : List (Route × List (Res × Nat)) → AdmAnswer
  | [] => .no 6 0
  | x :: rest =>
    match s.phaseFrom fab gap x.2 (x.2.map fun r => s.taken self r.1) s.admN 0 with
    | some ph =>
      .ok ⟨w, gap, cdiv s.admN gap, ph, s.needed fab gap ph x.2, lines, pathPavs x.1.enter x.1.path, x.1.links did⟩
    | none => s.fitRoute self fab gap w lines did rest

/-- R185. The lines per us that a DOME destination adds. -/
def State.domeLines (s : State) (w : List Nat) : Nat :=
  if dDstKind w = 7 then cdiv (cdiv (dBytes w) 64 * s.nomFreq) (1000 * s.admS) else 0

/-- R184, R185, R188. The computation of a declaration, after BAD_FIELD, BAD_ENDPOINT and ID_IN_USE. -/
def State.admCompute (s : State) (self : Nat) (w : List Nat) : AdmAnswer :=
  let fab := max 1 (dFab w)
  let f := cdiv (dBytes w) 64
  let cs := (s.routes w).map fun r => (r, s.routeCost w r)
  if s.admN < f then .no 5 0
  else match (cs.map fun x => x.2.2).min? with
    | none => .no 0xc 0
    | some c =>
      let cn := s.costNum c + s.slotNum fab
      let dn := dDeadline w * s.admDen fab
      if dn < cn then .no 4 (cdiv cn (s.admDen fab))
      else
        let gap := min (s.admN / f) ((dn - cn) / s.slotNum fab + 1)
        let wc := cdiv (cn + (gap - 1) * s.slotNum fab) (s.admDen fab)
        match s.fitRoute self fab gap wc (s.domeLines w) (dDstId w)
            ((cs.filter fun x => x.2.2 == c).map fun x => (x.1, x.2.1)) with
        | .no r x => .no r x
        | .ok p =>
          let held := match tfind s.decls self with | some d => d.plan.lines | none => 0
          if dDstKind w = 7 ∧ 2048 + held < s.fld F.DOME_RT_CFG_RATE (dDstId w % 32) + p.lines then .no 7 0 else .ok p

/-! ### State of a declaration -/

/-- ADM_STAT's counts follow the declarations (R193). -/
def State.admCounts (s : State) : State :=
  s.setFld F.ADM_STAT_COUNT s.decls.length |>.setFld F.ADM_STAT_FAULTED
    (s.decls.filter fun d => s.fld F.ADM_D_STAT_STATE 0 d.1 == 2).length

/-- The lines per us reserved at a DOME destination change. -/
def State.domeRate (s : State) (w : List Nat) (sub add : Nat) : State :=
  if dDstKind w = 7 then
    s.setFld F.DOME_RT_CFG_RATE (s.fld F.DOME_RT_CFG_RATE (dDstId w % 32) + add - sub) (dDstId w % 32)
  else s

/-- ADM_CMD_GAP and ADM_D_GAP of a reservation. -/
def Plan.gapWord (p : Plan) : Nat := p.gap + p.nsrc * 2 ^ 16

/-- R307, R312. The running ports of a declaration are DEGRADED while it is FAULTED. -/
def State.tioFollow (s : State) (i st : Nat) : State :=
  let ports := ((tkeys s.regs).filter fun k => k.id == .TIO_GRP_CFG).eraseDups
  foldS (fun k s =>
    if s.flag F.TIO_GRP_CFG_EN k.w k.i && s.fld F.TIO_GRP_DECL_DECL k.w k.i == i then
      let was := s.flag F.TIO_GRP_STAT_DEGRADED k.w k.i
      let s := s.setFlag F.TIO_GRP_STAT_DEGRADED (st == 2) k.w k.i
      if st = 2 ∧ ¬ was then s.device (1920 + k.w) else s
    else s) ports s

/-- A declaration takes a state of ADM_D_STAT: source 1,027 when it changes (R194). -/
def State.admState (s : State) (i st : Nat) : State :=
  if s.fld F.ADM_D_STAT_STATE 0 i = st then s
  else (((s.setFld F.ADM_D_STAT_STATE st 0 i).admCounts).device 1027).tioFollow i st

/-- A reservation is written: tables, W, GAP and the dome's rate. -/
def State.admWrite (s : State) (i : Nat) (w : List Nat) (p : Plan) : State :=
  let d : Decl := ⟨w, p, none⟩
  let s := { s with decls := tput s.decls i d }
  ((s.domeRate w 0 p.lines).setRegN .ADM_D_W p.w 0 i |>.setRegN .ADM_D_GAP p.gapWord 0 i).jrnlWritten

/-- A declaration becomes FREE. -/
def State.admFree (s : State) (i : Nat) : State :=
  match tfind s.decls i with
  | none => s
  | some d =>
    let s := { s with decls := tdel s.decls i }
    ((s.domeRate d.words d.plan.lines 0).admState i 0).admCounts.jrnlWritten

/-- The first schedule-period boundary at or after a time (R178). -/
def State.admBoundary (s : State) (t : Nat) : Nat := cdiv t (s.admS * 65536) * (s.admS * 65536)

/-- A time ahead of now, in units. -/
def State.inUnits (s : State) (n : Nat) : Nat := s.time.toNat + n

/-! ### Commands (R187, R188) -/

/-- The declaration staged in ADM_DECL. -/
def State.admStaged (s : State) : List Nat := (List.range 8).map fun k => s.regN .ADM_DECL_W 0 k

/-- A command ends with a reason: BUSY clears and source 1,026 is raised (R188, R194). -/
def State.admEnd (s : State) (reason w gap : Nat) : State :=
  (s.setFld F.ADM_CMD_STAT_REASON reason |>.setFlag F.ADM_CMD_STAT_BUSY false |>.setRegN .ADM_CMD_W w
    |>.setRegN .ADM_CMD_GAP gap |>.device 1026)

/-- The reason and figures of a command that goes on to a boundary. -/
def State.admShow (s : State) (w gap : Nat) : State :=
  (s.setFld F.ADM_CMD_STAT_REASON 0 |>.setFlag F.ADM_CMD_STAT_BUSY true |>.setRegN .ADM_CMD_W w
    |>.setRegN .ADM_CMD_GAP gap)

/-- The checks of ADMIT and QUERY and the computation. -/
def State.admEval (s : State) (i : Nat) (admitting : Bool) (w : List Nat) : AdmAnswer :=
  if declBadField w then .no 1 0
  else if s.declBadEnd w then .no 2 0
  else if admitting ∧ (tfind s.decls i).isSome then .no 3 0
  else s.admCompute (if admitting then i else 4096) w

/-- A command written while BUSY is 1 is ignored and reports BUSY (R187); the figures then read 0 (R188). -/
def State.admBusy (s : State) : State :=
  s.setFld F.ADM_CMD_STAT_REASON 0xb |>.setRegN .ADM_CMD_W 0 |>.setRegN .ADM_CMD_GAP 0

/-- The figures of a declaration's reservation, as a command that ends OK reports them (R188). -/
def State.admFigures (s : State) (i : Nat) : Nat × Nat :=
  match tfind s.decls i with | some d => (d.plan.w, d.plan.gapWord) | none => (0, 0)

/-- R187. ADMIT: the tables are written, and the change takes effect at the first boundary at least 1 us later. -/
def State.admAdmit (s : State) (i : Nat) : State :=
  if s.flag F.ADM_CMD_STAT_BUSY then s.admBusy
  else if !s.flag F.ADM_CFG_EN || s.flag F.LDG_HOLD_STAT_ACTIVE then s.admEnd 8 0 0
  else match s.admEval i true s.admStaged with
    | .no r w => s.admEnd r w 0
    | .ok p =>
      ((s.admWrite i s.admStaged p).admState i 1 |>.admCounts |>.admShow p.w p.gapWord
        |>.setH .admPending (i + 1) |>.setH .admEffect (s.admBoundary (s.inUnits (s.nsUnits 1000))))

/-- R187. A write of ADM_CMD with OP ADMIT. -/
def execAdmAdmit (i : Nat) (s : State) : Host.Outcome State Fault Refusal := .next (s.admAdmit i)

/-- R187. QUERY: the figures, and nothing reserved. -/
def State.admQuery (s : State) (i : Nat) : State :=
  if s.flag F.ADM_CMD_STAT_BUSY then s.admBusy
  else if !s.flag F.ADM_CFG_EN || s.flag F.LDG_HOLD_STAT_ACTIVE then s.admEnd 8 0 0
  else match s.admEval i false s.admStaged with
    | .no r w => s.admEnd r w 0
    | .ok p => s.admEnd 0 p.w p.gapWord

/-- R187. A write of ADM_CMD with OP QUERY. -/
def execAdmQuery (i : Nat) (s : State) : Host.Outcome State Fault Refusal := .next (s.admQuery i)

/-- The stream entries whose DECL names a declaration and whose state is ARMED, RUNNING, PAUSED or DRAINING. -/
def State.admInUse (s : State) (i : Nat) : Bool :=
  s.regs.any fun e => e.1.id == .GATE_SST && [1, 2, 3, 4].contains (s.fld F.GATE_SST_STATE e.1.w e.1.i) &&
    bitsOf (s.regN .GATE_SENT_W e.1.w e.1.i 2) 0 12 == i

/-- R187. RELEASE: the slots are freed at the next schedule-period boundary. -/
def State.admRelease (s : State) (i : Nat) : State :=
  if s.flag F.ADM_CMD_STAT_BUSY then s.admBusy
  else if !s.flag F.ADM_CFG_EN || s.flag F.LDG_HOLD_STAT_ACTIVE then s.admEnd 8 0 0
  else match tfind s.decls i with
    | none => s.admEnd 0xa 0 0
    | some d =>
      if s.admInUse i then s.admEnd 9 0 0
      else
        (s.admShow d.plan.w d.plan.gapWord |>.setH .admReleasing (i + 1)
          |>.setH .admEffect (s.admBoundary (s.inUnits 1)))

/-- R187. A write of ADM_CMD with OP RELEASE. -/
def execAdmRelease (i : Nat) (s : State) : Host.Outcome State Fault Refusal := .next (s.admRelease i)

/-- The boundary recorded for a change has come. -/
def State.admDue (s : State) : Bool := atOrAfter s.time (s.hTime .admEffect)

/-- R187. The ADMIT under way takes effect: ADM_CMD_EFF records the boundary, and the command ends. -/
def State.admitEffect (s : State) : State :=
  if s.hb .admPending ∧ s.admDue then
    let x := s.admFigures (s.h .admPending - 1)
    (s.setH .admPending 0 |>.setRegN .ADM_CMD_EFF (s.h .admEffect)).admEnd 0 x.1 x.2
  else s

/-- R192. The declarations whose ADMIT a WARM reset kept and that have not taken effect. -/
def State.admKept (s : State) : List Nat :=
  (s.hid.filter fun e => e.1.id == .admKept && e.2 != 0).map fun e => e.1.i

/-- R192. The declarations kept over a WARM reset take effect at their boundary; no command ends. -/
def State.keptEffect (s : State) : State :=
  if s.admKept ≠ [] ∧ ¬ s.flag F.ADM_STAT_RESTORE ∧ atOrAfter s.time (s.hTime .admKeptAt) then
    (foldS (fun i s => s.setH .admKept 0 0 i) s.admKept s).setRegN .ADM_CMD_EFF (s.h .admKeptAt)
  else s

/-- R187, R192. A boundary comes at which an ADMIT takes effect. -/
def execAdmitEffect (s : State) : Host.Outcome State Fault Refusal := .next s.keptEffect.admitEffect

/-- R187. A released declaration's slots are freed. -/
def execReleaseEffect (s : State) : Host.Outcome State Fault Refusal :=
  if s.hb .admReleasing ∧ s.admDue then
    let x := s.admFigures (s.h .admReleasing - 1)
    .next (((s.admFree (s.h .admReleasing - 1)).setH .admReleasing 0).admEnd 0 x.1 x.2)
  else .next s

/-- ADM_SLOT: the slot length while EN is 1 (R193). -/
def State.admSlot (s : State) : State :=
  s.setRegN .ADM_SLOT (if !s.flag F.ADM_CFG_EN then 0 else min 0xffffffff (s.admS * 2 ^ 32 / s.admN))

/-- R179. A write of ADM_CFG, taken while no declaration is held. -/
def State.admCfgWrite (s : State) (v : Word) : State :=
  if s.fld F.ADM_STAT_COUNT ≠ 0 then s.setFlag F.ADM_STAT_WR_IGN true
  else
    let en := bitOf v.toNat 31
    let n := bitsOf v.toNat 8 13
    let bad := decide (n < 64) || decide (4096 < n) ||
      decide (2 ^ bitsOf v.toNat 0 5 * 3000000 < 2 * n * s.nomFreq)
    let s := s.setRegN .ADM_CFG v.toNat
    let s := if en && bad then s.setFlag F.ADM_CFG_EN false |>.setFlag F.ADM_STAT_CFG_ERR true else s
    s.admSlot

/-- R179. A write of ADM_CFG. -/
def execAdmCfgWrite (v : Word) (s : State) : Host.Outcome State Fault Refusal := wrOut .ADM_CFG v (s.admCfgWrite v)

/-! ### What gatehouses and sources ask -/

/-- The ADMIT of a declaration has taken effect (R187, R192). -/
def State.inEffect (s : State) (i : Nat) : Bool := s.h .admPending != i + 1 && !s.hb .admKept 0 i

/-- R189. A declaration counts as admitted: its ADMIT has taken effect and no RELEASE of it waits. -/
def State.admitted (s : State) (i : Nat) : Bool :=
  s.fld F.ADM_D_STAT_STATE 0 i != 0 && s.inEffect i && s.h .admReleasing != i + 1

/-- The declaration's words. -/
def State.declWords (s : State) (i : Nat) : List Nat :=
  match tfind s.decls i with | some d => d.words | none => []

/-- A declaration is admitted, not FAULTED, and joins the two endpoints (R79). -/
def State.declJoins (s : State) (i sk sid dk did : Nat) : Bool :=
  let w := s.declWords i
  s.admitted i && s.fld F.ADM_D_STAT_STATE 0 i == 1 && dSrcKind w == sk && dSrcId w == sid && dDstKind w == dk &&
    dDstId w == did

/-- R183. A declaration is admitted, or FAULTED, from a source. -/
def State.declFrom (s : State) (i sk sid : Nat) : Bool :=
  let w := s.declWords i
  s.admitted i && dSrcKind w == sk && dSrcId w == sid

/-! ### Slots in time (R178, R180, R186) -/

/-- The local input and output of a node. -/
def localPort : Nat := 16

/-- R178. Device time at the router that owns a node's slot tables: an annex's is its bridge pavilion's. -/
def State.routerTime (s : State) (n : Nat) : Time :=
  if 40 ≤ n then (match s.bridgePav (n - 40) with | some p => s.pavTime p | none => s.time) else s.nodeTime n

/-- R178. The slots that have begun at a node since time 0. -/
def State.slotNow (s : State) (n : Nat) : Nat := (s.routerTime n).toNat * s.admN / (s.admS * 65536)

/-- R180. The present slot of a node began at or after a time. -/
def State.slotAfter (s : State) (n : Nat) (t : Time) : Bool := decide (t.toNat * s.admN ≤ s.slotNow n * (s.admS * 65536))

/-- R180. The node and output that a reservation's source feeds, with its reserved slots. -/
def Plan.source (p : Plan) : Option (Nat × Nat × Nat) :=
  p.res.head?.map fun r => match r.1 with
    | .tower t l => (towerNode t, l, r.2)
    | .torus q e => (q, e, r.2)
    | .annex a => (annexNode a, 0, r.2)
    | .deliver k id => ((p.pavs.getLast?).getD 0,
        (if k = 2 then 4 + id % 8 else if k = 8 then 12 + id % 4 else localPort), r.2)

/-- R178. A slot carries one flit: the present one of an output has carried its own. -/
def State.slotUsed (s : State) (n o : Nat) : Bool := s.h .rtSlot n o == s.slotNow n + 1

/-- R178. The present slot of an output carries its flit. -/
def State.useSlot (s : State) (n o : Nat) : State := s.setH .rtSlot (s.slotNow n + 1) n o

/-- R192. A time lies before the end of the last rewriting of the slot tables: a flit formed then may have been held. -/
def State.wasHeld (s : State) (t : Time) : Bool :=
  s.h .admRestored != 0 && later (BitVec.ofNat 64 (s.h .admRestored - 1)) t

/-- R186, R192. A flit formed at `formed` and delivered at `delivered` is counted when it is later than W. -/
def State.lateFlit (s : State) (d : Nat) (formed delivered : Time) : State :=
  if later delivered (formed + BitVec.ofNat 64 (s.regN .ADM_D_W 0 d)) && !s.wasHeld formed then
    s.addFld F.ADM_D_LATE_COUNT 1 0 d
  else s

/-- R190. The source of a reservation has no slots left: the link its first resource drives has been lost. -/
def State.sourceLost (s : State) (p : Plan) : Bool :=
  match p.res.head? with
  | some (.tower t l, _) => (s.towerLink t l).isNone
  | some (.torus q e, _) => !s.torusUp q e
  | some (.annex a, _) => (s.bridgePav a).isNone
  | _ => false

/-- R180. The present slot of a declaration's source output is reserved for it, began at or after `formed`, and has carried
no flit. -/
def State.ownSlot (s : State) (d : Nat) (formed : Time) : Option (Nat × Nat) :=
  match (tfind s.decls d).bind fun c => c.plan.source with
  | some (n, o, m) =>
    if bitOf m (s.slotNow n % s.admN) && s.slotAfter n formed && !s.slotUsed n o then some (n, o) else none
  | none => none

/-- R180, R183, R186, R190, R192. A source has a flit of declaration `d`, formed at `formed`, to send; it is delivered at
`delivered` when it leaves now. A flit whose declaration is not admitted from its source is stray. A source holds its flits
while the tables are rewritten. The flit of an admitted declaration leaves in a reserved slot only; that of a FAULTED one
leaves in the request class where its source has no slots left. -/
def execRtFlitSend (d sk sid : Nat) (formed delivered : Time) (s : State) : Host.Outcome State Fault Refusal :=
  if !s.declFrom d sk sid then .next (s.addFld F.ADM_STRAY_COUNT 1)
  else if s.flag F.ADM_STAT_RESTORE then .next s
  else match s.ownSlot d formed with
    | some (n, o) => .next ((s.useSlot n o).lateFlit d formed delivered)
    | none =>
      if s.fld F.ADM_D_STAT_STATE 0 d = 2 ∧ (tfind s.decls d).any (fun c => s.sourceLost c.plan) then .next (s.lateFlit d formed delivered)
      else .next s

/-! ### Loss and return of capacity (R189..R191) -/

/-- A capacity fault is recorded: the cause, the alarm and source 1,027. -/
def State.admNote (s : State) (i code : Nat) : State :=
  ((s.setFld F.ADM_D_STAT_FAULT code 0 i).devAlarm 0x28).device 1027

/-- R190. A declaration that no longer fits is FAULTED; a move it waited for is dropped. -/
def State.admLost (s : State) (i : Nat) : State :=
  let s := match tfind s.decls i with
    | some d => { s with decls := tput s.decls i { d with next := none } }
    | none => s
  s.admState i 2

/-- R190. One affected declaration is recomputed. -/
def State.admRecompute (s : State) (i code : Nat) : State :=
  match tfind s.decls i with
  | none => s
  | some d =>
    let s := s.admNote i code
    let ans := if s.declBadEnd d.words then .no 2 0 else s.admCompute i d.words
    if s.hb .admKept 0 i then
      match ans with
      | .ok p =>
        (((s.domeRate d.words d.plan.lines 0).admWrite i d.words p)
          |>.setH .admKeptAt (s.admBoundary (s.inUnits (s.nsUnits 1000))))
      | .no _ _ => (s.admFree i).setH .admKept 0 0 i
    else if s.h .admPending = i + 1 then
      match ans with
      | .ok p =>
        (((s.domeRate d.words d.plan.lines 0).admWrite i d.words p).admShow p.w p.gapWord
          |>.setH .admEffect (s.admBoundary (s.inUnits (s.nsUnits 1000))))
      | .no r w => ((s.admFree i).setH .admPending 0).admEnd r w 0
    else
      match ans with
      | .ok p =>
        if p.w ≤ d.plan.w then
          let d' : Decl := { d with next := some p }
          { s with decls := tput s.decls i d' }
            |>.setH .admMoveAt (s.admBoundary (s.inUnits 1)) 0 i |>.admState i 1
        else s.admLost i
      | .no _ _ => s.admLost i

/-- R190. A capacity fault: the declarations it affects, lowest number first. -/
def State.capacityFault (s : State) (code : Nat) (hit : Decl → Bool) : State :=
  foldS (fun i s => s.admRecompute i code)
    ((s.decls.filter fun d => hit d.2).map Prod.fst).reverse s

/-- R190, code 0x6. A replay delayed a real-time flit: its declaration records the fault and keeps its state. -/
def State.admDelayed (s : State) (decl : Nat) : State :=
  if (tfind s.decls decl).isSome then s.admNote decl 6 else s

/-- The reservations a declaration holds: its own, and the one it moves to (R190). -/
def Decl.plans (d : Decl) : List Plan := d.plan :: d.next.toList

/-- A declaration's reservations use a resource. -/
def Decl.uses (d : Decl) (x : Res) : Bool := d.plans.any fun p => p.res.any fun r => r.1 == x

/-- A declaration's reservations use a tower link. -/
def Decl.usesLink (d : Decl) (t l : Nat) : Bool := d.plans.any fun p => p.links.contains (t, l)

/-- An endpoint lies on pavilion p. -/
def onPav (k id p : Nat) : Bool :=
  ([3, 4, 5, 7].contains k || (k == 6 && !bitOf id 5)) && kindPav k id == p

/-- A declaration has an endpoint on pavilion p or is routed through it. -/
def Decl.atPav (d : Decl) (p : Nat) : Bool :=
  onPav (dSrcKind d.words) (dSrcId d.words) p || onPav (dDstKind d.words) (dDstId d.words) p ||
    d.plans.any fun x => x.pavs.contains p

/-- A declaration has an endpoint at a port of pavilion p that a fence takes in (R327). -/
def Decl.atPorts (d : Decl) (p : Nat) (sc : Nat → Bool) : Bool :=
  let at' (w : Nat × Nat) : Bool := onPav w.1 w.2 p && sc (kindPort w.1 w.2)
  at' (dSrcKind d.words, dSrcId d.words) || at' (dDstKind d.words, dDstId d.words)

/-- A declaration has tower t as an endpoint. -/
def Decl.atTower (d : Decl) (t : Nat) : Bool :=
  srcTower (dSrcKind d.words) (dSrcId d.words) == some t || (dDstKind d.words == 2 && dDstId d.words % 8 == t)

/-- A declaration delivers to the dome of pavilion p. -/
def Decl.toDome (d : Decl) (p : Nat) : Bool := dDstKind d.words == 7 && dDstId d.words % 32 == p

/-- A declaration has annex a as an endpoint. -/
def Decl.atAnnex (d : Decl) (a : Nat) : Bool :=
  (dSrcKind d.words == 8 && dSrcId d.words % 4 == a) || (dDstKind d.words == 8 && dDstId d.words % 4 == a)

/-- R191. Every FAULTED declaration is tried again; one that fits within its recorded W is ADMITTED again. -/
def State.capacityBack (s : State) : State :=
  foldS (fun i s =>
    match tfind s.decls i with
    | none => s
    | some d =>
      match (if s.declBadEnd d.words then .no 2 0 else s.admCompute i d.words) with
      | .ok p =>
        if p.w ≤ d.plan.w then
          let d' : Decl := ⟨d.words, { p with w := d.plan.w }, none⟩
          let s := { s with decls := tput s.decls i d' }
          ((((s.domeRate d.words d.plan.lines p.lines).setRegN .ADM_D_GAP p.gapWord 0 i).devAlarm 0x29).admState i 1).jrnlWritten
        else s
      | .no _ _ => s)
    ((s.decls.filter fun d => s.fld F.ADM_D_STAT_STATE 0 d.1 == 2).map Prod.fst).reverse s

/-- R190. A recomputed declaration moves to its new reservation at the boundary. -/
def execReservationMove (i : Nat) (s : State) : Host.Outcome State Fault Refusal :=
  match tfind s.decls i with
  | some d =>
    match d.next with
    | some p =>
      if atOrAfter s.time (s.hTime .admMoveAt 0 i) then
        let d' : Decl := ⟨d.words, { p with w := d.plan.w }, none⟩
        let s := { s with decls := tput s.decls i d' }
        .next ((s.domeRate d.words d.plan.lines p.lines).setRegN .ADM_D_GAP p.gapWord 0 i).jrnlWritten
      else .next s
    | none => .next s
  | none => .next s

/-- R192. The slot tables are rewritten from the journal: RESTORE clears, and an ADMIT kept from before the reset takes
effect at the first boundary at least 1 us later. -/
def execAdmRestoreDone (s : State) : Host.Outcome State Fault Refusal :=
  if s.flag F.ADM_STAT_RESTORE then
    .next ((s.setFlag F.ADM_STAT_RESTORE false).setH .admRestored (s.time.toNat + 1)
      |>.setH .admKeptAt (s.admBoundary (s.inUnits (s.nsUnits 1000))))
  else .next s

/-- R192, R193. A WARM reset: an ADMIT whose tables were written is kept, a RELEASE under way is not, and ADM_SLOT is
computed again. -/
def State.admWarm (s : State) (pending : Nat) : State :=
  let s := if pending = 0 then s else s.setH .admKept 1 0 (pending - 1)
  (s.setFlag F.ADM_STAT_RESTORE true).admSlot

end Sys2Proof.Machine
end

