-- ==== Sys2Proof/Machine/Codec.lean ====
section
/-!
DEFINITION. CRC-32C (R65) and the five gatehouse codecs, coding and decoding (R98..R114). A block payload is a bit
string written most significant bit first (R104); a sample is a number below 65,536.
-/
namespace Sys2Proof.Machine

/-! ### CRC-32C (R65) -/

/-- One bit of the reflected CRC-32C register. -/
def crc32Bit (c : Nat) : Nat := if c % 2 = 1 then (c / 2) ^^^ 0x82F63B78 else c / 2

/-- One byte of CRC-32C. -/
def crc32Byte (c : Nat) (b : Byte) : Nat := foldS (fun _ c => crc32Bit c) (List.range 8) (c ^^^ b.toNat)

/-- R65. CRC-32C of bytes in transmission order. -/
def crc32c (bs : List Byte) : Word :=
  BitVec.ofNat 32 ((bs.foldl crc32Byte 0xFFFFFFFF) ^^^ 0xFFFFFFFF)

/-! ### Bit strings (R104) -/

/-- The m bits of v, most significant first. -/
def bitsMsb : Nat → Nat → List Bool
  | 0, _ => []
  | m + 1, v => bitOf v m :: bitsMsb m v

/-- The value of bits written most significant first. -/
def msbNat (l : List Bool) : Nat := l.foldl (fun v b => 2 * v + b2n b) 0

/-- The payload words of a bit string: bit 31 of a word first, zeros after the last field. -/
def packWords : Nat → List Bool → List Word
  | 0, _ => []
  | n + 1, l => BitVec.ofNat 32 (msbNat ((l.take 32) ++ List.replicate (32 - (l.take 32).length) false))
      :: packWords n (l.drop 32)

/-- The payload words a bit string fills. -/
def wordsFor (l : List Bool) : Nat := cdiv l.length 32

/-- The bit string of payload words. -/
def unpackWords (ws : List Word) : List Bool := ws.flatMap fun w => bitsMsb 32 w.toNat

/-- read_bits(m): the next m bits and the rest of the string. -/
def readBits (m : Nat) (l : List Bool) : Nat × List Bool :=
  (msbNat ((l.take m) ++ List.replicate (m - (l.take m).length) false), l.drop m)

/-- n fields of m bits. -/
def readFields : Nat → Nat → List Bool → List Nat
  | 0, _, _ => []
  | n + 1, m, l => (readBits m l).1 :: readFields n m (readBits m l).2

/-! ### Block coding -/

/-- The CODEC word's fields (Table 4.1). -/
structure CodecWord where
  codec : Nat
  w : Nat
  q : Nat
  b : Nat
  t : Nat
deriving DecidableEq, Repr

/-- Table 4.1. -/
def codecWord (v : Nat) : CodecWord := ⟨bitsOf v 0 3, bitsOf v 4 4, bitsOf v 8 4, bitsOf v 12 4 + 1, bitsOf v 16 16⟩

/-- R100. A CODEC word that ENABLE and a write accept. -/
def codecValid (v : Nat) : Bool :=
  let z (lo w : Nat) := bitsOf v lo w == 0
  z 3 1 && match bitsOf v 0 3 with
  | 0 => z 4 28
  | 1 => z 4 28
  | 2 => z 8 8
  | 3 => z 4 4 && !z 12 4 && z 16 16
  | 4 => z 4 28
  | _ => false

/-- A coded block: MODE, the payload bit string, PARAM and SAT. -/
structure CodedBlock where
  mode : Nat
  bits : List Bool
  param : Nat
  sat : Bool
deriving DecidableEq, Repr

/-- R106. RAW, and the verbatim and full modes. -/
def codeRaw (mode : Nat) (xs : List Nat) : CodedBlock := ⟨mode, xs.flatMap (bitsMsb 16), 0, false⟩

/-- R107. The residual of two successive samples, mapped to 0..65,535. -/
def packResidual (prev x : Nat) : Nat :=
  let d := (x + 65536 - prev) % 65536
  if d < 32768 then 2 * d else 2 * (65536 - d) - 1

/-- The mapped residuals of a block. -/
def packResiduals : List Nat → List Nat
  | [] => []
  | [_] => []
  | a :: b :: l => packResidual a b :: packResiduals (b :: l)

/-- R107. The least k in 0..15 with c << k at least a, or 15 when there is none: R107 gives no value for a block whose
residuals sum to more than that (DESIGN CHOICE, assumption 153). -/
def packK (c a : Nat) : Nat := (firstWhere 16 fun k => decide (a ≤ c * 2 ^ k)).getD 15

/-- R107 step 3. The residuals of a block under the adaptive state. -/
def packCode : List Nat → Nat → Nat → List Bool
  | [], _, _ => []
  | u :: us, a, c =>
    let k := packK c a
    let q := u / 2 ^ k
    let code := if q ≤ 15 then List.replicate q true ++ [false] ++ bitsMsb k u
      else List.replicate 16 true ++ bitsMsb 16 u
    code ++ (if c + 1 = 32 then packCode us ((a + u) / 2) 16 else packCode us (a + u) (c + 1))

/-- R107. PACK. -/
def codePack (xs : List Nat) : CodedBlock :=
  let us := packResiduals xs
  let k0 := if xs.length ≤ 1 then 0 else packK (xs.length - 1) us.sum
  let bits := bitsMsb 16 (xs.headD 0) ++ packCode us (4 * 2 ^ k0) 4
  if wordsFor bits < cdiv xs.length 2 then ⟨0, bits, k0, false⟩ else { codeRaw 1 xs with param := k0 }

/-- R110. Sample i of a block is over threshold. -/
def suppOver (xs : List Nat) (p t i : Nat) : Bool :=
  let x := xs.getD i 0
  decide (t ≤ max x p - min x p)

/-- R110. Sample i of a block is kept. -/
def suppKept (xs : List Nat) (p t w i : Nat) : Bool :=
  (List.range xs.length).any fun i' => suppOver xs p t i' && decide (max i i' - min i i' ≤ w)

/-- R110. SUPP. -/
def codeSupp (xs : List Nat) (p t w : Nat) : CodedBlock :=
  let kept := (List.range xs.length).map (suppKept xs p t w)
  let k := (kept.filter id).length
  if k = 0 then ⟨1, [], 0, false⟩
  else if cdiv xs.length 2 ≤ 2 + cdiv k 2 then codeRaw 2 xs
  else
    ⟨0, kept ++ List.replicate (64 - xs.length) false ++
      ((xs.zip kept).filter fun e => e.2).flatMap (fun e => bitsMsb 16 e.1), 0, false⟩

/-- R111. Round r / 2^q to the nearest integer, ties to even. -/
def roundEven (r : Int) (q : Nat) : Int :=
  let m := r / (2 ^ q : Nat)
  let f := r % (2 ^ q : Nat)
  if 2 * f < (2 ^ q : Nat) then m
  else if (2 ^ q : Nat) < 2 * f then m + 1
  else if m % 2 = 0 then m else m + 1

/-- R111. QNT. -/
def codeQnt (xs : List Nat) (p q b : Nat) : CodedBlock :=
  let raw := xs.map fun (x : Nat) => roundEven ((x : Int) - p) q
  let lim : Int := (2 ^ (b - 1) : Nat)
  let cs := raw.map (clampI (-lim) (lim - 1))
  ⟨0, cs.flatMap fun c => bitsMsb b (unsign b c), 0, raw != cs⟩

/-- R112. The LOG code of a sample. -/
def logCode (x : Nat) : Nat :=
  if x < 512 then x else let e := Nat.log2 x; 512 * (e - 8) + (x / 2 ^ (e - 9) - 512)

/-- R112. LOG. -/
def codeLog (xs : List Nat) : CodedBlock := ⟨0, xs.flatMap fun x => bitsMsb 12 (logCode x), 0, false⟩

/-- Code one block of a channel with the codec in force. -/
def codeBlock (word ped : Nat) (xs : List Nat) : CodedBlock :=
  let c := codecWord word
  match c.codec with
  | 1 => codePack xs
  | 2 => codeSupp xs ped c.t c.w
  | 3 => codeQnt xs ped c.q c.b
  | 4 => codeLog xs
  | _ => codeRaw 0 xs

/-- R103. The words of a block: its header (Table 4.2) and payload. -/
def blockWords (word chan : Nat) (n : Nat) (b : CodedBlock) : List Word :=
  let plen := wordsFor b.bits
  BitVec.ofNat 32 (n + plen * 2 ^ 7 + b.mode * 2 ^ 14 + chan * 2 ^ 16 + b2n b.sat * 2 ^ 21 + b.param * 2 ^ 22 +
    (codecWord word).codec * 2 ^ 26) :: packWords plen b.bits

/-- Split a list into segments of 64, in at most `fuel` of them. -/
def segments {α : Type} : Nat → List α → List (List α)
  | 0, _ => []
  | fuel + 1, l => if l.isEmpty then [] else l.take 64 :: segments fuel (l.drop 64)

/-- R102. The coded data of a fragment: the preamble and one block per channel and segment. `frames` holds the lane
frames in order, each with its samples. The Bool is CSAT (R105). -/
def codeFragment (word ped chans : Nat) (frames : List (List Nat)) : List Word × Bool :=
  let segs := segments frames.length frames
  let blocks := segs.flatMap fun seg =>
    (List.range chans).map fun j => (j, seg.length, codeBlock word ped (seg.map fun f => f.getD j 0))
  (BitVec.ofNat 32 word :: BitVec.ofNat 32 (ped % 65536) ::
    blocks.flatMap (fun e => blockWords word e.1 e.2.1 e.2.2), blocks.any fun e => e.2.2.sat)

/-! ### Decoding (R106, R107, R110..R112) -/

/-- Count one-bits up to a limit, and the string after the count and its terminating zero-bit. -/
def readOnes : Nat → List Bool → Nat × List Bool
  | 0, l => (0, l)
  | _ + 1, [] => (0, [])
  | n + 1, b :: l => if b then let r := readOnes n l; (r.1 + 1, r.2) else (0, l)

/-- The residuals of a PACK block in coded mode. -/
def unpackCode : Nat → Nat → Nat → Nat → List Bool → List Nat
  | 0, _, _, _, _ => []
  | n + 1, prev, a, c, l =>
    let k := packK c a
    let r := readOnes 16 l
    let u := if r.1 = 16 then readBits 16 r.2 else ((r.1 * 2 ^ k) + (readBits k r.2).1, (readBits k r.2).2)
    let x := if u.1 % 2 = 0 then (prev + u.1 / 2) % 65536 else (prev + 65536 - (u.1 + 1) / 2) % 65536
    x :: (if c + 1 = 32 then unpackCode n x ((a + u.1) / 2) 16 u.2 else unpackCode n x (a + u.1) (c + 1) u.2)

/-- decode_supp in mapped mode. -/
def unpackSupp (ped : Nat) : List Bool → List Bool → List Nat
  | [], _ => []
  | k :: ks, l => if k then (readBits 16 l).1 :: unpackSupp ped ks (readBits 16 l).2 else ped :: unpackSupp ped ks l

/-- Decode the payload of a block. -/
def decodeBlock (word ped n mode param : Nat) (l : List Bool) : List Int :=
  let c := codecWord word
  let nat (xs : List Nat) : List Int := xs.map Int.ofNat
  match c.codec with
  | 1 =>
    if mode = 1 then nat (readFields n 16 l)
    else
      let r := readBits 16 l
      nat (r.1 :: unpackCode (n - 1) r.1 (4 * 2 ^ param) 4 r.2)
  | 2 =>
    if mode = 2 then nat (readFields n 16 l)
    else if mode = 1 then nat (List.replicate n ped)
    else nat (unpackSupp ped (l.take n) (l.drop 64))
  | 3 => (readFields n c.b l).map fun v => (ped : Int) + signed c.b v * (2 ^ c.q : Nat)
  | 4 => nat ((readFields n 12 l).map fun v => if v < 512 then v else (512 + v % 512) * 2 ^ (v / 512 - 1))
  | _ => nat (readFields n 16 l)

end Sys2Proof.Machine
end

