-- ==== Sys2Proof/Machine/Reserve.lean ====
section
/-!
DEFINITION. The reservation entries of domes, Spire data memories and lodge SRAMs (R331). A target is a dome (its pavilion
p), the data memory of Spire k (64 + 8p + k) or the SRAM of the lodge at site x (400 + x).
-/
namespace Sys2Proof.Machine

/-- The lines of n bytes at a byte address. -/
def linesOf (a n : Nat) : List Nat := (List.range (cdiv (a % 64 + n) 64)).map fun i => a / 64 + i

/-- The reservation entries of a target. -/
def State.resvOf (s : State) (t : Nat) : List (Nat × Nat × Nat) := tget s.resv t []
/-- Replace them. -/
def State.setResv (s : State) (t : Nat) (l : List (Nat × Nat × Nat)) : State := { s with resv := tput s.resv t l }

/-- An LR sets the requester's entry, replacing an earlier one; of 16 entries in use the oldest is dropped. -/
def State.resvSet (s : State) (t line node port : Nat) : State :=
  let l := (s.resvOf t).filter fun e => !(e.2.1 == node && e.2.2 == port)
  let l := if 16 ≤ l.length then l.drop 1 else l
  s.setResv t (l ++ [(line, node, port)])

/-- A write or atomic to a line clears the entries of other requesters on it. -/
def State.resvHit (s : State) (t line node port : Nat) : State :=
  s.setResv t ((s.resvOf t).filter fun e => e.1 != line || (e.2.1 == node && e.2.2 == port))

/-- The requester holds an entry on the line. -/
def State.resvHeld (s : State) (t line node port : Nat) : Bool := (s.resvOf t).contains (line, node, port)

/-- The requester's entry is dropped: an SC by its holder, or its 8 us have passed. -/
def State.resvDrop (s : State) (t node port : Nat) : State :=
  s.setResv t ((s.resvOf t).filter fun e => !(e.2.1 == node && e.2.2 == port))

/-- R331. A reservation entry has stood for 8 us. -/
def execLineReservationExpiry (t node port : Nat) (s : State) : Host.Outcome State Fault Refusal :=
  .next (s.resvDrop t node port)

end Sys2Proof.Machine
end

