-- ==== Sys2Proof/Machine/Feed.lean ====
section
/-!
DEFINITION. The gatehouse feeds of the Spires (R214..R218): set-up, sample and primitive rings, drops. A feed is keyed by
its pavilion p, Spire k and number f (0..3: CSRs 0x040..0x04B and WAITE bits 7:4 name four).
-/
namespace Sys2Proof.Machine

/-- The size of a Spire's data memory (R195). -/
def dmemSize : Nat := 262144

/-- An ignored write of an SPR register. -/
def State.sprIgn (s : State) (p k : Nat) : State := s.setFlag F.SPR_STAT_WR_IGN true p k

/-- The local event sources of Spire k (R225). -/
def sprSrc (k n : Nat) : Nat := 256 + 8 * k + n

/-- The bytes of one frame of a feed: 16V. -/
def State.feedFrameBytes (s : State) (p k f : Nat) : Nat := 16 * s.fld F.SPR_FEED_CFG_V p k f

/-- The vectors of a frame of n channels (R214). -/
def vectorsOf (n : Nat) : Nat := cdiv n 8

/-- R217. The first set-up check that fails: 1 a region, 2 a size, 0 none. -/
def State.feedCheck (s : State) (p k f v keep : Nat) : Nat :=
  let sb := s.regN .SPR_FEED_SBASE p k f
  let sl := s.regN .SPR_FEED_SLEN p k f
  let pb := s.regN .SPR_FEED_PBASE p k f
  let pl := s.regN .SPR_FEED_PLEN p k f
  if sb % 16 ≠ 0 ∨ pb % 16 ≠ 0 ∨ dmemSize < sb + sl ∨ dmemSize < pb + pl then 1
  else if sl % (16 * v) ≠ 0 ∨ sl < 16 * v * (keep + 2) ∨ pl % 8 ≠ 0 then 2
  else 0

/-- A feed sets ERR: local event 256 + 8k + 2 (R225). -/
def State.feedErr (s : State) (p k f e : Nat) : State :=
  (s.setFld F.SPR_FEED_CFG_ERR e p k f).local p (sprSrc k 2)

/-- R217. A write of SPR_FEED_f_CFG: EN 0 to 1 checks and starts the feed; while EN is 1 only EN may change. -/
def State.feedCfgWrite (s : State) (p k f v : Nat) : State :=
  let en := bitOf v 0
  if s.flag F.SPR_FEED_CFG_EN p k f then
    let s := if bitsOf v 1 19 = bitsOf (s.regN .SPR_FEED_CFG p k f) 1 19 then s else s.sprIgn p k
    if en then s else s.setFlag F.SPR_FEED_CFG_EN false p k f
  else
    let s := s.setRegN .SPR_FEED_CFG (setBitsOf (s.regN .SPR_FEED_CFG p k f) 0 20 (v / 2 * 2)) p k f
    if !en then s
    else
      let n := vectorsOf (bitsOf (s.regN .GATE_SENT_W p (bitsOf v 4 8) 1) 8 5 + 1)
      let e := s.feedCheck p k f n (bitsOf v 12 8)
      if e ≠ 0 then s.feedErr p k f e
      else
        (s.setFlag F.SPR_FEED_CFG_EN true p k f |>.setFld F.SPR_FEED_CFG_ERR 0 p k f |>.setFld F.SPR_FEED_CFG_V n p k f
          |>.setRegN .SPR_FEED_RIDX 0 p k f |>.setRegN .SPR_FEED_WIDX 0 p k f |>.setRegN .SPR_FEED_PWIDX 0 p k f)

/-- R217. A write of SBASE, SLEN, PBASE or PLEN: ignored while EN is 1. -/
def State.feedSetupWrite (s : State) (p k f : Nat) (id : RegId) (v : Word) : State :=
  if s.flag F.SPR_FEED_CFG_EN p k f then s.sprIgn p k else s.setReg id ((v.zeroExtend 64) &&& id.row.rw) p k f

/-- R218. A write of SPR_FEED_f_RIDX: a multiple of 16V within SLEN. -/
def State.feedRidxWrite (s : State) (p k f v : Nat) : State :=
  if v % s.feedFrameBytes p k f = 0 ∧ v < s.regN .SPR_FEED_SLEN p k f then s.setRegN .SPR_FEED_RIDX v p k f
  else s.sprIgn p k

/-- R217. A write of SPR_FEED_f_CFG. -/
def execFeedEnable (p k f : Nat) (v : Word) (s : State) : Host.Outcome State Fault Refusal :=
  wrOut .SPR_FEED_CFG v (s.feedCfgWrite p k f v.toNat)

/-- R218. A write of SPR_FEED_f_RIDX. -/
def execFeedRidxWrite (p k f : Nat) (v : Word) (s : State) : Host.Outcome State Fault Refusal :=
  wrOut .SPR_FEED_RIDX v (s.feedRidxWrite p k f v.toNat)

/-- R218. FEEDACK: RIDX advances by one frame, unless it equals WIDX. -/
def State.feedAck (s : State) (p k f : Nat) : State :=
  let r := s.regN .SPR_FEED_RIDX p k f
  if r = s.regN .SPR_FEED_WIDX p k f then s
  else s.setRegN .SPR_FEED_RIDX ((r + s.feedFrameBytes p k f) % s.regN .SPR_FEED_SLEN p k f) p k f

/-- The running feeds of stream entry i of pavilion p: Spire and feed. -/
def State.feedsOf (s : State) (p i : Nat) : List (Nat × Nat) :=
  ((List.range 8).flatMap fun k => (List.range 4).map fun f => (k, f)).filter fun e =>
    s.flag F.SPR_FEED_CFG_EN p e.1 e.2 && s.fld F.SPR_FEED_CFG_ERR p e.1 e.2 == 0 &&
      s.fld F.SPR_FEED_CFG_STREAM p e.1 e.2 == i

/-- A frame is dropped or not presented (R214, R215). -/
def State.feedDrop (s : State) (p k f : Nat) : State :=
  (s.addFld F.SPR_FEED_DROP_COUNT 1 p k f).local p (sprSrc k 2)

/-- R214. A frame that the gatehouse did not present. -/
def State.feedsMiss (s : State) (p i : Nat) : State :=
  foldS (fun e s => if s.flag F.SPR_FEED_CFG_SAMP p e.1 e.2 then s.feedDrop p e.1 e.2 else s) (s.feedsOf p i) s

/-- R217. The stream has been enabled with n channels: a feed latched with another number of vectors stops. -/
def State.feedsShape (s : State) (p i n : Nat) : State :=
  foldS (fun e s => if s.fld F.SPR_FEED_CFG_V p e.1 e.2 = vectorsOf n then s else s.feedErr p e.1 e.2 3)
    (s.feedsOf p i) s

/-- R215. Writing at WIDX would overwrite an unread frame or one of the KEEP frames before RIDX; with KEEP = 0 the frame
that would make WIDX equal RIDX does. -/
def State.feedFull (s : State) (p k f : Nat) : Bool :=
  let sl := s.regN .SPR_FEED_SLEN p k f
  let d := (s.regN .SPR_FEED_RIDX p k f + sl - s.regN .SPR_FEED_WIDX p k f) % sl / s.feedFrameBytes p k f
  decide (0 < d) && decide (d ≤ max 1 (s.fld F.SPR_FEED_CFG_KEEP p k f))

/-- The gatehouse writes bytes into the data memory of Spire k, clearing reservations of others on their lines (R331). -/
def State.feedStore (s : State) (p k a : Nat) (bytes : List Byte) : State :=
  (foldS (fun l s => s.resvHit (64 + 8 * p + k) l p 113) (linesOf a bytes.length) s).stBytes (dmemBase p k + a) bytes

/-- R214, R215. One feed takes a presented frame: channel j lies in lane j mod 8 of vector j div 8. -/
def State.feedFrame (s : State) (p k f : Nat) (xs : List Nat) : State :=
  if s.feedFull p k f then s.feedDrop p k f
  else
    let w := s.regN .SPR_FEED_WIDX p k f
    let n := s.feedFrameBytes p k f
    let bytes := (List.range (n / 2)).flatMap fun j => natBytes 2 (xs.getD j 0)
    (s.feedStore p k (s.regN .SPR_FEED_SBASE p k f + w) bytes
      |>.setRegN .SPR_FEED_WIDX ((w + n) % s.regN .SPR_FEED_SLEN p k f) p k f)

/-- R214. Every feed of the stream takes a presented frame. -/
def State.feedsFrame (s : State) (p i : Nat) (xs : List Nat) : State :=
  foldS (fun e s => if s.flag F.SPR_FEED_CFG_SAMP p e.1 e.2 then s.feedFrame p e.1 e.2 xs else s) (s.feedsOf p i) s

/-- R216. Every feed of the stream takes a primitive record. -/
def State.feedsPrim (s : State) (p i w0 w1 : Nat) : State :=
  foldS (fun e s =>
      let pl := s.regN .SPR_FEED_PLEN p e.1 e.2
      let w := s.regN .SPR_FEED_PWIDX p e.1 e.2
      if s.flag F.SPR_FEED_CFG_PRIM p e.1 e.2 ∧ 0 < pl then
        (s.feedStore p e.1 (s.regN .SPR_FEED_PBASE p e.1 e.2 + w) (natBytes 8 (w0 + w1 * 2 ^ 32))
          |>.setRegN .SPR_FEED_PWIDX ((w + 8) % pl) p e.1 e.2)
      else s)
    (s.feedsOf p i) s

end Sys2Proof.Machine
end

