-- ==== Sys2Proof/Machine/Gate.lean ====
section
/-!
DEFINITION. Gatehouses (R76..R97, R100, R101): stream entries and commands, release, primitives, fragments, and the
commits of fragments.
-/
namespace Sys2Proof.Machine

/-! ### Stream entries (Table 3.5) -/

/-- Word w of entry i of pavilion p. -/
def State.ent (s : State) (p i w : Nat) : Nat := s.regN .GATE_SENT_W p i w
/-- ASSURED. -/
def State.entAssured (s : State) (p i : Nat) : Bool := bitOf (s.ent p i 0) 13
/-- ETH. -/
def State.entEth (s : State) (p i : Nat) : Bool := bitOf (s.ent p i 0) 14
/-- TOWER. -/
def State.entTower (s : State) (p i : Nat) : Nat := bitsOf (s.ent p i 0) 16 3
/-- LANE. -/
def State.entLane (s : State) (p i : Nat) : Nat := bitsOf (s.ent p i 0) 19 5
/-- CH_LO. -/
def State.entLo (s : State) (p i : Nat) : Nat := bitsOf (s.ent p i 1) 0 8
/-- CH_NM1. -/
def State.entN (s : State) (p i : Nat) : Nat := bitsOf (s.ent p i 1) 8 5
/-- TWIN. -/
def State.entTwin (s : State) (p i : Nat) : Nat := bitsOf (s.ent p i 1) 16 5
/-- DECL. -/
def State.entDecl (s : State) (p i : Nat) : Nat := bitsOf (s.ent p i 2) 0 12
/-- FRAG_SHIFT. -/
def State.entFs (s : State) (p i : Nat) : Nat := bitsOf (s.ent p i 2) 12 4
/-- RELEASE. -/
def State.entRelease (s : State) (p i : Nat) : Nat := s.ent p i 3
/-- PARTNER_ID. -/
def State.entPartner (s : State) (p i : Nat) : Nat := s.ent p i 4 + s.ent p i 5 * 2 ^ 32

/-- The stream number of an entry. -/
def streamNo (p i : Nat) : Nat := 256 * p + i

/-- The state of a stream: 0 FREE, 1 ARMED, 2 RUNNING, 3 PAUSED, 4 DRAINING, 5 IDLE (Table 3.6). -/
def State.sst (s : State) (p i : Nat) : Nat := s.fld F.GATE_SST_STATE p i

/-- A stream with nothing under way. -/
def Stream.empty : Stream :=
  ⟨[], [], [], [], [], [], [], none, none, none, [], false, false, false, false, 0, 0, false, 0, 0, 0, 0, 0⟩

/-- A stream's run state. -/
def State.stream (s : State) (p i : Nat) : Stream := tget s.streams (p, i) Stream.empty
/-- Replace a stream's run state. -/
def State.setStream (s : State) (p i : Nat) (x : Stream) : State := { s with streams := tput s.streams (p, i) x }
/-- Change a stream's run state. -/
def State.modStream (s : State) (p i : Nat) (f : Stream → Stream) : State := s.setStream p i (f (s.stream p i))

/-- The entries that are not FREE, in ascending stream number. -/
def State.streamKeys (s : State) : List (Nat × Nat) :=
  ((s.regs.filter fun e => e.1.id == .GATE_SST && s.sst e.1.w e.1.i != 0).map fun e => (e.1.w, e.1.i)).mergeSort
    fun a b => decide (streamNo a.1 a.2 ≤ streamNo b.1 b.2)

/-- A stream changes state: source 401 (R97). -/
def State.setSst (s : State) (p i st : Nat) : State :=
  if s.sst p i = st then s else (s.setFld F.GATE_SST_STATE st p i).local p 401

/-- R97. The counts that raise source 400: refused, late and CRC. -/
def gateCountNo : RegId → Nat
  | .GATE_SREFUSED => 0
  | .GATE_SLATE => 1
  | _ => 2

/-- R97. A count goes up: source 400 when it had not gone up since the source was last delivered (assumption 36). -/
def State.gateCount (s : State) (id : RegId) (p i : Nat) : State :=
  let s := s.setRegN id ((s.regN id p i + 1) % 2 ^ 32) p i
  let k := gateCountNo id
  if s.hb .gateNoted p i k then s else (s.setH .gateNoted 1 p i k).local p 400

/-- GATE_STAT.WR_IGN is set: source 400 when it was 0 (R81, R97). -/
def State.gateIgn (s : State) (p : Nat) : State :=
  if s.flag F.GATE_STAT_WR_IGN p then s else (s.setFlag F.GATE_STAT_WR_IGN true p).local p 400

/-! ### Sources (R79, R85) -/

/-- The block time of an XFL rate, ps (Table 3.2). -/
def blockPs (rate : Nat) : Nat := [6400, 2560, 1280, 640].getD rate 640
/-- The codeword time of a PAM4 rate, ps. -/
def codewordPs (rate : Nat) : Nat := [0, 0, 102400, 51200].getD rate 0
/-- L_rx of Table 3.2, ps. -/
def lrxPs (rate : Nat) : Nat := [114800, 47520, 59760, 33880].getD rate 0

/-- The channels of a lane frame (R68). -/
def State.laneChannels (s : State) (t l : Nat) : Nat := s.fld F.XFL_LANE_CFG_CH_M1 t l + 1

/-- The line rate of a tower's Ethernet block, Gb/s (R458). -/
def State.ethGbps (s : State) (t : Nat) : Nat := [100, 200, 400].getD (s.fld F.ETH_CTL_SPEED t) 400

/-- The channel count of an Ethernet source: that of the partner's last frame (R76), and 256, the most a lane frame has,
before any frame has come (DESIGN CHOICE, assumption 42). -/
def State.ethChannels (s : State) (t : Nat) : Nat := if s.h .ethSrcCh t = 0 then 256 else s.h .ethSrcCh t

/-- The channel count of an entry's source. -/
def State.srcChannels (s : State) (p i : Nat) : Nat :=
  if s.entEth p i then s.ethChannels (s.entTower p i) else s.laneChannels (s.entTower p i) (s.entLane p i)

/-- Slots per second of an entry's source, as a fraction (R79 check 0x9). -/
def State.slotRate (s : State) (p i : Nat) : Nat × Nat :=
  if s.entEth p i then (s.ethGbps (s.entTower p i) * 1000000000, 16)
  else (112 * 1000000000000, 32 * blockPs (s.fld F.XFL_LANE_CFG_RATE (s.entTower p i) (s.entLane p i)))

/-- R85. A time in ps as 2^-16 beat units at the nominal reference period, rounded up. -/
def State.psUp (s : State) (ps : Nat) : Nat := cdiv (ps * s.nomFreq * 65536) 1000000000

/-- R85. L_acc + L_rx, or the Ethernet term, ps. -/
def State.laneLat (s : State) (p i : Nat) : Nat :=
  if s.entEth p i then 1280000
  else
    let rate := s.fld F.XFL_LANE_CFG_RATE (s.entTower p i) (s.entLane p i)
    let b := cdiv (s.entLo p i + s.entN p i + 1) 4
    let n := b + 4 * (b / 28 + 1)
    lrxPs rate + (if rate < 2 then blockPs rate * n else codewordPs rate * (cdiv n 80 + 1))

/-- R85. RELEASE_MIN of an entry. -/
def State.releaseMin (s : State) (p i : Nat) : Nat :=
  s.psUp (s.laneLat p i) + s.regN .ADM_D_W 0 (s.entDecl p i) + s.psUp 8000

/-- R79 check 0x6. The bytes that arrive for an entry in one RELEASE: its channels' share of the source's payload
(DEDUCED, assumption 31). -/
def State.releaseBytes (s : State) (p i : Nat) : Nat :=
  let r := s.slotRate p i
  cdiv (2 * r.1 * (s.entN p i + 1) * s.entRelease p i) (r.2 * s.srcChannels p i * s.nomFreq * 1000 * 65536)

/-- R79 check 0x9. The lane frames of one period. -/
def State.periodFrames (s : State) (p i : Nat) : Nat :=
  let r := s.slotRate p i
  cdiv (r.1 * 2 ^ s.entFs p i) (r.2 * s.srcChannels p i * s.nomFreq * 1000)

/-- Two entries take overlapping channels of one source (R79 check 0x8). -/
def State.sameChannels (s : State) (p i q j : Nat) : Bool :=
  s.entEth p i == s.entEth q j && s.entTower p i == s.entTower q j &&
    (s.entEth p i || s.entLane p i == s.entLane q j) &&
    overlaps (s.entLo p i) (s.entN p i + 1) (s.entLo q j) (s.entN q j + 1)

/-- R79 check 0x3. Every field of an entry is as Table 3.5 requires. -/
def State.entValid (s : State) (p i : Nat) : Bool :=
  bitsOf (s.ent p i 0) 0 13 == streamNo p i && !bitOf (s.ent p i 0) 15 && bitsOf (s.ent p i 0) 24 8 == 0 &&
    (s.entEth p i || decide (s.entLane p i < 20)) && decide (s.entLo p i + s.entN p i < s.srcChannels p i) &&
    bitsOf (s.ent p i 1) 13 3 == 0 && bitsOf (s.ent p i 1) 21 11 == 0 &&
    !(s.entAssured p i && s.entTwin p i == p) && decide (s.entFs p i ≤ 12) && bitsOf (s.ent p i 2) 16 16 == 0 &&
    codecValid (s.ent p i 6)

/-- R79 check 0x7. The entry's source is enabled. -/
def State.srcEnabled (s : State) (p i : Nat) : Bool :=
  if s.entEth p i then s.flag F.ETH_CTL_EN (s.entTower p i)
  else s.fld F.XCV_LANE_CFG_USE (s.entTower p i) (s.entLane p i) == 1 &&
    s.flag F.XFL_LANE_CTL_EN (s.entTower p i) (s.entLane p i)

/-- A stream counts against sources and buffers: ARMED, RUNNING, PAUSED or DRAINING. -/
def State.sstActive (s : State) (p i : Nat) : Bool := [1, 2, 3, 4].contains (s.sst p i)

/-- R79. The first check an ENABLE fails, 0 when none does. -/
def State.enableCheck (s : State) (p i : Nat) : Nat :=
  let act := s.streamKeys.filter fun k => s.sstActive k.1 k.2 && k != (p, i)
  let bytes := ((act.filter fun k => k.1 == p).map fun k => s.releaseBytes k.1 k.2).sum + s.releaseBytes p i
  if !s.entValid p i then 3
  else if !s.srcEnabled p i then 7
  else if act.any fun k => s.sameChannels p i k.1 k.2 then 8
  else if !s.declJoins (s.entDecl p i) 1 (s.entTower p i) 3 p then 4
  else if s.entRelease p i < s.releaseMin p i then 5
  else if 1048576 < bytes then 6
  else if 65535 < s.periodFrames p i then 9
  else 0

/-! ### Fragments (R88, R101..R103) -/

/-- The largest a number of bytes the staging and release buffers hold. -/
def stagingBytes : Nat := 2097152

/-- The stored bytes of a closed fragment. -/
def Frag.bytes (f : Frag) : Nat := 32 + 4 * f.coded.length

/-- The bytes staged in a gatehouse. -/
def State.staged (s : State) (p : Nat) : Nat :=
  ((s.streams.filter fun e => e.1.1 == p).map fun e =>
    (e.2.closed.map Frag.bytes).sum + (e.2.flight.map fun c => c.frag.bytes).sum).sum

/-- GATE_STAT.BUF_FILL follows the staging buffer, up to its 2,048 KiB: what closes beyond them is refused (R90). -/
def State.showFill (s : State) (p : Nat) : State := s.setFld F.GATE_STAT_BUF_FILL (min 2048 (s.staged p / 1024)) p

/-- Close an open fragment: its frames are coded (R102). -/
def closeFrag (fs chans : Nat) (o : OpenFrag) : Frag :=
  let c := codeFragment o.codec o.ped chans o.frames
  ⟨fs, o.codec, o.ts, o.frames.length, c.1, c.2, o.gap, o.late, o.crc, o.full, o.poison⟩

/-- R88. Every open fragment of a stream closes early. -/
def State.closeAll (s : State) (p i : Nat) : State :=
  let chans := s.entN p i + 1
  (s.modStream p i fun x =>
    { x with closed := x.closed ++ x.opens.map (closeFrag (s.entFs p i) chans), opens := [] }).showFill p

/-- R78. What a stream loses when it leaves RUNNING and PAUSED: frames on their way or held for release, and its
records. -/
def State.streamStop (s : State) (p i : Nat) : State :=
  (s.closeAll p i).modStream p i fun x =>
    { x with transit := [], held := [], beats := [], nextBeat := none, lastTs := none, nextTs := none,
             missed := [], gapNext := true, gapRec := true }

/-- R78, R87. A stream that runs takes frames from the next lane frame start: a frame that is partly received is skipped.
Its primitive records begin with the beat whose record falls due next. -/
def State.streamRun (s : State) (p i : Nat) : State :=
  let l := if s.entEth p i then 64 else s.entLane p i
  let part := match tfind s.xfl (s.entTower p i, l) with | some x => !x.slots.isEmpty | none => false
  let s := s.modStream p i fun x => { x with nextBeat := some (x.nextBeat.getD (s.firstBeat p i (s.pavTime p))) }
  (s.setH .strmSkip (b2n part) p i).setSst p i 2

/-- R78. An entry's lane is UP with the right partner. -/
def State.sourceUp (s : State) (p i : Nat) : Bool :=
  let t := s.entTower p i
  let l := s.entLane p i
  if s.entEth p i then
    s.flag F.ETH_STAT_LINK_UP t && s.hb .ethSrcSeen t &&
      (s.entPartner p i == 0 || s.entPartner p i == s.h .ethSrcId t)
  else
    s.fld F.XFL_LANE_STAT_STATE t l == 4 && (s.entPartner p i == 0 || s.entPartner p i == s.regN .XFL_PARTNER_ID t l)

/-- R78, R94. ARMED streams run once their source is up and the gatehouse is enabled. -/
def State.armFollow (s : State) (p i : Nat) : State :=
  if s.sst p i = 1 ∧ s.flag F.GATE_CTL_EN p ∧ s.sourceUp p i then s.streamRun p i else s

/-- R78. RUNNING and PAUSED streams of a source that is no longer up return to ARMED. -/
def State.dropFollow (s : State) (p i : Nat) : State :=
  if (s.sst p i = 2 ∨ s.sst p i = 3) ∧ ¬ s.sourceUp p i then (s.streamStop p i).setSst p i 1 else s

/-- Streams follow a change of a source. -/
def State.sourceFollow (s : State) (t l : Nat) (eth : Bool) : State :=
  foldS (fun k s =>
      if s.entTower k.1 k.2 == t && s.entEth k.1 k.2 == eth && (eth || s.entLane k.1 k.2 == l) then
        (s.dropFollow k.1 k.2).armFollow k.1 k.2
      else s) s.streamKeys s

/-- R92, R94. GATE_STAT.STATE: RUN while enabled; after EN is cleared DRAINING while a stream drains. A stream that is
enabled while EN is 0 waits in ARMED and drains nothing. -/
def State.gateShow (s : State) (p : Nat) : State :=
  s.setFld F.GATE_STAT_STATE
    (if s.flag F.GATE_CTL_EN p then 1
     else if (s.streamKeys.any fun k => k.1 == p && s.sst k.1 k.2 == 4) then 2 else 0) p

/-- R92. A DRAINING stream whose closed fragments are issued and whose commits are decided is IDLE. -/
def State.drainFollow (s : State) (p i : Nat) : State :=
  let x := s.stream p i
  if s.sst p i = 4 ∧ x.closed.isEmpty ∧ x.flight.isEmpty then (s.setSst p i 5).gateShow p else s.gateShow p

/-! ### Refusal and the header (R89, R90, Table 3.9) -/

/-- The 32-byte header of a fragment's copy. -/
def fragHeader (stream home : Nat) (assured twin gap degraded void : Bool) (seq chnm1 chlo before : Nat) (f : Frag) :
    List Byte :=
  let w0 := 0x5f + 2 ^ 8 + bitsOf f.codec 0 3 * 2 ^ 12 + b2n assured * 2 ^ 15 + b2n twin * 2 ^ 16 + b2n gap * 2 ^ 17 +
    b2n f.late * 2 ^ 18 + b2n f.crc * 2 ^ 19 + b2n f.csat * 2 ^ 20 + b2n degraded * 2 ^ 21 + b2n void * 2 ^ 22
  let ws : List Nat := [w0, stream + home * 2 ^ 13, (loWord f.ts).toNat, (hiWord f.ts).toNat, seq,
    f.n + chnm1 * 2 ^ 16 + chlo * 2 ^ 21, 4 * f.coded.length + min 255 before * 2 ^ 24]
  let bs := ws.flatMap fun w => natBytes 4 w
  bs ++ wordBytes (crc32c bs)

/-- The header of a commit's copy in a stream. -/
def State.commitHeader (s : State) (p i : Nat) (c : Commit) (twin gap degraded void : Bool) (before : Nat) :
    List Byte :=
  fragHeader (streamNo p i) p (s.entAssured p i) twin gap degraded void c.seq (s.entN p i) (s.entLo p i) before c.frag

/-- R90. A fragment is refused: the count, the reason, and what the next accepted fragment carries. -/
def State.refuse (s : State) (p i reason : Nat) : State :=
  let s := s.setFld F.GATE_SST_LAST_REASON reason p i |>.gateCount .GATE_SREFUSED p i
  s.modStream p i fun x => { x with before := x.before + 1, gapAcc := true }

/-- Rewrite the header of a copy whose lines are written. -/
def State.rewriteHeader (s : State) (k : CommitCopy) (bytes : List Byte) : State :=
  s.domePut k.pav (s.ringLineAddr k.pav k.ring k.ofs 0) bytes false false

/-- R90. A written copy of a refused fragment is marked VOID. -/
def State.voidCopy (s : State) (p i : Nat) (c : Commit) (twin : Bool) : State :=
  let k := if twin then c.twin else c.home
  if k.st = .got 0 then s.rewriteHeader k (s.commitHeader p i c twin c.gap c.degraded true c.before) else s

/-- A copy is settled: answered and received, or not used. -/
def CommitCopy.settled (k : CommitCopy) : Bool :=
  match k.st with
  | .unused => true
  | .got _ => true
  | _ => false

/-- The reason a copy was answered with, 0 for an acknowledgement. -/
def CommitCopy.reason (k : CommitCopy) : Nat :=
  match k.st with
  | .got r => r
  | _ => 0

/-- R90. The reason of a fragment whose copies are settled: the lowest code that applies, 0 when it is accepted. A commit
that was under way when its twin was lost is judged as at its issue: it needs both copies (DESIGN CHOICE, assumption 152). -/
def commitReason (c : Commit) : Nat :=
  let h := c.home.reason
  let t := if c.degraded then 0 else c.twin.reason
  if h = 0 then (if t = 0 ∨ t = 3 ∨ t = 4 then t else 5) else if t = 0 then h else min h t

/-- R89..R91. A fragment is accepted: SSEQ advances, and its header carries GAP, REFUSED_BEFORE and DEGRADED as they now
stand. -/
def State.accept (s : State) (p i : Nat) (c : Commit) : State :=
  let x := s.stream p i
  let gap := c.frag.gap || x.gapAcc
  let degraded := s.entAssured p i && c.twin.st != .got 0
  let s :=
    if gap == c.gap && x.before == c.before && degraded == (c.degraded && c.twin.st == .unused) then s
    else
      let s := s.rewriteHeader c.home (s.commitHeader p i c false gap degraded false x.before)
      if c.twin.st = .got 0 then s.rewriteHeader c.twin (s.commitHeader p i c true gap degraded false x.before) else s
  let s := s.setRegN .GATE_SSEQ c.seq p i
  s.modStream p i fun x => { x with before := 0, gapAcc := false }

/-- R89. The commits of a stream are decided in fragment order, as long as the oldest is settled. -/
def State.settle : Nat → State → Nat → Nat → State
  | 0, s, _, _ => s
  | fuel + 1, s, p, i =>
    match (s.stream p i).flight with
    | [] => s.drainFollow p i
    | c :: cs =>
      if c.home.settled && c.twin.settled then
        let s := s.modStream p i fun x => { x with flight := cs }
        let r := commitReason c
        let s := if r = 0 then s.accept p i c
          else ((s.voidCopy p i c false).voidCopy p i c true).refuse p i r
        State.settle fuel (s.showFill p) p i
      else s

/-- R89, R90. The oldest commit's time-out, or an answer, settles it: undecided copies that may still be acknowledged are
remembered. -/
def State.decideAll (s : State) (p i : Nat) : State := s.settle ((s.stream p i).flight.length + 1) p i

/-- R91. The twin of a stream cannot take commits: fenced, isolated, in substitution, or with a failed channel. -/
def State.twinDown (s : State) (q : Nat) : Bool :=
  s.portFenced q 114 || s.portFenced q 127 || s.isolated q || s.hb .domeQuiesce q || s.chanDown q

/-- R91. A stream is DEGRADED: the alarm, and source 400. -/
def State.degrade (s : State) (p i : Nat) : State :=
  if s.flag F.GATE_SST_DEGRADED p i then s
  else ((s.setFlag F.GATE_SST_DEGRADED true p i).local p 400).alarm p 0x08

/-- R91. Every assured stream whose twin is pavilion q becomes DEGRADED, when q's dome can take no twin commits. -/
def State.twinLost (s : State) (q : Nat) : State :=
  if s.twinDown q then
    foldS (fun k s => if s.entAssured k.1 k.2 && s.entTwin k.1 k.2 == q then s.degrade k.1 k.2 else s) s.streamKeys s
  else s

/-- R89. The issue counter's next number: SEQ 0 is never given. -/
def nextSeq (n : Nat) : Nat := if n % 2 ^ 32 = 2 ^ 32 - 1 then 1 else n + 1

/-- R90. What refuses a fragment in the cycle of its issue: the stream is PAUSED, the buffer is full, or a dome it needs
holds at thermal step 3. -/
def State.issueReason (s : State) (p i : Nat) (f : Frag) (twin : Option Nat) : Nat :=
  if s.sst p i = 3 then 1
  else if f.full || decide (stagingBytes < s.staged p) then 2
  else if s.thermStep p == 3 || (match twin with | some q => s.thermStep q == 3 | none => false) then 3
  else 0

/-- R132. Domes at thermal step 3 count the commit they refuse. -/
def State.thermCount (s : State) (q : Nat) : State :=
  if s.thermStep q = 3 then s.addFld F.DOME_REFUSE_CNT_COUNT 1 q else s

/-- R89. The oldest closed fragment is issued, to the home dome and, where the stream has one, the twin dome. -/
def State.issue (s : State) (p i : Nat) : State :=
  let x := s.stream p i
  match x.closed with
  | [] => s
  | f :: fs =>
    let s := if s.entAssured p i ∧ s.twinDown (s.entTwin p i) then s.degrade p i else s
    let degraded := s.flag F.GATE_SST_DEGRADED p i
    let useTwin := s.entAssured p i && (!degraded || x.newTwin)
    let twin := if useTwin then some (s.entTwin p i) else none
    let r := s.issueReason p i f twin
    let s := s.modStream p i fun x => { x with closed := fs }
    if r ≠ 0 then
      let s := if r = 3 then (match twin with | some q => (s.thermCount p).thermCount q | none => s.thermCount p) else s
      (((s.refuse p i r).showFill p)).drainFollow p i
    else
      let seq := nextSeq x.issued
      let copy (q : Nat) (on : Bool) : CommitCopy := ⟨q, if on then .flight else .unused, 0, 0, 0, 0⟩
      let first := x.flight.isEmpty
      let c : Commit := ⟨f, seq, copy p true, copy (s.entTwin p i) useTwin, degraded, f.gap || (first && x.gapAcc),
        if first then x.before else 0,
        s.time + BitVec.ofNat 64 (s.nsUnits (100 * s.fld F.GATE_COMMIT_TMO_TMO p))⟩
      s.modStream p i fun x => { x with flight := x.flight ++ [c], issued := seq }

/-! ### Commits at the domes -/

/-- The copy of a commit. -/
def Commit.copy (c : Commit) (twin : Bool) : CommitCopy := if twin then c.twin else c.home
/-- A commit with one copy changed. -/
def Commit.withCopy (c : Commit) (twin : Bool) (k : CommitCopy) : Commit :=
  if twin then { c with twin := k } else { c with home := k }

/-- Change the first commit of a list whose copy satisfies a test. -/
def onFirst (twin : Bool) (ok : CommitCopy → Bool) (f : CommitCopy → CommitCopy) : List Commit → List Commit
  | [] => []
  | c :: cs => if ok (c.copy twin) then c.withCopy twin (f (c.copy twin)) :: cs else c :: onFirst twin ok f cs

/-- The oldest commit of a stream, in flight or already refused, whose copy satisfies a test. -/
def Stream.firstCommit (x : Stream) (twin : Bool) (ok : CommitCopy → Bool) : Option Commit :=
  (x.orphans ++ x.flight).find? fun c => ok (c.copy twin)

/-- Change that commit's copy. -/
def Stream.onCopy (x : Stream) (twin : Bool) (ok : CommitCopy → Bool) (f : CommitCopy → CommitCopy) : Stream :=
  if x.orphans.any fun c => ok (c.copy twin) then { x with orphans := onFirst twin ok f x.orphans }
  else { x with flight := onFirst twin ok f x.flight }

/-- What a copy of a commit brings to its dome. A fragment that holds poison is committed as poison in every line
(assumption 173). -/
def State.commitIn (s : State) (p i : Nat) (c : Commit) (twin : Bool) : CommitIn :=
  ⟨streamNo p i, twin, c.frag.fs, c.frag.ts,
    s.commitHeader p i c twin c.gap (c.degraded && c.twin.st == .unused) false c.before ++
      c.frag.coded.flatMap wordBytes,
    if c.frag.poison then List.range (cdiv c.frag.bytes 64) else []⟩

/-- R381. Parity errors of the staging buffer, each a line of the fragment and a word of the buffer: uncorrectable, and the
lines are committed as poison. -/
def State.stagingParity (s : State) (p : Nat) (par : List (Nat × Nat)) (c : CommitIn) : CommitIn × State :=
  ({ c with poison := c.poison ++ par.map Prod.fst }, foldS (fun e s => s.sramUncorrectable p 2093 e.2) par s)

/-- R120, R381. The oldest commit of stream i of pavilion p on its way arrives at its dome; `par` names the parity errors met as
the staging buffer was read for it. -/
def execDomeCommitArrive (p i : Nat) (twin : Bool) (par : List (Nat × Nat)) (s : State) :
    Host.Outcome State Fault Refusal :=
  let ok (k : CommitCopy) : Bool := k.st == .flight
  match (s.stream p i).firstCommit twin ok with
  | none => .next s
  | some c =>
    let y := s.stagingParity p par (s.commitIn p i c twin)
    let r := y.2.commitArrive (c.copy twin).pav y.1
    match r.1 with
    | .waiting => .next r.2
    | .refused e => .next (r.2.modStream p i fun x => x.onCopy twin ok fun k => { k with st := .answered e })
    | .writing ring ofs lines txn =>
      .next (r.2.modStream p i fun x =>
        x.onCopy twin ok fun k => ⟨k.pav, .writing, ring, ofs, lines, txn⟩)

/-- R120. The oldest commit being written whose line writes are over is acknowledged by its dome, or refused. -/
def execDomeCommitDone (p i : Nat) (twin : Bool) (s : State) : Host.Outcome State Fault Refusal :=
  let ok (k : CommitCopy) : Bool := k.st == .writing && s.txnOver k.txn
  match (s.stream p i).firstCommit twin ok with
  | none => .next s
  | some c =>
    let k := c.copy twin
    match s.commitFinish k.pav k.ring (s.commitIn p i c twin) k.ofs k.lines k.txn with
    | none => .next s
    | some (e, t) =>
      .next (t.modStream p i fun x => x.onCopy twin ok fun k => { k with st := .answered (e.getD 0) })

/-- R81. The first twin commit after W1.TWIN named a new twin is acknowledged: the stream is no longer DEGRADED, whatever
becomes of the fragment. -/
def State.twinAcked (s : State) (p i : Nat) (twin : Bool) (ok : CommitCopy → Bool) (reason : CommitCopy → Nat) : State :=
  match (s.stream p i).firstCommit true ok with
  | some c =>
    if twin && c.degraded && (s.stream p i).newTwin && reason c.twin == 0 then
      (s.setFlag F.GATE_SST_DEGRADED false p i).modStream p i fun x => { x with newTwin := false }
    else s
  | none => s

/-- R89, R90. A commit's answer reaches the gatehouse, which issues the oldest fragment that waits. A copy acknowledged
after its fragment was refused is marked VOID. -/
def State.answerRx (s : State) (p i : Nat) (twin : Bool) (ok : CommitCopy → Bool) (reason : CommitCopy → Nat) :
    State :=
  let x := s.stream p i
  let s := s.twinAcked p i twin ok reason
  match x.orphans.find? fun c => ok (c.copy twin) with
  | some c =>
    let c := c.withCopy twin { c.copy twin with st := .got (reason (c.copy twin)) }
    let s := s.voidCopy p i c twin
    s.modStream p i fun x => { x with orphans := onFirst twin ok (fun k => { k with st := .unused }) x.orphans }
  | none =>
    ((s.modStream p i fun x =>
      { x with flight := onFirst twin ok (fun k => { k with st := .got (reason k) }) x.flight }).decideAll p i).issue p i

/-- R89. A dome's acknowledgement or refusal reaches the gatehouse. -/
def execCommitAckRx (p i : Nat) (twin : Bool) (s : State) : Host.Outcome State Fault Refusal :=
  .next (s.answerRx p i twin
    (fun k => match k.st with | .answered _ => true | _ => false)
    (fun k => match k.st with | .answered e => e | _ => 0))

/-- R90, R326. The request of a copy has timed out in the network: it counts as COMMIT_TMO, wherever the copy is, and the
copy may yet be acknowledged; it is then marked VOID. -/
def State.copyTimeout (s : State) (p i : Nat) (twin : Bool) : State :=
  let ok (k : CommitCopy) : Bool := !k.settled
  match (s.stream p i).flight.find? fun c => ok (c.copy twin) with
  | none => s
  | some c =>
    let left := (c.withCopy (!twin) { c.copy (!twin) with st := .unused })
    (((s.modStream p i fun x =>
      { x with flight := onFirst twin ok (fun k => { k with st := .got 4 }) x.flight
               orphans := (x.orphans.filter fun c => !(c.home.settled && c.twin.settled)) ++ [left] }).decideAll p i)).issue p i

/-- R90. The network answers a commit with an error: TIMEOUT counts as COMMIT_TMO, any other as UNREACHABLE. -/
def execCommitErrorRx (p i : Nat) (twin : Bool) (status : Nat) (s : State) : Host.Outcome State Fault Refusal :=
  if status = 6 then .next (s.copyTimeout p i twin)
  else .next (s.answerRx p i twin (fun k => k.st == .flight) (fun _ => 8))

/-- R90. No answer within GATE_COMMIT_TMO of the oldest commit: its copies still unanswered count as timed out, and may
yet be acknowledged. -/
def State.commitTimeout (s : State) (p i : Nat) : State :=
  match (s.stream p i).flight with
  | [] => s
  | c :: cs =>
    if later c.deadline s.time then s
    else
      let out (k : CommitCopy) : CommitCopy := if k.settled then k else { k with st := .got 4 }
      let left (k : CommitCopy) : CommitCopy := if k.settled then { k with st := .unused } else k
      let orphan := if c.home.settled && c.twin.settled then [] else [{ c with home := left c.home, twin := left c.twin }]
      (s.modStream p i fun x =>
        { x with flight := { c with home := out c.home, twin := out c.twin } :: cs,
                 orphans := (x.orphans.filter fun c => !(c.home.settled && c.twin.settled)) ++ orphan }).decideAll p i

/-- R90. GATE_COMMIT_TMO runs out. -/
def execCommitTimeout (p i : Nat) (s : State) : Host.Outcome State Fault Refusal := .next (s.commitTimeout p i)

/-! ### Closing (R88) -/

/-- R88. The oldest open fragment can receive no more frames: the release time of its period's end has passed, and a
frame stamped after the period has been received. -/
def State.closable (s : State) (p i : Nat) (o : OpenFrag) : Bool :=
  let fin := BitVec.ofNat 64 ((o.pn + 1) * 2 ^ s.entFs p i * 65536)
  atOrAfter (s.pavTime p) (fin + BitVec.ofNat 64 (s.entRelease p i)) &&
    (match (s.stream p i).lastTs with | some t => atOrAfter t fin | none => false)

/-- R88, R89. The oldest open fragment closes when it can, and the oldest closed one is issued. -/
def State.fragClose (s : State) (p i : Nat) : State :=
  let x := s.stream p i
  let s := match x.opens with
    | o :: os =>
      if s.closable p i o then
        (s.modStream p i fun x =>
          { x with closed := x.closed ++ [closeFrag (s.entFs p i) (s.entN p i + 1) o], opens := os }).showFill p
      else s
    | [] => s
  s.issue p i

/-- R88. A fragment closes. -/
def execFragmentClose (p i : Nat) (s : State) : Host.Outcome State Fault Refusal := .next (s.fragClose p i)

/-! ### Commands (R78..R82, R92, R94) -/

/-- R78. A stream is freed: its counters and status return to their reset values. Commits of it that a dome has not decided
yet stay there until it has (R125). -/
def State.streamFree (s : State) (p i : Nat) : State :=
  ((s.setSst p i 0).setStream p i { Stream.empty with orphans := (s.stream p i).orphans } |>.setRegN .GATE_SSEQ 0 p i |>.setRegN .GATE_SREFUSED 0 p i
    |>.setRegN .GATE_SLATE 0 p i |>.setRegN .GATE_SCRCERR 0 p i |>.setRegN .GATE_SSAT 0 p i
    |>.setRegN .GATE_SSLACK 0xffffffff p i |>.setFlag F.GATE_SST_DEGRADED false p i
    |>.setFld F.GATE_SST_LAST_REASON 0 p i)

/-- The CODEC and pedestal words go into force (R79, R101). -/
def State.codecTake (s : State) (p i : Nat) (at_ : Time) : State :=
  s.modStream p i fun x =>
    { x with w6 := s.ent p i 6, w7 := s.ent p i 7, oldW6 := x.w6, oldW7 := x.w7, codecAt := at_ }

/-- R101. The beat edge at or before the gatehouse's replica captures the CODEC word and the pedestal word, when either
has changed and the edge lies after the write. -/
def State.codecCapture (s : State) (p i : Nat) : State :=
  let x := s.stream p i
  let edge := beats (beatOf (s.pavTime p))
  if (x.w6 = s.ent p i 6 ∧ x.w7 = s.ent p i 7) ∨ ¬ later edge (s.hTime .codecWrote p i) then s else s.codecTake p i edge

/-- R78, R79, R85. ENABLE of a FREE or IDLE stream: the checks' result and the state. -/
def State.enable (s : State) (p i : Nat) : Nat × State :=
  let e := s.enableCheck p i
  let s := if e = 0 ∨ e = 5 ∨ e = 6 ∨ e = 9 then s.setRegN .GATE_SRMIN (s.releaseMin p i) p i else s
  if e = 0 then (0, (((((s.codecTake p i 0).codecTake p i 0).setSst p i 1).feedsShape p i (s.entN p i + 1)).armFollow p i).gateShow p)
  else (e, s)

/-- R92. DISABLE: the open fragment closes, and the stream drains. -/
def State.disable (s : State) (p i : Nat) : State := ((s.streamStop p i).setSst p i 4).drainFollow p i

/-- R92. ABORT: fragments closed but not issued are refused. -/
def State.abort (s : State) (p i : Nat) : State :=
  let n := (s.stream p i).closed.length
  ((foldS (fun _ s => s.refuse p i 6) (List.range n) (s.modStream p i fun x => { x with closed := [] })).showFill p).drainFollow
    p i

/-- R78. A command applied to a stream: its ERR and the state (Table 3.6). -/
def State.strmOp (s : State) (p i op : Nat) : Nat × State :=
  let st := s.sst p i
  if op = 1 ∧ (st = 0 ∨ st = 5) then s.enable p i
  else if op = 2 ∧ (st = 1 ∨ st = 2 ∨ st = 3) then (0, s.disable p i)
  else if op = 3 ∧ st = 2 then (0, s.setSst p i 3)
  else if op = 4 ∧ st = 3 then (0, s.setSst p i 2)
  else if op = 5 ∧ st = 5 then (0, (s.streamFree p i).gateShow p)
  else if op = 6 ∧ st = 4 then (0, s.abort p i)
  else (2, s)

/-- R80. A write of GATE_STRM_CMD. -/
def State.strmCmd (s : State) (p i op : Nat) : State :=
  if s.flag F.GATE_STRM_CMD_STAT_BUSY p then s.setFld F.GATE_STRM_CMD_STAT_ERR 1 p
  else
    let r := s.strmOp p i op
    r.2.setFlag F.GATE_STRM_CMD_STAT_BUSY true p |>.setFld F.GATE_STRM_CMD_STAT_ERR r.1 p

/-- R79. A write of GATE_STRM_CMD with ENABLE. -/
def execStreamEnable (p i : Nat) (s : State) : Host.Outcome State Fault Refusal := .next (s.strmCmd p i 1)
/-- R92. A write of GATE_STRM_CMD with DISABLE. -/
def execStreamDisable (p i : Nat) (s : State) : Host.Outcome State Fault Refusal := .next (s.strmCmd p i 2)
/-- R78. A write of GATE_STRM_CMD with PAUSE. -/
def execStreamPause (p i : Nat) (s : State) : Host.Outcome State Fault Refusal := .next (s.strmCmd p i 3)
/-- R78. A write of GATE_STRM_CMD with RESUME. -/
def execStreamResume (p i : Nat) (s : State) : Host.Outcome State Fault Refusal := .next (s.strmCmd p i 4)
/-- R78. A write of GATE_STRM_CMD with UNREGISTER. -/
def execStreamUnregister (p i : Nat) (s : State) : Host.Outcome State Fault Refusal := .next (s.strmCmd p i 5)
/-- R92. A write of GATE_STRM_CMD with ABORT. -/
def execStreamAbort (p i : Nat) (s : State) : Host.Outcome State Fault Refusal := .next (s.strmCmd p i 6)

/-- R81, R100. A write of word w of an entry. -/
def State.sentWrite (s : State) (p i w : Nat) (v : Nat) : State :=
  let st := s.sst p i
  let old := s.ent p i w
  if st = 0 ∨ st = 5 then s.setRegN .GATE_SENT_W v p i w
  else if w = 1 ∧ s.flag F.GATE_SST_DEGRADED p i then
    let v' := setBitsOf old 16 5 (bitsOf v 16 5)
    let s := (s.setRegN .GATE_SENT_W v' p i 1).modStream p i fun x => { x with newTwin := true }
    if v' = v then s else s.gateIgn p
  else if st = 4 then s.gateIgn p
  else if w = 7 ∨ (w = 6 ∧ codecValid v) then
    (s.setRegN .GATE_SENT_W v p i w).setH .codecWrote (s.pavTime p).toNat p i
  else s.gateIgn p

/-- R81. A write of GATE_SENT_i_Ww. -/
def execGateSentWrite (p i w : Nat) (v : Word) (s : State) : Host.Outcome State Fault Refusal :=
  .next (s.sentWrite p i w v.toNat)

/-- R101. The next beat edge captures a changed word 6 or 7. -/
def execCodecCapture (p i : Nat) (s : State) : Host.Outcome State Fault Refusal := .next (s.codecCapture p i)

/-- R94. A write of GATE_CTL: clearing EN disables every stream that runs; setting it lets ARMED streams run. -/
def State.gateCtlWrite (s : State) (p : Nat) (v : Word) : State :=
  let s := s.setFlag F.GATE_CTL_EN (bitOf v.toNat 0) p
  let keys := s.streamKeys.filter fun k => k.1 == p
  (foldS (fun k s =>
    if bitOf v.toNat 0 then s.armFollow k.1 k.2
    else if [1, 2, 3].contains (s.sst k.1 k.2) then s.disable k.1 k.2 else s) keys s).gateShow p

/-- R94. A write of GATE_CTL. -/
def execGateCtlWrite (p : Nat) (v : Word) (s : State) : Host.Outcome State Fault Refusal :=
  wrOut .GATE_CTL v (s.gateCtlWrite p v)

/-- R96. A read of GATE_SSLACK returns the least slack and resets it. -/
def State.slackRead (s : State) (p i : Nat) : State := s.setRegN .GATE_SSLACK 0xffffffff p i

/-- R96. A read of GATE_SSLACK_i. -/
def execSslackRead (p i : Nat) (s : State) : Host.Outcome State Fault Refusal := .next (s.slackRead p i)

/-! ### Arrival and release (R83, R84, R87) -/

/-- Change a beat's record, making it when it is new. -/
def onBeat (b : Nat) (f : BeatAcc → BeatAcc) : List BeatAcc → List BeatAcc
  | [] => [f ⟨b, 0, 0, 0, 0, 0, false⟩]
  | a :: as => if a.beat = b then f a :: as else a :: onBeat b f as

/-- The bytes held for release in a gatehouse. -/
def State.heldBytes (s : State) (p : Nat) : Nat :=
  ((s.streams.filter fun e => e.1.1 == p).map fun e => (e.2.held.map fun f => 2 * f.xs.length).sum).sum

/-- R96. GATE_SSLACK keeps the least release minus arrival, signed. -/
def State.slackNote (s : State) (p i : Nat) (rel : Time) : State :=
  let d := clampI (-2147483648) 2147483647 (rel - s.pavTime p).toInt
  let old := s.regN .GATE_SSLACK p i
  if old = 0xffffffff ∨ d < signed 32 old then s.setRegN .GATE_SSLACK (unsign 32 d) p i else s

/-- R101. The CODEC and pedestal words of a fragment that opens at `now`: in the beat edge's own gatehouse cycle those
that the capture replaced. -/
def Stream.codecWords (x : Stream) (now : Time) (cycle : Nat) : Nat × Nat :=
  if later (x.codecAt + BitVec.ofNat 64 cycle) now then (x.oldW6, x.oldW7) else (x.w6, x.w7)

/-- R88, R101. A frame is coded into the open fragment of its period, which it opens, with the codec words given, when it
is the first. -/
def Stream.addFrame (x : Stream) (fs : Nat) (f : LaneFrame) (late full : Bool) (ws : Nat × Nat) : Stream :=
  let pn := f.ts.toNat / 65536 / 2 ^ fs
  if x.opens.any fun o => o.pn == pn then
    { x with opens := x.opens.map fun o =>
        if o.pn = pn then
          { o with frames := o.frames ++ [f.xs], gap := o.gap || f.gap, late := o.late || late, crc := o.crc || f.crc,
                   full := o.full || full }
        else o }
  else
    { x with gapNext := false
             opens := x.opens ++ [⟨pn, ws.1, bitsOf ws.2 0 16, f.ts, [f.xs], f.gap || x.gapNext, late, f.crc, full, false⟩] }

/-- The mean length of a source's lane frame, in device-time units. -/
def State.frameUnits (s : State) (p i : Nat) : Nat :=
  let r := s.slotRate p i
  s.srcChannels p i * r.2 * s.freq * 1000 * 65536 / r.1

/-- R87. The beats in which frames did not come, when frames are missing before one that was stamped `ts`: from the beat of
the frame expected to that of the last one before `ts` (DEDUCED, assumption 39). -/
def State.missedRun (s : State) (p i : Nat) (x : Stream) (f : LaneFrame) : List (Nat × Nat) :=
  match x.nextTs with
  | some e =>
    let last := f.ts - BitVec.ofNat 64 (s.frameUnits p i)
    if f.gap then [(beatOf e, if later last e then beatOf last else beatOf e)] else []
  | none => []

/-- R84, R88. The next lane frame of a stream reaches the gatehouse: it is coded, and held for release or late. -/
def State.frameArrive (s : State) (p i : Nat) : State :=
  let x := s.stream p i
  match x.transit with
  | [] => s
  | f :: fs =>
    let rel := f.ts + BitVec.ofNat 64 (s.entRelease p i)
    let late := later (s.pavTime p + BitVec.ofNat 64 (s.gateCycles 4)) rel
    let full := !late && decide (1048576 < s.heldBytes p + 2 * f.xs.length)
    let b := beatOf f.ts
    let shown := match x.nextBeat with | some n => beatBefore b n | none => false
    let marked := x.opens.any fun o => o.pn == b / 2 ^ s.entFs p i && o.crc
    let missed := x.missed ++ s.missedRun p i x f
    let x := { x with transit := fs }.addFrame (s.entFs p i) f late full (x.codecWords (s.pavTime p) (s.gateCycles 1))
    let x := { x with
      lastTs := some f.ts
      nextTs := some f.nxt
      missed := missed
      held := if late || full then x.held else x.held ++ [f]
      lateRec := x.lateRec || (late && shown)
      beats := if shown then x.beats else onBeat b (fun a => { a with formed := a.formed + 1, late := a.late || late }) x.beats }
    let s := (s.setStream p i x).slackNote p i rel
    let s := if late then (s.gateCount .GATE_SLATE p i).feedsMiss p i else s
    if f.crc && !marked then s.gateCount .GATE_SCRCERR p i else s

/-- R84. A lane frame reaches the gatehouse. -/
def execLaneFrameArrival (p i : Nat) (s : State) : Host.Outcome State Fault Refusal := .next (s.frameArrive p i)

/-- R87. The SUM, HIT and sample count of a frame's samples under word 7. -/
def primOf (w7 : Nat) (xs : List Nat) : Nat × Nat × Nat :=
  let ped := bitsOf w7 0 16
  let thr := bitsOf w7 16 16
  let hits := (xs.zipIdx.map fun x => if thr ≤ absDiff x.1 ped then 2 ^ x.2 else 0).foldl (· ||| ·) 0
  ((xs.map fun x => x - ped).sum, hits, xs.length)

/-- R83, R87. The oldest held frame whose release time has come: the frame, and the state once its samples count in
their beat's primitives. -/
def State.releasePop (s : State) (p i : Nat) : Option (LaneFrame × State) :=
  let x := s.stream p i
  match x.held with
  | [] => none
  | f :: fs =>
    if atOrAfter (s.pavTime p) (f.ts + BitVec.ofNat 64 (s.entRelease p i)) then
      let r := primOf x.w7 f.xs
      let shown := match x.nextBeat with | some n => beatBefore (beatOf f.ts) n | none => false
      some (f, s.setStream p i { x with
        held := fs
        beats := if shown then x.beats
          else onBeat (beatOf f.ts) (fun a =>
            { a with sum := a.sum + r.1, hit := a.hit ||| r.2.1, nsamp := a.nsamp + r.2.2, shown := a.shown + 1 }) x.beats })
    else none

/-- R381. The coded copies of a frame that has not reached a dome become poison: in the fragment of its period. -/
def Stream.poisonAt (x : Stream) (fs : Nat) (ts : Time) : Stream :=
  let pn := beatOf ts / 2 ^ fs
  let ours (f : Frag) : Bool := beatOf f.ts / 2 ^ f.fs == pn
  { x with
    opens := x.opens.map fun o => if o.pn = pn then { o with poison := true } else o
    closed := x.closed.map fun f => if ours f then { f with poison := true } else f
    flight := x.flight.map fun c => if ours c.frag then { c with frag := { c.frag with poison := true } } else c }

/-- R381. A parity error of the release buffer, at word `row`, in the frame that is due: it is not presented, so that its
beat's record carries VALID 0, and its coded copy is committed as poison. -/
def State.releaseParity (s : State) (p i row : Nat) : State :=
  match (s.releasePop p i) with
  | none => s
  | some (f, _) =>
    (s.modStream p i fun x => ({ x with held := x.held.drop 1 }).poisonAt (s.entFs p i) f.ts).sramUncorrectable p 2092 row

/-- R87. Every lane frame expected in beat b has come: the one expected next lies after the beat, and none of the beat is
missing. -/
def Stream.beatWhole (x : Stream) (b : Nat) : Bool :=
  (match x.nextTs with | some t => atOrAfter t (Machine.beats (b + 1)) | none => false) &&
    !x.missed.any fun r => !beatBefore b r.1 && !beatBefore r.2 b

/-- R84, R87, Table 3.8. The next primitive record of a RUNNING or PAUSED stream, when it is due: its two words, its beat,
and the state after it. A sum of exactly 262,143 is shown with SAT 0: no sample was lost (DESIGN CHOICE, assumption 151). -/
def State.primPop (s : State) (p i : Nat) : Option (Nat × Nat × Nat × State) :=
  let x := s.stream p i
  match x.nextBeat with
  | none => none
  | some b =>
    let due := BitVec.ofNat 64 ((b + 1) * 65536 + s.entRelease p i + s.gateCycles 4)
    if (s.sst p i = 2 ∨ s.sst p i = 3) ∧ atOrAfter (s.pavTime p) due then
      let a := (x.beats.find? fun a => a.beat == b).getD ⟨b, 0, 0, 0, 0, 0, false⟩
      let sat := decide (262143 < a.sum)
      let valid := x.beatWhole b && a.formed == a.shown && !a.late
      let w0 := min 262143 a.sum + b2n sat * 2 ^ 18 + b2n valid * 2 ^ 19 + b2n (a.late || x.lateRec) * 2 ^ 20 +
        b2n x.gapRec * 2 ^ 21 + min 255 a.nsamp * 2 ^ 24
      let s := s.setStream p i { x with
        beats := x.beats.filter (fun a => a.beat != b)
        nextBeat := some ((b + 1) % 2 ^ 48)
        missed := x.missed.filter fun r => beatBefore b r.2
        lateRec := false
        gapRec := false }
      some (w0, a.hit, b, if sat then s.addFld F.GATE_SSAT_COUNT 1 p i else s)
    else none

end Sys2Proof.Machine
end

