-- ==== Sys2Proof/Machine/Plots.lean ====
section
/-!
DEFINITION. The user's logic of a plot as it is held, and its hedges (R280..R282, R298, R364, R374, R375).
-/
namespace Sys2Proof.Machine

/-! ### Beds, plots and wires (R280, R282, R295) -/

/-- R280. The plot that bed (x, y) lies in. -/
def plotOf (x y : Nat) : Nat := 2 * (if 80 ≤ y then 1 else 0) + (if 128 ≤ x then 1 else 0)

/-- R282. The bed at which a wire ends. -/
def Wire.last (w : Wire) : Nat × Nat :=
  let move (a : Nat) : Nat := if w.back then a - w.span else a + w.span
  if w.vertical then (w.x, move w.y) else (move w.x, w.y)

/-- R280, R282. A wire that the grid has: its span is 1, 2, 4 or 16, and both its ends are beds of the pavilion. -/
def Wire.exists_ (w : Wire) : Bool :=
  [1, 2, 4, 16].contains w.span && decide (w.x < 256) && decide (w.y < 160) &&
    (!w.back || decide (w.span ≤ (if w.vertical then w.y else w.x))) && decide (w.last.1 < 256) && decide (w.last.2 < 160)

/-- The plot that drives a wire: the one it starts in. -/
def Wire.plot (w : Wire) : Nat := plotOf w.x w.y

/-- R282. A wire crosses a plot border. -/
def Wire.crosses (w : Wire) : Bool := w.plot != plotOf w.last.1 w.last.2

/-- R281. A cell exists. -/
def CellAt.exists_ (c : CellAt) : Bool := decide (c.x < 256) && decide (c.y < 160) && decide (c.k < 16)

/-- The plot of a cell. -/
def CellAt.plot (c : CellAt) : Nat := plotOf c.x c.y

/-- R281. The cell whose carry enters this one: the cell before it in its bed, or cell 15 of the bed directly below; none for
the lowest bed of a column. Rows are numbered from the N edge (DEDUCED, assumption 169), so the bed below has the next row. -/
def CellAt.carryFrom (c : CellAt) : Option CellAt :=
  if 0 < c.k then some ⟨c.x, c.y, c.k - 1⟩ else if c.y + 1 < 160 then some ⟨c.x, c.y + 1, 15⟩ else none

/-- R295. The plot that group g of edge e belongs to: on W and E groups 0..31 are the upper plot's, on N and S the left plot's
(upper is towards N and left towards W, assumption 169). -/
def groupPlot (e g : Nat) : Nat :=
  let half := if 32 ≤ g then 1 else 0
  match e with
  | 0 => 2 * half
  | 1 => 2 * half + 1
  | 2 => half
  | _ => 2 + half

/-- R374. The hedge bit of signal i of group g on edge e, in the plot the group belongs to. -/
def crossHedge (e g i : Nat) : Nat := 8192 + 96 * (g % 32 + (if 2 ≤ e then 32 else 0)) + i

/-! ### The logic of a plot -/

/-- The user's logic of a plot. -/
def State.plotLogic (s : State) (p q : Nat) : PlotLogic := tget s.plots (p, q) default

/-- Replace it. -/
def State.setPlotLogic (s : State) (p q : Nat) (l : PlotLogic) : State := { s with plots := tput s.plots (p, q) l }

/-- R360. The 3,072 logic frames of a plot, which set its cells, routing and hard columns. -/
def State.logicFrames (s : State) (p q : Nat) : List Byte := s.ldBytes (cellBase p q) (4096 * 3072)

/-- R281. The output of a flip-flop: its initial value where nothing has changed it. A BLANK plot's cells drive 0 (R364). -/
def State.ffLevel (s : State) (p q : Nat) (c : CellAt) : Bool :=
  s.fld F.CFG_PLOT_STAT_STATE p q != 4 &&
    tget (s.plotLogic p q).ffs c (Config.cellCfg (s.logicFrames p q) c).init

/-- R10, R281, R366. Every flip-flop of a plot takes its configured initial value. -/
def State.ffsInit (s : State) (p q : Nat) : State :=
  match tfind s.plots (p, q) with
  | some l => s.setPlotLogic p q { l with ffs := [] }
  | none => s

/-! ### Hedges (R374, R375, R376) -/

/-- R375, R376. The hedges of a plot are engaged: it is HEDGED, STARTING or BLANK. -/
def hedgesOn (st : Nat) : Bool := st == 2 || st == 3 || st == 4

/-- The hedges of plot p.q are engaged. -/
def State.hedged (s : State) (p q : Nat) : Bool := hedgesOn (s.fld F.CFG_PLOT_STAT_STATE p q)

/-- R374. The policy of a hedge bit: 1 forces 0, 2 forces 1, else hold; FEVT lines and reset-net drives always hold. -/
def State.hedgePolicy (s : State) (p q b : Nat) : Nat :=
  if 14336 ≤ b then 0 else bitsOf (s.regN .CFG_PLOT_HPOL p q (b / 16)) (2 * (b % 16)) 2

/-- R374, R375, R298. An output of a plot as everything outside it sees it: its policy's level while the hedges are engaged. -/
def State.hedgeOut (s : State) (p q b : Nat) : Bool :=
  let l := s.plotLogic p q
  if !s.hedged p q then tget l.outs b false
  else
    match s.hedgePolicy p q b with
    | 1 => false
    | 2 => true
    | _ => tget l.held b false

/-- R374, R376, R364. The logic of a plot as it enters a state of Table 14.8: as the hedges engage they take the values then
present, PLOT reset returns flip-flops to their initial values, and a zeroed plot drives 0. -/
def State.plotEnter (s : State) (p q st : Nat) : State :=
  let l := s.plotLogic p q
  let held := if hedgesOn st && !s.hedged p q then l.outs else l.held
  if st = 4 then
    (if l.outs.isEmpty ∧ held.isEmpty then { s with plots := tdel s.plots (p, q) }
      else s.setPlotLogic p q { (default : PlotLogic) with held := held })
  else if st = 2 then s.setPlotLogic p q { l with held := held, ffs := [] }
  else s

end Sys2Proof.Machine
end

