-- ==== Sys2Proof/Machine/Fabric.lean ====
section
/-!
DEFINITION. Fabric: block RAM, slices, PLLs, clock and reset nets, crossings, stream ports, endpoints and tower I/O ports
(R283..R312).
-/
namespace Sys2Proof.Machine

/-! ### Block RAM and multiply-add slices (R283..R287)

The operations of a design's hard blocks; the design itself is in Cells.lean. -/

/-- R283. The nine-bit byte that a CHECK port stores: even parity over the eight data bits. -/
def bramCheckByte (d : Nat) : Nat := d % 256 + (if popcount 8 d % 2 = 1 then 256 else 0)

/-- R284. A byte's parity fails. -/
def bramPerr (v : Nat) : Bool := popcount 9 v % 2 == 1

/-- R285. What one byte stores when ports A and B write it in the same cycle of one clock; none is no write enable. -/
def bramWrite (old : Nat) (a b : Option Nat) : Nat := (a.or b).getD old

/-- R285. What a read returns beside a write of the same cycle: the new data on the writing port, the old on the other. -/
def bramReadBeside (old new : Nat) (samePort : Bool) : Nat := if samePort then new else old

/-- R287. An operand of a slice, read as signed or unsigned. -/
def sliceOperand (w : Nat) (sgn : Bool) (v : Nat) : Int := if sgn then signed w v else (v % 2 ^ w : Nat)

/-- R287. A result held to 48 bits by wrapping or by saturation, and the overflow output. -/
def sliceHold (r : Int) (sat : Bool) : Int × Bool :=
  if sat then
    let c := clampI (-(2 ^ 47)) (2 ^ 47 - 1) r
    (c, c != r)
  else (signed 48 (unsign 48 r), false)

/-- R287. The result of a slice: the product added to, or subtracted from, the addend. -/
def slice (a b : Nat) (sgnA sgnB sub sat : Bool) (addend : Int) : Int × Bool :=
  let p := sliceOperand 27 sgnA a * sliceOperand 18 sgnB b
  sliceHold (if sub then addend - p else addend + p) sat

/-! ### PLLs and global clocks (R288..R292) -/

/-- R24. The fabric limit of the part's speed grade, kHz. -/
def State.fabLimit (s : State) : Nat := [500000, 575000, 650000].getD (s.h .speedGrade) 500000

/-- R288. The settings of a PLL keep every range. -/
def State.pllOk (s : State) (p k : Nat) : Bool :=
  let m := s.fld F.CFG_PLL_CFG_M p k
  let n := s.fld F.CFG_PLL_CFG_NM1 p k + 1
  let f := s.freq
  decide (8 ≤ m) && decide (2000000 * n ≤ f * m) && decide (f * m ≤ 5200000 * n) &&
    (List.range 4).all fun j =>
      let d := bitsOf (s.regN .CFG_PLL_DIV p k) (8 * j) 8
      decide (2 ≤ d) && decide (d ≤ 128) && decide (10000 * (n * d) ≤ f * m) && decide (f * m ≤ s.fabLimit * (n * d))

/-- R291. With GATE_EN = 1 a plot's signal gates the net: it is stopped low. -/
def State.netGated (s : State) (p n : Nat) : Bool :=
  s.flag F.CFG_GCLK_GATE_EN p n && (List.range 4).any fun q => s.hedgeOut p q (14472 + n)

/-- R291. The frequency of a global net over the reference, as a fraction, while a locked PLL drives it. -/
def State.netRatio (s : State) (p n : Nat) : Option (Nat × Nat) :=
  let src := s.h .gclkSrc p n
  let k := src / 4
  if 16 ≤ src ∨ ¬ s.flag F.CFG_PLL_STAT_LOCK p k ∨ s.netGated p n then none
  else
    let c := s.h .pllCfg p k
    some (bitsOf c 0 10, (bitsOf c 10 4 + 1) * bitsOf (s.h .pllDiv p k) (8 * (src % 4)) 8)

/-- R290. A ratio whose phase repeats every 16 beats. -/
def ratioWhole (r : Nat × Nat) : Bool := r.2 != 0 && 16 * r.1 % r.2 == 0

/-- R290, R292. A net's source is an ALIGNED PLL output. -/
def State.netAligned (s : State) (p n : Nat) : Bool :=
  match s.netRatio p n with
  | some r => s.flag F.CFG_PLL_STAT_ALIGNED p (s.h .gclkSrc p n / 4) && ratioWhole r
  | none => false

/-! ### Crossings and endpoints (R295..R298, R300, R301) -/

/-- R312. A crossing group sets FAULT. -/
def State.crossFault (s : State) (p e g : Nat) : State :=
  if s.flag F.CFG_XSTAT_FAULT p e g then s else (s.setFlag F.CFG_XSTAT_FAULT true p e g).local p 441

/-- R296, R297. The crossing of a group at its receiving end. -/
def State.crossing (s : State) (p e g : Nat) : Crossing := tget s.cross (p, e, g) ⟨0, [], 0⟩

/-- R297. A group runs; its status output XOK. -/
def State.crossRuns (s : State) (p e g : Nat) : Bool := s.fld F.CFG_XSTAT_LAT p e g != 0

/-- R297. What the receiving side of a group delivers: its register, or 0 when the group does not run and FPOL = 1. -/
def State.crossIn (s : State) (p e g : Nat) : Nat :=
  if !s.crossRuns p e g && s.flag F.CFG_XIN_FPOL p e g then 0 else (s.crossing p e g).reg

/-- R298, R374, R375. What a pavilion sends on group g of its edge e, behind the hedges of the plot the group belongs to. -/
def State.crossOut (s : State) (p e g : Nat) : Nat :=
  (List.range 96).foldr (fun i v => 2 * v + b2n (s.hedgeOut p (groupPlot e g) (crossHedge e g i))) 0

/-- R296. Values that are crossing are lost. -/
def State.crossLost (s : State) (p e g : Nat) : State :=
  let c := s.crossing p e g
  if c.pipe.isEmpty then s else { s with cross := tput s.cross (p, e, g) { c with pipe := [] } }

/-- R296, Table 11.1. One edge of both clocks: a value is registered at the sending end, and the value registered LAT edges ago
leaves the receiving register. -/
def Crossing.edgeOf (c : Crossing) (lat v : Nat) : Crossing :=
  let pipe := v :: c.pipe
  { c with reg := pipe.getD lat c.reg, pipe := pipe.take 6 }

/-- R296. An unpinned group starts with a latency of 4, 5 or 6 cycles: which, the phase of its clocks decides. -/
def State.crossLat (s : State) (p e g : Nat) : State :=
  let r := s.takeFree
  r.2.setFld F.CFG_XSTAT_LAT (4 + r.1.toNat % 3) p e g

/-- R295..R297. A receiving group follows its enables, clocks, link and alignment; a pinned one that loses alignment sets
FAULT. -/
def State.crossEval (s : State) (p e g : Nat) : State :=
  let q := neighbour p e
  let o := opposite e
  let a := s.fld F.CFG_XIN_CLK p e g
  let b := s.fld F.CFG_XOUT_CLK q o g
  let on := s.flag F.CFG_XIN_EN p e g && s.flag F.CFG_XOUT_EN q o g
  let clocks : Option Bool := match s.netRatio p a, s.netRatio q b with
    | some x, some y => some (x.1 * y.2 == y.1 * x.2)
    | _, _ => none
  let s := s.setFlag F.CFG_XSTAT_NO_PEER (on && clocks == some false) p e g
  let run := on && clocks == some true && s.flag F.PRM_LINK_STAT_UP p e
  let pin := s.flag F.CFG_XIN_PIN p e g && s.netAligned p a && s.netAligned q b
  let was := s.flag F.CFG_XSTAT_PINNED p e g
  let started := s.fld F.CFG_XSTAT_LAT p e g != 0
  let lost := was && on && s.flag F.CFG_XIN_PIN p e g && !pin
  let s := if was && !(run && pin) then s.setFlag F.CFG_XSTAT_PINNED false p e g else s
  let s := if lost then s.crossFault p e g else s
  if !run then (s.setFld F.CFG_XSTAT_LAT 0 p e g).crossLost p e g
  else if pin && !started then s.setFld F.CFG_XSTAT_LAT 6 p e g |>.setFlag F.CFG_XSTAT_PINNED true p e g
  else if !pin && (!started || was) then (s.crossLat p e g).crossLost p e g
  else s

/-- The groups that a pavilion's registers name as receiving. -/
def State.crossKeys (s : State) : List RegKey := ((tkeys s.regs).filter fun k => k.id == .CFG_XIN).eraseDups

/-- The edge of a net of this ratio at or after a time: its number from beat 0. -/
def edgeAt (r : Nat × Nat) (t : Time) : Nat := cdiv (t.toNat * r.1) (65536 * r.2)

/-- R296, R298. Every running group takes the edges of its net that have come: each moves its values on by one; a group that
has just started takes its first. After seven edges nothing older than what is sent now is left, so no more are counted. -/
def State.crossingsMove (s : State) : State :=
  foldS (fun k s =>
    match s.netRatio k.w (s.fld F.CFG_XIN_CLK k.w k.i k.j) with
    | some r =>
      let lat := s.fld F.CFG_XSTAT_LAT k.w k.i k.j
      let n := edgeAt r s.time
      let c := s.crossing k.w k.i k.j
      if lat = 0 ∨ n = c.edge then s
      else
        let v := s.crossOut (neighbour k.w k.i) (opposite k.i) k.j
        let c := foldS (fun _ (c : Crossing) => c.edgeOf lat v) 
          (List.range (if c.pipe.isEmpty then 1 else min 7 (n - c.edge))) c
        { s with cross := tput s.cross (k.w, k.i, k.j) { c with edge := n } }
    | none => s) s.crossKeys s

/-- R300, R301. An endpoint's status follows its clock. -/
def State.fepEval (s : State) (p e : Nat) : State :=
  let on := s.flag F.CFG_FEP_EN p e && s.netAligned p (s.fld F.CFG_FEP_CLK p e)
  s.setFlag F.CFG_FEP_STAT_PINNED on p e |>.setFlag F.CFG_FEP_STAT_ACTIVE on p e

/-- R289, R296, R301. Everything that a pavilion's clocks drive follows them: its groups, those it sends to, and its
endpoints. -/
def State.clocksMoved (s : State) (p : Nat) : State :=
  let s := foldS (fun k s => if k.w = p ∨ neighbour k.w k.i = p then s.crossEval k.w k.i k.j else s) s.crossKeys s
  foldS (fun k s => s.fepEval p k.i) (((tkeys s.regs).filter fun k => k.id == .CFG_FEP && k.w == p).eraseDups) s

/-- R297. The link of an edge goes down: every group of the edge faults. -/
def State.edgeFault (s : State) (p e : Nat) : State :=
  foldS (fun g s =>
    ((s.crossFault p e g).setFlag F.CFG_XSTAT_PINNED false p e g |>.setFld F.CFG_XSTAT_LAT 0 p e g).crossLost p e g)
    (List.range 64) s

/-- R295. The link of an edge is up: its groups may run. -/
def State.edgeBack (s : State) (p e : Nat) : State :=
  foldS (fun k s => if k.w = p ∧ k.i = e then s.crossEval p e k.j else s) s.crossKeys s

/-- R289, R312. APPLY: settings out of range are refused; else the outputs stop and the PLL relocks. -/
def State.pllApply (s : State) (p k : Nat) : State :=
  if s.flag F.CFG_PLL_STAT_RELOCKING p k then s
  else if !s.pllOk p k then
    let was := s.flag F.CFG_PLL_STAT_CFG_ERR p k
    let s := s.setFlag F.CFG_PLL_STAT_CFG_ERR true p k
    if was then s else s.local p 440
  else
    (s.setH .pllCfg (s.regN .CFG_PLL_CFG p k) p k |>.setH .pllDiv (s.regN .CFG_PLL_DIV p k) p k
      |>.setFlag F.CFG_PLL_STAT_RELOCKING true p k |>.setFlag F.CFG_PLL_STAT_LOCK false p k
      |>.setFlag F.CFG_PLL_STAT_ALIGNED false p k).clocksMoved p

/-- R289. A write of CFG_PLL_k_CTL.APPLY. -/
def execPllApply (p k : Nat) (s : State) : Host.Outcome State Fault Refusal := .next (s.pllApply p k)

/-- R289. The PLL has settings and no lock: it relocks after an APPLY, a loss of lock or a WARM reset. -/
def State.pllSeeks (s : State) (p k : Nat) : Bool :=
  s.flag F.CFG_PLL_STAT_RELOCKING p k || (!s.flag F.CFG_PLL_STAT_LOCK p k && s.h .pllCfg p k != 0)

/-- R289. The PLL has relocked; its outputs restart. -/
def execPllRelockDone (p k : Nat) (s : State) : Host.Outcome State Fault Refusal :=
  if s.pllSeeks p k then
    .next ((s.setFlag F.CFG_PLL_STAT_RELOCKING false p k |>.setFlag F.CFG_PLL_STAT_LOCK true p k).clocksMoved p)
  else .next s

/-- R290. Edges are placed: a PLL with an output whose phase repeats every 16 beats reads ALIGNED. -/
def execPllAlignDone (p k : Nat) (s : State) : Host.Outcome State Fault Refusal :=
  let c := s.h .pllCfg p k
  let whole := (List.range 4).any fun j =>
    ratioWhole (bitsOf c 0 10, (bitsOf c 10 4 + 1) * bitsOf (s.h .pllDiv p k) (8 * j) 8)
  if s.flag F.CFG_PLL_STAT_LOCK p k && whole then
    .next ((s.setFlag F.CFG_PLL_STAT_ALIGNED true p k).clocksMoved p)
  else .next s

/-- R310, R312, R296. A fabric PLL loses lock. -/
def execFabricPllLockLoss (p k : Nat) (s : State) : Host.Outcome State Fault Refusal :=
  let was := s.flag F.CFG_PLL_STAT_LOSS p k
  let s := s.setFlag F.CFG_PLL_STAT_LOSS true p k
  let s := if was then s else s.local p 440
  .next ((s.setFlag F.CFG_PLL_STAT_LOCK false p k |>.setFlag F.CFG_PLL_STAT_ALIGNED false p k).clocksMoved p)

/-- R291. A net takes the source its register names. -/
def execGclkSourceSwitch (p n : Nat) (s : State) : Host.Outcome State Fault Refusal :=
  .next ((s.setH .gclkSrc (s.fld F.CFG_GCLK_SRC p n) p n).clocksMoved p)

/-- R296. A group whose alignment is back is pinned again. -/
def execCrossingRepin (p e g : Nat) (s : State) : Host.Outcome State Fault Refusal :=
  if s.fld F.CFG_XSTAT_LAT p e g ≠ 0 ∧ s.flag F.CFG_XIN_PIN p e g ∧ s.netAligned p (s.fld F.CFG_XIN_CLK p e g) ∧
      s.netAligned (neighbour p e) (s.fld F.CFG_XOUT_CLK (neighbour p e) (opposite e) g) then
    .next ((if s.flag F.CFG_XSTAT_PINNED p e g then s else s.crossLost p e g).setFld F.CFG_XSTAT_LAT 6 p e g
      |>.setFlag F.CFG_XSTAT_PINNED true p e g)
  else .next s

/-! ### Reset nets and fabric events (R293, R294) -/

/-- R293. The fabric drives reset net n: some plot's drive of it, as its hedge shows it, is 1. -/
def State.fabricResets (s : State) (p n : Nat) : Bool :=
  s.flag F.CFG_RST_FABRIC p n && (List.range 4).any fun q => s.hedgeOut p q (14464 + n)

/-- R293. A write of CFG_RST_n: SW asserts the net at once, and so does FABRIC while the fabric drives it. -/
def State.rstWrite (s : State) (p n v : Nat) : State :=
  let s := s.setRegN .CFG_RST (v &&& RegId.CFG_RST.row.rw.toNat) p n
  if bitOf v 9 || s.fabricResets p n then s.setH .rstNet 1 p n else s

/-- A configuration load of a pavilion is in progress (R293, R365). -/
def State.loadingPav (s : State) (p : Nat) : Bool :=
  [1, 2, 3, 5].contains (s.fld F.CFG_LOAD_STAT_STATE) && bitOf (s.h .loadMask) p

/-- R293. Two edges of SYNC_CLK after the last cause fell. -/
def execResetNetDeassert (p n : Nat) (s : State) : Host.Outcome State Fault Refusal :=
  if s.flag F.CFG_RST_SW p n ∨ (s.flag F.CFG_RST_WARM p n ∧ s.loadingPav p) ∨ s.fabricResets p n then .next s
  else .next (s.setH .rstNet 0 p n)

/-- R294. A rising edge of FEVT i, taken on the net of CFG_FEVT. -/
def execFabricEvent (p i : Nat) (s : State) : Host.Outcome State Fault Refusal :=
  if i < 128 then .next (s.local p i) else .next s

/-! ### Stream ports (R299) -/

/-- What a stream port presented last; nothing before its first frame. -/
def State.sportAt (s : State) (p q : Nat) : SportOut := tget s.sport (p, q) ⟨[], 0, false, (0, 0)⟩

/-- The stream ports that present entry i of pavilion p: enabled, and on an ALIGNED net. -/
def State.sportsOf (s : State) (p i : Nat) : List Nat :=
  (List.range 16).filter fun q =>
    s.flag F.CFG_SPORT_EN p q && s.fld F.CFG_SPORT_STREAM p q == i && s.netAligned p (s.fld F.CFG_SPORT_CLK p q) &&
      (s.netRatio p (s.fld F.CFG_SPORT_CLK p q)).isSome

/-- R299, R312. A port takes the first edge of its net at or after the release time; a frame due on an edge already
taken appears on the next, with SKEW. -/
def State.sportTake (s : State) (p q : Nat) (t : Time) : State :=
  match s.netRatio p (s.fld F.CFG_SPORT_CLK p q) with
  | none => s
  | some r =>
    let e := edgeAt r t
    if e + 1 ≤ s.h .sportEdge p q then
      let was := s.flag F.CFG_SPORT_SKEW p q
      let s := s.setH .sportEdge (s.h .sportEdge p q + 1) p q |>.setFlag F.CFG_SPORT_SKEW true p q
      if was then s else s.local p 441
    else s.setH .sportEdge (e + 1) p q

/-- R299. Every stream port bound to an entry presents a released frame: 32 samples, unused channels 0. -/
def State.sportFrame (s : State) (p i : Nat) (f : LaneFrame) (t : Time) : State :=
  foldS (fun q s =>
    let s := s.sportTake p q t
    let o : SportOut := ⟨(List.range 32).map fun j => f.xs.getD j 0, f.ts, f.gap, (s.sportAt p q).prim⟩
    { s with sport := tput s.sport (p, q) o }) (s.sportsOf p i) s

/-- R299. Every stream port with PRIM = 1 bound to an entry presents a primitive record. -/
def State.sportPrim (s : State) (p i w0 w1 : Nat) : State :=
  foldS (fun q s =>
    if s.flag F.CFG_SPORT_PRIM p q then
      let o := s.sportAt p q
      { s with sport := tput s.sport (p, q) ⟨o.xs, o.ts, o.gap, (w0, w1)⟩ }
    else s) (s.sportsOf p i) s

/-- R83, R214, R299, R381. The oldest held frame whose release time has come is presented to the fabric and the Spires; `par`
is the word of the release buffer at which it holds a parity error, if any. -/
def execSampleRelease (p i : Nat) (par : Option Nat) (s : State) : Host.Outcome State Fault Refusal :=
  match par, s.releasePop p i with
  | some row, _ => .next (s.releaseParity p i row)
  | none, none => .next s
  | none, some (f, t) => .next ((t.feedsFrame p i f.xs).sportFrame p i f (f.ts + BitVec.ofNat 64 (s.entRelease p i)))

/-- R87, R216, R299. The next primitive record of a stream is presented to the fabric and the Spires. -/
def execPrimitivePresent (p i : Nat) (s : State) : Host.Outcome State Fault Refusal :=
  match s.primPop p i with
  | none => .next s
  | some (w0, w1, _, t) => .next ((t.feedsPrim p i w0 w1).sportPrim p i w0 w1)

/-! ### Tower I/O ports (R302..R308) -/

/-- Bits per pin of a word (R303). -/
def serBits (ser : Nat) : Nat := [4, 8, 16].getD ser 16

/-- R303. The bits per pin of a group's words. -/
def State.tioR (s : State) (t g : Nat) : Nat := serBits (s.fld F.TIO_GRP_CFG_SER t g)

/-- R303. Word boundary n of a group. -/
def State.tioBoundary (s : State) (t g n : Nat) : Time :=
  s.reg .TIO_ANCHOR t + BitVec.ofNat 64 (n * s.tioR t g * 65536 / s.fld F.TIO_GRP_CFG_BITMUL t g)

/-- R312. A status bit of a group goes from 0 to 1. -/
def State.tioFlag (s : State) (f : Fld) (t g : Nat) : State :=
  if s.flag f t g then s else (s.setFlag f true t g).device (1920 + t)

/-- R306. LAT_MIN of a group, for the W of its declaration. -/
def State.tioLatMin (s : State) (t g : Nat) : Nat :=
  let w := match tfind s.decls (s.fld F.TIO_GRP_DECL_DECL t g) with | some d => d.plan.w | none => 0
  if s.flag F.TIO_GRP_CFG_DIR t g then w + s.psUp 4800
  else cdiv (s.tioR t g * 65536) (s.fld F.TIO_GRP_CFG_BITMUL t g) + s.psUp 6400 + w

/-- R307. The first check that enabling a port fails, 0 when none does. -/
def State.tioCheck (s : State) (t g : Nat) : Nat :=
  let p := s.fld F.TIO_GRP_CFG_PAV t g
  let e := s.fld F.TIO_GRP_CFG_EP t g
  let mul := s.fld F.TIO_GRP_CFG_BITMUL t g
  let d := s.fld F.TIO_GRP_DECL_DECL t g
  let fab := p + 32 * e
  if s.fld F.TIO_GRP_CFG_SER t g = 3 ∨ mul < 1 ∨ 200 < mul ∨ 2000000 < mul * s.freq then 1
  else if !(if s.flag F.TIO_GRP_CFG_DIR t g then s.declJoins d 4 fab 2 (t + 31 * 8) else s.declJoins d 1 t 4 fab) then 2
  else if !(s.flag F.CFG_FEP_STAT_ACTIVE p e && s.flag F.CFG_FEP_MODE p e &&
      !bitOf (s.fld F.CFG_FEP_STAT_SLOTS p e) (s.fld F.TIO_GRP_CFG_SLOT t g)) then 3
  else if s.fld F.TIO_GRP_LAT_LAT t g < s.tioLatMin t g then 4
  else 0

/-- The pin-bus slot of a port is taken or freed. -/
def State.tioSlot (s : State) (t g : Nat) (b : Bool) : State :=
  let p := s.fld F.TIO_GRP_CFG_PAV t g
  let e := s.fld F.TIO_GRP_CFG_EP t g
  s.setFld F.CFG_FEP_STAT_SLOTS (Machine.setBit (s.fld F.CFG_FEP_STAT_SLOTS p e) (s.fld F.TIO_GRP_CFG_SLOT t g) b) p e

/-- A port stops: its slot is free, and nothing is in flight. -/
def State.tioStop (s : State) (t g : Nat) : State :=
  { (s.tioSlot t g false).setFlag F.TIO_GRP_CFG_EN false t g with tio := tdel s.tio (t, g) }

/-- R307. A write of TIO_GRP_g_CFG. -/
def State.tioCfgWrite (s : State) (t g v : Nat) : State :=
  let old := s.regN .TIO_GRP_CFG t g
  let v := v &&& RegId.TIO_GRP_CFG.row.rw.toNat
  if bitOf old 0 then
    let s := if v / 2 = old / 2 then s else s.tioFlag F.TIO_GRP_STAT_WR_IGN t g
    if bitOf v 0 then s else s.tioStop t g
  else
    let s := s.setRegN .TIO_GRP_CFG (v / 2 * 2) t g
    if !bitOf v 0 then s
    else
      let e := s.tioCheck t g
      let s := s.setFld F.TIO_GRP_STAT_ERR e t g
      let s := if e = 0 ∨ e = 4 then s.setRegN .TIO_GRP_LMIN (s.tioLatMin t g) t g else s
      if e = 0 then
        let s := (s.setFlag F.TIO_GRP_CFG_EN true t g |>.setFlag F.TIO_GRP_STAT_DEGRADED false t g).tioSlot t g true
        if s.flag F.TIO_GRP_CFG_DIR t g && s.flag F.TIO_GRP_CFG_OWNER t g then s.setH .pinOe 255 t g else s
      else s

/-- R307. A write of TIO_GRP_g_CFG with EN = 1. -/
def execTioEnable (t g : Nat) (v : Word) (s : State) : Host.Outcome State Fault Refusal :=
  wrOut .TIO_GRP_CFG v (s.tioCfgWrite t g v.toNat)

/-- R307. A write of DECL or LAT: taken while EN is 0. -/
def State.tioWordWrite (s : State) (t g : Nat) (id : RegId) (v : Word) : State :=
  if s.flag F.TIO_GRP_CFG_EN t g then s.tioFlag F.TIO_GRP_STAT_WR_IGN t g
  else s.setReg id ((v.zeroExtend 64) &&& id.row.rw) t g

/-- R311. A write of TIO_ANCHOR: taken while every group has EN = 0; the fraction is 0. -/
def State.tioAnchorWrite (s : State) (t : Nat) (v : DWord) : State :=
  if (List.range 18).any fun g => s.flag F.TIO_GRP_CFG_EN t g then s
  else s.setReg .TIO_ANCHOR ((v >>> 16) <<< 16) t

/-- A group's port runs, in a direction. -/
def State.tioRuns (s : State) (t g : Nat) (out : Bool) : Bool :=
  s.flag F.TIO_GRP_CFG_EN t g && s.flag F.TIO_GRP_CFG_OWNER t g && s.flag F.TIO_GRP_CFG_DIR t g == out

/-- The words of a port in flight. -/
def State.tioOf (s : State) (t g : Nat) : List (Time × Nat) := tget s.tio (t, g) []
/-- Replace them. -/
def State.setTio (s : State) (t g : Nat) (l : List (Time × Nat)) : State := { s with tio := tput s.tio (t, g) l }

/-- R303. With LVDS, the bits of odd pins read 0. -/
def lvdsIn (r w : Nat) : Nat := foldS (fun i v => setBitsOf v (r * (2 * i + 1)) r 0) (List.range 4) w

/-- R304. A word has crossed the balls of an input port: `ts` is the time of its first bit after the pin-group trim. -/
def execTioInputWord (t g : Nat) (ts : Time) (word : Nat) (s : State) : Host.Outcome State Fault Refusal :=
  if s.tioRuns t g false then
    let r := s.tioR t g
    let w := word % 2 ^ (8 * r)
    .next (s.setTio t g (s.tioOf t g ++ [(ts, if s.flag F.TIO_GRP_CFG_LVDS t g then lvdsIn r w else w)]))
  else .next s

/-- R304. The oldest word, which reached the endpoint at `arrived`, is presented: at the first edge at or after ts + LAT,
or at arrival when that is later. -/
def execTioWordPresent (t g : Nat) (arrived : Time) (s : State) : Host.Outcome State Fault Refusal :=
  match s.tioOf t g with
  | [] => .next s
  | (ts, w) :: rest =>
    if s.tioRuns t g false then
      let due := ts + BitVec.ofNat 64 (s.regN .TIO_GRP_LAT t g)
      let now := s.pavTime (s.fld F.TIO_GRP_CFG_PAV t g)
      if !atOrAfter now due then .next s
      else
        let late := later arrived due
        let s := s.setTio t g rest |>.setH .tioVal w t g |>.setH .tioLateBit (b2n late) t g
        if late then .next ((s.addFld F.TIO_GRP_LATE_CNT_COUNT 1 t g).tioFlag F.TIO_GRP_STAT_LATE t g) else .next s
    else .next s

/-- R305. The endpoint raises WSTB for boundary n; `word` is what the fabric writes in that cycle. -/
def execTioWstb (t g n : Nat) (word : Option Nat) (s : State) : Host.Outcome State Fault Refusal :=
  if s.tioRuns t g true then
    match word with
    | some w => .next (s.setTio t g (s.tioOf t g ++ [(s.tioBoundary t g n, w % 2 ^ (8 * s.tioR t g))]))
    | none => .next s
  else .next s

/-- R303, R305. The level of each pin after a word has left: its last bit; of a pair, the even pin's. -/
def State.tioPins (s : State) (t g w : Nat) : Nat :=
  let r := s.tioR t g
  foldS (fun i v =>
    if i % 2 = 1 ∧ s.flag F.TIO_GRP_CFG_LVDS t g then v else Machine.setBit v i (bitOf w (r * i + r - 1)))
    (List.range 8) (s.h .pinOut t g)

/-- R305. The oldest word, which reached the tower at `arrived`, leaves at its boundary; one that came later than 2.0 ns
before it is discarded as late. -/
def execTioOutputWord (t g : Nat) (arrived : Time) (s : State) : Host.Outcome State Fault Refusal :=
  match s.tioOf t g with
  | [] => .next s
  | (b, w) :: rest =>
    if s.tioRuns t g true then
      let s := s.setTio t g rest
      if later arrived (b - BitVec.ofNat 64 (s.nsUnits 2)) then
        .next ((s.addFld F.TIO_GRP_LATE_CNT_COUNT 1 t g).tioFlag F.TIO_GRP_STAT_LATE t g)
      else .next (s.setH .pinOut (s.tioPins t g w) t g |>.setH .pinOe 255 t g)
    else .next s

end Sys2Proof.Machine
end

