-- ==== Sys2Proof/Machine/DomeBus.lean ====
section
/-!
DEFINITION. Requests of units to a dome through the Promenade (R117, R133, R134, R386).
-/
namespace Sys2Proof

/-- The code of a status (Table 12.4). -/
def Status.code : Status → Nat
  | .ok => 0 | .ur => 1 | .bad => 2 | .dead => 3 | .fenced => 4 | .domeHold => 5 | .timeout => 6 | .peekDenied => 7
  | .dataExpired => 8 | .access => 9

end Sys2Proof

namespace Sys2Proof.Machine

/-! ### Dome requests -/

/-- R327, R329, R133, R413. The status a request to the dome of pavilion p meets before its address counts. A quiesced dome
answers port 3 DOME_HOLD, and serves the real-time port. -/
def State.domeReach (s : State) (p : Nat) (rt : Bool := false) : Status :=
  if s.isolated p then .dead
  else if s.portClosed p 114 then .fenced
  else if !(if rt then s.domeRuns p else s.domeServes p) then .domeHold
  else .ok

/-- A read reaches its lines: its status, and the lines beneath a node that has failed return poison (R386, R393). -/
def State.domeMayRead (s : State) (p k : Nat) (ls : List Nat) : Status :=
  if s.domeReach p ≠ .ok then s.domeReach p
  else if ls.any fun l => s.keyRead p k (64 * l) == .refused then .access
  else .ok

/-- R391, R392. The counters of the lines of a write advance; none when a line write is refused. -/
def State.domeKeyed (s : State) (p k : Nat) (ls : List Nat) : Option State :=
  foldS (fun l (o : Option State) => match o with | some s => s.keyWrite p k (64 * l) | none => none) ls (some s)

/-- R392. The record of a write that was refused at the counter limit. -/
def State.domeExhaust (s : State) (p k : Nat) (ls : List Nat) : State :=
  foldS (fun l s => s.keyExhaust p k (64 * l)) ls s

/-- R134, R386. A read of n bytes at a 35-bit dome address within one command (assumption 159): its status, whether the data
are poison, and the data. Reads with a key in LOST are still verified (R393). -/
def State.domeRead (s : State) (p addr n : Nat) : Status × Bool × List Byte × State :=
  let a := addr % 2 ^ 31
  let k := addr / 2 ^ 31 % 16
  let ls := linesOf a n
  let st := s.domeMayRead p k ls
  if st ≠ .ok then (st, false, [], s)
  else
    let ks := ls.filter fun l => s.keyRead p k (64 * l) == .guarded
    let lost := ks.any fun l => s.keyBeneathBad p k (64 * l)
    let r := (foldS (fun l s => s.keyTouch p k (64 * l) false) ks s).domeGet p a n
    (.ok, r.1 || lost, r.2.1, r.2.2)

/-- R117, R386, R391, R392. A write of bytes at a 35-bit dome address by a Promenade requester, within one command
(assumption 159); the counters of a protected range advance. -/
def State.domeWrite (s : State) (p addr : Nat) (bytes : List Byte) (poison : Bool) (node port : Nat) : Status × State :=
  let a := addr % 2 ^ 31
  let k := addr / 2 ^ 31 % 16
  let ls := linesOf a bytes.length
  let st := s.domeReach p
  if st ≠ .ok then (st, s)
  else
    match s.domeKeyed p k ls with
    | none => (.access, s.domeExhaust p k ls)
    | some t =>
      let ks := ls.filter fun l => s.keyAccess p k (64 * l) == .guarded
      let t := foldS (fun l t => t.keyTouch p k (64 * l) true) ks t
      (.ok, foldS (fun l t => t.resvHit p l node port) ls (t.domePut p a bytes poison true))

/-! ### Requests that arrive as packets -/

/-- The part of n bytes from byte a that lies in a line: its first byte within the line, and its length. -/
def linePart (a n l : Nat) : Nat × Nat := (max a (64 * l) - 64 * l, min (a + n) (64 * l + 64) - max a (64 * l))

/-- R117, R126, R390. A READ request joins the read queues of port 3 with its page hint, line by line; it is answered when
its last line has returned. An error status that it meets before. -/
def State.domeReadReq (s : State) (p addr n hint : Nat) (req : Nat × List Word) : Status × State :=
  let a := addr % 2 ^ 31
  let k := addr / 2 ^ 31 % 16
  let ls := linesOf a n
  let st := s.domeMayRead p k ls
  if st ≠ .ok then (st, s)
  else
    let ks := ls.filter fun l => s.keyRead p k (64 * l) == .guarded
    let miss := (ks.flatMap fun l => s.keyMisses p k (64 * l) false).eraseDups
    let t := s.newTxn { DomeTxn.plain p (ls.length + miss.length) with
      poison := ks.any fun l => s.keyBeneathBad p k (64 * l)
      key := if ks.isEmpty then none else some k
      metas := (ks.flatMap fun l => (s.keyUses p k (64 * l) false).map fun e => (e.1, false)).eraseDups
      req := some req }
    (.ok, foldS (fun (e : Nat × Nat) s' =>
        let x := linePart a n e.1
        s'.domeEnq p ⟨3, e.1, false, x.1, x.2, s.domeBytes p (64 * e.1 + x.1) x.2, false, hint, t.1, e.2, false,
          s.lineKnown p e.1, none⟩) ls.zipIdx (t.2.metaEnq p t.1 miss))

/-- R117, R126, R391, R392. A WRITE request joins the write queues with its page hint, line by line: on port 2 in the
real-time class, else on port 3. It is answered when its last line has been written. -/
def State.domeWriteReq (s : State) (p addr : Nat) (bytes : List Byte) (poison rt : Bool) (hint : Nat)
    (who : Nat × Nat) (req : Option (Nat × List Word)) : Status × State :=
  let a := addr % 2 ^ 31
  let k := addr / 2 ^ 31 % 16
  let ls := linesOf a bytes.length
  let st := s.domeReach p rt
  if st ≠ .ok then (st, s)
  else
    match s.domeKeyed p k ls with
    | none => (.access, s.domeExhaust p k ls)
    | some u =>
      let ks := ls.filter fun l => s.keyAccess p k (64 * l) == .guarded
      let miss := (ks.flatMap fun l => s.keyMisses p k (64 * l) true).eraseDups
      let t := u.newTxn { DomeTxn.plain p (ls.length + miss.length) with
        key := if ks.isEmpty then none else some k
        metas := (ks.flatMap fun l => (s.keyUses p k (64 * l) true).map fun e => (e.1, true)).eraseDups
        req := req }
      (.ok, foldS (fun (e : Nat × Nat) s' =>
          let x := linePart a bytes.length e.1
          (s'.domeEnq p ⟨if rt then 2 else 3, e.1, true, x.1, 0, (bytes.drop (64 * e.1 + x.1 - a)).take x.2, poison, hint, t.1,
            e.2, false, [], none⟩).resvHit p e.1 who.1 who.2) ls.zipIdx (t.2.metaEnq p t.1 miss))

/-- R330. What an atomic stores where it does: the function's number (Table 8.3), the word it leaves, and what it answers. -/
structure AmoPlan where
  stores : Bool
  new : Word
  answer : Word
  /-- the new word does not depend on the old one -/
  blind : Bool

/-- R330, R331. An ATOMIC request: a read-modify-write of one line on port 3. The line is read, and the new word joins the
write queue in the same arrival, so that no other request comes between. It is answered when both are over; a word that
depends on poison is stored as poison. -/
def State.domeAmoReq (s : State) (p addr hint : Nat) (plan : Word → AmoPlan) (who : Nat × Nat) (req : Nat × List Word) :
    Status × Option AmoPlan × State :=
  let a := addr % 2 ^ 31
  let k := addr / 2 ^ 31 % 16
  let l := a / 64
  let st := s.domeMayRead p k [l]
  if st ≠ .ok then (st, none, s)
  else
    let old : Word := BitVec.ofNat 32 (leNat (s.domeBytes p a 4))
    let w := plan old
    match (if w.stores then s.domeKeyed p k [l] else some s) with
    | none => (.access, none, s.domeExhaust p k [l])
    | some u =>
      let guarded := s.keyRead p k (64 * l) == .guarded
      let miss := if guarded then s.keyMisses p k (64 * l) w.stores else []
      let known := s.lineKnown p l
      let bad := known.getD (a % 64 / 8) 0 % 4 != 0
      let t := u.newTxn { DomeTxn.plain p ((if w.stores then 2 else 1) + miss.length) with
        poison := guarded && s.keyBeneathBad p k (64 * l)
        key := if guarded then some k else none
        metas := if guarded then (s.keyUses p k (64 * l) w.stores).map fun e => (e.1, w.stores) else []
        req := some req
        answer := some [w.answer] }
      let s' := (t.2.metaEnq p t.1 miss).domeEnq p ⟨3, l, false, a % 64, 4, natBytes 4 old.toNat, false, hint, t.1, 0, false, known,
        none⟩
      (.ok, some w, if w.stores then
        (s'.domeEnq p ⟨3, l, true, a % 64, 0, natBytes 4 w.new.toNat, bad && !w.blind, hint, t.1, 1, false, [],
          none⟩).resvHit p l who.1 who.2 else s')

end Sys2Proof.Machine
end

