-- ==== Sys2Proof/Machine/Readout.lean ====
section
/-!
DEFINITION. Accepts, stream sets, and the building of events (R140..R150, R174).
-/
namespace Sys2Proof.Machine

/-! ### Accept records (R140, R142) -/

/-- A word of an accept record, as a number. -/
def accWord (w : List Word) (n : Nat) : Nat := (w.getD n 0).toNat
/-- START (Table 6.1). -/
def accStart (w : List Word) : Time := pairOf (w.getD 0 0) (w.getD 1 0)
/-- LEN, in beats. -/
def accLen (w : List Word) : Nat := accWord w 2 % 2 ^ 24
/-- DEST. -/
def accDest (w : List Word) : Nat := accWord w 4 % 2 ^ 13
/-- SINGLE. -/
def accSingle (w : List Word) : Bool := bitOf (accWord w 3) 6
/-- SSET. -/
def accSset (w : List Word) : Nat := accWord w 3 % 64
/-- STREAM. -/
def accStream (w : List Word) : Nat := bitsOf (accWord w 3) 16 13

/-- The reserved fields of a record are 0; STREAM is 0 unless SINGLE = 1. -/
def accReserved (w : List Word) : Bool :=
  accWord w 2 / 2 ^ 24 == 0 && bitsOf (accWord w 3) 7 9 == 0 && bitsOf (accWord w 3) 29 3 == 0 &&
    (accSingle w || accStream w == 0) && accWord w 4 / 2 ^ 13 == 0 && accWord w 7 == 0

/-- R142. DEST names an enabled queue pair of type EVENT or an enabled farm destination. -/
def State.destOk (s : State) (d : Nat) : Bool :=
  if d < 0x1000 then
    s.fld F.RDO_QP_STAT_STATE 0 d != 0 && s.flag F.RDO_QP_CTL_EN 0 d && s.flag F.RDO_QP_CFG_TYPE 0 d
  else decide (d < 0x1040) && s.flag F.FARM_CFG_EN 0 (d - 0x1000)

/-- R142. An accept is valid. -/
def State.accValid (s : State) (w : List Word) : Bool :=
  accReserved w && decide (1 ≤ accLen w) && s.destOk (accDest w)

/-! ### Stream sets (R144) -/

/-- The streams of a set, ascending. -/
def State.ssetStreams (s : State) (k : Nat) : List Nat :=
  (List.range 256).flatMap fun w =>
    let v := s.regN .RDO_SSET_W 0 k w
    if v = 0 then [] else (indicesWhere 32 (bitOf v)).map fun b => 32 * w + b

/-- The streams an accept names, ascending. -/
def State.accStreams (s : State) (w : List Word) : List Nat :=
  if accSingle w then [accStream w] else s.ssetStreams (accSset w)

/-- R144. A write of word w of set k. -/
def State.ssetWrite (s : State) (k w : Nat) (v : Word) : State :=
  if s.fld F.RDO_SSET_REF_REF 0 k ≠ 0 then s.setFlag F.RDO_STAT_WR_IGN true
  else s.setRegN .RDO_SSET_W v.toNat 0 k w

/-- R144. A write of a stream set. -/
def execSsetWrite (k w : Nat) (v : Word) (s : State) : Host.Outcome State Fault Refusal := .next (s.ssetWrite k w v)

/-! ### Status, enabling and draining (R174) -/

/-- Accepted ACCEPT descriptors not yet completed remain. -/
def State.accDescs (s : State) : Bool :=
  s.qps.any fun e => e.2.acc.any fun d => (d.words.getD 0 0).toNat % 256 == 1 && d.result.isNone

/-- RDO_STAT as Table 6.13 has it. -/
def State.rdoShow (s : State) : State :=
  let s := s.setFld F.RDO_STAT_INTAKE ((s.events.filter fun e => !e.building).length)
    |>.setFld F.RDO_STAT_BUILDS ((s.events.filter fun e => e.building).length)
  s.setFld F.RDO_STAT_STATE
    (if s.flag F.RDO_CTL_EN then 1 else if s.accIn.isEmpty && s.events.isEmpty && !s.accDescs then 0 else 2)

/-- R174. A write of RDO_CTL. -/
def State.rdoEn (s : State) (en : Bool) : State := (s.setFlag F.RDO_CTL_EN en).rdoShow

/-- R174. A write of RDO_CTL.EN. -/
def execRdoEnWrite (en : Bool) (s : State) : Host.Outcome State Fault Refusal := .next (s.rdoEn en)

/-- RDO_EVNUM takes writes while EN is 0 (Table 6.13). -/
def State.evnumWrite (s : State) (v : DWord) : State :=
  if s.flag F.RDO_CTL_EN then s.setFlag F.RDO_STAT_WR_IGN true else s.setReg .RDO_EVNUM v

/-! ### Intake (R141, R143) -/

/-- R141, R143. A write of RDO_ACC_PORT: its answer (Table 12.5: 0 OK, 1 RETRY, 2 BAD, 3 DISABLED). An accept that is taken
goes to the journal, and the request `req` is answered OK when its entry is held there. -/
def State.accPort (s : State) (words : List Word) (whole : Bool) (req : Option (Nat × List Word)) : Nat × State :=
  if !s.flag F.RDO_CTL_EN || s.safeHold then (3, s)
  else if !whole || words.length != 8 || !s.accValid words then
    (2, (s.addFld F.RDO_ACC_BAD_COUNT 1).device 1024)
  else if 1024 ≤ s.accIn.length + (s.events.filter fun e => !e.building).length then
    (1, s.addFld F.RDO_ACC_RETRY_COUNT 1)
  else if !s.jrnlRoom then (1, (s.addFld F.RDO_ACC_RETRY_COUNT 1).jrnlWait)
  else (0, ({ s with accIn := s.accIn ++ [(⟨words, none, req⟩ : AccIn)] }).rdoShow)

/-- R141. A write to RDO_ACC_PORT; `whole` when it is one non-posted write of 32 aligned bytes. -/
def execAccPortWrite (words : List Word) (whole : Bool) (s : State) : Host.Outcome State Fault Refusal :=
  .next (s.accPort words whole none).2

/-- R145. A stream's release and commit time-out at acceptance, in device-time units. -/
def State.sectWait (s : State) (n : Nat) : Nat :=
  let p := n / 256
  let i := n % 256
  (if s.sst p i = 0 then 0 else s.entRelease p i) + s.nsUnits (100 * s.fld F.GATE_COMMIT_TMO_TMO p)

/-- R143. An accept enters the journal: it takes the event number, and its set's REF counts it. -/
def State.accJournal (s : State) (a : AccIn) : State :=
  let num := s.regN .RDO_EVNUM
  let e : Event := ⟨num, a.words, a.qp, (s.accStreams a.words).map fun n => ⟨n, s.sectWait n, none, none, 0, 0, 0, [], false⟩,
    false, false, [], 0, 0, false, none, none, false⟩
  let s := { s with events := s.events ++ [e] }
  let s := s.setRegN .RDO_EVNUM ((num + 1) % 2 ^ 64)
  if accSingle a.words then s else s.addFld F.RDO_SSET_REF_REF 1 0 (accSset a.words)

/-- Apply an update to the event of a number. -/
def State.onEvent (s : State) (num : Nat) (f : Event → Event) : State :=
  { s with events := s.events.map fun e => if e.num = num then f e else e }

/-- The event of a number. -/
def State.event (s : State) (num : Nat) : Option Event := s.events.find? fun e => e.num == num

/-! ### Gathering (R145..R148) -/

/-- A word of a stored fragment's header. -/
def fragWord (f : List Byte) (w : Nat) : Nat := leNat ((f.drop (4 * w)).take 4)

/-- The LENGTH of a stored fragment (Table 3.9). -/
def fragLen (f : List Byte) : Nat := fragWord f 6 % 2 ^ 24

/-- R146. The fragments of a period's lines, each its header and its LENGTH bytes; none when they cannot be walked whole. -/
def fragWalk : Nat → List Byte → Option (List (List Byte))
  | 0, l => if l.isEmpty then some [] else none
  | fuel + 1, l =>
    if l.isEmpty then some []
    else if fragWord l 0 % 2 ^ 12 ≠ 0x15f ∨ fragWord l 7 ≠ (crc32c (l.take 28)).toNat ∨ l.length < 32 + fragLen l then
      none
    else
      match fragWalk fuel (l.drop (64 * cdiv (32 + fragLen l) 64)) with
      | some fs => some (l.take (32 + fragLen l) :: fs)
      | none => none

/-- A fragment is not VOID (Table 3.9). -/
def fragUsed (f : List Byte) : Bool := !bitOf (fragWord f 0) 22

/-- What the start of a period read comes to: lines on their way, a flag of Table 6.4, or a dome that holds. -/
inductive SectRead where
  | reading (d : RingRd)
  | flag (b : Nat)
  | hold
deriving DecidableEq, Repr

/-- R146. Begin to read period pn from a ring of pavilion p; a held dome waits unless HOLD_TMO is over. -/
def State.ringStart (s : State) (p stream : Nat) (twin : Bool) (pn : Nat) (ovr : Bool) : SectRead × State :=
  match s.ringFor p stream twin with
  | none => (.flag 1, s)
  | some r =>
    if s.domeHolds p && !s.isolated p && !s.portFenced p 114 then (if ovr then .flag 4 else .hold, s)
    else
      match s.periodLook p r pn with
      | (.missing, s) => (.flag 1, s)
      | (.expired, s) => (.flag 2, s)
      | (.poison, s) => (.flag 3, s)
      | (.unreachable, s) => (.flag 4, s)
      | (.lines e, s) =>
        let t := s.periodQueue p r pn e
        (.reading ⟨twin, p, r, pn, t.1, s.ringSlotAddr p r pn, false⟩, t.2)

/-- R91, R146. Period pn of a stream holds, in its home ring, fragments that were committed with DEGRADED: a read of the
period from the twin lacks them. -/
def State.homeDegraded (s : State) (p stream pn : Nat) : Bool :=
  match s.ringFor p stream false with
  | none => false
  | some r =>
    let e := s.idxAt p (s.ringSlotAddr p r pn)
    if e.valid && e.pstart == pn * 2 ^ s.fld F.DOME_RING_CFG_FRAG_SHIFT p r % 2 ^ 48 then
      match fragWalk (e.nlines + 1) ((List.range e.nlines).flatMap fun i => s.domeBytes p (s.ringLineAddr p r e.ofs i) 64) with
      | some fs => fs.any fun f => fragUsed f && bitOf (fragWord f 0) 21
      | none => false
    else false

/-- The numbers of SEQ between two fragments of a stream: SEQ 0 is never given (R89). -/
def seqBetween (g f : Nat) : Nat := (f + 2 ^ 32 - 1 - g) % 2 ^ 32 - (if f < g then 1 else 0)

/-- R146. A fragment joins a section. When one taken from the twin follows the last one with more numbers of SEQ between
than its REFUSED_BEFORE accounts for, fragments committed with DEGRADED are absent. -/
def Sect.addFrag (x : Sect) (twin : Bool) (f : List Byte) : Sect :=
  let miss := match x.frags.getLast? with
    | some g => twin && fragWord f 6 / 2 ^ 24 < 255 && decide (fragWord f 6 / 2 ^ 24 < seqBetween (fragWord g 4) (fragWord f 4))
    | none => false
  { x with frags := x.frags ++ [f], flags := if miss then x.flags ||| 2 else x.flags }

/-- The ring that gives a stream's FRAG_SHIFT, and its value: the home ring's, else the twin ring's. -/
def State.sectShift (s : State) (n : Nat) : Option Nat :=
  let p := n / 256
  match s.ringFor p n false with
  | some r => some (s.fld F.DOME_RING_CFG_FRAG_SHIFT p r)
  | none =>
    if s.entAssured p (n % 256) then
      let q := s.entTwin p (n % 256)
      match s.ringFor q n true with
      | some r => some (s.fld F.DOME_RING_CFG_FRAG_SHIFT q r)
      | none => none
    else none

/-- R146. The first and last period of a window. -/
def windowPeriods (w : List Word) (fs : Nat) : Nat × Nat :=
  let t := (accStart w).toNat
  let b0 := t / 65536
  let b1 := b0 + accLen w - 1 + (if t % 65536 = 0 then 0 else 1)
  (b0 / 2 ^ fs, b1 / 2 ^ fs)

/-- A period of a section is over. -/
def Sect.periodOver (x : Sect) (pn : Nat) : Sect := { x with next := some (pn + 1), rd := none, held := 0, homeFlag := 0 }

/-- R146. The home ring gave no fragments, but flag b: the twin ring of an assured stream is read. `ovr` ends the wait for a
dome that holds. -/
def State.sectTwin (s : State) (x : Sect) (pn b : Nat) (ovr : Bool) : Sect × State :=
  let p := x.stream / 256
  let i := x.stream % 256
  if s.entAssured p i then
    let q := s.entTwin p i
    match s.ringStart q x.stream true pn ovr with
    | (.hold, s) => ({ x with rd := none, held := 2, homeFlag := b }, s)
    | (.reading d, s) => ({ x with rd := some d, held := 0, homeFlag := b }, s)
    | (.flag _, s) => ({ x with flags := x.flags ||| 2 ^ b }.periodOver pn, s)
  else ({ x with flags := x.flags ||| 2 ^ b }.periodOver pn, s)

/-- R146. Begin one period of a section, or go on with the twin ring that held. -/
def State.sectPeriod (s : State) (x : Sect) (pn : Nat) (ovr : Bool) : Sect × State :=
  if x.held = 2 then s.sectTwin x pn x.homeFlag ovr
  else
    match s.ringStart (x.stream / 256) x.stream false pn ovr with
    | (.hold, s) => ({ x with rd := none, held := 1 }, s)
    | (.reading d, s) => ({ x with rd := some d, held := 0 }, s)
    | (.flag b, s) => s.sectTwin x pn b false

/-- R146. Go through periods until lines are on their way, a dome holds, or the last is over. -/
def State.sectPeriods (last : Nat) (ovr : Bool) : Nat → State → Sect → Sect × State
  | 0, s, x => (x, s)
  | fuel + 1, s, x =>
    match x.next with
    | none => (x, s)
    | some pn =>
      if last < pn then ({ x with done := true }, s)
      else
        let r := s.sectPeriod x pn ovr
        if r.1.held ≠ 0 ∨ r.1.rd.isSome then r else State.sectPeriods last false fuel r.2 r.1

/-- What a data read of a ring returns (R123, R146): the non-VOID fragments, a flag of Table 6.4, or DOME_HOLD. -/
inductive RingReply where
  | frags (fs : List (List Byte))
  | flag (b : Nat)
  | hold
deriving DecidableEq, Repr

/-- R123, R146. A data read whose lines have returned. -/
def ringReply (d : RingRd) (x : DomeTxn) : RingReply :=
  if d.expired then .flag 2
  else if x.hold then .hold
  else if x.poison then .flag 3
  else
    let bytes := x.bytes
    match fragWalk (bytes.length / 64 + 1) bytes with
    | none => .flag 3
    | some fs =>
      let fs := fs.filter fragUsed
      if fs.isEmpty then .flag 1 else .frags fs

/-- R123, R146, R390. The data read of a section ends: its fragments join the section, or the twin ring is read, or the
dome is waited for; verified metadata enter the cache. -/
def State.sectRead (s : State) (x : Sect) (d : RingRd) (t : DomeTxn) : Sect × State :=
  let s := s.txnDone d.txn
  let s := match t.key with
    | some k => if t.hold || t.poison then s else s.cacheUses d.pav k t.metas
    | none => s
  match ringReply d t with
  | .hold => ({ x with rd := none, held := if d.twin then 2 else 1 }, s)
  | .frags fs =>
    let flags := if d.twin then x.flags ||| 1 ||| (if s.homeDegraded (x.stream / 256) x.stream d.pn then 2 else 0) else x.flags
    ((fs.foldl (fun (x : Sect) f => x.addFrag d.twin f) { x with flags := flags }).periodOver d.pn, s)
  | .flag b =>
    if d.twin then ({ x with flags := x.flags ||| 2 ^ x.homeFlag }.periodOver d.pn, s)
    else s.sectTwin { x with rd := none } d.pn b false

/-- The bytes of a fragment in an event, padded to a multiple of 8 (R147). -/
def fragPadded (f : List Byte) : List Byte := f ++ List.replicate (8 * cdiv f.length 8 - f.length) (0 : Byte)

/-- R148. The fragments of a section that the limit lets in, whether the cut has fallen, and the bytes left. -/
def fragsFit : Nat → Bool → List (List Byte) → List (List Byte) × Bool × Nat
  | room, cut, [] => ([], cut, room)
  | room, cut, f :: fs =>
    if cut ∨ room < (fragPadded f).length then ([], true, room)
    else
      let r := fragsFit (room - (fragPadded f).length) false fs
      (f :: r.1, r.2)

/-- R147, R148. The section as it goes into its event: its flags and bytes. -/
def sectBytes (x : Sect) (frags : List (List Byte)) (cut : Bool) : Nat × List Byte :=
  let marked := frags.any fun f => bitsOf (fragWord f 0) 17 5 != 0
  let flags := x.flags ||| (if cut then 32 else 0) ||| (if marked then 64 else 0)
  let body := frags.flatMap fragPadded
  let seq (o : Option (List Byte)) : Nat := match o with | some f => fragWord f 4 | none => 0
  (flags, ([x.stream + min 255 frags.length * 2 ^ 16 + flags * 2 ^ 24, body.length, seq frags.head?,
    seq frags.getLast?].flatMap fun w => natBytes 4 w) ++ body)

/-- R148, R150. The sections of an event: the OR of their flags, and their bytes. -/
def eventSects : Nat → Bool → List Sect → Nat × List Byte
  | _, _, [] => (0, [])
  | room, cut, x :: xs =>
    let r := fragsFit room cut x.frags
    let b := sectBytes x r.1 r.2.1
    let rest := eventSects r.2.2 r.2.1 xs
    (b.1 ||| rest.1, b.2 ++ rest.2)

/-- R150. An event record. BUILT is the time at which its last fragment was read; for an event without fragments, which the
rule does not name, the time at which it is built (DESIGN CHOICE, assumption 154). -/
def State.eventRecord (s : State) (e : Event) : Nat × List Byte :=
  let limit := (s.fld F.RDO_CFG_MAX_EVENT + 1) * 2 ^ 20
  let body := eventSects (limit - (64 + 16 * e.sects.length)) false e.sects
  let w (n : Nat) : Nat := accWord e.words n
  let src := match e.qp with | some q => q.1 | none => 2 ^ 12
  let built := e.readAt.getD s.time
  let head := ([0xeb + 2 ^ 8 + body.1 * 2 ^ 16, e.sects.length, e.num % 2 ^ 32, e.num / 2 ^ 32, w 0, w 1, accLen e.words,
    64 + body.2.length, w 5, w 6, (loWord built).toNat, (hiWord built).toNat, src, accDest e.words, 0]).flatMap
      fun w => natBytes 4 w
  (body.1, head ++ wordBytes (crc32c head) ++ body.2)

/-- R150. An event all of whose sections are gathered is built. -/
def State.eventBuilt (s : State) (num : Nat) : State :=
  match s.event num with
  | some e =>
    if e.building ∧ ¬ e.built ∧ e.sects.all Sect.done then
      let r := s.eventRecord e
      s.onEvent num fun e => { e with built := true, flags := r.1, bytes := r.2 }
    else s
  | none => s

/-- R145. The oldest accept without a build slot takes one of the 64. -/
def execEventBuildStart (s : State) : Host.Outcome State Fault Refusal :=
  match s.events.find? fun e => !e.building with
  | none => .next s
  | some e =>
    if (s.events.filter fun e => e.building).length < 64 then
      .next (((s.onEvent e.num fun e => { e with building := true }).eventBuilt e.num).rdoShow)
    else .next s

/-- R145. A stream's ready time. -/
def Sect.ready (x : Sect) (last fs : Nat) : Time := BitVec.ofNat 64 ((last + 1) * 2 ^ fs * 65536 + x.wait)

/-- A section of an event has got further; the time at which fragments were read counts (R150). -/
def State.putSect (s : State) (num : Nat) (x y : Sect) : State :=
  (s.onEvent num fun e =>
    { e with sects := e.sects.map fun z => if z.stream = x.stream then y else z
             readAt := if x.frags.length < y.frags.length then some s.time else e.readAt }).eventBuilt num

/-- R145, R146. Gather the section of stream n of an event: begin its next period, or begin again one whose lines a reset of
the dome's pavilion discarded. -/
def State.sectGather (s : State) (num n : Nat) (ovr : Bool) : State :=
  match s.event num with
  | none => s
  | some e =>
    match e.sects.find? fun x => x.stream == n with
    | none => s
    | some x =>
      if !e.building || x.done || (match x.rd with | some d => (s.txn d.txn).isSome | none => false) ||
          (ovr && x.held == 0) then s
      else
        match s.sectShift n with
        | none => s.putSect num x { x with flags := x.flags ||| 2, done := true }
        | some fs =>
          let w := windowPeriods e.words fs
          if !atOrAfter s.time (x.ready w.2 fs) then s
          else
            let r := State.sectPeriods w.2 ovr (w.2 - w.1 + 2) s { x with next := some (x.next.getD w.1), rd := none }
            r.2.putSect num x r.1

/-- R146. A stream's ready time has come: the engine reads its periods, as far as no dome holds. -/
def execStreamReadyTime (num n : Nat) (s : State) : Host.Outcome State Fault Refusal := .next (s.sectGather num n false)

/-- R146. DOME_HOLD answers to a section's read have lasted HOLD_TMO. -/
def execReadoutHoldTimeout (num n : Nat) (s : State) : Host.Outcome State Fault Refusal :=
  .next (s.sectGather num n true)

/-! ### Ring data reads (R123) -/

/-- The section, oldest event first, that reads period pn of ring r of dome p. -/
def State.readerOf (s : State) (p r pn : Nat) : Option (Nat × Sect × RingRd) :=
  s.events.findSome? fun e => e.sects.findSome? fun x => match x.rd with
    | some d => if d.pav = p ∧ d.ring = r ∧ d.pn = pn ∧ s.txnOver d.txn then some (e.num, x, d) else none
    | none => none

/-- R123. The oldest data read of period pn of ring r whose last line has returned goes to readout, with its lines or
DATA_EXPIRED, and readout begins the section's next period. -/
def State.ringReadDone (s : State) (p r pn : Nat) : State :=
  match s.readerOf p r pn with
  | none => s
  | some (num, x, d) =>
    match s.txn d.txn with
    | none => s
    | some t =>
      let y := s.sectRead x d t
      (y.2.putSect num x y.1).sectGather num x.stream false

/-- R123. A ring data read on port 1 returns lines or completes DATA_EXPIRED. -/
def execDomeRingRead (p r pn : Nat) (s : State) : Host.Outcome State Fault Refusal := .next (s.ringReadDone p r pn)

end Sys2Proof.Machine
end

