-- ==== Sys2Proof/Machine/Queues.lean ====
section
/-!
DEFINITION. Queue pairs: polling, acceptance, descriptors, completions, set-up, recovery and disabling (R151, R154..R173).
-/
namespace Sys2Proof.Machine

/-- A queue pair before it is enabled. -/
def QPair.empty : QPair := ⟨[], [], 0, 0, 0, false, false, false, 0⟩
/-- A queue pair. -/
def State.qp (s : State) (q : Nat) : QPair := tget s.qps q QPair.empty
/-- Replace a queue pair. -/
def State.setQp (s : State) (q : Nat) (x : QPair) : State := { s with qps := tput s.qps q x }

/-- STAT.STATE (Table 6.11). -/
def State.qpState (s : State) (q : Nat) : Nat := s.fld F.RDO_QP_STAT_STATE 0 q
/-- R164, R177. Enter a state; ERROR and STALLED raise source 1,024. -/
def State.setQpState (s : State) (q st : Nat) : State :=
  let was := s.qpState q
  let s := s.setFld F.RDO_QP_STAT_STATE st 0 q
  if was ≠ st ∧ (st = 4 ∨ st = 5) then s.device 1024 else s

/-- R164, R171, R455. A function is usable, and its tower, T0 or T4, is not isolated. -/
def State.fnUsable (s : State) (f : Nat) : Bool :=
  s.flag F.PCIE_FN_STAT_USABLE 0 f && !s.isolated (towerNode (4 * (f / 2)))
/-- The function of a queue pair. -/
def State.qpFn (s : State) (q : Nat) : Nat := s.fld F.RDO_QP_CFG_FUNC 0 q
/-- The host memory of a queue pair's endpoint. -/
def State.qpHost (s : State) (q : Nat) : Nat := hostBase (s.qpFn q / 2)
/-- R164. The queue pair works on what it has accepted. -/
def State.qpWorks (s : State) (q : Nat) : Bool := [1, 2, 3, 6].contains (s.qpState q) && s.fnUsable (s.qpFn q)

/-- An index register. -/
def State.sqHead (s : State) (q : Nat) : Nat := s.regN .RDO_QP_SQ_HEAD 0 q
/-- An index register. -/
def State.cqTail (s : State) (q : Nat) : Nat := s.regN .RDO_QP_CQ_TAIL 0 q

/-- R166. A write is ignored. -/
def State.qpIgn (s : State) (q : Nat) : State := s.setFlag F.RDO_QP_STAT_WR_IGN true 0 q

/-- R160. The device writes words 4..6 of the doorbell record. -/
def State.dbWrite (s : State) (q : Nat) : State :=
  s.stBytes (s.qpHost q + s.regN .RDO_QP_DB 0 q + 16)
    (natBytes 4 (s.regN .RDO_QP_JSEQ 0 q) ++ natBytes 4 (s.sqHead q + (s.qp q).epoch % 2 ^ 16 * 2 ^ 16) ++
      natBytes 4 (s.regN .RDO_QP_DSEQ 0 q))

/-- R160, R162. The device writes word 2 of the doorbell record: WAKE. -/
def State.wakeWrite (s : State) (q : Nat) (b : Bool) : State :=
  s.stN (s.qpHost q + s.regN .RDO_QP_DB 0 q + 8) 4 (b2n b)

/-! ### Descriptors (R155, R156) -/

/-- A word of a descriptor. -/
def QDesc.w (d : QDesc) (n : Nat) : Nat := (d.words.getD n 0).toNat
/-- OPCODE. -/
def QDesc.op (d : QDesc) : Nat := d.w 0 % 256
/-- FENCE. -/
def QDesc.fence (d : QDesc) : Bool := bitOf (d.w 0) 8
/-- EVT. -/
def QDesc.evt (d : QDesc) : Bool := bitOf (d.w 0) 9
/-- SEQ. -/
def QDesc.seq (d : QDesc) : Word := d.words.getD 1 0
/-- Words lo..15 are 0. -/
def QDesc.zeroFrom (d : QDesc) (lo : Nat) : Bool := (List.range (16 - lo)).all fun i => d.w (lo + i) == 0

/-- R155. A descriptor's opcode is not permitted, or a field fails its range. -/
def State.descBad (s : State) (q : Nat) (d : QDesc) : Bool :=
  let event := s.flag F.RDO_QP_CFG_TYPE 0 q
  let ok := d.w 0 / 2 ^ 10 == 0 && match d.op with
    | 0 => d.zeroFrom 4
    | 1 => !event && s.accValid ((d.words.drop 4).take 8) && d.zeroFrom 12
    | 2 => event && d.w 4 % 64 == 0 && d.w 6 % 64 == 0 && decide (64 ≤ d.w 6) && decide (d.w 6 < 2 ^ 24) && d.zeroFrom 7
    | 3 => !event && d.w 4 == d.w 4 % 2 ^ 13 + bitsOf (d.w 4) 16 3 * 2 ^ 16 && decide (1 ≤ bitsOf (d.w 4) 16 3) &&
        decide (bitsOf (d.w 4) 16 3 ≤ 6) && d.w 5 == 0 && d.w 6 == 0 && d.w 7 == 0 &&
        (bitsOf (d.w 4) 16 3 == 1 || d.zeroFrom 8)
    | 4 | 5 => !event && d.w 7 == d.w 7 % 8 + bitsOf (d.w 7) 8 5 * 2 ^ 8 && d.w 8 % 64 == 0 && decide (d.w 8 < 2 ^ 24) &&
        d.zeroFrom 9
    | 6 => !event && decide (d.w 4 < 2 ^ 13) && d.w 5 == 0 && decide (d.w 7 < 2 ^ 16) && d.zeroFrom 8
    | _ => false
  !ok

/-! ### Completions (R157, R158) -/

/-- R158, R160, R177. Write the next completion record, then DSEQ and the doorbell words. -/
def State.cplWrite (s : State) (q : Nat) (d : QDesc) (seq : Word) (r : Nat × Nat × Nat) : State :=
  let i := s.cqTail q
  let log2 := s.fld F.RDO_QP_CFG_CQ_LOG2 0 q
  let phase := if i / 2 ^ log2 % 2 = 0 then 1 else 0
  let w1 := d.op + r.1 * 2 ^ 8 + q * 2 ^ 16 + phase * 2 ^ 31
  let ws : List Nat := [seq.toNat, w1, d.w 2, d.w 3, r.2.1, r.2.2, (loWord s.time).toNat, (hiWord s.time).toNat]
  let s := s.stBytes (s.qpHost q + s.regN .RDO_QP_CQ_BASE 0 q + 32 * (i % 2 ^ log2)) (ws.flatMap fun w => natBytes 4 w)
  let s := s.setRegN .RDO_QP_CQ_TAIL ((i + 1) % 2 ^ 16) 0 q |>.setRegN .RDO_QP_DSEQ seq.toNat 0 q
  let s := s.dbWrite q
  if d.evt && s.flag F.RDO_QP_CFG_IRQ_EN 0 q then s.device (s.fld F.RDO_QP_CFG_EVSRC 0 q) else s

/-- R150, Table 6.9. An event with a loss flag. -/
def Event.partial' (e : Event) : Bool := bitsOf e.flags 1 5 != 0

/-- The ACCEPT that submitted an event may complete. -/
def State.acceptDone (s : State) (e : Event) : State :=
  match e.qp with
  | none => s
  | some (q, seq) =>
    let x := s.qp q
    s.setQp q { x with
      acc := x.acc.map fun (d : QDesc) =>
        if d.seq = seq then { d with result := some (b2n e.partial', 0, e.num % 2 ^ 32) } else d }

/-- R143, R151, R152. An event has been delivered: it is counted, its set's REF falls, and the ACCEPT that submitted it may
complete. -/
def State.eventFinish (s : State) (e : Event) : State :=
  let s := { s with events := s.events.filter fun x => x.num != e.num }
  let s := if accSingle e.words then s
    else s.setFld F.RDO_SSET_REF_REF (s.fld F.RDO_SSET_REF_REF 0 (accSset e.words) - 1) 0 (accSset e.words)
  let s := s.addFld F.RDO_EV_CNT_COUNT 1
  let s := if e.partial' then (s.addFld F.RDO_EV_PARTIAL_COUNT 1).device 1025 else s
  (s.acceptDone e).rdoShow.jrnlWritten

/-- R152, R153. The last frame of an event has been handed to the MAC. An event of the port is over; one of an ACCEPT
completes with it, and is over when the completion is written. -/
def State.eventSent (s : State) (e : Event) : State :=
  if e.qp.isNone then s.eventFinish e
  else
    ({ s with events := s.events.map fun (x : Event) => if x.num = e.num then { x with pos := e.bytes.length, sent := true } else x
       }.acceptDone e).jrnlWritten

/-- R164, R173. A queue pair with nothing accepted left leaves DRAINING, or enters ERROR after a failure. While it recovers
from a COLD reset, descriptors accepted before it are not completed (R170). -/
def State.qpSettle (s : State) (q : Nat) : State :=
  let x := s.qp q
  if !x.acc.isEmpty || x.cold then s
  else if s.qpState q = 3 then (s.setQp q { x with failing := false }).setQpState q 0
  else if x.failing ∧ s.qpState q = 1 then s.setQpState q 4
  else s

/-- R157, R158. The oldest accepted descriptor completes, once it has its outcome. -/
def State.cplNext (s : State) (q : Nat) : State :=
  match (s.qp q).acc with
  | [] => s
  | d :: ds =>
    match d.result with
    | none => s
    | some r =>
      if !s.qpWorks q then s
      else
        let s := s.setQp q { s.qp q with acc := ds }
        let s := s.cplWrite q d d.seq r
        let s := match s.events.find? fun e => (accDest e.words == q && e.last == some d.seq) ||
            (e.sent && e.qp == some (q, d.seq)) with
          | some e => s.eventFinish e
          | none => s
        (s.qpSettle q).rdoShow.jrnlWritten

/-- R158. A completion record is written. -/
def execCompletionWrite (q : Nat) (s : State) : Host.Outcome State Fault Refusal := .next (s.cplNext q)

/-! ### Polling and sleep (R161..R163) -/

/-- R161, R162. A doorbell record has been fetched, with SQ_TAIL and CQ_HEAD. A queue pair that is to enter ERROR does not
fall asleep. -/
def State.dbFetch (s : State) (q tail head : Nat) : State :=
  if s.qpState q ≠ 1 then s
  else
    let x := { s.qp q with tail := tail % 2 ^ 16, head := head % 2 ^ 16 }
    let idle := decide (x.tail = s.sqHead q)
    if x.failing then s.setQp q x
    else if x.wake then
      if idle then (s.setQp q { x with wake := false, polls := 0 }).setQpState q 2
      else (s.wakeWrite q false).setQp q { x with wake := false, polls := 0 }
    else if idle then
      if s.fld F.RDO_POLL_IDLE_POLLS ≤ x.polls + 1 then (s.wakeWrite q true).setQp q { x with wake := true, polls := 0 }
      else s.setQp q { x with polls := x.polls + 1 }
    else s.setQp q { x with polls := 0 }

/-- R161. A doorbell fetch. -/
def execDoorbellFetch (q : Nat) (tail head : Word) (s : State) : Host.Outcome State Fault Refusal :=
  .next (s.dbFetch q tail.toNat head.toNat)

/-- R161. How many descriptors the next fetch may take: at most 32, and not past the tail or the ring's end. -/
def State.fetchRoom (s : State) (q : Nat) : Nat :=
  let x := s.qp q
  let i := (s.sqHead q + x.fetched.length) % 2 ^ 16
  let n := 2 ^ s.fld F.RDO_QP_CFG_SQ_LOG2 0 q
  min 32 (min ((x.tail + 2 ^ 16 - i) % 2 ^ 16) (n - i % n))

/-- R161. Descriptors have been fetched. -/
def execDescriptorFetch (q : Nat) (descs : List (List Word)) (s : State) : Host.Outcome State Fault Refusal :=
  let x := s.qp q
  if s.qpState q = 1 ∧ ¬ x.failing then
    .next (s.setQp q { x with fetched := x.fetched ++ (descs.take (s.fetchRoom q)).map fun w =>
      (⟨w, false, none, 0⟩ : QDesc) })
  else .next s

/-- R163. A write of RDO_NUDGE_q. -/
def State.nudge (s : State) (q : Nat) : State :=
  let x := s.qp q
  if s.qpState q = 2 ∨ (s.qpState q = 1 ∧ x.wake) then
    ((s.wakeWrite q false).setQp q { x with wake := false, polls := 0 }).setQpState q 1
  else s.addFld F.RDO_NUDGE_IGN_COUNT 1

/-- R163. A nudge. -/
def execRdoNudge (q : Nat) (s : State) : Host.Outcome State Fault Refusal := .next (s.nudge q)

/-! ### Acceptance (R156, R159, R167) -/

/-- R156, R164. The queue pair fails: it accepts nothing more, and enters ERROR once every accepted descriptor has
completed. -/
def State.qpFail (s : State) (q : Nat) : State :=
  if s.qpState q = 1 then
    (s.setQp q { s.qp q with failing := true, fetched := [] }).qpSettle q
  else s

/-- R156, R159, R167, R174. The oldest fetched descriptor is accepted, when nothing holds it back. -/
def State.descAccept (s : State) (q : Nat) : State :=
  let x := s.qp q
  match x.fetched with
  | [] => s
  | d :: ds =>
    let want := (s.regN .RDO_QP_JSEQ 0 q + 1) % 2 ^ 32
    if s.qpState q ≠ 1 ∨ x.failing ∨ ¬ s.fnUsable (s.qpFn q) then s
    else if d.seq.toNat ≠ want then
      (s.setFld F.RDO_QP_STAT_ERR 5 0 q |>.setRegN .RDO_QP_ERR_SEQ want 0 q).qpFail q
    else
      let bad := s.descBad q d
      if d.op = 1 ∧ ¬ s.flag F.RDO_CTL_EN then s
      else if 2 ^ s.fld F.RDO_QP_CFG_CQ_LOG2 0 q ≤ x.acc.length + (s.cqTail q + 2 ^ 16 - x.head) % 2 ^ 16 then s
      else if ¬ s.jrnlOk then s
      else if ¬ s.jrnlRoom then s.jrnlWait
      else
        let d := if bad then { d with result := some (4, 0, 0) } else d
        let s := s.setQp q { x with fetched := ds, acc := x.acc ++ [d] }
        let s := s.setRegN .RDO_QP_SQ_HEAD ((s.sqHead q + 1) % 2 ^ 16) 0 q |>.setRegN .RDO_QP_JSEQ want 0 q
        (s.dbWrite q).rdoShow.jrnlWritten

/-- R167. A descriptor is accepted. -/
def execDescAccepted (q : Nat) (s : State) : Host.Outcome State Fault Refusal := .next (s.descAccept q)

/-! ### Descriptors at work (R155, R157) -/

/-- R157. The accepted descriptor of a SEQ may start: a FENCE waits for every earlier one to complete, and ACCEPT, POST_BUF
and STREAM_CTL start in SEQ order. -/
def State.descReady (s : State) (q : Nat) (seq : Word) (op : Nat) : Option QDesc :=
  let acc := (s.qp q).acc
  match acc.find? fun d => d.seq == seq with
  | none => none
  | some d =>
    let earlier := acc.takeWhile fun e => e.seq != seq
    if d.op = op && d.result.isNone && !d.started && s.qpWorks q && (!d.fence || earlier.isEmpty) &&
        !([1, 2, 3].contains op && earlier.any fun e => e.op == op && !e.started && e.result.isNone) then some d
    else none

/-- Replace the accepted descriptor of a SEQ. -/
def State.putDesc (s : State) (q : Nat) (d : QDesc) : State :=
  let x := s.qp q
  s.setQp q { x with acc := x.acc.map fun (e : QDesc) => if e.seq = d.seq then d else e }

/-- A descriptor ends with an outcome. -/
def State.descEnd (s : State) (q : Nat) (d : QDesc) (status result result2 : Nat) : State :=
  s.putDesc q { d with started := true, result := some (status, result, result2) }

/-- R155. NOP. -/
def execDescNop (q : Nat) (seq : Word) (s : State) : Host.Outcome State Fault Refusal :=
  match s.descReady q seq 0 with
  | some d => .next (s.descEnd q d 0 0 0)
  | none => .next s

/-- R155. ACCEPT: the accept goes to the journal; it waits while the intake is full. -/
def execDescAccept (q : Nat) (seq : Word) (s : State) : Host.Outcome State Fault Refusal :=
  match s.descReady q seq 1 with
  | some d =>
    if 1024 ≤ s.accIn.length + (s.events.filter fun e => !e.building).length then .next s
    else .next ({ s with accIn := s.accIn ++ [(⟨(d.words.drop 4).take 8, some (q, seq), none⟩ : AccIn)] }.putDesc q
      { d with started := true })
  | none => .next s

/-- R155. POST_BUF: the buffer is posted. -/
def execDescPostBuf (q : Nat) (seq : Word) (s : State) : Host.Outcome State Fault Refusal :=
  match s.descReady q seq 2 with
  | some d => .next (s.putDesc q { d with started := true })
  | none => .next s

/-- R82. A stream command by descriptor is applied: the image of ENABLE is written first. -/
def State.strmApply (s : State) (q : Nat) (d : QDesc) : State :=
  let p := d.w 4 % 2 ^ 13 / 256
  let i := d.w 4 % 256
  let op := bitsOf (d.w 4) 16 3
  let s := if op = 1 then foldS (fun w s => s.sentWrite p i w (d.w (8 + w))) (List.range 8) s else s
  let s := s.strmCmd p i op
  let e := s.fld F.GATE_STRM_CMD_STAT_ERR p
  s.descEnd q d (if e = 0 then 0 else 6) e 0

/-- The stream descriptors that wait at a gatehouse for BUSY to clear, oldest first: queue pair and SEQ (R82). -/
def State.strmHeld (s : State) (p : Nat) : List (Nat × Word) := tget s.strmWait p []

/-- R82. A stream command by descriptor reaches the owning gatehouse: it is applied, or waits there for BUSY to clear. -/
def State.descStream (s : State) (q : Nat) (d : QDesc) : State :=
  let p := d.w 4 % 2 ^ 13 / 256
  if s.isolated p || s.portClosed p 112 then s
  else if s.flag F.GATE_STRM_CMD_STAT_BUSY p then
    { s with strmWait := tput s.strmWait p (s.strmHeld p ++ [(q, d.seq)]) }.putDesc q { d with started := true }
  else s.strmApply q d

/-- R82. STREAM_CTL: it reaches the owning gatehouse. -/
def execDescStreamCtl (q : Nat) (seq : Word) (s : State) : Host.Outcome State Fault Refusal :=
  match s.descReady q seq 3 with
  | some d => .next (s.descStream q d)
  | none => .next s

/-- R80, R82. The gatehouse has completed a stream command: BUSY clears, and the descriptor that waits longest is applied
before any command that comes later. -/
def State.strmCmdDone (s : State) (p : Nat) : State :=
  let s := s.setFlag F.GATE_STRM_CMD_STAT_BUSY false p
  match s.strmHeld p with
  | [] => s
  | (q, seq) :: l =>
    let s := { s with strmWait := tput s.strmWait p l }
    match (s.qp q).acc.find? fun d => d.seq == seq && d.op == 3 && d.result.isNone with
    | some d => s.strmApply q d
    | none => s

/-- R80. The gatehouse has completed a stream command. -/
def execGateStrmCmdDone (p : Nat) (s : State) : Host.Outcome State Fault Refusal := .next (s.strmCmdDone p)

/-- The 35-bit dome address of a DOME_READ or DOME_WRITE descriptor (Table 6.7). -/
def QDesc.domeAddr (d : QDesc) : Nat := d.w 6 + d.w 7 % 8 * 2 ^ 32

/-- R155, R456. Copy dome lines to the host from byte n on; a poisoned line ends the copy. -/
def State.domeToHost (q : Nat) (d : QDesc) : Nat → Nat → State → State
  | 0, n, s => s.descEnd q d 0 n 0
  | fuel + 1, n, s =>
    match s.domeRead (bitsOf (d.w 7) 8 5) (d.domeAddr + n) 64 with
    | (.ok, false, bytes, s) =>
      State.domeToHost q d fuel (n + 64) (s.stBytes (s.qpHost q + (d.w 4 + d.w 5 * 2 ^ 32) + n) bytes)
    | (_, _, _, s) => s.descEnd q d 5 n 0

/-- R155. DOME_READ. -/
def execDescDomeRead (q : Nat) (seq : Word) (s : State) : Host.Outcome State Fault Refusal :=
  match s.descReady q seq 4 with
  | some d => .next (State.domeToHost q d (d.w 8 / 64) 0 s)
  | none => .next s

/-- The node of the readout engine (R171). -/
def State.rdoNode (s : State) : Nat := if s.flag F.RDO_STAT_INST then 36 else 32

/-- R155, R456. Copy host lines to the dome from byte n on: a poisoned line is stored as poison and ends the copy, and a
failed read ends it too and fails the queue pair. -/
def State.hostToDome (q : Nat) (d : QDesc) : List HostLine → Nat → State → State
  | [], n, s => s.descEnd q d 0 n 0
  | l :: ls, n, s =>
    let p := bitsOf (d.w 7) 8 5
    match l with
    | .failed => (s.descEnd q d 5 n 0).qpFail q
    | .poison =>
      let r := s.domeWrite p (d.domeAddr + n) (List.replicate 64 (0 : Byte)) true s.rdoNode 16
      r.2.descEnd q d 5 n 0
    | .good bytes =>
      match s.domeWrite p (d.domeAddr + n) ((bytes ++ List.replicate 64 (0 : Byte)).take 64) false s.rdoNode 16 with
      | (.ok, s) => State.hostToDome q d ls (n + 64) s
      | (_, s) => s.descEnd q d 5 n 0

/-- R155. DOME_WRITE, with what the host returned for each of its lines. -/
def execDescDomeWrite (q : Nat) (seq : Word) (lines : List HostLine) (s : State) : Host.Outcome State Fault Refusal :=
  match s.descReady q seq 5 with
  | some d => if lines.length = d.w 8 / 64 then .next (State.hostToDome q d lines 0 s) else .next s
  | none => .next s

/-- R155. Write HOLD of the ring that a stream has in a dome. -/
def State.holdSetRing (s : State) (p stream : Nat) (twin : Bool) (v : Nat) : State :=
  match s.ringFor p stream twin with
  | some r => s.setRegN .DOME_RING_HOLD v p r
  | none => s

/-- R155. HOLD_SET. -/
def execDescHoldSet (q : Nat) (seq : Word) (s : State) : Host.Outcome State Fault Refusal :=
  match s.descReady q seq 6 with
  | some d =>
    let n := d.w 4
    let v := d.w 6 + d.w 7 * 2 ^ 32
    let s := s.holdSetRing (n / 256) n false v
    let s := if s.entAssured (n / 256) (n % 256) then s.holdSetRing (s.entTwin (n / 256) (n % 256)) n true v else s
    .next (s.descEnd q d 0 0 0)
  | none => .next s

/-! ### Delivery to host memory (R149, R151) -/

/-- R149, R151. The oldest event of an EVENT queue pair, once built, fills its next posted buffer. -/
def State.eventDeliver (s : State) (q : Nat) : State :=
  match s.events.find? fun e => accDest e.words == q with
  | none => s
  | some e =>
    match (s.qp q).acc.find? fun d => d.op == 2 && d.started && d.result.isNone with
    | none => s
    | some d =>
      if !e.built || e.last.isSome || !s.qpWorks q then s
      else
        let part := (e.bytes.drop e.pos).take (d.w 6)
        let eoe := decide (e.pos + part.length = e.bytes.length)
        let s := s.stBytes (s.qpHost q + (d.w 4 + d.w 5 * 2 ^ 32)) part
        let s := s.putDesc q { d with
          before := e.pos
          result := some (0, part.length + b2n (e.pos == 0) * 2 ^ 24 + b2n eoe * 2 ^ 25, e.num % 2 ^ 32) }
        s.onEvent e.num fun e => { e with pos := e.pos + part.length, last := if eoe then some d.seq else none }

/-- R151. An event goes into its next buffer. -/
def execEventDeliver (q : Nat) (s : State) : Host.Outcome State Fault Refusal := .next (s.eventDeliver q)

/-! ### Registers, set-up, recovery and disabling (R164..R173) -/

/-- R166. A write of a base or doorbell address register. -/
def State.qpWordWrite (s : State) (q : Nat) (id : RegId) (v : DWord) : State :=
  if s.qpState q = 0 then s.setReg id (v &&& id.row.rw) 0 q else s.qpIgn q

/-- R164, R166. A write of RDO_QP_q_CFG: in STALLED it takes FUNC alone, and sets WR_IGN where the other fields differ from
those held (DEDUCED, assumption 155). -/
def State.qpCfgWrite (s : State) (q v : Nat) : State :=
  if s.qpState q = 0 then s.setRegN .RDO_QP_CFG (bitsOf v 0 22) 0 q
  else if s.qpState q = 5 then
    let f := bitsOf v 10 2
    let s := s.setFld F.RDO_QP_CFG_FUNC f 0 q
    let s := if bitsOf v 0 22 = s.regN .RDO_QP_CFG 0 q then s else s.qpIgn q
    if s.fnUsable f then (s.setQpState q 1).qpSettle q else s
  else s.qpIgn q

/-- The queue-pair registers that are pairs. -/
def qpPair (id : RegId) : Bool := id == .RDO_QP_SQ_BASE || id == .RDO_QP_CQ_BASE || id == .RDO_QP_DB

/-- R166. A write of a register of a queue pair that software only reads: while the queue pair is not DISABLED it sets
WR_IGN. -/
def State.qpRoWrite (s : State) (q : Nat) : State := if s.qpState q = 0 then s else s.qpIgn q

/-- R165. The first check that enabling a queue pair fails, 0 when none does; `db` is the doorbell record, where it could
be read. -/
def State.qpCheck (s : State) (q : Nat) (db : Option (List Word)) : Nat :=
  let sq := s.fld F.RDO_QP_CFG_SQ_LOG2 0 q
  let cq := s.fld F.RDO_QP_CFG_CQ_LOG2 0 q
  let f := s.qpFn q
  if sq < 4 ∨ cq < 4 then 1
  else if s.regN .RDO_QP_SQ_BASE 0 q % 4096 ≠ 0 ∨ s.regN .RDO_QP_CQ_BASE 0 q % 4096 ≠ 0 ∨
      s.regN .RDO_QP_DB 0 q % 32 ≠ 0 then 2
  else if !s.flag F.PCIE_FN_CFG_EN 0 f || !s.flag F.PCIE_FN_STAT_BME 0 f then 3
  else match db with
    | none => 6
    | some w =>
      let g (n : Nat) : Nat := (w.getD n 0).toNat
      let owed := (g 4 + 2 ^ 32 - g 6) % 2 ^ 32
      if 2 ^ 31 ≤ owed ∨ 2 ^ 15 ≤ (g 0 % 2 ^ 16 + 2 ^ 32 + owed - g 5 % 2 ^ 16) % 2 ^ 16 then 4 else 0

/-- R165, R170. EN = 1 with ABORT of no account: a disabled queue pair is checked and runs, or recovers. -/
def State.qpEnable (s : State) (q : Nat) (db : Option (List Word)) : State :=
  if s.qpState q ≠ 0 then s
  else
    let e := s.qpCheck q db
    let s := s.setFld F.RDO_QP_STAT_ERR e 0 q
    match db with
    | none => s.setFlag F.RDO_QP_CTL_EN false 0 q
    | some w =>
      if e ≠ 0 then s.setFlag F.RDO_QP_CTL_EN false 0 q
      else
        let g (n : Nat) : Nat := (w.getD n 0).toNat
        let owed := (g 4 + 2 ^ 32 - g 6) % 2 ^ 32
        let s := s.setFlag F.RDO_QP_CTL_EN true 0 q |>.setRegN .RDO_QP_SQ_HEAD (g 5 % 2 ^ 16) 0 q
          |>.setRegN .RDO_QP_JSEQ (g 4) 0 q |>.setRegN .RDO_QP_DSEQ (g 6) 0 q
          |>.setRegN .RDO_QP_CQ_TAIL ((g 5 % 2 ^ 16 + 2 ^ 32 - owed) % 2 ^ 16) 0 q
        let x := { QPair.empty with tail := g 0 % 2 ^ 16, head := g 1 % 2 ^ 16, epoch := g 5 / 2 ^ 16 }
        if owed = 0 then (s.setQp q x).setQpState q 1
        else (s.setQp q { x with cold := true, epoch := (x.epoch + 1) % 2 ^ 16 }).setQpState q 6

/-- R165. A write of CTL with EN = 1; `db` is the doorbell record the device reads. -/
def execQpEnable (q : Nat) (db : Option (List Word)) (s : State) : Host.Outcome State Fault Refusal :=
  .next ((s.qpEnable q db).setH .qpAsked 0 q)

/-- R170. One SEQ of a recovery: a record already written is kept; else its descriptor completes as LOST_DATA, or OK for
NOP. -/
def State.recoverOne (s : State) (q : Nat) (e : List Word × List Word) : State :=
  let i := s.cqTail q
  let phase := i / 2 ^ s.fld F.RDO_QP_CFG_CQ_LOG2 0 q % 2 == 0
  let seq : Word := BitVec.ofNat 32 (s.regN .RDO_QP_DSEQ 0 q + 1)
  let d : QDesc := ⟨e.2, false, none, 0⟩
  if e.1.getD 0 0 = seq && bitOf (e.1.getD 1 0).toNat 31 == phase then
    (s.setRegN .RDO_QP_CQ_TAIL ((i + 1) % 2 ^ 16) 0 q |>.setRegN .RDO_QP_DSEQ seq.toNat 0 q).dbWrite q
  else s.cplWrite q d seq (if d.op = 0 then 0 else 2, 0, 0)

/-- R169, R170, R173. A queue pair in RECOVER has written its completions and runs, or is DISABLED when it drains. After a COLD reset `slots` gives, for each SEQ
from DSEQ + 1 to JSEQ, the completion slot and the submission slot read; after a WARM reset its own work must be done,
but for buffers that wait for events. -/
def State.qpRecovered (s : State) (q : Nat) (slots : List (List Word × List Word)) : State :=
  let x := s.qp q
  if (s.qpState q ≠ 6 ∧ s.qpState q ≠ 3) ∨ ¬ s.fnUsable (s.qpFn q) then s
  else if x.cold then
    let drain := s.qpState q == 3
    if slots.length = (s.regN .RDO_QP_JSEQ 0 q + 2 ^ 32 - s.regN .RDO_QP_DSEQ 0 q) % 2 ^ 32 then
      let s := foldS (fun e s => s.recoverOne q e) slots s
      let s := s.setQp q { s.qp q with cold := false }
      if drain then s.qpSettle q else s.setQpState q 1
    else s
  else if s.qpState q = 6 && x.acc.all (fun d => d.op == 2 && d.started && d.result.isNone) then
    (s.setQpState q 1).qpSettle q
  else s

/-- R170. Recovery of a queue pair is over. -/
def execQpRecoverDone (q : Nat) (slots : List (List Word × List Word)) (s : State) : Host.Outcome State Fault Refusal :=
  .next (s.qpRecovered q slots)

/-- R173. EN = 0: acceptance stops, and the queue pair drains. -/
def State.qpDisable (s : State) (q : Nat) : State :=
  let s := s.setFlag F.RDO_QP_CTL_EN false 0 q
  if s.qpState q = 0 then s
  else ((s.setQp q { s.qp q with fetched := [], wake := false }).setQpState q 3).qpSettle q

/-- R173. A write of CTL with EN = 0. -/
def execQpDisable (q : Nat) (s : State) : Host.Outcome State Fault Refusal := .next (s.qpDisable q)

/-- R173. ABORT while DISABLED: every descriptor from SQ_HEAD up to the tail completes as ABORTED, each journalled; `descs`
gives their submission slots in order. In any other state the ABORT is ignored, and EN = 0 acts. -/
def State.qpAbort (s : State) (q : Nat) (descs : List (List Word)) : State :=
  if s.qpState q ≠ 0 then (s.qpDisable q).qpIgn q
  else if ¬ s.jrnlOk then s
  else (foldS (fun w s =>
      let seq : Word := BitVec.ofNat 32 (s.regN .RDO_QP_JSEQ 0 q + 1)
      let s := s.setRegN .RDO_QP_SQ_HEAD ((s.sqHead q + 1) % 2 ^ 16) 0 q |>.setRegN .RDO_QP_JSEQ seq.toNat 0 q
      s.cplWrite q (⟨w, false, none, 0⟩ : QDesc) seq (3, 0, 0)) descs s).jrnlWritten

/-- R173. A write of CTL with ABORT = 1 and EN = 0. -/
def execQpAbort (q : Nat) (descs : List (List Word)) (s : State) : Host.Outcome State Fault Refusal :=
  .next ((s.qpAbort q descs).setH .qpAsked 0 q)

/-- R8, R165, R173. A register write of RDO_QP_q_CTL. EN takes the bit written. EN = 1 and, at EN = 0, ABORT of a DISABLED
queue pair ask the host for what QP_ENABLE and QP_ABORT then bring (DESIGN CHOICE, assumption 53). EN = 1 wins over ABORT,
which outside DISABLED is ignored and sets WR_IGN. -/
def State.qpCtlWrite (s : State) (q v : Nat) : State :=
  let idle := s.qpState q == 0
  let s := if bitOf v 1 && !idle then s.qpIgn q else s
  if bitOf v 0 then
    let s := s.setFlag F.RDO_QP_CTL_EN true 0 q
    if idle then s.setH .qpAsked 1 q else s
  else
    let s := s.qpDisable q
    if idle then s.setH .qpAsked (if bitOf v 1 then 2 else 0) q else s

/-- R153, R169. A buffer whose completion is not written is filled again, and an ACCEPT of the farm whose completion is not
written waits for its event to be sent again. -/
def State.descRefill (s : State) (q : Nat) (d : QDesc) : QDesc :=
  if d.op = 2 ∨ (s.events.any fun e => e.sent && e.qp == some (q, d.seq)) then { d with result := none } else d

/-- R169. Where an event's bytes resume: at its first buffer whose completion is not written. -/
def State.eventResume (s : State) (e : Event) : Nat :=
  (s.qps.flatMap fun x => x.2.acc.filter fun d => match d.result with
    | some r => d.op == 2 && r.2.2 == e.num % 2 ^ 32
    | none => false).foldl (fun m d => min m d.before) e.pos

/-- R153, R169. An event in build is gathered again from its start, and goes into the same buffers; one for the farm is
sent from offset 0 with RESEND. -/
def Event.restart (e : Event) (pos : Nat) : Event :=
  let e := { e with resend := e.resend || decide (4096 ≤ accDest e.words) }
  if !e.building then e
  else { e with
    sects := e.sects.map fun x => { x with
      next := none
      rd := none
      held := 0
      homeFlag := 0
      flags := 0
      frags := []
      done := false }
    built := false
    bytes := []
    flags := 0
    pos := if accDest e.words < 4096 then pos else 0
    last := none
    readAt := none
    sent := false }

/-- R169, R171. Events in build restart. -/
def State.eventsRestart (s : State) : State :=
  let evs := s.events.map fun e => e.restart (s.eventResume e)
  let reads := s.events.flatMap fun e => e.sects.filterMap fun x => x.rd.map RingRd.txn
  { s with
    events := evs
    domeTxns := s.domeTxns.filter fun (e : Nat × DomeTxn) => !reads.contains e.1
    qps := s.qps.map fun x => (x.1, { x.2 with acc := x.2.acc.map (s.descRefill x.1) }) }

/-- R455, R164. The queue pairs of a function that is no longer usable stall. -/
def State.qpsStall (s : State) (f : Nat) : State :=
  foldS (fun q s =>
    if (s.qpState q = 1 ∨ s.qpState q = 2) ∧ s.qpFn q = f then
      (s.setQp q { s.qp q with fetched := [], wake := false }).setQpState q 5
    else s) (tkeys s.qps) s

end Sys2Proof.Machine
end

