-- ==== Sys2Proof/Machine/Prm.lean ====
section
/-!
DEFINITION. The Promenade network: packets, routers, fences and isolation (R313..R329, R332, R333).
-/
namespace Sys2Proof.Machine

/-! ### Packets (R314..R316) -/

/-- A word of a packet, as a number. -/
def pw (w : List Word) (n : Nat) : Nat := (w.getD n 0).toNat
/-- CLASS (Table 12.2). -/
def pktClass (w : List Word) : Nat := pw w 0 % 8
/-- OP. -/
def pktOp (w : List Word) : Nat := bitsOf (pw w 0) 3 5
/-- DST. -/
def pktDst (w : List Word) : Nat := bitsOf (pw w 0) 8 6
/-- SRC. -/
def pktSrc (w : List Word) : Nat := bitsOf (pw w 0) 14 6
/-- PORT. -/
def pktPort (w : List Word) : Nat := bitsOf (pw w 0) 20 7
/-- HINT. -/
def pktHint (w : List Word) : Nat := bitsOf (pw w 0) 27 2
/-- POISON. -/
def pktPoison (w : List Word) : Bool := bitOf (pw w 0) 29
/-- NP. -/
def pktNp (w : List Word) : Bool := bitOf (pw w 0) 30
/-- The 48-bit address of a request. -/
def pktAddr (w : List Word) : Nat := pw w 1 + pw w 2 % 2 ^ 16 * 2 ^ 32
/-- LEN. -/
def pktLen (w : List Word) : Nat := bitsOf (pw w 2) 16 7
/-- TAG. -/
def pktTag (w : List Word) : Nat := bitsOf (pw w 2) 23 8
/-- DECL. -/
def pktDecl (w : List Word) : Nat := pw w 3 % 2 ^ 12
/-- AFN. -/
def pktAfn (w : List Word) : Nat := pw w 3 % 16
/-- PEEK. -/
def pktPeek (w : List Word) : Bool := pktClass w == 4 && bitOf (pw w 3) 4
/-- DST_PORT of a response. -/
def pktDstPort (w : List Word) : Nat := bitsOf (pw w 1) 4 7
/-- STATUS of a response. -/
def pktStatus (w : List Word) : Nat := pw w 1 % 16
/-- The payload. -/
def pktPayload (w : List Word) : List Word := w.drop 4

/-- R314. The flits of a packet. -/
def pktFlits (w : List Word) : Nat := cdiv (4 * w.length) 64

/-- A packet that expects a response (Table 12.3). -/
def pktNonPosted (w : List Word) : Bool :=
  pktClass w != 1 && (pktOp w == 1 || pktOp w == 3 || (pktOp w == 2 && pktNp w))

/-- R314, R315. A packet keeps the rules of its class and operation. An ATOMIC accesses one word, whatever its payload. -/
def pktOk (w : List Word) : Bool :=
  let c := pktClass w
  let op := pktOp w
  let n := pktLen w
  let payload := w.length - 4
  decide (4 ≤ w.length) && decide (c ≤ 4) && !bitOf (pw w 0) 31 && !bitOf (pw w 2) 31 &&
    (if c = 1 then [8, 9, 10].contains op && payload == n && pw w 3 / 256 == 0 && decide (n ≤ 64)
    else
      (pktAddr w % 4 == 0) && decide (pktAddr w % 256 + (if op = 3 then 4 else 4 * n) ≤ 256) &&
      ((c != 0 && c != 4) || pw w 3 / 32 == 0) &&
      (match op with
        | 1 => (c == 0 || c == 4) && payload == 0 && decide (1 ≤ n) && decide (n ≤ 64)
        | 2 => payload == n && decide (1 ≤ n) && decide (n ≤ 64)
        | 3 => (c == 0 || c == 4) && payload == n &&
            n == (if pktAfn w = 0 then 0 else if pktAfn w = 8 then 2 else 1) && decide (pktAfn w ≤ 8)
        | _ => false))

/-- R314. The injecting router writes SRC, PORT and, in the real-time class, STAMP. -/
def pktStamp (n port : Nat) (now : Time) (w : List Word) : List Word :=
  let w0 := setBitsOf (setBitsOf (pw w 0) 14 6 n) 20 7 port
  let w := listSet w 0 (BitVec.ofNat 32 w0)
  if pktClass w = 2 then listSet w 3 (BitVec.ofNat 32 (setBitsOf (pw w 3) 12 20 (now.toNat / 256))) else w

/-- R316, Table 12.4. The response to a request. -/
def pktResponse (req : List Word) (n port status result : Nat) (poison : Bool) (payload : List Word) : List Word :=
  let op := if pktOp req = 1 then 8 else if pktOp req = 2 then 9 else 10
  [BitVec.ofNat 32 (1 + op * 8 + pktSrc req * 2 ^ 8 + n * 2 ^ 14 + port * 2 ^ 20 + b2n poison * 2 ^ 29),
    BitVec.ofNat 32 (status + pktPort req * 16),
    BitVec.ofNat 32 (payload.length * 2 ^ 16 + pktTag req * 2 ^ 23),
    BitVec.ofNat 32 result] ++ payload

/-! ### Buffers -/

/-- The packets at an input. -/
def State.pIn (s : State) (n i : Nat) : List Flight := tget s.prmIn (n, i) []
/-- Replace them. -/
def State.setPIn (s : State) (n i : Nat) (l : List Flight) : State := { s with prmIn := tput s.prmIn (n, i) l }
/-- The packets at an output. -/
def State.pOut (s : State) (n o : Nat) : List Flight := tget s.prmOut (n, o) []
/-- Replace them. -/
def State.setPOut (s : State) (n o : Nat) (l : List Flight) : State := { s with prmOut := tput s.prmOut (n, o) l }
/-- The packets delivered at a node. -/
def State.pRx (s : State) (n : Nat) : List (List Word) := tget s.prmRx n []
/-- Replace them. -/
def State.setPRx (s : State) (n : Nat) (l : List (List Word)) : State := { s with prmRx := tput s.prmRx n l }
/-- The requests of a node that wait for a response. -/
def State.pReq (s : State) (n : Nat) : List (Nat × Nat) := tget s.prmReq n []
/-- Replace them. -/
def State.setPReq (s : State) (n : Nat) (l : List (Nat × Nat)) : State := { s with prmReq := tput s.prmReq n l }

/-- A packet enters a node's local input. -/
def State.prmPut (s : State) (n : Nat) (w : List Word) : State :=
  s.setPIn n localPort (s.pIn n localPort ++ [⟨w, localPort, pktClass w, 0, 0, none, pktFlits w, s.routerTime n, none⟩])

/-- A count of a pavilion's router; towers and annexes have none. -/
def State.prmCount (s : State) (f : Fld) (n : Nat) : State := if n < 32 then s.addFld f 1 n else s

/-- R315, R327, R329, R326. A unit's answer to a request goes back to its requester; an error is counted where it is
made. A posted packet is answered nothing. -/
def State.prmAnswer (s : State) (n port : Nat) (req : List Word) (status result : Nat) (poison : Bool) (payload : List Word) :
    State :=
  let s := if status = 0 then s else s.prmCount F.PRM_ERR_RSP_CNT_COUNT n
  if pktNonPosted req then s.prmPut n (pktResponse req n port status result poison payload) else s

/-- R329. A packet that cannot go on is answered, or absorbed and counted. -/
def State.prmRefuse (s : State) (n : Nat) (w : List Word) (st : Status) : State :=
  if pktNonPosted w then s.prmAnswer n 127 w st.code 0 false [] else s.prmCount F.PRM_ABSORB_CNT_COUNT n

/-- R183. The sources of Table 7.2 that a port of a node is. The packets of a tower's ports enter its Lartum ports; T0's
launch port is also the global CAMP block's. -/
def srcKinds (n port : Nat) : List (Nat × Nat) :=
  if n < 32 then
    if port < 64 then [(4, n + 32 * port)]
    else if port < 80 then [(5, 8 * n + (port - 64) / 2)]
    else if port < 112 then [(5, 8 * n + (port - 80) / 4)]
    else if port = 117 then [(6, n)] else []
  else if n < 40 then (1, n - 32) :: (if n = 32 ∧ port = 4 then [(6, 32)] else [])
  else [(8, n - 40)]

/-- R183. A real-time packet sent in the request class: its class, and a word 3 of that class. -/
def pktAsRequest (w : List Word) : List Word :=
  listSet (listSet w 0 (BitVec.ofNat 32 (setBitsOf (pw w 0) 0 3 0))) 3 0

/-- R183. A real-time packet whose declaration is not admitted from its source goes in the request class, and counts. -/
def State.prmStray (s : State) (n port : Nat) (w : List Word) : List Word × State :=
  if pktClass w = 2 ∧ ¬ (srcKinds n port).any fun k => s.declFrom (pktDecl w) k.1 k.2 then
    (pktAsRequest w, s.addFld F.ADM_STRAY_COUNT 1)
  else (w, s)

/-- R183, R314, R315, R327. A port of a node sends a packet: its status, and the network with it. -/
def State.prmSend (s : State) (n port : Nat) (w : List Word) : Status × State :=
  let w := pktStamp n port (s.nodeTime n) w
  if n < 32 ∧ s.portClosed n port then (.fenced, s)
  else if !pktOk w then
    if pktNonPosted w then (.bad, s.prmCount F.PRM_ERR_RSP_CNT_COUNT n) else (.bad, s.prmCount F.PRM_BAD_CNT_COUNT n)
  else
    let s := if pktNonPosted w then s.setPReq n (s.pReq n ++ [(port, pktTag w)]) else s
    let (w, s) := s.prmStray n port w
    (.ok, s.prmPut n w)

/-- R141, R143. The oldest accept on its way is held in the commit journal: it is accepted, and a port write is answered
OK. -/
def State.accAccepted (s : State) : State :=
  match s.accIn with
  | [] => s
  | a :: as =>
    if s.jrnlOk ∧ (s.events.filter fun e => !e.building).length < 1024 then
      let s := (({ s with accIn := as }).accJournal a).rdoShow.jrnlWritten
      match a.req with
      | some (n, w) => s.prmAnswer n 120 w 0 0 false []
      | none => s
    else s

/-- R143. The oldest accept on its way is held in the commit journal. -/
def execAcceptJournaled (s : State) : Host.Outcome State Fault Refusal := .next s.accAccepted

/-! ### Routing (R321..R323, R325) -/

/-- The pavilions of the live links of a tower, with their link index (R14). -/
def State.towerPavs (s : State) (t : Nat) : List (Nat × Nat) :=
  (List.range 4).filterMap fun i => (s.towerLink t i).map fun p => (i, p)

/-- The first of some links whose key is least. -/
def leastBy (key : Nat → Nat) (l : List (Nat × Nat)) : Option (Nat × Nat) :=
  l.foldl (fun b e => match b with
    | none => some e
    | some c => if key e.2 < key c.2 then some e else b) none

/-- The torus position that a source or destination node counts from: its pavilion, the bridge of an annex, or a tower's
live pavilion with the fewest hops to any of the given ones (R322). -/
def State.nodePavs (s : State) (n : Nat) : List (Nat × Nat) :=
  if n < 32 then [(localPort, n)]
  else if n < 40 then s.towerPavs (n - 32)
  else if n < 44 then (match s.bridgePav (n - 40) with | some p => [(12 + (n - 40), p)] | none => [])
  else []

/-- The fewest hops from pavilion p to any of the places a node attaches to. -/
def hopsTo (p : Nat) (l : List (Nat × Nat)) : Nat := l.foldl (fun m e => min m (hops p e.2)) 8

/-- R327. The links of pavilion p are announced as down for transit: a fence of the whole node is draining or in force. -/
def State.transitDown (s : State) (p : Nat) : Bool :=
  s.fld F.PRM_STAT_FENCE p != 0 && s.fld F.PRM_FENCE_CTL_SCOPE p == 0

/-- R322, R327. Where a packet from node `a` to node `b` enters the torus, and where it leaves it; a tower uses no link for
transit through a fenced pavilion. -/
def State.entryExit (s : State) (a b : Nat) : Option ((Nat × Nat) × (Nat × Nat)) :=
  let open' (n other : Nat) (l : List (Nat × Nat)) := if 32 ≤ n ∧ n < 40 then l.filter fun e => e.2 == other || !s.transitDown e.2 else l
  let from' := open' a b (s.nodePavs a)
  let to' := open' b a (s.nodePavs b)
  match leastBy (fun p => hopsTo p to') from' with
  | none => none
  | some e =>
    match leastBy (fun p => hops e.2 p) to' with
    | none => none
    | some x => some (e, x)

/-- R325, R327. Router n holds the torus link of edge e as down for a packet to pavilion d. -/
def State.edgeDown (s : State) (n e d : Nat) : Bool :=
  !s.flag F.PRM_LINK_STAT_UP n e || (s.hb .linkDown n n e && d != neighbour n e)

/-- R325. The down links of the ring that edge e of pavilion n lies in, as router n knows them. -/
def State.ringDowns (s : State) (n e : Nat) : Nat :=
  let fwd := if e < 2 then 1 else 3
  let ring := if e < 2 then (List.range 8).map fun c => n / 8 * 8 + c else (List.range 4).map fun r => 8 * r + n % 8
  (ring.filter fun q =>
    (q == n && !s.flag F.PRM_LINK_STAT_UP n fwd) ||
      (neighbour q fwd == n && !s.flag F.PRM_LINK_STAT_UP n (opposite fwd)) ||
      s.hb .linkDown n q fwd || s.hb .linkDown n (neighbour q fwd) (opposite fwd)).length

/-- R321. A hop over edge e from pavilion n crosses the dateline of its dimension. -/
def dateline (n e : Nat) : Bool :=
  match e with
  | 0 => n % 8 == 0
  | 1 => n % 8 == 7
  | 2 => n / 8 == 0
  | _ => n / 8 == 3

/-- What a router decides for a packet. -/
inductive Hop where
  /-- leave by an output, on a virtual channel, in a dimension, with a detour's edge -/
  | out (o vc dim : Nat) (dir : Option Nat) (detour : Bool)
  | dead (alarm : Bool)
  | ur
deriving DecidableEq, Repr

/-- The hop over edge e: in its dimension, on VC1 once it crosses the dateline. -/
def Flight.across (f : Flight) (n e : Nat) (dir : Option Nat) (detour : Bool) : Hop :=
  let dim := if e < 2 then 1 else 2
  let vc := if f.dim = dim then f.vc else 0
  .out e (if dateline n e then 1 else vc) dim dir detour

/-- R321, R325. The torus hop of a packet at pavilion n toward pavilion d. -/
def State.torusHop (s : State) (n d : Nat) (f : Flight) : Option Hop :=
  match dimOrder n d with
  | none => none
  | some e =>
    let dim := if e < 2 then 1 else 2
    match (if f.dim = dim then f.dir else none) with
    | some e' => some (if s.edgeDown n e' d then .dead true else f.across n e' (some e') false)
    | none =>
      if !s.edgeDown n e d then some (f.across n e none false)
      else if 2 ≤ s.ringDowns n e ∨ s.edgeDown n (opposite e) d then some (.dead true)
      else some (f.across n (opposite e) (some (opposite e)) true)

/-- R321, R322, R329. The hop of a packet routed by dimension order at pavilion n. -/
def State.dimHop (s : State) (n : Nat) (f : Flight) : Hop :=
  let d := pktDst f.words
  if 44 ≤ d then .ur
  else if s.isoAt n d then .dead false
  else match s.entryExit (pktSrc f.words) d with
    | none => .dead false
    | some (_, x) =>
      match s.torusHop n x.2 f with
      | some h => h
      | none =>
        if d < 32 then .out localPort f.vc 0 none false
        else if d < 40 then .out (4 + (d - 32)) f.vc 0 none false
        else .out x.1 f.vc 0 none false

/-- R323. The output of a reservation's path at pavilion n, for a packet to node d. -/
def Plan.outAt (p : Plan) (n d : Nat) : Option Nat :=
  match p.res.find? fun r => match r.1 with | .torus q _ => q == n | _ => false with
  | some (.torus _ e, _) => some e
  | _ =>
    if d = n then some localPort
    else if p.pavs.getLast? = some n then
      (if 32 ≤ d ∧ d < 40 then some (4 + (d - 32)) else if 40 ≤ d ∧ d < 44 then some (12 + (d - 40)) else none)
    else none

/-- The reservation whose path a real-time packet follows: the one it left its source under, while its declaration is not
FREE; else its declaration's (R190, R323). -/
def State.pathOf (s : State) (f : Flight) : Option Plan :=
  (tfind s.decls (pktDecl f.words)).map fun c => f.plan.getD c.plan

/-- R323. The recorded output of a packet's declaration at pavilion n, if its tables hold one there. -/
def State.declOut (s : State) (n : Nat) (f : Flight) : Option Nat :=
  (s.pathOf f).bind fun p => p.outAt n (pktDst f.words)

/-- R14. Link i of tower t carries traffic: its site holds an active pavilion that is not isolated, and it is UP. -/
def State.towerCarries (s : State) (t i : Nat) : Bool :=
  match s.pavAt ((towerSites t).getD i 0) with
  | some p => !s.isolated p && s.lrtUp (towerNode t) i
  | none => false

/-- R14. The index at tower t of its link to pavilion p, where it reaches that site. -/
def State.towerIndex (s : State) (t p : Nat) : Option Nat := firstWhere 4 fun i => (towerSites t).getD i 0 == s.siteOf p

/-- R14. Output o of node n is no tower link, or one that carries traffic. -/
def State.outCarries (s : State) (n o : Nat) : Bool :=
  if n < 32 then
    !(decide (4 ≤ o) && decide (o < 12)) || (match s.towerIndex (o - 4) n with | some i => s.towerCarries (o - 4) i | none => false)
  else decide (40 ≤ n) || decide (4 ≤ o) || s.towerCarries (n - 32) o

/-- R14, R325. Output o of pavilion n can take a packet to node d on its way. -/
def State.outOpen (s : State) (n o d : Nat) : Bool := if o < 4 then !s.edgeDown n o d else s.outCarries n o

/-- R184. The tower link that a real-time packet's reservation records, while it carries traffic. -/
def State.towerRt (s : State) (n : Nat) (f : Flight) : Option Nat :=
  ((s.pathOf f).bind fun p => (p.links.find? fun e => e.1 == n - 32).map Prod.snd).filter fun l => s.towerCarries (n - 32) l

/-- R322. The live link by which a packet leaves a tower. -/
def State.towerOut (s : State) (n : Nat) (w : List Word) : Option Nat := (s.entryExit n (pktDst w)).map fun x => x.1.1

/-- R190, R321..R323, R325, R329. One router forwards the oldest packet of a class at an input. A real-time packet without
an entry in the slot tables, or whose recorded output has been lost, goes on in the request class. -/
def State.forward (s : State) (n i cls : Nat) : State :=
  match (s.pIn n i).find? fun f => f.cls == cls with
  | none => s
  | some f =>
    let s := s.setPIn n i ((s.pIn n i).erase f)
    let go (s : State) (f : Flight) (o : Nat) : State := s.setPOut n o (s.pOut n o ++ [f])
    let f := { f with inp := i, left := pktFlits f.words }
    if 32 ≤ n then
      if pktDst f.words = n then go s f localPort
      else if n < 40 then
        match (if cls = 2 then s.towerRt n f else none) with
        | some l => go s f l
        | none =>
          match s.towerOut n f.words with
          | some l => go s { f with cls := if cls = 2 then 0 else f.cls } l
          | none => s.prmRefuse n f.words (if 44 ≤ pktDst f.words then .ur else .dead)
      else go s f 0
    else
      let rt := if cls = 2 then s.declOut n f else none
      if s.isoAt n (pktDst f.words) then s.prmRefuse n f.words .dead
      else match rt.filter fun o => s.outOpen n o (pktDst f.words) with
        | some o => go s f o
        | none =>
          let s := if cls = 2 ∧ rt = none then s.addFld F.PRM_RT_MISS_CNT_COUNT 1 n else s
          let f := if cls = 2 then { f with cls := 0 } else f
          match s.dimHop n f with
          | .out o vc dim dir detour =>
            go (if detour then s.addFld F.PRM_REROUTE_CNT_COUNT 1 n else s) { f with vc := vc, dim := dim, dir := dir } o
          | .dead al => (if al then s.alarm n 0x22 else s).prmRefuse n f.words .dead
          | .ur => s.prmRefuse n f.words .ur

/-- R325, R327. A link-state packet reaches router n: the torus link of edge e of pavilion p is down or up for transit. -/
def execLinkStatePacket (n p e : Nat) (up : Bool) (s : State) : Host.Outcome State Fault Refusal :=
  .next (s.setH .linkDown (b2n !up) n p e |>.setH .linkDown (b2n !up) n (neighbour p e) (opposite e))

/-! ### Responses and time-outs (R320, R326, R328) -/

/-- The port of a node's telemetry unit (Table 12.1): a tower's is its register block's. -/
def telPort (n : Nat) : Nat := if n < 32 then 119 else 5

/-- R428. The acknowledgement of an alarm write: the count it carried is taken off, and what was raised meanwhile is
sent. -/
def State.alarmAck (s : State) (n ty : Nat) : State :=
  let left := s.h .almCount n ty - s.h .almSent n ty
  let s := s.setH .almCount left n ty |>.setH .almTaken 0 n ty
  if left = 0 then (s.setBit .TEL_ALM_PEND (ty % 32) false n (ty / 32)).setH .almSent 0 n ty
  else s.alarmSend n ty

/-- R326, R328. A response reaches its node. It ends its request; one that comes after the time-out, or at a fenced port,
is absorbed and counted. -/
def State.prmResponse (s : State) (w : List Word) : State :=
  let n := pktDst w
  let k := (pktDstPort w, pktTag w)
  let s := s.setPRx n ((s.pRx n).erase w)
  if k.1 = telPort n ∧ s.hb .almTaken n k.2 then (if pktStatus w = 0 then s.alarmAck n k.2 else s)
  else if (s.pReq n).contains k then
    let s := s.setPReq n ((s.pReq n).erase k)
    if n < 32 ∧ s.portFenced n k.1 then s.prmCount F.PRM_ABSORB_CNT_COUNT n else s
  else if n < 32 ∧ s.portFenced n k.1 then s.prmCount F.PRM_ABSORB_CNT_COUNT n
  else s.prmCount F.PRM_LATE_RSP_CNT_COUNT n

/-- R316. RD_DATA reaches its requester. -/
def execPrmRdData (pkt : List Word) (s : State) : Host.Outcome State Fault Refusal := .next (s.prmResponse pkt)
/-- R316. WR_ACK reaches its requester. -/
def execPrmWrAck (pkt : List Word) (s : State) : Host.Outcome State Fault Refusal := .next (s.prmResponse pkt)
/-- R316. AT_DATA reaches its requester. -/
def execPrmAtData (pkt : List Word) (s : State) : Host.Outcome State Fault Refusal := .next (s.prmResponse pkt)

/-- R326. PRM_REQ_TMO has passed: the request is answered TIMEOUT by its own router. -/
def execReqTimeout (n port tag : Nat) (s : State) : Host.Outcome State Fault Refusal :=
  if (s.pReq n).contains (port, tag) then
    .next (((s.setPReq n ((s.pReq n).erase (port, tag))).prmCount F.PRM_TMO_CNT_COUNT n).prmCount F.PRM_ERR_RSP_CNT_COUNT n)
  else .next s

/-! ### Fences (R327, R328, R333) -/

/-- R438. The node of a pavilion on its way to STANDBY or OFF is fenced: its dome enters self-refresh. -/
def State.pwrFenced (s : State) (p : Nat) : State :=
  if s.flag F.THM_PWR_STAT_BUSY p ∧ 2 ≤ s.fld F.THM_PWR_CTL_TARGET p then (s.setH .domePower 1 p).srUpdate p else s

/-- R91, R333. PRM_STAT.FENCE changes. Once the ports read FENCED, streams whose twin lies behind them are DEGRADED. -/
def State.setFence (s : State) (p st : Nat) : State :=
  let s := ((s.setFld F.PRM_STAT_FENCE st p).local p 449).domeShow p
  if st = 2 then (s.pwrFenced p).twinLost p else s

/-- The ports of a fence's scope. -/
def State.inScope (s : State) (p port : Nat) : Bool :=
  s.fld F.PRM_FENCE_CTL_SCOPE p == 0 || s.bit .PRM_FENCE_PORT (port % 32) p (port / 32)

/-- What a pavilion's loss means elsewhere (R91, Table 7.5). -/
def State.pavLost (s : State) (p : Nat) : State := (s.twinLost p).capacityFault 3 (Decl.atPav · p)

/-- R327. A write of PRM_FENCE_CTL. -/
def State.fenceWrite (s : State) (p v : Nat) : State :=
  let st := s.fld F.PRM_STAT_FENCE p
  let req := bitOf v 0
  if st = 0 then
    let s := s.setRegN .PRM_FENCE_CTL (v % 4) p
    if !req then s
    else
      let s := s.setFence p 1
      if bitOf v 1 then s.capacityFault 3 (Decl.atPorts · p fun k => s.bit .PRM_FENCE_PORT (k % 32) p (k / 32))
      else
        (foldS (fun e s => (s.setH .linkDown 1 (neighbour p e) p e).setH .linkDown 1 (neighbour p e) (neighbour p e) (opposite e))
          (List.range 4) s).capacityFault 3 (Decl.atPav · p)
  else if st = 1 then (if req then s else s.setFlag F.PRM_STAT_WR_IGN true p)
  else if req then s
  else
    let node := s.fld F.PRM_FENCE_CTL_SCOPE p == 0
    let s := (s.setRegN .PRM_FENCE_CTL (v % 4) p).setFence p 0
    if node then
      (foldS (fun e s => (s.setH .linkDown 0 (neighbour p e) p e).setH .linkDown 0 (neighbour p e) (neighbour p e) (opposite e))
        (List.range 4) s).capacityBack
    else s

/-- R327. REQ = 1 is written. -/
def execFenceRequest (p : Nat) (v : Word) (s : State) : Host.Outcome State Fault Refusal :=
  wrOut .PRM_FENCE_CTL v (s.fenceWrite p v.toNat)
/-- R327. REQ = 0 is written. -/
def execFenceRelease (p : Nat) (v : Word) (s : State) : Host.Outcome State Fault Refusal :=
  wrOut .PRM_FENCE_CTL v (s.fenceWrite p v.toNat)

/-- The port a request is for, at a pavilion (Tables 12.1, 12.5). -/
def reqPort (w : List Word) : Nat :=
  let a := pktAddr w
  match a / 2 ^ 45 with
  | 0 => 114
  | 1 => 120
  | 2 =>
    let u := bitsOf a 36 4
    if u < 8 then 64 + 2 * u else if u = 8 then 112 else bitsOf a 30 6
  | _ => 127

/-- The requests of packets that the dome of pavilion p has queued and not answered. -/
def State.domeOpen (s : State) (p : Nat) : List (Nat × Nat × List Word) :=
  s.domeTxns.filterMap fun (e : Nat × DomeTxn) => if e.2.pav = p then e.2.req.map fun r => (e.1, r) else none

/-- R327. Nothing of the ports of a scope is outstanding or unanswered. -/
def State.drained (s : State) (p : Nat) (sc : Nat → Bool) : Bool :=
  !(s.pReq p).any (fun k => sc k.1) && !(s.pRx p).any (fun w => pktClass w != 1 && sc (reqPort w)) &&
    (!sc 114 || (s.domeOpen p).isEmpty)

/-- R327. Under NODE the transit buffers are empty. -/
def State.transitEmpty (s : State) (p : Nat) : Bool :=
  s.fld F.PRM_FENCE_CTL_SCOPE p == 1 || (List.range 17).all fun i => (s.pIn p i).isEmpty && (s.pOut p i).isEmpty

/-- R327. PRM_FENCE_TMO has passed: what is outstanding completes as TIMEOUT, and what is not answered is answered
FENCED. -/
def State.fenceTmo (s : State) (p : Nat) (sc : Nat → Bool) : State :=
  let late := (s.pReq p).filter fun k => sc k.1
  let s := s.setPReq p ((s.pReq p).filter fun k => !sc k.1)
  let s := s.addFld F.PRM_TMO_CNT_COUNT late.length p |>.addFld F.PRM_ERR_RSP_CNT_COUNT late.length p
  let open' := (s.pRx p).filter fun w => pktClass w != 1 && sc (reqPort w)
  let s := s.setPRx p ((s.pRx p).filter fun w => pktClass w == 1 || !sc (reqPort w))
  let s := foldS (fun w s => s.prmRefuse p w .fenced) open' s
  let s := if sc 114 then
      foldS (fun (e : Nat × Nat × List Word) s => (s.txnDone e.1).prmRefuse e.2.1 e.2.2 .fenced) (s.domeOpen p) s
    else s
  (s.setFlag F.PRM_STAT_DRAIN_TMO true p).local p 448

/-- The endpoints of plot q (R327). -/
def plotPort (q port : Nat) : Bool := decide (port < 64) && port / 16 == q

/-- A plot enters a state of Table 14.8 (R379), and its logic and hedges follow. -/
def State.setPlot (s : State) (p q st : Nat) : State :=
  if s.fld F.CFG_PLOT_STAT_STATE p q = st then s
  else ((s.plotEnter p q st).setFld F.CFG_PLOT_STAT_STATE st p q).local p 464

/-- R376, R327. The endpoints of a plot read FENCED: hedges engage and PLOT reset asserts. -/
def State.plotFenced (s : State) (p q : Nat) : State := (s.setH .plotFence 2 p q).setPlot p q 2

/-- R327. A drain is over: of the node's fence, or of the configuration controller's fence of a plot. -/
def execFenceDrained (p : Nat) (plot : Option Nat) (s : State) : Host.Outcome State Fault Refusal :=
  match plot with
  | none =>
    if s.fld F.PRM_STAT_FENCE p = 1 ∧ s.drained p (s.inScope p) ∧ s.transitEmpty p then .next (s.setFence p 2) else .next s
  | some q => if s.h .plotFence p q = 1 ∧ s.drained p (plotPort q) then .next (s.plotFenced p q) else .next s

/-- R327. The drain limit passes, of the node's fence or of a plot's. -/
def execFenceTmoExpiry (p : Nat) (plot : Option Nat) (s : State) : Host.Outcome State Fault Refusal :=
  match plot with
  | none => if s.fld F.PRM_STAT_FENCE p = 1 then .next ((s.fenceTmo p (s.inScope p)).setFence p 2) else .next s
  | some q => if s.h .plotFence p q = 1 then .next ((s.fenceTmo p (plotPort q)).plotFenced p q) else .next s

/-! ### Isolation (R329) -/

/-- R171, R426. The standbys on T4 take over readout and the global TEL block: events in build restart (R169). -/
def State.takeover (s : State) : State :=
  (s.setFlag F.TEL_STAT_INST true |>.setFlag F.RDO_STAT_INST true).eventsRestart

/-- What the isolation of a node means elsewhere (Table 7.5, R91, R171, R411). -/
def State.nodeLost (s : State) (n : Nat) : State :=
  if n < 32 then s.pavLost n
  else if n < 40 then
    let s := if n = 32 then s.takeover else s
    let s := foldS (fun f s => s.qpsStall f) (if n = 32 then [0, 1] else if n = 36 then [2, 3] else []) s
    s.capacityFault 4 (Decl.atTower · (n - 32))
  else s.capacityFault 2 (Decl.atAnnex · (n - 40))

/-- R329. One router's mask gets a new value, bit n for node n. -/
def State.isoSet (s : State) (p v : Nat) : State :=
  let nodes := List.range 44
  let was := nodes.filter fun n => s.isolated n
  let s := s.setRegN .PRM_ISO (v % 2 ^ 44) p
  let lost := nodes.filter fun n => s.isolated n && !was.contains n
  let back := was.filter fun n => !s.isolated n
  let s := foldS (fun n s => s.nodeLost n) lost s
  let s := if back.contains 32 then s.setFlag F.TEL_STAT_INST false |>.setFlag F.RDO_STAT_INST false else s
  if back.isEmpty then s else s.capacityBack

/-- The pair PRM_ISO_LO, PRM_ISO_HI of a router. -/
def isoKey (p : Nat) : RegKey := ⟨.PRM_ISO, p, 0, 0⟩

/-- R7, R329. A write of PRM_ISO_LO goes to the pair's write stage; at the write of PRM_ISO_HI the mask takes the stage and
the word. Both are the presiding lodge's alone: a write of either by another requester is ignored and sets WR_IGN. -/
def State.isoWrite (s : State) (p : Nat) (hi : Bool) (v : Word) (who : Requester) : State :=
  if !s.isPresiding who then s.setFlag F.PRM_STAT_WR_IGN true p
  else if hi then s.isoSet p (pairOf (s.stageOf (isoKey p)) v).toNat
  else { s with stage := tput s.stage (isoKey p) v }

/-- R329. A write of a half of the isolation mask; bits 31:12 of PRM_ISO_HI are no node's (R9). -/
def execIsoMaskWrite (p : Nat) (hi : Bool) (v : Word) (who : Requester) (s : State) : Host.Outcome State Fault Refusal :=
  if hi && !RegId.defined .PRM_ISO (v.toNat * 2 ^ 32) then .fault .undefinedFieldValue else .next (s.isoWrite p hi v who)

/-- R329, R411. The presiding lodge isolates a node in every pavilion router, or restores it. -/
def State.isolate (s : State) (n : Nat) (on : Bool) : State :=
  foldS (fun q s =>
    s.isoSet q (Machine.setBit (s.regN .PRM_ISO q) n on)) (List.range 32) s

/-! ### Packets from launch queues (R47) -/

/-- The node and port that a home's queues send from. -/
def homePort (h : Nat) : Nat × Nat := if h < 32 then (h, 117) else if h < 40 then (h, 4) else (32, 4)

/-- The packet of a staging slot. -/
def State.stagedPacket (s : State) (h slot : Nat) : List Word :=
  let g (i : Nat) : Word := BitVec.ofNat 32 (s.ldN (stageBase h + 64 * slot + 4 * i) 4)
  let n := bitsOf (g 2).toNat 16 7
  (List.range (4 + (if bitsOf (g 0).toNat 3 5 = 1 then 0 else min n 12))).map g

/-- R320. A sender at node n holds a credit of the local input, for a class on VC0: 16 flits of its own, or one of the 32
shared. -/
def State.localCredit (s : State) (n cls : Nat) : Bool :=
  let used (vc : Nat) := ((s.pIn n localPort).filter fun f => f.cls == cls && f.vc == vc).foldl (fun k f => k + f.left) 0
  decide (used 0 < 16) || decide ((used 0 - 16) + (used 1 - 16) < 32)

/-- The head PRM_SEND of a queue that is due and has no credit for its packet. -/
def State.prmStarved (s : State) (h q : Nat) : Bool :=
  match s.lqHead h q 3 with
  | some e =>
    !(s.lqIsLate h q e && bitOf e.w2 4) && !s.localCredit (homePort h).1 (pktClass (s.stagedPacket h (e.param 0 % 64)))
  | none => false

/-- R51. 64 router cycles have passed since the entry first found no credit. -/
def State.prmGaveUp (s : State) (h q : Nat) : Bool :=
  s.hb .lqCredit h q && atOrAfter (s.nodeTime h) (s.hTime .lqCredit h q - 1 + BitVec.ofNat 64 (s.psUp 42667))

/-- R47, R51. PRM_SEND: an entry waits for a credit, at most 64 router cycles. -/
def State.launchPrmSend (s : State) (h q : Nat) : State :=
  if s.prmStarved h q && !s.prmGaveUp h q then
    (if s.hb .lqCredit h q then s else s.setH .lqCredit ((s.nodeTime h).toNat + 1) h q)
  else
    let s := s.setH .lqCredit 0 h q
    s.lqLaunch h q 3 fun e t =>
      if s.prmStarved h q then (false, t)
      else
        let r := t.prmSend (homePort h).1 (homePort h).2 (t.stagedPacket h (e.param 0 % 64))
        (r.1 != .fenced, r.2)

/-- R47, R51. PRM_SEND. -/
def execLaunchPrmSend (h q : Nat) (s : State) : Host.Outcome State Fault Refusal := .next (s.launchPrmSend h q)

end Sys2Proof.Machine
end

