-- ==== Sys2Proof/Machine/SubState.lean ====
section
/-!
DEFINITION. The substitution in progress, and the second faults that end one (R413, R415, R424).
-/
namespace Sys2Proof.Machine

/-- LDG_SUB_STAT.STATE. -/
def State.subState (s : State) : Nat := s.fld F.LDG_SUB_STAT_STATE
/-- LDG_SUB_STAT.STEP. -/
def State.subStep (s : State) : Nat := s.fld F.LDG_SUB_STAT_STEP
/-- The pavilion being substituted. -/
def State.subPav (s : State) : Nat := s.fld F.LDG_SUB_STAT_PAV
/-- The moving set, as a bitmap. -/
def State.subMove (s : State) : Nat := s.regN .LDG_SUB_MOVE

/-- Enter a step and a state (R424). -/
def State.setSub (s : State) (step st : Nat) : State :=
  ((s.setFld F.LDG_SUB_STAT_STEP step |>.setFld F.LDG_SUB_STAT_STATE st).device 1031).jrnlWritten

/-- R415. A substitution is abandoned. -/
def State.subAbandoned (s : State) (cause : Nat) : State :=
  ((s.setFld F.LDG_SUB_STAT_ABANDON cause).setSub s.subStep 4).devAlarm 0x4a

/-- R415. A second fault that touches the moving set before APPLY abandons the substitution. -/
def State.subTouched (s : State) (p : Nat) : State :=
  if s.subState = 2 ∧ s.subStep < 6 ∧ p ≠ s.subPav ∧ bitOf s.subMove p then s.subAbandoned 2 else s

end Sys2Proof.Machine
end

