-- ==== Sys2Proof/Machine/Faults.lean ====
section
/-!
DEFINITION. Single-part faults and the substitutions they start (R172, R411, R412, R415).
-/
namespace Sys2Proof.Machine

/-! ### Starting a substitution (R411..R413) -/

/-- The folly map word in which the row of site x has its folly at x (R412). -/
def State.mapMoved (s : State) (x : Nat) : Nat := setBitsOf s.follyMap (4 * (x / 9)) 4 (x % 9)

/-- R412. The pavilions whose site changes when the row's folly slot takes site x. -/
def State.movingSet (s : State) (x : Nat) : List Nat :=
  (List.range 32).filter fun p => s.siteOf p != siteUnder (s.mapMoved x) p

/-- R415. The folly site of the row of a failed site. -/
def State.subFolly (s : State) (x : Nat) : Nat := 9 * (x / 9) + follySlot s.follyMap (x / 9)

/-- R413. CONFIRM begins: the site, PAV and moving set are recorded, the site is marked failed, and the row's folly site runs
its self-test. -/
def State.subStart (s : State) (p : Nat) : State :=
  let x := s.siteOf p
  let move := (s.movingSet x).foldl (fun m q => m + 2 ^ q) 0
  let s := s.setFld F.LDG_SUB_STAT_SITE x |>.setFld F.LDG_SUB_STAT_PAV p |>.setFld F.LDG_SUB_STAT_ABANDON 0
  let s := s.setRegN .LDG_SUB_MOVE move |>.setBit .LDG_FAILED x true |>.setFlag F.LDG_SITE_STAT_FAILED true x
  let y := s.subFolly x
  let s := if (s.pavAt y).isSome then s else s.setFld F.LDG_SITE_STAT_SELFTEST 3 y
  let s := s.setH .subCopies 0
  s.setSub 1 2

/-- A substitution may start: there is a presiding lodge and a journal, none runs, and no safe hold (R413, R416). -/
def State.subMay (s : State) : Bool := s.jrnlOk && s.subState != 2

/-- R411, R415. With AUTO = 1 the lowest-numbered waiting candidate starts; otherwise candidates wait for GO. -/
def State.subAuto (s : State) : State :=
  if s.subState = 2 then s
  else
    match firstWhere 32 fun p => s.bit .LDG_SUB_CAND p && !s.hb .candOnGo p with
    | some p =>
      if s.flag F.LDG_SUB_CFG_AUTO ∧ s.subMay then s.subStart p
      else if s.subState = 1 then s else s.setSub (s.subStep) 1
    | none => if s.regN .LDG_SUB_CAND = 0 ∨ s.subState = 1 then s else s.setSub (s.subStep) 1

/-! ### Detections (R172, R411) -/

/-- R411. A pavilion becomes a substitution candidate; one named for a Lartum link alone is substituted only on GO. -/
def State.candidate (s : State) (p : Nat) (onGo : Bool) : State :=
  if s.bit .LDG_SUB_CAND p then (if onGo then s else (s.setH .candOnGo 0 p).subAuto)
  else
    ((s.setBit .LDG_SUB_CAND p true).setH .candOnGo (b2n onGo) p |>.device 1031).subAuto

/-- R411. A pavilion with its dome has failed. -/
def State.pavFault (s : State) (p : Nat) : State :=
  if s.hb .faultOpen 0 p then s
  else (((s.faultStart 0 p).devAlarm 0x40).subTouched p).candidate p false

end Sys2Proof.Machine
end

