-- ==== Sys2Proof/Machine/Lookup.lean ====
section
/-!
DEFINITION. Which register lies at an offset of a block (R6, R7, R520).
-/
namespace Sys2Proof.Machine

/-- The indices of the register of a row at a block offset, and whether it is the _HI word of a pair. -/
def RegRow.find (r : RegRow) (off : Nat) : Option (Nat × Nat × Bool) :=
  if off < r.base then none
  else
    let d := off - r.base
    let i := if r.si = 0 then 0 else d / r.si
    let e := if r.si = 0 then d else d % r.si
    let j := if r.sj = 0 then 0 else e / r.sj
    let f := if r.sj = 0 then e else e % r.sj
    if i < r.ci ∧ j < r.cj ∧ (f = 0 ∨ (r.pair ∧ f = 4)) then some (i, j, f == 4) else none

/-- A register found at an offset: its name and indices, and whether the offset is that of its _HI word. -/
structure RegAt where
  id : RegId
  i : Nat
  j : Nat
  hi : Bool
deriving DecidableEq, Repr

/-- The register at an offset of a block. -/
def Block.find (b : Block) (off : Nat) : Option RegAt :=
  b.regs.findSome? fun id => (id.row.find off).map fun x => ⟨id, x.1, x.2.1, x.2.2⟩

end Sys2Proof.Machine
end

