-- ==== Sys2Proof/Machine/Loads.lean ====
section
/-!
DEFINITION. Configuration loads, the verifier and plot reconfiguration (R353..R379).
-/
namespace Sys2Proof.Machine

/-! ### Fabric registers of a pavilion (R310) -/

/-- R310. A write of a fabric register of the pavilion CFG block. -/
def State.fabRegWrite (s : State) (p : Nat) (id : RegId) (i j : Nat) (v : Word) : State :=
  let m : DWord := (v.zeroExtend 64) &&& id.row.rw
  match id with
  | .CFG_PLL_CTL => if bitOf v.toNat 0 then s.pllApply p i else s
  | .CFG_RST => s.rstWrite p i v.toNat
  | .CFG_GCLK => (s.setReg id m p i).clocksMoved p
  | .CFG_XOUT => (s.setReg id m p i j).crossEval (neighbour p i) (opposite i) j
  | .CFG_XIN => (s.setReg id m p i j).crossEval p i j
  | .CFG_FEP => (s.setReg id m p i).fepEval p i
  | .CFG_SPORT =>
    let skew := s.flag F.CFG_SPORT_SKEW p i && !bitOf v.toNat 14
    (s.setReg id m p i).setFlag F.CFG_SPORT_SKEW skew p i
  | _ => s.setReg id m p i j

/-! ### Images (R358..R361) -/

/-- R361. The frames of a token-coded body, `n` in all; none where the stream breaches Table 14.6. -/
def decodeTokens (n : Nat) : Nat → List (List Word) → List Word → List Word → Option (List (List Word))
  | 0, fs, cur, ws => if fs.length = n ∧ cur.isEmpty ∧ ws.isEmpty then some fs else none
  | k + 1, fs, cur, ws =>
    if fs.length = n then (if ws.isEmpty then some fs else none)
    else
      match ws with
      | [] => none
      | t :: ws =>
        let op := t.toNat / 2 ^ 29
        let m := t.toNat % 2 ^ 11
        let far := t.toNat % 2 ^ 16
        if op = 3 then
          if !cur.isEmpty ∨ fs.length ≤ far ∨ bitsOf t.toNat 16 13 ≠ 0 then none
          else decodeTokens n k (fs ++ [fs.getD far []]) [] ws
        else if 3 < op ∨ m = 0 ∨ 1024 < m ∨ 1024 < cur.length + m ∨ bitsOf t.toNat 11 18 ≠ 0 then none
        else
          let take := if op = 0 then m else if op = 1 then 0 else 1
          if ws.length < take then none
          else
            let made := if op = 0 then ws.take m else List.replicate m (if op = 1 then (0 : Word) else ws.getD 0 0)
            let cur := cur ++ made
            if cur.length = 1024 then decodeTokens n k (fs ++ [cur]) [] (ws.drop take)
            else decodeTokens n k fs cur (ws.drop take)

/-- The frames of a body that is not coded. -/
def plainFrames : Nat → List Word → List (List Word)
  | 0, _ => []
  | n + 1, ws => ws.take 1024 :: plainFrames n (ws.drop 1024)

/-- The frames of one plot: 3,072 logic frames, then 576 block RAM frames (R360). -/
def plotFrames : Nat := 3648

/-- R360, R361. The frames of a FRAMES section; none where its body is wrong (error 0x0A). -/
def sectFrames (x : ImgSect) : Option (List (List Word)) :=
  let n := popcount 4 x.plots * plotFrames
  if x.coded then decodeTokens n x.body.length [] [] x.body
  else if x.body.length = 1024 * n then some (plainFrames n x.body)
  else none

/-- The plots that a section names, ascending. -/
def sectPlots (x : ImgSect) : List Nat := indicesWhere 4 (bitOf x.plots)

/-- The pavilions of a section that a load writes: logical ones, whatever sites they occupy (R309). -/
def sectTargets (x : ImgSect) (mask : Nat) : List Nat := indicesWhere 32 fun p => bitOf x.targets p && bitOf mask p

/-- The pairs of a REG_INIT body: offset and value. -/
def initPairs : List Word → List (Nat × Word)
  | a :: v :: ws => (a.toNat, v) :: initPairs ws
  | _ => []

/-- R360. REG_INIT may write this offset: an RW register of Table 11.3. -/
def initOk (off : Nat) : Bool :=
  decide (0x4000 ≤ off) && decide (off ≤ 0x6ffc) &&
    match Block.cfgP.find off with
    | some r => r.id.row.rw != 0
    | none => false

/-- R360. A DOME_DATA range lies outside the reserved region. -/
def State.dataOk (s : State) (p : Nat) (x : ImgSect) : Bool :=
  decide (x.daddr % 64 = 0) && decide (x.daddr % 2 ^ 31 + 4 * x.body.length ≤ 2 ^ 31) &&
    (let lo := s.regN .DOME_RSV_BASE p
     let n := s.regN .DOME_RSV_SIZE p
     let a := x.daddr % 2 ^ 31 / 64
     decide (a + cdiv (4 * x.body.length) 64 ≤ lo) || decide (lo + n ≤ a))

/-- R360, R361. The error of a section read by a load of the pavilions in a mask (0 none). -/
def State.sectError (s : State) (mask : Nat) (x : ImgSect) : Nat :=
  match x.kind with
  | 1 => if (sectFrames x).isSome then 0 else 0x0a
  | 2 => if x.body.length % 2 ≠ 0 then 0x0a else if (initPairs x.body).all fun e => initOk e.1 then 0 else 0x0c
  | 3 =>
    if x.body.length % 16 ≠ 0 then 0x0a
    else if (sectTargets x mask).all fun p => s.dataOk p x then 0 else 0x0c
  | _ => 0x0a

/-- R360. Every plot of every pavilion of the mask is written exactly once. -/
def coverage (mask : Nat) (xs : List ImgSect) : Bool :=
  (List.range 32).all fun p => !bitOf mask p || (List.range 4).all fun q =>
    (xs.filter fun x => x.kind == 1 && bitOf x.targets p && bitOf x.plots q).length == 1

/-- The line of a logic frame in the retained region (R370). -/
def State.retainedLine (s : State) (p q f : Nat) : Nat := s.regN .DOME_RSV_BASE p + 64 * (3072 * q + f)

/-- R117, R133, R370. A configuration write of a dome on port 4: a dome that holds does not perform it, and the load goes on
(DESIGN CHOICE, assumption 161). -/
def State.cfgPut (s : State) (p a : Nat) (bytes : List Byte) : State :=
  if s.domeRuns p then s.domePut p a bytes false false else s

/-- R117, R134, R386. A configuration read of n bytes at a 35-bit dome address on port 4: none where it is answered with an
error, meets poison, or its key refuses it. -/
def State.cfgGet (s : State) (p addr n : Nat) : Option (List Byte) × State :=
  let a := addr % 2 ^ 31
  let k := addr / 2 ^ 31 % 16
  let ls := linesOf a n
  if !s.domeRuns p || ls.any (fun l => s.keyRead p k (64 * l) == .refused) then (none, s)
  else
    let ks := ls.filter fun l => s.keyRead p k (64 * l) == .guarded
    let lost := ks.any fun l => s.keyBeneathBad p k (64 * l)
    let r := (foldS (fun l s => s.keyTouch p k (64 * l) false) ks s).domeGet p a n
    (if r.1 || lost then none else some r.2.1, r.2.2)

/-- R360, R364, R370. The frames of one plot are written to its cells, and its logic frames are retained. -/
def State.writePlot (s : State) (p q : Nat) (frames : List (List Word)) : State :=
  let s := s.setH .loadPlot 1 p q
  foldS (fun (e : List Word × Nat) s =>
    let bytes := e.1.flatMap wordBytes
    let s := s.stBytes (cellBase p q + 4096 * e.2) bytes
    if e.2 < 3072 then s.cfgPut p (64 * s.retainedLine p q e.2) bytes else s) frames.zipIdx s

/-- R360. A section is applied to the pavilions of the mask. -/
def State.writeSect (s : State) (mask : Nat) (x : ImgSect) : State :=
  foldS (fun p s =>
    match x.kind with
    | 1 =>
      let fs := (sectFrames x).getD []
      foldS (fun (e : Nat × Nat) s => s.writePlot p e.1 ((fs.drop (plotFrames * e.2)).take plotFrames))
        (sectPlots x).zipIdx s
    | 2 => { s with loadInit := s.loadInit ++ (initPairs x.body).map fun e => (p, e.1, e.2) }
    | _ => s.cfgPut p (x.daddr % 2 ^ 31) (x.body.flatMap wordBytes)) (sectTargets x mask) s

/-- R370. The frame table of a pavilion follows the logic frames of a plot, in the verifier and in the dome. -/
def State.frameTable (s : State) (p q : Nat) : State :=
  let s := foldS (fun f s =>
    s.stBytes (verTblBase p + 4 * (3072 * q + f)) (wordBytes (crc32c (s.ldBytes (cellBase p q + 4096 * f) 4096))))
    (List.range 3072) s
  let s := s.stBytes (verTblBase p + 4 * 12288) (wordBytes (crc32c (s.ldBytes (verTblBase p) (4 * 12288))))
  s.cfgPut p (64 * (s.regN .DOME_RSV_BASE p + 0xc0000)) (s.ldBytes (verTblBase p) (4 * 12289))

/-! ### Plot states (R376) -/

/-- CFG_STAT.PLOTS_READY follows. -/
def State.plotReady (s : State) (p q : Nat) (b : Bool) : State :=
  (s.setFlag F.CFG_PLOT_STAT_PLOT_READY b p q).setBit .CFG_STAT q b p

/-- R376. The configuration controller fences a plot's endpoints; a declaration that names one takes capacity fault 3. -/
def State.plotFence (s : State) (p q : Nat) : State :=
  let at' (k id : Nat) : Bool := k == 4 && id / 64 % 32 == p && id % 64 / 16 == q
  let s := (s.plotReady p q false).setH .plotFence 1 p q
  s.capacityFault 3 fun d =>
    at' (dSrcKind d.words) (dSrcId d.words) || at' (dDstKind d.words) (dDstId d.words)

/-- R364. A plot's cells are zeroed and its hedges stay engaged: BLANK. -/
def State.plotBlank (s : State) (p q : Nat) : State :=
  (s.clearBytes (cellBase p q) (4096 * plotFrames)).setPlot p q 4

/-- R366, R376. A plot starts: READY, unfenced. -/
def State.plotStart (s : State) (p q : Nat) : State :=
  let s := (s.setFld F.CFG_PLOT_STAT_ERR 0 p q).setPlot p q 0
  (s.plotReady p q true).setH .plotFence 0 p q

/-- A plot reports an error (R379). -/
def State.plotErr (s : State) (p q code : Nat) : State := (s.setFld F.CFG_PLOT_STAT_ERR code p q).local p 464

/-! ### The load (R353..R368) -/

/-- CFG_LOAD_STAT.STATE. -/
def State.loadState (s : State) : Nat := s.fld F.CFG_LOAD_STAT_STATE
/-- Enter a state of Table 14.7 (R379). -/
def State.setLoad (s : State) (st : Nat) : State :=
  if s.loadState = st then s else (s.setFld F.CFG_LOAD_STAT_STATE st).device 1030
/-- A load is in progress. -/
def State.loading (s : State) : Bool := [1, 2, 3, 5].contains s.loadState

/-- The verifier of a pavilion stops (R367). -/
def State.verStop (s : State) (p : Nat) : State := s.setFld F.CFG_VER_STAT_STATE 0 p

/-- The source an attempt tries first (R354, R367, R411): T0's flash only while node 32 serves. -/
def State.firstSrc (s : State) : Nat :=
  let src := if s.hb .loadPav then s.fld F.CFG_LOAD_STAT_SRC_USED else s.fld F.CFG_LOAD_CTL_SRC
  if src = 0 ∧ s.isolated 32 then 1 else src

/-- R365, R354. An attempt starts. -/
def State.loadAttempt (s : State) : State :=
  let s := (s.satFld F.CFG_LOAD_STAT_ATTEMPTS 1).setH .loadSrc s.firstSrc |>.setRegN .CFG_LOAD_BYTES 0
  { s with loadInit := [], hid := tfilter s.hid fun k => k.id != Hid.loadPlot }.setLoad 1

/-- R367. A load of the pavilions of a mask starts: every plot of theirs is fenced on its way to hedge and reset, and
their verifiers stop; reset nets with WARM = 1 assert (R293). -/
def State.loadStart (s : State) (pav : Bool) (mask : Nat) : State :=
  let s := s.setH .loadMask mask |>.setH .loadPav (b2n pav)
  let s := foldS (fun p s =>
    let s := foldS (fun q s => (s.plotFence p q).setPlot p q 1) (List.range 4) s
    let s := foldS (fun n s => if s.flag F.CFG_RST_WARM p n then s.setH .rstNet 1 p n else s) (List.range 8) s
    s.verStop p) (indicesWhere 32 (bitOf mask)) s
  s.loadAttempt

/-- R365, R22. A GO with an OP: in IDLE, DONE or BACKOFF it starts a load, or waits for an APPLY. -/
def State.loadGo (s : State) (op : Nat) : State :=
  if ! [0, 4, 5].contains s.loadState then s.setFlag F.CFG_LOAD_STAT_WR_IGN true
  else if s.flag F.CFG_PMAP_CTL_BUSY then s.setH .loadWait (1 + op)
  else s.loadStart (op == 2) (if op = 2 then s.regN .CFG_LOAD_PAVMASK else 2 ^ 32 - 1)

/-- R367. A write of CFG_LOAD_CTL: GO is the presiding lodge's alone. -/
def State.loadCtlWrite (s : State) (v : Nat) (who : Requester) : State :=
  let s := s.setRegN .CFG_LOAD_CTL (v &&& 0x7e)
  if !bitOf v 0 then s
  else if s.isPresiding who then s.loadGo (bitsOf v 1 2)
  else s.setFlag F.CFG_LOAD_STAT_WR_IGN true

/-- R367. A write of CFG_LOAD_CTL with GO and OP FULL. -/
def execLoadGoFull (v : Word) (who : Requester) (s : State) : Host.Outcome State Fault Refusal :=
  wrOut .CFG_LOAD_CTL v (s.loadCtlWrite v.toNat who)

/-- R367. A write of CFG_LOAD_CTL with GO and OP PAV_RELOAD. -/
def execLoadGoPavReload (v : Word) (who : Requester) (s : State) : Host.Outcome State Fault Refusal :=
  wrOut .CFG_LOAD_CTL v (s.loadCtlWrite v.toNat who)

/-- The plots that a load covers. -/
def State.loadPlots (s : State) : List (Nat × Nat) :=
  (indicesWhere 32 (bitOf (s.h .loadMask))).flatMap fun p => (List.range 4).map fun q => (p, q)

/-- R354, R364. An attempt fails on a source: T0 falls back to T4; else what was written is cleared and the controller
backs off. -/
def State.loadFail (s : State) (code sect : Nat) : State :=
  let s := (s.setFld F.CFG_LOAD_STAT_ERR code).device 1030
  let s := if 8 ≤ code ∧ code ≤ 0xc then s.setRegN .CFG_FAIL_SECT (sect % 512) else s
  if s.h .loadSrc = 0 ∧ ¬ s.hb .loadPav ∧ s.fld F.CFG_LOAD_CTL_SRC = 0 then
    { s.setH .loadSrc 1 with loadInit := [] }.setLoad 1
  else
    let s := foldS (fun (e : Nat × Nat) s => if s.hb .loadPlot e.1 e.2 then s.plotBlank e.1 e.2 else s) s.loadPlots s
    let back := s.h .loadBackoff
    { s.setH .loadBackoff (if back = 0 then 1 else min 8000 (2 * back)) with loadInit := [] }.setLoad 5

/-- R354, R365. A load error of Table 14.3 while reading. -/
def execLoadError (code sect : Nat) (s : State) : Host.Outcome State Fault Refusal :=
  if s.loadState = 1 ∨ s.loadState = 2 then .next (s.loadFail code sect) else .next s

/-- R354. The back-off elapses. -/
def execLoadBackoffExpiry (s : State) : Host.Outcome State Fault Refusal :=
  if s.loadState = 5 then .next s.loadAttempt else .next s

/-- R363, R487. The error of ENC and KEYSRC. -/
def State.encError (s : State) (w : Nat) : Nat :=
  if !bitOf w 9 then (if s.flag F.CFG_BOOT_ENC_REQ then 6 else 0)
  else if bitOf w 10 then (if (List.range 8).all fun j => s.regN .CFG_UKEY_W 0 j == 0 then 6 else 0)
  else if s.flag F.CFG_BOOT_SECURE ∧ s.flag F.DBG_STAT_UNLOCKED then 6
  else 0

/-- R362, R363, R487. The error of header word 1 and a section count (0 none). -/
def State.headerError (s : State) (w nsect : Nat) : Nat :=
  let slot := bitsOf w 11 2
  if w % 256 ≠ 1 ∨ bitsOf w 13 19 ≠ 0 ∨ nsect = 0 ∨ 256 < nsect then 3
  else if bitOf w 8 then
    (if s.flag F.CFG_BOOT_SECURE ∧ (¬ s.bit .CFG_BOOT (12 + slot) ∨ s.bit .CFG_BOOT (8 + slot)) then 4 else s.encError w)
  else if s.flag F.CFG_BOOT_AUTH_REQ then 5
  else s.encError w

/-- R365. The directory, header and section table have been read and their CRC, key and hash checks passed; `w1` is
header word 1. By then every plot under load is fenced, hedged and in reset. -/
def execLoadHeaderDone (w1 : Word) (nsect : Nat) (s : State) : Host.Outcome State Fault Refusal :=
  if s.loadState ≠ 1 then .next s
  else
    let s := s.setRegN .CFG_IMG_INFO (w1.toNat % 2 ^ 13 + nsect % 512 * 2 ^ 16)
    let err := s.headerError w1.toNat nsect
    if err ≠ 0 then .next (s.loadFail err 0)
    else
      .next ((foldS (fun (e : Nat × Nat) s => if s.hb .plotFence e.1 e.2 then s.plotFenced e.1 e.2 else s) s.loadPlots
        s).setLoad 2)

/-- The first section with an error. -/
def State.firstBad (s : State) (mask : Nat) : Nat → List ImgSect → Option (Nat × Nat)
  | _, [] => none
  | k, x :: xs => if s.sectError mask x = 0 then s.firstBad mask (k + 1) xs else some (k, s.sectError mask x)

/-- R366. T_s: the first multiple of 16 beats at least 10 us ahead. -/
def State.startTime (s : State) : Nat := cdiv (s.time.toNat + s.nsUnits 10000) (16 * 65536) * (16 * 65536)

/-- R366. The staged REG_INIT values are applied; clock sources and PLLs that the image sets take their settings. -/
def State.initApply (s : State) : State :=
  let l := s.loadInit
  let s := foldS (fun (e : Nat × Nat × Word) s =>
    match Block.cfgP.find e.2.1 with
    | some r =>
      let s := s.fabRegWrite e.1 r.id r.i r.j e.2.2
      if r.id = .CFG_GCLK then (s.setH .gclkSrc (s.fld F.CFG_GCLK_SRC e.1 r.i) e.1 r.i).clocksMoved e.1 else s
    | none => s) l s
  let plls := (l.filter fun e => decide (0x4000 ≤ e.2.1 ∧ e.2.1 < 0x4040)).map fun e => (e.1, (e.2.1 - 0x4000) / 16)
  foldS (fun (e : Nat × Nat) s => s.pllApply e.1 e.2) plls.eraseDups { s with loadInit := [] }

/-- R359, R377. CFG_LOAD_BYTES: the stored bytes of the sections read, with the tag of each where the image is
encrypted. -/
def State.storedBytes (s : State) (sects : List ImgSect) : State :=
  let tag := if s.bit .CFG_IMG_INFO 9 then 16 else 0
  s.setRegN .CFG_LOAD_BYTES (sects.foldl (fun n x => n + 4 * x.body.length + tag) 0 % 2 ^ 32)

/-- R365, R366. Every section has been read and authenticated: what R360 and R361 ask of them is checked, they are applied
in table order, and the load enters STARTING with its REG_INIT values applied and its start time chosen. -/
def execLoadSectionsDone (sects : List ImgSect) (s : State) : Host.Outcome State Fault Refusal :=
  if s.loadState ≠ 2 then .next s
  else
    let mask := s.h .loadMask
    match s.firstBad mask 0 sects with
    | some e =>
      .next (((foldS (fun x s => s.writeSect mask x) (sects.take e.1) s).storedBytes (sects.take (e.1 + 1))).loadFail e.2 e.1)
    | none =>
      let s := (foldS (fun x s => s.writeSect mask x) sects s).storedBytes sects
      if !coverage mask sects then .next (s.loadFail 0xb 0)
      else
        let s := foldS (fun (e : Nat × Nat) s => (s.frameTable e.1 e.2).setPlot e.1 e.2 3) s.loadPlots s.initApply
        .next ((s.setH .loadTs s.startTime).setLoad 3)

/-- CFG_STAT.LOADED: all plots of a pavilion have been written since COLD. -/
def State.loadedShow (s : State) (p : Nat) : State :=
  s.setFlag F.CFG_STAT_LOADED ((List.range 4).all fun q => s.hb .plotWritten p q) p

/-- R366. T_s has come: PLOT resets and hedges are released, endpoints unfenced, and the load is DONE. -/
def execLoadStartTime (s : State) : Host.Outcome State Fault Refusal :=
  if s.loadState ≠ 3 ∨ ¬ atOrAfter s.time (s.hTime .loadTs) then .next s
  else
    let s := foldS (fun (e : Nat × Nat) s => (s.plotStart e.1 e.2).setH .plotWritten 1 e.1 e.2) s.loadPlots s
    let s := foldS (fun p s =>
      let s := s.loadedShow p
      s.setFld F.CFG_VER_STAT_STATE (if s.flag F.CFG_VER_CTL_EN p then 2 else 0) p)
      (indicesWhere 32 (bitOf (s.h .loadMask))) s
    let s := s.setFld F.CFG_LOAD_STAT_SRC_USED (s.h .loadSrc) |>.setFld F.CFG_LOAD_STAT_ERR 0
      |>.setFld F.CFG_LOAD_STAT_ATTEMPTS 0 |>.setH .loadBackoff 0 |>.setRegN .CFG_LOAD_START_TIME (s.h .loadTs)
    .next ((s.setLoad 4).capacityBack)

/-! ### The verifier (R370..R373) -/

/-- CFG_VER_STAT.STATE. -/
def State.verState (s : State) (p : Nat) : Nat := s.fld F.CFG_VER_STAT_STATE p

/-- R373. HALTED. -/
def State.verHalt (s : State) (p : Nat) : State := ((s.setFld F.CFG_VER_STAT_STATE 3 p).alarm p 0x31).local p 465

/-- R371. The next frame of a READY plot from a number on, if there is one. -/
def State.verFrom (s : State) (p n : Nat) : Option Nat :=
  (List.range 4).findSome? fun q =>
    if s.fld F.CFG_PLOT_STAT_STATE p q = 0 ∧ n < 3072 * (q + 1) then some (max n (3072 * q)) else none

/-- R371. A pass is at frame n, or over. -/
def State.verGoto (s : State) (p n : Nat) : State :=
  match s.verFrom p n with
  | some m => s.setH .verNext m p
  | none => (s.addFld F.CFG_VER_PASS_CNT_COUNT 1 p).setFld F.CFG_VER_STAT_STATE 2 p

/-- R371, R373. GAP ms have passed: the verifier checks its frame table. `bad` says that its CRC fails, and `domeBad` how
often in a row the dome's copy then failed: three times halts it. While the dome holds, a verifier that needs it waits
(DESIGN CHOICE, assumption 161). -/
def execVerifierPassStart (p : Nat) (bad : Bool) (domeBad : Nat) (s : State) : Host.Outcome State Fault Refusal :=
  if s.verState p ≠ 2 ∨ ¬ s.flag F.CFG_VER_CTL_EN p then .next s
  else if !bad then .next ((s.setFld F.CFG_VER_STAT_STATE 1 p).verGoto p 0)
  else if !s.domeRuns p then .next s
  else
    let s := (s.addFld F.CFG_VER_TBL_ERR_CNT_COUNT 1 p |>.setFlag F.CFG_VER_STAT_TBL_ERR true p).local p 465
    if 3 ≤ domeBad then .next (s.verHalt p)
    else
      let r := s.domeGet p (64 * (s.regN .DOME_RSV_BASE p + 0xc0000)) (4 * 12289)
      let s := r.2.2.stBytes (verTblBase p) r.2.1
      .next ((s.setFld F.CFG_VER_STAT_STATE 1 p).verGoto p 0)

/-- R372. A finding is recorded. -/
def State.verFind (s : State) (p n kind : Nat) : State :=
  ((s.setRegN .CFG_VER_LAST (n % 3072 + n / 3072 * 2 ^ 12 + kind * 2 ^ 16) p).alarm p 0x30).local p 465

/-- R371, R372. The verifier reads the next logic frame back. `found` is what it reads where cells are upset; `stuck` says
that a rewrite does not hold. -/
def execVerifierFrameRead (p : Nat) (found : Option (List Byte)) (stuck : Bool) (s : State) :
    Host.Outcome State Fault Refusal :=
  if s.verState p ≠ 1 then .next s
  else
    match s.verFrom p (s.h .verNext p) with
    | none => .next (s.verGoto p (4 * 3072))
    | some n =>
      let crc := BitVec.ofNat 32 (s.ldN (verTblBase p + 4 * n) 4)
      if !s.domeRuns p && (match found with | some bytes => crc32c bytes != crc | none => false) then .next s else
      let cell := cellBase p (n / 3072) + 4096 * (n % 3072)
      let s' := match found with
        | none => s
        | some bytes =>
          if crc32c bytes = crc then s
          else
            let r := s.domeGet p (64 * s.retainedLine p (n / 3072) (n % 3072)) 4096
            let kept := r.2.1
            let s := r.2.2.stBytes cell (bytes.take 4096)
            if r.1 || crc32c kept != crc then
              ((s.setFlag F.CFG_VER_STAT_UNREPAIRABLE true p).verFind p n 3).pavFault p
            else if stuck then
              ((s.addFld F.CFG_VER_STUCK_CNT_COUNT 1 p |>.setFlag F.CFG_VER_STAT_STUCK true p).verFind p n 2).pavFault p
            else (s.stBytes cell kept |>.addFld F.CFG_VER_REPAIR_CNT_COUNT 1 p).verFind p n 1
      .next (s'.verGoto p (n + 1))

/-- R373. A write of CFG_VER_CTL: EN starts or stops the verifier. -/
def State.verCtlWrite (s : State) (p v : Nat) : State :=
  let was := s.flag F.CFG_VER_CTL_EN p
  let s := s.setRegN .CFG_VER_CTL (v &&& 0xff01) p
  if !bitOf v 0 then s.verStop p
  else if !was && !s.loadingPav p then s.setFld F.CFG_VER_STAT_STATE 2 p
  else s

/-- R373. A write of CFG_VER_CTL. -/
def execVerEnWrite (p : Nat) (v : Word) (s : State) : Host.Outcome State Fault Refusal :=
  wrOut .CFG_VER_CTL v (s.verCtlWrite p v.toNat)

/-- R373. A flipped copy of the verifier's control state is outvoted. -/
def execVerifierVoteMismatch (p : Nat) (s : State) : Host.Outcome State Fault Refusal :=
  .next (s.addFld F.CFG_VER_VOTE_CNT_COUNT 1 p)

/-! ### Reconfiguring a plot (R376) -/

/-- R376. A write of CFG_PLOT_q_CTL.GO. -/
def State.plotGo (s : State) (p q : Nat) : State :=
  let st := s.fld F.CFG_PLOT_STAT_STATE p q
  if st ≠ 0 ∧ st ≠ 4 then s.setFlag F.CFG_PLOT_STAT_WR_IGN true p q
  else if s.loading || s.flag F.CFG_PMAP_CTL_BUSY || s.subState == 2 ||
      (List.range 4).any (fun r => ! [0, 4].contains (s.fld F.CFG_PLOT_STAT_STATE p r)) then
    s.plotErr p q 0x10
  else (s.plotFence p q).setPlot p q 1

/-- R376. GO. -/
def execPlotGo (p q : Nat) (s : State) : Host.Outcome State Fault Refusal := .next (s.plotGo p q)

/-- R364, R376. A partial load fails: the plot is zeroed and BLANK. -/
def State.plotFail (s : State) (p q code : Nat) : State := (s.plotBlank p q).plotErr p q code

/-- R376. An error of Table 14.3 while a plot is HEDGED. -/
def execPlotLoadError (p q code : Nat) (s : State) : Host.Outcome State Fault Refusal :=
  if s.fld F.CFG_PLOT_STAT_STATE p q = 2 then .next (s.plotFail p q code) else .next s

/-- R376. The source region of a partial image lies out of range or in the reserved region (0x11). -/
def State.plotSrcError (s : State) (p q : Nat) : Bool :=
  let line := s.fld F.CFG_PLOT_SRC_BASE p q % 2 ^ 25
  let n := s.regN .CFG_PLOT_LEN p q
  let lo := s.regN .DOME_RSV_BASE p
  decide (2 ^ 31 < 64 * line + n) || (decide (lo < line + cdiv n 64) && decide (line < lo + s.regN .DOME_RSV_SIZE p))

/-- R376. The one section of a partial image has been read from the own dome and authenticated: a read that returned poison
or was answered with an error fails it (0x12); it is checked and applied, and PLOT reset releases. -/
def execPlotSectionDone (p q : Nat) (sect : ImgSect) (s : State) : Host.Outcome State Fault Refusal :=
  if s.fld F.CFG_PLOT_STAT_STATE p q ≠ 2 then .next s
  else
    if s.plotSrcError p q then .next (s.plotFail p q 0x11)
    else
      let r := s.cfgGet p (64 * s.fld F.CFG_PLOT_SRC_BASE p q) (s.regN .CFG_PLOT_LEN p q)
      let s := r.2
      if r.1.isNone then .next (s.plotFail p q 0x12)
      else
        match sectFrames sect with
        | some fs =>
          if sect.kind ≠ 1 then .next (s.plotFail p q 0xa)
          else if sect.plots % 16 ≠ 2 ^ q ∨ ¬ bitOf sect.targets p then .next (s.plotFail p q 0xb)
          else .next (((s.writePlot p q fs).frameTable p q).setPlot p q 3)
        | none => .next (s.plotFail p q 0xa)

/-- R376. Sixteen cycles after r0 the plot is READY. -/
def execPlotStartDone (p q : Nat) (s : State) : Host.Outcome State Fault Refusal :=
  if s.fld F.CFG_PLOT_STAT_STATE p q = 3 ∧ ¬ s.loadingPav p then .next ((s.plotStart p q).capacityBack) else .next s

/-- R378. A write of CFG_PLOT_q_SRC, LEN or HPOL_w: only while the plot is READY or BLANK. -/
def State.plotSetup (s : State) (p q : Nat) (id : RegId) (j : Nat) (v : Word) : State :=
  if [0, 4].contains (s.fld F.CFG_PLOT_STAT_STATE p q) then s.setReg id ((v.zeroExtend 64) &&& id.row.rw) p q j
  else s.setFlag F.CFG_PLOT_STAT_WR_IGN true p q

end Sys2Proof.Machine
end

