-- ==== Sys2Proof/Machine/Cells.lean ====
section
/-!
DEFINITION. The user's logic at work: what a signal reads, what each move of a design does, and what an idle step does to the
fabric (R281..R287, R292..R298, R374, R375).
-/
namespace Sys2Proof.Machine

/-! ### Block RAM contents (R283, R286, R360) -/

/-- R360. The byte of memory at which block RAM k of a plot starts: the block RAM frames hold the blocks one after the other,
4,608 bytes each (assumption 169). -/
def ramBase (p q k : Nat) : Nat := cellBase p q + 4096 * 3072 + 4608 * k

/-- R283. The nine-bit byte i of a block RAM. -/
def State.ramByte (s : State) (p q k i : Nat) : Nat := s.ldN (ramBase p q k + 9 * i / 8) 2 / 2 ^ (9 * i % 8) % 512

/-- Store a nine-bit byte. -/
def State.ramPut (s : State) (p q k i v : Nat) : State :=
  let a := ramBase p q k + 9 * i / 8
  s.stN a 2 (setBitsOf (s.ldN a 2) (9 * i % 8) 9 v)

/-! ### What a signal reads (R281, R282, R375) -/

/-- R375. What a plot's logic sees of an input from outside: 0 while its hedges are engaged. -/
def State.plotInput (s : State) (p q : Nat) (b : Bool) : Bool := !s.hedged p q && b

/-- R299. Bit i of what a stream port presents: its 32 samples of 16 bits, the timestamp, GAP, and the primitive record. A late
frame is not presented (R84), so LATE stays 0. -/
def SportOut.bit (o : SportOut) (i : Nat) : Bool :=
  if i < 512 then bitOf (o.xs.getD (i / 16) 0) (i % 16)
  else if i < 576 then bitOf o.ts.toNat (i - 512)
  else if i = 576 then o.gap
  else if i < 609 then bitOf o.prim.1 (i - 577)
  else bitOf o.prim.2 (i - 609)

/-- R294. The fabric time port of a pavilion: the replica time of the last rising edge of the net of CFG_FTIME, which must be
ALIGNED. -/
def State.ftimePort (s : State) (p : Nat) : Nat :=
  let n := s.fld F.CFG_FTIME_CLK p
  match s.netRatio p n with
  | some r => if s.netAligned p n then (s.pavTime p).toNat * r.1 / (65536 * r.2) * (65536 * r.2) / r.1 else 0
  | none => 0

/-- R304. The word on a pin-bus slot of an endpoint: what the input port bound to it last presented. -/
def State.pinBus (s : State) (p e slot : Nat) : Nat :=
  match (tkeys s.regs).find? fun k => k.id == .TIO_GRP_CFG && s.tioRuns k.w k.i false &&
      s.fld F.TIO_GRP_CFG_PAV k.w k.i == p && s.fld F.TIO_GRP_CFG_EP k.w k.i == e &&
      s.fld F.TIO_GRP_CFG_SLOT k.w k.i == slot with
  | some k => s.h .tioVal k.w k.i
  | none => 0

/-- R281, R282, R284, R287, R293, R375. The level that logic of plot p.q reads on a signal. A wire of another plot comes through
that plot's hedge cell. -/
def State.netLevel (s : State) (p q : Nat) (n : Net) : Bool :=
  let l := s.plotLogic p q
  match n with
  | .level b => b
  | .lut c => c.plot == q && tget l.luts c false
  | .ff c => c.plot == q && s.ffLevel p q c
  | .wire w =>
    if w.plot = q then tget l.wires w false
    else w.crosses && s.plotInput p q (s.hedgeOut p w.plot (Config.hedgeBit (s.logicFrames p w.plot) w % 8192))
  | .ram k b i => bitOf (tget l.rams (k, b) (0, 0)).1 i
  | .ramErr k b i => bitOf (tget l.rams (k, b) (0, 0)).2 i
  | .slice k i => bitOf (unsign 48 (tget l.slices k default).p) i
  | .sliceOvf k => (tget l.slices k default).ovf
  | .cross e g i => groupPlot e g == q && s.plotInput p q (bitOf (s.crossIn p e g) i)
  | .crossOk e g => groupPlot e g == q && s.plotInput p q (s.crossRuns p e g)
  | .sport i j => s.plotInput p q ((s.sportAt p i).bit j)
  | .time i => s.plotInput p q (bitOf (s.ftimePort p) i)
  | .pin e slot i => e / 16 == q && s.plotInput p q (bitOf (s.pinBus p e slot) i)
  | .reset i => s.hb .rstNet p i

/-- The number on a list of signals, the first the least significant. -/
def State.busLevel (s : State) (p q : Nat) (ns : List Net) : Nat :=
  ns.foldr (fun n v => 2 * v + b2n (s.netLevel p q n)) 0

/-! ### Cells (R281) -/

/-- R281. What the image sets of a cell. -/
def State.cell (s : State) (p q : Nat) (c : CellAt) : CellCfg := Config.cellCfg (s.logicFrames p q) c

/-- R281. The row of a cell's table that its four inputs name. -/
def State.cellRow (s : State) (p q : Nat) (ins : List Net) : Nat := s.busLevel p q (ins.take 4)

/-- R281. The set or reset of a cell is asserted: by its reset net, or by the routed signal. -/
def State.cellSr (s : State) (p q : Nat) (k : CellCfg) (sr : Net) : Bool :=
  match k.net with
  | some n => s.hb .rstNet p n.val
  | none => s.netLevel p q sr

/-- R281. A flip-flop takes a level. -/
def State.ffPut (s : State) (p q : Nat) (c : CellAt) (b : Bool) : State :=
  let l := s.plotLogic p q
  s.setPlotLogic p q { l with ffs := if (s.cell p q c).init == b then tdel l.ffs c else tput l.ffs c b }

/-- R281. A cell's table and carry settle on its inputs; an asynchronous set or reset acts at once. -/
def State.cellSettle (s : State) (p q : Nat) (c : CellAt) (ins : List Net) (sr : Net) : State :=
  let k := s.cell p q c
  let row := s.cellRow p q ins
  let l := s.plotLogic p q
  let cin := match c.carryFrom with | some d => d.plot == q && tget l.carries d false | none => false
  let s := s.setPlotLogic p q { l with
    luts := tput l.luts c (k.lut.getLsbD row)
    carries := tput l.carries c (Config.carryOut k.lut row cin) }
  if !k.sync && s.cellSr p q k sr then s.ffPut p q c k.sets else s

/-- R281. A flip-flop is clocked: a synchronous set or reset, or its data under its clock enable. An asynchronous set or reset
that is asserted holds it. -/
def State.cellClock (s : State) (p q : Nat) (c : CellAt) (ins : List Net) (ce sr : Net) : State :=
  let k := s.cell p q c
  if s.cellSr p q k sr then s.ffPut p q c k.sets
  else if s.netLevel p q ce then
    s.ffPut p q c (if k.direct then bitOf (s.cellRow p q ins) 3 else k.lut.getLsbD (s.cellRow p q ins))
  else s

/-! ### Wires and outputs (R282, R293, R374) -/

/-- R282. A wire takes the level of a signal; one that leaves the plot drives its hedge cell. -/
def State.wireRoute (s : State) (p q : Nat) (w : Wire) (src : Net) : State :=
  if w.plot != q || !w.exists_ then s
  else
    let b := s.netLevel p q src
    let l := s.plotLogic p q
    s.setPlotLogic p q { l with
      wires := tput l.wires w b
      outs := if w.crosses then tput l.outs (Config.hedgeBit (s.logicFrames p q) w % 8192) b else l.outs }

/-- R374. An output of the plot takes the level of a signal: a crossing signal, an FEVT line, a reset-net drive, which
asserts its net at once (R293), or the gate of a global net (R291), which what it clocks follows. -/
def State.outDrive (s : State) (p q b : Nat) (src : Net) : State :=
  if b < 8192 ∨ 14504 ≤ b then s
  else
    let v := s.netLevel p q src
    let l := s.plotLogic p q
    let s := s.setPlotLogic p q { l with outs := tput l.outs b v }
    if 14472 ≤ b then s.clocksMoved p
    else if 14464 ≤ b ∧ s.fabricResets p (b - 14464) then s.setH .rstNet 1 p (b - 14464)
    else s

/-! ### Block RAM ports (R283..R285) -/

/-- What an access does at byte j of its word: none without its write enable. -/
def State.ramWrites (s : State) (p q : Nat) (cfg : RamPortCfg) (u : Option RamUse) (i : Nat) : Option Nat :=
  match u with
  | none => none
  | some u =>
    let n := 2 ^ cfg.width.val
    let j := i % n
    if i / n = s.busLevel p q u.addr % (4096 / n) ∧ bitOf (s.busLevel p q u.we) j then
      let d := s.busLevel p q u.data / 2 ^ (9 * j) % 512
      some (if cfg.check then bramCheckByte d else d)
    else none

/-- The bytes of block RAM that an access reaches. -/
def State.ramSpan (s : State) (p q : Nat) (cfg : RamPortCfg) (u : Option RamUse) : List Nat :=
  match u with
  | none => []
  | some u =>
    let n := 2 ^ cfg.width.val
    (List.range n).map fun j => s.busLevel p q u.addr % (4096 / n) * n + j

/-- R284, R285. What a port shows after its access, byte by byte: the data and PERR; each failing byte is an uncorrectable
error at its 72-bit row. -/
def State.ramShow (s : State) (p q k : Nat) (portB : Bool) (cfg : RamPortCfg) (bytes : List (Nat × Nat)) : State :=
  let bad (v : Nat) : Bool := cfg.check && bramPerr v
  let data := bytes.foldr (fun e v => 512 * v + e.2) 0
  let perr := bytes.foldr (fun e v => 2 * v + b2n (bad e.2)) 0
  let s := foldS (fun (e : Nat × Nat) s => if bad e.2 then s.sramUncorrectable p (512 * q + k) (e.1 / 8) else s) bytes s
  let l := s.plotLogic p q
  s.setPlotLogic p q { l with rams := tput l.rams (k, portB) (data, perr) }

/-- R283..R285. A cycle of a block RAM. In one clock, port A's byte wins, a read on the writing port returns the new data and
one on the other port the old. Where the ports overlap on different clocks, `race` picks, byte by byte, which port's value is
stored (bit i of its first number), and its second number gives, nine bits a byte, what a read of a byte being written returns;
PERR then follows the stored value. -/
def State.ramCycle (s : State) (p q k : Nat) (a b : Option RamUse) (race : Option (Nat × Nat)) : State :=
  let ca := Config.ramCfg (s.logicFrames p q) k false
  let cb := Config.ramCfg (s.logicFrames p q) k true
  let wa (i : Nat) := s.ramWrites p q ca a i
  let wb (i : Nat) := s.ramWrites p q cb b i
  let new (i : Nat) : Nat :=
    match race with
    | some r => if bitOf r.1 i then bramWrite (s.ramByte p q k i) (wb i) (wa i) else bramWrite (s.ramByte p q k i) (wa i) (wb i)
    | none => bramWrite (s.ramByte p q k i) (wa i) (wb i)
  let sa := s.ramSpan p q ca a
  let sb := s.ramSpan p q cb b
  let shown (mine other : Nat → Option Nat) (i : Nat) : Nat × Nat :=
    (i, match race with
      | some r => if (other i).isSome then r.2 / 2 ^ (9 * i) % 512 else bramReadBeside (s.ramByte p q k i) (new i) (mine i).isSome
      | none => bramReadBeside (s.ramByte p q k i) (new i) (mine i).isSome)
  let s' := foldS (fun i t => if ((wa i).or (wb i)).isSome then t.ramPut p q k i (new i) else t) (sa ++ sb) s
  let s' := if a.isSome then s'.ramShow p q k false ca (sa.map (shown wa wb)) else s'
  if b.isSome then s'.ramShow p q k true cb (sb.map (shown wb wa)) else s'

/-! ### Slices (R287) -/

/-- R287. A cycle of a slice: each register stage in use delays by one, so its latency is the number of stages. The operand C
and the add-or-subtract control travel with the product (assumption 169). -/
def SliceRegs.cycle (r : SliceRegs) (g : SliceCfg) (a b c : Nat) (sub : Bool) (below : Int) : SliceRegs :=
  let mul (a b : Nat) : Int := sliceOperand 27 g.sgnA a * sliceOperand 18 g.sgnB b
  let now : Int × Nat × Bool := (mul a b, c, sub)
  let held : Int × Nat × Bool := (mul r.a r.b, r.c, r.sub)
  let first := if g.regIn then held else now
  let prod : Int × Nat × Bool := (r.prod, r.prodC, r.prodSub)
  let into := if g.regRes then (if g.regProd then prod else first) else (if g.regProd then first else now)
  let add : Int := match g.addend with
    | .zero => 0
    | .own => r.p
    | .operand => signed 48 into.2.1
    | .cascade => below
  let v := sliceHold (if into.2.2 then add - into.1 else add + into.1) g.sat
  ⟨a, b, c, sub, first.1, first.2.1, first.2.2, v.1, v.2⟩

/-- R287. A slice is clocked. -/
def State.sliceCycle (s : State) (p q k : Nat) (a b c : List Net) (sub : Net) : State :=
  let l := s.plotLogic p q
  let below := match Config.sliceBelow k with | some j => (tget l.slices j default).p | none => 0
  let r := (tget l.slices k default).cycle (Config.sliceCfg (s.logicFrames p q) k) (s.busLevel p q a % 2 ^ 27)
    (s.busLevel p q b % 2 ^ 18) (s.busLevel p q c % 2 ^ 48) (s.netLevel p q sub) below
  s.setPlotLogic p q { l with slices := tput l.slices k r }

/-! ### The design at work -/

/-- What one move of a design does to its plot; a move at a resource that the plot does not have does nothing. -/
def State.designMove (s : State) (p q : Nat) (m : DesignMove) : State :=
  match m with
  | .route w src => s.wireRoute p q w src
  | .settle c ins sr => if c.exists_ && c.plot == q then s.cellSettle p q c ins sr else s
  | .clock c ins ce sr => if c.exists_ && c.plot == q then s.cellClock p q c ins ce sr else s
  | .drive b src => s.outDrive p q b src
  | .ram k a b race => if k < 512 then s.ramCycle p q k a b race else s
  | .slice k a b c sub => if k < 256 then s.sliceCycle p q k a b c sub else s

/-- R364, R366, R376. The logic of a plot is out of PLOT reset and not zeroed: it is READY, or STARTING by itself. -/
def State.plotRuns (s : State) (p q : Nat) : Bool :=
  s.fld F.CFG_PLOT_STAT_STATE p q == 0 || (s.fld F.CFG_PLOT_STAT_STATE p q == 3 && !s.loadingPav p)

/-- The plots whose registers show a state. -/
def State.plotKeys (s : State) : List (Nat × Nat) :=
  (((tkeys s.regs).filter fun k => k.id == .CFG_PLOT_STAT).map fun k => (k.w, k.i)).eraseDups

/-- The designs of the running plots make their moves (assumption 169). -/
def State.designsMove (s : State) : State :=
  foldS (fun (e : Nat × Nat) s =>
    if s.plotRuns e.1 e.2 then
      let r := s.takeFree
      foldS (fun m s => s.designMove e.1 e.2 m) (Config.design (s.logicFrames e.1 e.2) s.free) r.2
    else s) s.plotKeys s

/-- An idle step: device time advances by its unit of 2^-16 beat (R2), a slew by as much (R37), and the fabric with it: the
designs move, and values cross (assumptions 5, 169). -/
def State.idle (s : State) : State := (s.pass 1).designsMove.crossingsMove

end Sys2Proof.Machine
end

