-- ==== Sys2Proof/Machine/DomeRun.lean ====
section
/-!
DEFINITION. The domes at work: their schedulers' issues, the lines that return, the answers of the requests they queued, and
entry to self-refresh (R117, R126, R133, R134, R390, R393).
-/
namespace Sys2Proof.Machine

/-- The words of bytes. -/
def bytesWords : List Byte → List Word
  | a :: b :: c :: d :: l => (d ++ c ++ b ++ a) :: bytesWords l
  | _ => []

/-- The data words that the answer of a request carries. -/
def pktAnswerLen (w : List Word) : Nat := if pktOp w = 1 then pktLen w else if pktOp w = 3 then 1 else 0

/-- R117, R133, R390. A packet's request at a dome all of whose lines are over is answered: DOME_HOLD where one of them was
not performed. The metadata it verified enter the cache. -/
def State.txnAnswer (s : State) (t : Nat) : State :=
  match s.txn t with
  | none => s
  | some x =>
    match x.req with
    | none => s
    | some (n, w) =>
      if x.left ≠ 0 then s
      else
        let s := s.txnDone t
        if x.hold then s.prmAnswer n 114 w Status.domeHold.code 0 false (List.replicate (pktAnswerLen w) 0)
        else
          let s := match x.key with | some k => if x.poison then s else s.cacheUses x.pav k x.metas | none => s
          s.prmAnswer n 114 w 0 0 x.poison
            (if pktOp w = 2 then [] else x.answer.getD (bytesWords x.bytes))

/-- Every request at dome p that is over is answered. -/
def State.txnsAnswer (s : State) (p : Nat) : State :=
  foldS (fun (e : Nat × DomeTxn) s => if e.2.pav = p then s.txnAnswer e.1 else s) s.domeTxns s

/-- R126. A pseudo-channel's scheduler issues. -/
def execDomeSchedIssue (p c : Nat) (s : State) : Host.Outcome State Fault Refusal := .next ((s.schedIssue p c).txnsAnswer p)

/-- R134, R393. The oldest issued read of a pseudo-channel returns. `found` gives the bits in error of each word; `tag` is 1
for the tag mismatch of a protected data line and 2 for that of a node. A node or node tag line that fails loses the key;
a data tag line that fails makes its data line poison. -/
def State.lineReadDone (s : State) (p c : Nat) (found : List Nat) (tag : Nat) : State :=
  match s.issuedOf p c with
  | [] => s
  | r :: rs =>
    let e := (s.setIssued p c rs).eccLine p r.line r.known found r.off r.len
    match (e.2.txn r.txn).bind DomeTxn.key with
    | none => e.2.txnPart r.txn r.part false e.1 r.bytes
    | some k =>
      if r.port = 5 then
        let bad := e.1 || tag == 2
        let s := if bad && decide (2 ^ 20 < r.part) then (e.2.setH .keyBad 1 p k (r.part - 2 ^ 20 - 1)).keyLost p k else e.2
        s.txnPart r.txn r.part false bad []
      else (if tag = 1 then e.2.keyTamper p k else e.2).txnPart r.txn r.part false (e.1 || tag == 1) r.bytes

/-- R134, R393. A DRAM read returns. -/
def execDomeLineReadDone (p c : Nat) (found : List Nat) (tag : Nat) (s : State) : Host.Outcome State Fault Refusal :=
  .next ((s.lineReadDone p c found tag).txnsAnswer p)

/-- R133, R390. Entry completes: queued requests are answered, and the cache's dirty lines are written back. -/
def execSrEntryDone (p : Nat) (s : State) : Host.Outcome State Fault Refusal :=
  if s.h .domeSr p = 1 then .next ((((s.domeDrop p).cacheClean p |>.setH .domeSr 2 p).srUpdate p).txnsAnswer p) else .next s

end Sys2Proof.Machine
end

