-- ==== Sys2Proof/Machine/Lartum.lean ====
section
/-!
DEFINITION. Link arbitration and Lartum links: frames, replay, training, spares and width (R318..R320, R325, R334..R347,
R352).
-/
namespace Sys2Proof.Machine

/-! ### Links and their ports (R313, R338) -/

/-- The other side of link l of node n. -/
def State.lrtPeer (s : State) (n l : Nat) : Option (Nat × Nat) :=
  if n < 32 then
    if l < 4 then some (neighbour n l, opposite l)
    else
      match (siteTowers (s.siteOf n))[l - 4]? with
      | some t => some (towerNode t, (towerSites t).findIdx (· == s.siteOf n))
      | none => none
  else
    let x := (towerSites (n - 32)).getD l 0
    match s.pavAt x with
    | some p => some (p, 4 + (siteTowers x).findIdx (· == n - 32))
    | none => none

/-- R338. The physical port of a pavilion's or tower's link: its side (site, or 64 + t) and number. -/
def State.physPort (s : State) (n l : Nat) : Nat × Nat :=
  if 32 ≤ n then (64 + (n - 32), l)
  else
    let x := s.siteOf n
    if 4 ≤ l then (x, 18 + (l - 4))
    else
      let y := s.siteOf (neighbour n l)
      if x / 9 = y / 9 then
        (x, if y % 9 < x % 9 then absDiff (x % 9) (y % 9) - 1 else 2 + absDiff (x % 9) (y % 9))
      else
        let d : Int := (y / 9 : Nat) - (x / 9 : Nat)
        let i := if d = -2 then 0 else if d = -1 then 1 else if d = 1 then 2 else 3
        (x, 6 + 3 * i + (y % 9 + 1 - x % 9))

/-- The link that an output of a node drives. -/
def State.outLink (s : State) (n o : Nat) : Option Nat :=
  if 32 ≤ n then (if o < 4 then some o else none)
  else if o < 4 then some o
  else if o < 12 then
    let ts := siteTowers (s.siteOf n)
    if ts.contains (o - 4) then some (4 + ts.findIdx (· == o - 4)) else none
  else none

/-- The input of node m that link l feeds. -/
def State.linkInput (s : State) (m l : Nat) : Nat :=
  if 32 ≤ m ∨ l < 4 then l else 4 + (siteTowers (s.siteOf m)).getD (l - 4) 0

/-- A link side at reset. -/
def LrtSide.empty : LrtSide := ⟨0, [], 0, 256, 0, none, [], 2 ^ 34 - 1, 0, false, 0, false, false, 0, 0⟩
/-- A link side. -/
def State.side (s : State) (n l : Nat) : LrtSide := tget s.lrt (n, l) LrtSide.empty
/-- Replace a link side. -/
def State.setSide (s : State) (n l : Nat) (x : LrtSide) : State := { s with lrt := tput s.lrt (n, l) x }

/-- The state of a link (Table 13.1). -/
def State.lrtState (s : State) (n l : Nat) : Nat := s.fld F.LRT_LINK_STAT_STATE n l

/-- R352. A link event of a node. -/
def State.lrtEvent (s : State) (n : Nat) : State := if n < 32 then s.local n 456 else s.device (1904 + (n - 32))

/-- The lanes of a width code: 32, 16 or 8. -/
def widthLanes (w : Nat) : Nat := [32, 16, 8].getD w 8

/-- R338. The fused repairs of a physical port. -/
def State.lrtFuse (s : State) (k : Nat × Nat) : Nat :=
  if k.1 < 64 then s.regN .LRT_FUSE k.1 k.2 else s.regN .LRT_FUSE_T (k.1 - 64) k.2

/-- The lanes a port's fuses name as repaired. -/
def fuseLanes (v : Nat) : List Nat := ([bitsOf v 0 6, bitsOf v 6 6].filter (· != 0x3f)).eraseDups

/-- R338, R339. The lanes a port may not use: failed in the field or repaired at the factory. -/
def State.lrtBad (s : State) (n l : Nat) : Nat :=
  let k := s.physPort n l
  (fuseLanes (s.lrtFuse k)).foldl (fun v j => Machine.setBit v j true) (s.h .lrtFailed k.1 k.2)

/-- R338. The spares left to a port. -/
def State.lrtSpares (s : State) (n l : Nat) : Nat :=
  let k := s.physPort n l
  2 - (fuseLanes (s.lrtFuse k)).length - s.h .lrtSwaps k.1 k.2

/-- The lanes of a bitmap. -/
def lanesOf (v : Nat) : List Nat := indicesWhere 34 (bitOf v)

/-- R343. The usable lanes of a side: not failed, and passed in this training. -/
def State.lrtUsable (s : State) (n l : Nat) : Nat :=
  (s.side n l).test &&& ((2 ^ 34 - 1) ^^^ s.lrtBad n l)

/-- R333, R325. PRM_LINK_e_STAT of a torus link follows it. -/
def State.prmLink (s : State) (n l : Nat) (up : Bool) (width : Nat) : State :=
  if n < 32 ∧ l < 4 then
    let v := b2n up + width * 2 + b2n (s.reach3 n l) * 8
    if s.regN .PRM_LINK_STAT n l = v then s else (s.setRegN .PRM_LINK_STAT v n l).local n 448
  else s

/-- The declarations routed over a link, both its directions (Table 7.5). -/
def State.overLink (s : State) (n l : Nat) (d : Decl) : Bool :=
  if n < 32 ∧ l < 4 then d.uses (.torus n l) || d.uses (.torus (neighbour n l) (opposite l))
  else if 32 ≤ n then d.usesLink (n - 32) l
  else match s.lrtPeer n l with
    | some (m, j) => d.usesLink (m - 32) j
    | none => false

/-- The pavilion a side's alarms count at: the side's node. -/
def State.lrtAlarm (s : State) (n ty : Nat) : State := s.alarm n ty

/-- Enter a state of Table 13.1. -/
def State.setLrt (s : State) (n l st : Nat) : State :=
  if s.lrtState n l = st then s else (s.setFld F.LRT_LINK_STAT_STATE st n l).lrtEvent n

/-- The number of a link, as the fault of R172 names it: its lower side. -/
def State.linkId (s : State) (n l : Nat) : Nat :=
  match s.lrtPeer n l with
  | some (m, k) => min (64 * n + l) (64 * m + k)
  | none => 64 * n + l

/-- R411. A Lartum link is down: both end pavilions become candidates, on GO only; a pavilion whose four torus links are
all DOWN has failed, and a tower whose live links are all DOWN is reported by its own command. -/
def State.linkFault (s : State) (n l : Nat) (known : Bool) : State :=
  let s := if known then s else (s.faultStart 1 (s.linkId n l)).lrtAlarm n 0x41
  if n < 32 then
    let s := s.candidate n true
    let m := match s.lrtPeer n l with | some e => e.1 | none => 63
    let s := if m < 32 ∧ m ≠ s.subPav ∧ n ≠ s.subPav then (s.subTouched n) else s
    if (List.range 4).all fun e => s.lrtState n e == 0 then s.pavFault n else s
  else s

/-- R336, R337, R341, R345. A side goes DOWN: lanes idle, the back-off starts, and what was UP is lost. The capacity fault
and the alarm belong to the link, and are raised when its first side goes DOWN. -/
def State.lrtDown (s : State) (n l : Nat) : State :=
  let x := s.side n l
  let back := if ¬ s.flag F.LRT_LINK_CTL_EN n l then x.backoff else if x.backoff = 0 then 1 else min 8000 (2 * x.backoff)
  let s := s.setSide n l { x with
    swap := none, queued := [], matched := 0, widen := false, short := false, wasUp := false, backoff := back, ctl := 0 }
  let s := s.setFld F.LRT_LINK_STAT_WIDTH 3 n l |>.setFlag F.LRT_LINK_STAT_SWAP_BUSY false n l
    |>.setRegN .LRT_LINK_USED 0 n l
  let s := (s.setLrt n l 0).prmLink n l false 3
  let s := if n < 32 ∧ l < 4 then s.edgeFault n l else s
  if x.wasUp then
    let known := match s.lrtPeer n l with | some (m, j) => s.lrtState m j == 0 | none => false
    (if known then s else s.capacityFault 2 (s.overLink n l)).linkFault n l known
  else s

/-- R336, R337. Training starts from DOWN. -/
def State.lrtDetect (s : State) (n l : Nat) : State :=
  if s.lrtState n l = 0 ∧ s.flag F.LRT_LINK_CTL_EN n l then
    let k := s.physPort n l
    ((s.satFld F.LRT_LINK_STAT_ATTEMPTS 1 n l).setFld F.LRT_LINK_STAT_PORT k.2 n l
      |>.setSide n l { s.side n l with cap := s.h .lrtCap k.1 k.2 }).setLrt n l 1
  else s

/-- R336. One side of a link trains again, at most at a width code. -/
def State.sideRetrain (s : State) (n l cap : Nat) (widen : Bool) : State :=
  let s := s.setSide n l { s.side n l with
    swap := none, queued := [], matched := 0, widen := widen, short := true, cap := cap, ctl := 0 }
  ((s.setFlag F.LRT_LINK_STAT_SWAP_BUSY false n l).setH .lrtStepping 0 n l).setLrt n l 2

/-- What both sides of a link do: the side itself, and its peer where `cond` holds of it. -/
def State.bothSides (s : State) (n l : Nat) (cond : State → Nat → Nat → Bool) (f : State → Nat → Nat → State) : State :=
  let t := f s n l
  match s.lrtPeer n l with
  | some (m, j) => if cond s m j then f t m j else t
  | none => t

/-- A side is UP, or trains after having been UP. -/
def State.sideLive (s : State) (n l : Nat) : Bool := (s.side n l).wasUp

/-- R336. A link that is UP trains again, at most at a width code: both its sides leave UP. -/
def State.lrtRetrain (s : State) (n l cap : Nat) (widen : Bool) : State :=
  s.bothSides n l State.sideLive fun s n l => s.sideRetrain n l cap widen

/-- R337. The back-off has elapsed. -/
def execLrtBackoffExpiry (n l : Nat) (s : State) : Host.Outcome State Fault Refusal := .next (s.lrtDetect n l)

/-- R336. Both sides see clock and frame lock on at least 8 lanes. -/
def execLrtDetectLock (n l : Nat) (s : State) : Host.Outcome State Fault Refusal :=
  if s.lrtState n l = 1 then .next (s.setLrt n l 2) else .next s

/-- R336, R341, R343. The lane test is done: `pass` holds the lanes that passed. A retest by WIDEN brings failed lanes that
pass back. -/
def State.laneTest (s : State) (n l pass : Nat) : State :=
  if s.lrtState n l ≠ 2 then s
  else
    let x := s.side n l
    let k := s.physPort n l
    let s := s.setSide n l { x with test := pass % 2 ^ 34, widen := false }
    let s := if x.widen then
        (s.setH .lrtFailed (s.h .lrtFailed k.1 k.2 &&& ((2 ^ 34 - 1) ^^^ (pass % 2 ^ 34))) k.1 k.2
          |>.setH .lrtCap 0 k.1 k.2).jrnlWritten
      else s
    let u := s.lrtUsable n l
    let s := s.setRegN .LRT_LINK_LOCAL u n l
    if popcount 34 u < 8 then s.lrtDown n l else s.setLrt n l 3

/-- R336. The lane test is done. -/
def execLaneTestDone (n l pass : Nat) (s : State) : Host.Outcome State Fault Refusal := .next (s.laneTest n l pass)

/-- R336. Frame lock on the lanes in use is lost for 1 us. -/
def execFrameLockLoss (n l : Nat) (s : State) : Host.Outcome State Fault Refusal :=
  if s.lrtState n l = 0 then .next s else .next (s.lrtDown n l)

/-- The lowest-numbered lanes of a bitmap. -/
def lowestLanes (v n : Nat) : Nat := ((lanesOf v).take n).foldl (fun m j => m + 2 ^ j) 0

/-- R343. The width both views allow: the widest no wider than either cap with that many usable lanes. -/
def lrtWidthFor (usable cap : Nat) : Option Nat := firstWhere 3 fun w => decide (cap ≤ w) && decide (widthLanes w ≤ popcount 34 usable)

/-- The frames that a peer's next SEQ acknowledges leave the retry buffer (R335). -/
def LrtSide.ackTo (x : LrtSide) (next : Nat) : LrtSide :=
  { x with unacked := x.unacked.dropWhile fun f => decide (0 < (next + 256 - f.seq) % 256 ∧ (next + 256 - f.seq) % 256 ≤ 128) }

/-- R343, R336. The peer's ADVERTISE: lanes, width cap and next SEQ. -/
def State.advertise (s : State) (n l lanes cap next : Nat) : State :=
  if s.lrtState n l ≠ 3 then s
  else
    let s := s.setRegN .LRT_LINK_PEER (lanes % 2 ^ 34) n l
    let x := (s.side n l).ackTo next
    let u := s.lrtUsable n l &&& (lanes % 2 ^ 34)
    match lrtWidthFor u (max x.cap cap) with
    | none => s.lrtDown n l
    | some w =>
      (s.setSide n l { x with matched := 0, cap := w } |>.setRegN .LRT_LINK_USED (lowestLanes u (widthLanes w)) n l
        |>.setFld F.LRT_LINK_STAT_WIDTH w n l).setLrt n l 4

/-- R343. An ADVERTISE frame. -/
def execLctlAdvertise (n l lanes cap next : Nat) (s : State) : Host.Outcome State Fault Refusal :=
  .next (s.advertise n l lanes cap next)

/-- R336, R190, R191. The link is UP at its chosen width; the journal takes the width as its cap. A link that comes UP again
narrower than it was is a capacity fault, once both its sides are UP. -/
def State.lrtUpNow (s : State) (n l : Nat) : State :=
  let x := s.side n l
  let k := s.physPort n l
  let was := s.h .lrtCap k.1 k.2
  let s := s.setSide n l { x with wasUp := true, short := false, backoff := 0, replays := 0 }
  let s := s.setH .lrtMis8 0 n l |>.setH .lrtStepping 0 n l
  let s := s.setFld F.LRT_LINK_STAT_ATTEMPTS 0 n l |>.setFld F.LRT_LINK_STAT_MISMATCH 0 n l
    |>.setFld F.LRT_LINK_STAT_SPARES (s.lrtSpares n l) n l |>.setFld F.LRT_LINK_STAT_WIDTH x.cap n l
    |>.setH .lrtCap x.cap k.1 k.2
  let s := if was = x.cap then s else s.jrnlWritten
  let s := ((s.setLrt n l 5).prmLink n l true x.cap).faultEnd 1 (s.linkId n l)
  let s := if n < 32 ∧ l < 4 then s.edgeBack n l else s
  if !x.wasUp ∨ x.cap < was then s.capacityBack
  else if was < x.cap ∧ ((s.lrtPeer n l).all fun e => s.lrtState e.1 e.2 == 5) then s.capacityFault 1 (s.overLink n l)
  else s

/-- R344. The peer's CHECK: its width and the lanes in use. -/
def State.lrtCheck (s : State) (n l width lanes : Nat) : State :=
  if s.lrtState n l ≠ 4 then s
  else
    let x := s.side n l
    if width = x.cap ∧ lanes % 2 ^ 34 = s.regN .LRT_LINK_USED n l then
      if x.matched + 1 < 16 then s.setSide n l { x with matched := x.matched + 1 } else s.lrtUpNow n l
    else
      let m := s.fld F.LRT_LINK_STAT_MISMATCH n l
      let at8 := if x.cap = 2 then s.h .lrtMis8 n l + 1 else 0
      let s := ((s.setFld F.LRT_LINK_STAT_MISMATCH (min 3 (m + 1)) n l).setH .lrtMis8 at8 n l).lrtEvent n
      if 3 ≤ at8 then (s.setH .lrtMis8 0 n l).lrtDown n l
      else (s.setSide n l { x with matched := 0, cap := min 2 (x.cap + 1) }).setLrt n l 2

/-- R344. A CHECK frame. -/
def execLctlCheck (n l width lanes : Nat) (s : State) : Host.Outcome State Fault Refusal :=
  .next (s.lrtCheck n l width lanes)

/-! ### Lane failures, swaps and width steps (R339..R342) -/

/-- R339. Lanes are marked failed in both directions, and journalled. -/
def State.lrtMark (s : State) (n l : Nat) (lanes : List Nat) : State :=
  let s := s.bothSides n l (fun _ _ _ => true) fun s n l =>
    let k := s.physPort n l
    let s := s.setH .lrtFailed (lanes.foldl (fun v j => Machine.setBit v j true) (s.h .lrtFailed k.1 k.2)) k.1 k.2
    s.setRegN .LRT_LINK_LOCAL (s.lrtUsable n l) n l
  s.jrnlWritten

/-- R341. A failure that finds no spare costs one width step, of the link and so of both its sides. -/
def State.lrtStep (s : State) (n l : Nat) : State :=
  let w := s.fld F.LRT_LINK_STAT_WIDTH n l
  let s := (s.bothSides n l State.sideLive fun s n l => s.addFld F.LRT_LINK_STEP_CNT_COUNT 1 n l).lrtAlarm n 0x21
  if 2 ≤ w then s.lrtDown n l
  else
    let s := s.bothSides n l State.sideLive fun s n l =>
      let k := s.physPort n l
      let s := s.setFld F.LRT_LINK_STAT_WIDTH (w + 1) n l |>.setH .lrtCap (w + 1) k.1 k.2
      ((s.sideRetrain n l (w + 1) false).setH .lrtStepping 1 n l).prmLink n l true (w + 1)
    s.jrnlWritten.capacityFault 1 (s.overLink n l)

/-- The lanes of a port that may serve as spares: good, and not in use. -/
def State.lrtFree (s : State) (n l : Nat) : List Nat :=
  lanesOf (s.lrtUsable n l &&& ((2 ^ 34 - 1) ^^^ s.regN .LRT_LINK_USED n l))

/-- R340. A receiver asks for a swap of lane f to the lowest free spare; without one, R341. -/
def State.swapStart (s : State) (n l f : Nat) : State :=
  match s.lrtFree n l with
  | sp :: _ =>
    if s.fld F.LRT_LINK_STAT_WIDTH n l = 0 ∧ 0 < s.lrtSpares n l then
      (s.setSide n l { s.side n l with swap := some ⟨f, sp, none, 256⟩, ctl := 3 }).setFlag F.LRT_LINK_STAT_SWAP_BUSY true n l
    else s.lrtStep n l
  | [] => s.lrtStep n l

/-- R339, R341, R342. Lanes are found failing in one frame: marked, journalled, and swapped or stepped. A lane that fails
during a swap waits for it; two at once with one spare left cost one step; one that fails during the training of a step is
the next failure. -/
def State.lanesFail (s : State) (n l : Nat) (lanes : List Nat) : State :=
  let inUse := lanes.filter fun j => bitOf (s.regN .LRT_LINK_USED n l) j
  let s := s.lrtMark n l lanes
  let x := s.side n l
  if s.lrtState n l ≠ 5 then (if s.hb .lrtStepping n l ∧ lanes ≠ [] then s.lrtStep n l else s)
  else
    match x.swap, lanes with
    | some w, _ =>
      if lanes.contains w.spare then
        let s := (s.setSide n l { x with swap := none, queued := x.queued ++ inUse.filter (· != w.lane) }).setFlag
          F.LRT_LINK_STAT_SWAP_BUSY false n l
        s.swapStart n l w.lane
      else s.setSide n l { x with queued := x.queued ++ inUse }
    | none, _ =>
      match inUse with
      | [] => s
      | [f] => s.swapStart n l f
      | f :: rest =>
        if min (s.lrtSpares n l) (s.lrtFree n l).length < 2 then s.lrtStep n l
        else (s.setSide n l { x with queued := rest }).swapStart n l f

/-- R339. Lanes of one frame are declared failing. -/
def execLaneFailing (n l : Nat) (lanes : List Nat) (s : State) : Host.Outcome State Fault Refusal :=
  .next (s.lanesFail n l lanes)

/-- R340. The sender answers a SWAP_REQ with a SWAP_ACK that names the next frame; a retrain has dropped the swap. -/
def State.swapReq (s : State) (n l f sp : Nat) : State :=
  if s.lrtState n l = 5 then
    (s.setSide n l { s.side n l with swap := some ⟨f, sp, some (s.side n l).seq, 256⟩, ctl := 4 }).setFlag
      F.LRT_LINK_STAT_SWAP_BUSY true n l
  else s

/-- R340. A SWAP_REQ frame. -/
def execLctlSwapReq (n l f spare : Nat) (s : State) : Host.Outcome State Fault Refusal := .next (s.swapReq n l f spare)

/-- R340. A SWAP_ACK frame names the first frame driven on both lanes. -/
def execLctlSwapAck (n l first : Nat) (s : State) : Host.Outcome State Fault Refusal :=
  match (s.side n l).swap with
  | some w => .next (s.setSide n l { s.side n l with swap := some { w with first := some (first % 256) }, ctl := 0 })
  | none => .next s

/-- The swap of a side is done: lane f gives way to the spare in its lane map. -/
def State.swapMap (s : State) (n l : Nat) (w : LrtSwap) : State :=
  let v := Machine.setBit (Machine.setBit (s.regN .LRT_LINK_USED n l) w.lane false) w.spare true
  (s.setRegN .LRT_LINK_USED v n l).setFlag F.LRT_LINK_STAT_SWAP_BUSY false n l

/-- R340, R342. The receiver's swap completes, at both sides of the link; the next failing lane's may start. -/
def State.swapDone (s : State) (n l : Nat) (w : LrtSwap) : State :=
  let s := s.bothSides n l (fun _ _ _ => true) fun s n l =>
    let k := s.physPort n l
    let s := s.setH .lrtSwaps (s.h .lrtSwaps k.1 k.2 + 1) k.1 k.2
    let s := ((s.swapMap n l w).addFld F.LRT_LINK_SWAP_CNT_COUNT 1 n l).setFld F.LRT_LINK_STAT_SPARES (s.lrtSpares n l) n l
    s.lrtEvent n
  let s := s.lrtAlarm n 0x20
  let s := match s.lrtPeer n l with
    | some (m, j) => s.setSide m j { s.side m j with swap := none, ctl := 0 }
    | none => s
  let x := s.side n l
  match x.queued with
  | [] => s.setSide n l { x with swap := none }
  | f :: fs => (s.setSide n l { x with swap := none, queued := fs }).swapStart n l f

/-- R340. A frame whose lanes f and s differ abandons the swap: lane s is marked failed and the next spare is tried. -/
def State.swapBad (s : State) (n l : Nat) (w : LrtSwap) : State :=
  let s := s.lrtMark n l [w.spare]
  ((s.setSide n l { s.side n l with swap := none }).setFlag F.LRT_LINK_STAT_SWAP_BUSY false n l).swapStart n l w.lane

/-! ### Data frames (R334, R335) -/

/-- R334. One byte of the link's CRC-16, polynomial 0x8BB7, most significant bit first (assumption 172). -/
def crc16Byte (c : Nat) (b : Byte) : Nat :=
  foldS (fun _ c => if bitOf c 15 then (2 * c % 2 ^ 16) ^^^ 0x8bb7 else 2 * c) (List.range 8) (c ^^^ (b.toNat * 256))

/-- R334. The link's CRC-16: initial value 0xFFFF. -/
def crc16 (bs : List Byte) : Nat := bs.foldl crc16Byte 0xffff

/-- R334. The CRC passes: it covers the flit and sideband bits 31:16, SEQ and ACK. -/
def frameOk (f : LrtFrame) : Bool := f.crc == crc16 (f.flit ++ [BitVec.ofNat 8 f.seq, BitVec.ofNat 8 f.ack])

/-- R14. Link l of node n is no tower link, or one that carries traffic. -/
def State.linkCarries (s : State) (n l : Nat) : Bool :=
  if n < 32 then
    if l < 4 then true
    else match s.lrtPeer n l with | some (m, j) => s.towerCarries (m - 32) j | none => false
  else s.towerCarries (n - 32) l

/-- A packet arrives whole at a node's input. -/
def State.linkDeliver (s : State) (m l : Nat) (f : Flight) : State :=
  let i := s.linkInput m l
  s.setPIn m i (s.pIn m i ++ [{ f with inp := i, left := pktFlits f.words }])

/-- R335, R339, R340, R381. A data frame at a receiver (a parity error as its flit is written is corrected by a replay): its SEQ and ACK, whether its CRC passes, the lanes of the bits that differ
from an earlier bad copy, and whether a spare under test differed. -/
def State.frameRx (s : State) (n l : Nat) (f : LrtFrame) : State :=
  if s.lrtState n l ≠ 5 ∨ !s.linkCarries n l then s
  else if f.par then (if n < 32 then s.sramCorrected n else s).setSide n l { s.side n l with ctl := 2 }
  else if !frameOk f then
    (s.addFld F.LRT_LINK_CRC_CNT_COUNT 1 n l).setSide n l { s.side n l with ctl := 2 }
  else
    let s := s.setSide n l ((s.side n l).ackTo (f.ack + 1))
    let x := s.side n l
    if f.seq ≠ x.expect then s.setSide n l { x with ctl := 2 }
    else
      let s := foldS (fun j s => s.satFld F.LRT_LINK_LERR_COUNT 1 n l j) f.errs s
      let s := s.setSide n l { x with expect := (x.expect + 1) % 256, ctl := if x.ctl = 2 then 0 else x.ctl }
      let s := match s.lrtPeer n l with
        | none => s
        | some (m, j) =>
          match (s.side m j).unacked.find? fun u => u.seq == f.seq with
          | some u => if u.last then s.linkDeliver n l u.pkt else s
          | none => s
      match x.swap with
      | some w =>
        match w.first with
        | none => s
        | some first =>
          if w.left = 256 ∧ f.seq ≠ first then s
          else if f.spareDiff then s.swapBad n l w
          else if w.left = 1 then s.swapDone n l w
          else s.setSide n l { s.side n l with swap := some { w with left := w.left - 1 } }
      | none => s

/-- R335. A data frame is received. -/
def execLrtDataFrameRx (n l : Nat) (frame : LrtFrame) (s : State) : Host.Outcome State Fault Refusal :=
  .next (s.frameRx n l frame)

/-- R334, R335. An IDLE frame: it carries nothing but the ACK. -/
def execLctlIdle (n l ack : Nat) (s : State) : Host.Outcome State Fault Refusal :=
  .next (s.setSide n l ((s.side n l).ackTo (ack + 1)))

/-- R335. A NAK: the sender replays from the named SEQ. A delayed real-time flit is the capacity fault 0x6; a SEQ replayed
16 times in a row retrains the link at its width. -/
def State.nak (s : State) (n l seq : Nat) : State :=
  if s.lrtState n l ≠ 5 then s
  else
    let x := (s.side n l).ackTo seq
    let k := if x.replaySeq = seq then x.replays + 1 else 1
    let s := s.setSide n l { x with replaySeq := seq, replays := k } |>.addFld F.LRT_LINK_REPLAY_CNT_COUNT 1 n l
    let late := ((x.unacked.filter fun u => u.pkt.cls == 2).map fun u => pktDecl u.pkt.words).eraseDups
    let s := foldS (fun d s => s.admDelayed d) late s
    if 16 ≤ k then s.lrtRetrain n l x.cap false else s

/-- R335, R381. A NAK frame; `par` says that the retry buffer held a parity error, corrected from the input buffer's entry. -/
def execLctlNak (n l seq : Nat) (par : Bool) (s : State) : Host.Outcome State Fault Refusal :=
  .next (if par ∧ n < 32 ∧ s.lrtState n l = 5 then (s.sramCorrected n).nak n l seq else s.nak n l seq)

/-- R334. A lost link-control frame is sent again: the side still has it to send. A receiver that waits for a SEQ sends
its NAK, and one that waits for a swap its SWAP_REQ. -/
def State.ctlResend (s : State) (n l : Nat) : State :=
  let x := s.side n l
  match x.swap with
  | some w => if w.first.isNone then s.setSide n l { x with ctl := 3 } else s
  | none => s

/-- R334. 64 router cycles have passed since a lost link-control frame. -/
def execLctlResendTimer (n l : Nat) (s : State) : Host.Outcome State Fault Refusal := .next (s.ctlResend n l)

/-! ### Control (R336, R343, R347) -/

/-- R336, R343. EN = 0 takes a link DOWN. -/
def State.lrtEn (s : State) (n l : Nat) (en : Bool) : State :=
  let s := s.setFlag F.LRT_LINK_CTL_EN en n l
  if en ∨ s.lrtState n l = 0 then s else s.lrtDown n l

/-- R336, R342. RETRAIN: a link that is UP trains at its width; the swap it crosses is dropped. -/
def State.lrtRetrainWrite (s : State) (n l : Nat) (widen : Bool) : State :=
  if s.lrtState n l = 5 then s.lrtRetrain n l (if widen then 0 else (s.side n l).cap) widen else s

/-- R343. PRST: this side's port is reset. Its failed lanes and width cap come back from the journal; with no journal entry
to read it advertises what its lane test passes, with cap 32. Its retry buffer and SEQ stay, so that no flit is lost
(assumption 55). -/
def State.lrtPrst (s : State) (n l : Nat) : State :=
  let k := s.physPort n l
  let s := s.lrtDown n l
  let held := (List.range 36).any fun x => s.flag F.LDG_JRNL_STAT_HOLDER x
  let s := if held then s else s.setH .lrtFailed 0 k.1 k.2 |>.setH .lrtCap 0 k.1 k.2
  let x := s.side n l
  s.setSide n l { LrtSide.empty with
    backoff := x.backoff, cap := s.h .lrtCap k.1 k.2, seq := x.seq, unacked := x.unacked, expect := x.expect }

/-- R347. A write of LRT_LINK_l_CTL: the presiding lodge's alone. -/
def State.lrtCtlWrite (s : State) (n l v : Nat) (who : Requester) : State :=
  if !s.isPresiding who then s.setFlag F.LRT_LINK_STAT_WR_IGN true n l
  else
    let s := s.lrtEn n l (bitOf v 0)
    if bitOf v 3 then s.lrtPrst n l
    else if bitOf v 2 then s.lrtRetrainWrite n l true
    else if bitOf v 1 then s.lrtRetrainWrite n l false
    else s

/-- R347. A write of LANE_THR: the presiding lodge's alone. -/
def State.lrtThrWrite (s : State) (n l v : Nat) (who : Requester) : State :=
  if s.isPresiding who then s.setRegN .LRT_LINK_LANE_THR (bitsOf v 0 24) n l else s.setFlag F.LRT_LINK_STAT_WR_IGN true n l

/-- R347. A write of EN. -/
def execLrtEnWrite (n l : Nat) (en : Bool) (who : Requester) (s : State) : Host.Outcome State Fault Refusal :=
  .next (s.lrtCtlWrite n l (b2n en) who)
/-- R336. A write of RETRAIN, with EN as it is. -/
def execLrtRetrain (n l : Nat) (who : Requester) (s : State) : Host.Outcome State Fault Refusal :=
  .next (s.lrtCtlWrite n l (b2n (s.flag F.LRT_LINK_CTL_EN n l) + 2) who)
/-- R336. A write of WIDEN, with EN as it is. -/
def execLrtWiden (n l : Nat) (who : Requester) (s : State) : Host.Outcome State Fault Refusal :=
  .next (s.lrtCtlWrite n l (b2n (s.flag F.LRT_LINK_CTL_EN n l) + 4) who)
/-- R343. A write of PRST, with EN as it is. -/
def execLrtPrst (n l : Nat) (who : Requester) (s : State) : Host.Outcome State Fault Refusal :=
  .next (s.lrtCtlWrite n l (b2n (s.flag F.LRT_LINK_CTL_EN n l) + 8) who)

/-! ### Link arbitration (R318..R320, R325) -/

/-- The flits of a class and channel at an input, and on the link to it. -/
def State.bufFlits (s : State) (m i cls vc : Nat) (wire : List LrtFlit) : Nat :=
  ((s.pIn m i).filter fun f => f.cls == cls && f.vc == vc).foldl (fun n f => n + f.left) 0 +
    (wire.filter fun u => u.pkt.cls == cls && u.pkt.vc == vc).length

/-- R320. The sender holds a credit of a class and channel: 16 of its own, or one of the 32 shared. -/
def State.credit (s : State) (n l cls vc : Nat) : Bool :=
  match s.lrtPeer n l with
  | none => false
  | some (m, j) =>
    let i := s.linkInput m j
    let wire := (s.side n l).unacked.filter fun u => u.seq == (s.side m j).expect ||
      decide ((u.seq + 256 - (s.side m j).expect) % 256 < 128)
    let a := s.bufFlits m i cls vc wire
    let b := s.bufFlits m i cls (1 - vc) wire
    decide (a < 16) || decide ((a - 16) + (b - 16) < 32)

/-- R178. The scheduled resource of a plan is the one that output o of node n starts: a torus link or a tower's port, an
annex's bridge input, or a delivery port behind the output. -/
def Plan.atOut (p : Plan) (n o : Nat) : Res → Bool
  | .torus q e => n == q && o == e
  | .tower t l => n == 32 + t && o == l
  | .annex a => n == 40 + a
  | .deliver k id =>
    if k = 2 then p.pavs.getLast? == some n && o == 4 + id % 8
    else if k = 8 then decide (n < 32) && o == 12 + id % 4
    else o == localPort && onPav k id n

/-- R180, R187, R192, R319. The declarations that own an output's present slot. An ADMIT that has not taken effect owns
none, and none does while the tables are rewritten. -/
def State.slotOwners (s : State) (n o : Nat) : List Nat :=
  if s.flag F.ADM_STAT_RESTORE then []
  else
    let slot := s.slotNow n % s.admN
    (s.decls.filter fun d =>
      s.inEffect d.1 && d.2.plan.res.any fun x => bitOf x.2 slot && d.2.plan.atOut n o x.1).map Prod.fst

/-- R180, R183. A packet waits at the output that its reservation's source feeds. -/
def State.atSource (s : State) (n o : Nat) (f : Flight) : Bool :=
  f.cls == 2 && f.inp == localPort &&
    match (s.pathOf f).bind Plan.source with | some (m, q, _) => m == n && q == o | none => false

/-- R14, R190. The packets of an output that have sent no flit and are to be forwarded afresh: a real-time packet at its
source whose reservation now leaves by another output, and a packet at a tower link that carries no traffic. -/
def State.astray (s : State) (n o : Nat) : List Flight :=
  (s.pOut n o).filter fun f =>
    f.left == pktFlits f.words &&
      (!s.outCarries n o || (f.cls == 2 && f.inp == localPort && f.plan.isNone && !s.atSource n o f))

/-- Packets of an output go back to the inputs they came by, ahead of later ones. -/
def State.requeue (s : State) (n o : Nat) (l : List Flight) : State :=
  let s := s.setPOut n o ((s.pOut n o).filter fun f => !l.contains f)
  foldS (fun f s => s.setPIn n f.inp (f :: s.pIn n f.inp)) l.reverse s

/-- The packets at an output that may send their next flit: their link has a credit and carries traffic, and no other packet
of their class and channel is part sent. -/
def State.sendable (s : State) (n o : Nat) : List Flight :=
  let l := s.pOut n o
  l.filter fun f =>
    (f.left < pktFlits f.words || !l.any fun g => g.cls == f.cls && g.vc == f.vc && decide (g.left < pktFlits g.words)) &&
      match s.outLink n o with
      | some k => s.lrtState n k == 5 && s.outCarries n o && decide ((s.side n k).unacked.length < 128) && s.credit n k f.cls f.vc
      | none => true

/-- The next of some packets after the input served last. -/
def rrPick (last : Nat) (l : List Flight) : Option Flight :=
  (List.range 17).foldl (fun b k => b.or (l.find? fun f => f.inp == (last + 1 + k) % 17)) none

/-- R186. The router that delivers a flit of a real-time packet counts it when it is later than W after the formation that
its STAMP gives, bits 27:8 of device time (assumption 162). -/
def State.rtDelivered (s : State) (n : Nat) (w : List Word) : State :=
  if pktClass w = 2 ∧ (tfind s.decls (pktDecl w)).isSome then
    let now := s.routerTime n
    let age := (now.toNat / 256 + 2 ^ 20 - bitsOf (pw w 3) 12 20) % 2 ^ 20 * 256
    s.lateFlit (pktDecl w) (now - BitVec.ofNat 64 age) now
  else s

/-- One flit of a packet leaves by an output; the last one takes the packet with it. A packet that leaves its source keeps
the path it leaves on (R190). -/
def State.sendFlit (s : State) (n o : Nat) (f : Flight) : State :=
  let last := decide (f.left ≤ 1)
  let f' := { f with left := f.left - 1, plan := if f.cls = 2 then s.pathOf f else f.plan }
  let rest := if last then (s.pOut n o).erase f else (s.pOut n o).map fun g => if g = f then f' else g
  let s := s.setPOut n o rest |>.setH .prmRr f.inp n o f.cls
  match s.outLink n o with
  | some l =>
    let x := s.side n l
    s.setSide n l { x with seq := (x.seq + 1) % 256, unacked := x.unacked ++ [⟨x.seq, f', last⟩] }
  | none =>
    let s := if 40 ≤ n ∧ o ≠ localPort then s else s.rtDelivered n f.words
    if !last then s
    else if o = localPort then s.setPRx n (s.pRx n ++ [f.words])
    else if 40 ≤ n then
      match s.bridgePav (n - 40) with
      | some p => s.setPIn p (12 + (n - 40)) (s.pIn p (12 + (n - 40)) ++ [{ f' with left := pktFlits f.words }])
      | none => s
    else { s with annexOut := tput s.annexOut (o - 12) f.words }

/-- R180, R319. In a slot of its own: the flit of the declaration that owns it, if one waits that was presented by the
slot's start; one flit to a slot. -/
def State.slotFlit (s : State) (n o : Nat) (owners : List Nat) : State :=
  if s.slotUsed n o then s
  else
    match (s.sendable n o).find? fun f =>
      f.cls == 2 && owners.contains (pktDecl f.words) && (!s.atSource n o f || s.slotAfter n f.born) with
    | some f => (s.sendFlit n o f).useSlot n o
    | none => s

/-- R318, R319. The flit that an output starts in one router cycle, if any. A real-time packet at its source leaves in its
own slots alone (R183). -/
def State.arbitrate (s : State) (n o : Nat) : State :=
  let s := s.requeue n o (s.astray n o)
  let l := (s.sendable n o).filter fun f => !s.atSource n o f
  let cls (c : Nat) : List Flight := l.filter fun f => f.cls == c
  let telWaits := (s.pOut n o).any fun f => f.cls == 3
  let cyc := if telWaits then s.h .prmTelCyc n o + 1 else s.h .prmTelCyc n o
  let owed := if cyc = 100 then min 16 (s.h .prmOwed n o + 1) else s.h .prmOwed n o
  let win := (s.h .prmMgmtCyc n o + 1) % 100
  let sent := if win = 0 then 0 else s.h .prmMgmtSent n o
  let s := s.setH .prmTelCyc (cyc % 100) n o |>.setH .prmOwed owed n o |>.setH .prmMgmtCyc win n o
    |>.setH .prmMgmtSent sent n o
  let pick (c : Nat) : Option Flight := rrPick (s.h .prmRr n o c) (cls c)
  let limit := if n < 32 then s.fld F.PRM_MGMT_LIMIT n else 10
  let mgmtFree := decide (sent < limit) || l.all fun f => f.cls == 4
  let owners := s.slotOwners n o
  if owners ≠ [] then s.slotFlit n o owners
  else
    if 1 ≤ owed ∧ (pick 3).isSome then
      match pick 3 with
      | some f => (s.sendFlit n o f).setH .prmOwed (owed - 1) n o
      | none => s
    else if mgmtFree ∧ (pick 4).isSome then
      match pick 4 with
      | some f => (s.sendFlit n o f).setH .prmMgmtSent (sent + 1) n o
      | none => s
    else
      match ((((pick 1).or (pick 0)).or (pick 2)).or (pick 3)).or (pick 4) with
      | some f => s.sendFlit n o f
      | none => s

/-- R319. One router cycle at an output. -/
def execLinkArbitration (n o : Nat) (s : State) : Host.Outcome State Fault Refusal := .next (s.arbitrate n o)

/-- R325. After a torus link has gone down, the packets whose flits the peer has not received join the detour's output
ahead of every later one. -/
def State.reinject (s : State) (n e : Nat) : State :=
  if s.lrtState n e ≠ 0 then s
  else
    let x := s.side n e
    let got := (s.side (neighbour n e) (opposite e)).expect
    let lost := (x.unacked.filter fun u => u.last && decide ((u.seq + 256 - got) % 256 < 128)).map fun u => u.pkt
    let waiting := (s.pOut n e).map fun f => { f with left := pktFlits f.words }
    let o := opposite e
    let turn (f : Flight) : Flight := { f with dir := some o, left := pktFlits f.words }
    let s := s.setSide n e { x with unacked := [] } |>.setPOut n e []
    let all := (lost ++ waiting).map turn
    let s := s.addFld F.PRM_REROUTE_CNT_COUNT all.length n
    s.setPOut n o (all ++ s.pOut n o)

/-- R325. The unacknowledged flits of a link that went down are injected again. -/
def execRetryReinject (n e : Nat) (s : State) : Host.Outcome State Fault Refusal := .next (s.reinject n e)

end Sys2Proof.Machine
end

