-- ==== Sys2Proof/Machine/Address.lean ====
section
/-!
DEFINITION. The Promenade address map (R317, Table 12.5) and the windows of the register space (R518..R521).
-/
namespace Sys2Proof.Machine

/-- The node of the presiding lodge; node 32 answers for it while there is none. -/
def State.presNode (s : State) : Nat :=
  match s.presSite with
  | some x => (s.pavAt x).getD 32
  | none => 32

/-- R317. The node of a register offset. -/
def State.regNode (s : State) (x : Nat) : Nat :=
  if x < 0x800000 then
    if x / 0x10000 = 2 then s.presNode
    else if 0x200000 ≤ x ∧ x < 0x300000 ∧ s.flag F.RDO_STAT_INST then 36
    else 32
  else if x < 0x880000 then 32 + (x - 0x800000) / 0x10000
  else if 0x1000000 ≤ x ∧ x < 0x3000000 then (x - 0x1000000) / 0x100000
  else if 0x3000000 ≤ x ∧ x < 0x3240000 then (s.pavAt ((x - 0x3000000) / 0x10000)).getD s.presNode
  else 63

/-- R317, Table 12.5. The node that a Promenade address names; 63, which answers UR, where it names none. -/
def State.addrNode (s : State) (a : Nat) : Nat :=
  match a / 2 ^ 45 with
  | 0 => bitsOf a 40 5
  | 1 => s.regNode (a % 2 ^ 26)
  | 2 => bitsOf a 40 5
  | 3 => 40 + bitsOf a 40 2
  | _ => 63

/-- Table 12.2. A request packet. -/
def pktRequest (cls op dst addr len tag w3 : Nat) (payload : List Word) : List Word :=
  [BitVec.ofNat 32 (cls + op * 8 + dst * 2 ^ 8 + (if op = 2 then 2 ^ 30 else 0)), BitVec.ofNat 32 addr,
    BitVec.ofNat 32 (addr / 2 ^ 32 % 2 ^ 16 + len * 2 ^ 16 + tag * 2 ^ 23), BitVec.ofNat 32 w3] ++ payload

end Sys2Proof.Machine
end

