-- ==== Sys2Proof/Machine/Find.lean ====
section
/-!
DEFINITION. Which register a register offset names, and whether its block can answer (R518..R520, R525).
-/
namespace Sys2Proof.Machine

/-- A register as an access names it: its key, and whether the offset is that of its _HI word. -/
structure RegRef where
  id : RegId
  w : Nat
  i : Nat
  j : Nat
  hi : Bool
deriving DecidableEq, Repr

/-- The key of a register. -/
def RegRef.key (r : RegRef) : RegKey := ⟨r.id, r.w, r.i, r.j⟩

/-- A register of the block of window w. -/
def inBlock (b : Block) (w off : Nat) : Option RegRef := (b.find off).map fun (r : RegAt) => ⟨r.id, w, r.i, r.j, r.hi⟩

/-- A register of unit i of the block of window w. -/
def inUnit (b : Block) (w i off : Nat) : Option RegRef := (b.find off).map fun (r : RegAt) => ⟨r.id, w, i, r.i, r.hi⟩

/-- The launch queues and the staging area of a home (Table 2.10); `n` queues. -/
def inLq (home n off : Nat) : Option RegRef :=
  if 0x1000 ≤ off ∧ off < 0x1000 + 0x40 * n then inUnit .lq home ((off - 0x1000) / 0x40) (off % 0x40)
  else if 0x2000 ≤ off ∧ off < 0x3000 then inBlock .lqStage home (off - 0x2000)
  else none

/-- The per-site lodge registers, with the debug block of the lodge behind them (Table 22.3). -/
def inLodge (x off : Nat) : Option RegRef :=
  if off < 0x800 then inBlock .ldgS x off else inUnit .dbgC x 8 (off - 0x800)

/-- R518. A register of the device-global window; the outer `none` is a reserved range. -/
def findGlobal (x : Nat) : Option (Option RegRef) :=
  let o := x % 0x10000
  if 0x200000 ≤ x ∧ x < 0x300000 then
    let o := x - 0x200000
    if 0x40000 ≤ o ∧ o < 0x41000 then some (inUnit .rdoQp 0 ((o - 0x40000) / 0x40) (o % 0x40)) else some (inBlock .rdo 0 o)
  else if 0x100000 ≤ x ∧ x < 0x200000 then some (inBlock .adm 0 (x - 0x100000))
  else
    match x / 0x10000 with
    | 0 => some ((inBlock .campG 0 o).orElse fun _ => inLq 40 4 o)
    | 1 => some (inBlock .cfgG 0 o)
    | 2 => some (inBlock .ldgG 0 o)
    | 3 => some (inBlock .telG 0 o)
    | 4 => some (inBlock .hevc 0 o)
    | 5 => some (if o < 0x400 then inUnit .anx 0 (o / 0x100) (o % 0x100) else none)
    | 6 =>
      if o < 0x1000 then some (inBlock .gpio 0 o)
      else if o < 0x2000 ∧ o % 0x800 / 0x40 < 21 then
        some (inUnit .gpioU ((o - 0x1000) / 0x800) (o % 0x800 / 0x40) (o % 0x40))
      else some none
    | 7 => some (inBlock .dbgG 0 o)
    | 8 => some (inBlock .pcie 0 o)
    | 9 => some (if o < 0x8000 then inBlock .eth (o / 0x1000) (o % 0x1000) else none)
    | 10 => some (inBlock .xcv (o / 0x2000) (o % 0x2000))
    | _ => none

/-- R519, R60. A register of the window of tower t; pin groups 18..23, and their trims, are present on T0 and T4 only. -/
def findTower (t o : Nat) : Option (Option RegRef) :=
  if o < 0x4000 then some (inBlock .towerId t o)
  else if 0x4348 ≤ o ∧ o < 0x4360 ∧ t % 4 ≠ 0 then some none
  else if o < 0x8000 then some ((inBlock .campT t (o - 0x4000)).orElse fun _ => inLq (towerNode t) 8 (o - 0x4000))
  else if o < 0xa000 then
    some (if o - 0x8000 < 0x1400 then inUnit .xfl t ((o - 0x8000) / 0x100) (o % 0x100) else none)
  else if o < 0xb000 then some (inBlock .tio t (o - 0xa000))
  else if o < 0xc000 then
    let e := o - 0xb000
    if e < 0x400 then some ((inUnit .lrt (towerNode t) (e / 0x100) (e % 0x100))) else some (inBlock .lrt t e)
  else some (inBlock .telN (towerNode t) (o - 0xc000))

/-- R519. A register of the window of pavilion p, which site `site` holds. -/
def findPav (p site o : Nat) : Option (Option RegRef) :=
  let e := o % 0x10000
  match o / 0x10000 with
  | 0 => some (inBlock .evc p e)
  | 1 => some (inBlock .tsk p e)
  | 2 =>
    let k := e / 0x2000
    let f := e % 0x2000
    some (if f < 0x1000 then inUnit .spr p k f else inUnit .dbgC p k (f - 0x1000))
  | 4 => some (inBlock .gate p e)
  | 5 => some (inBlock .dome p e)
  | 6 => some (inBlock .prm p e)
  | 7 => some (if e < 0x700 then inUnit .lrt p (e / 0x100) (e % 0x100) else none)
  | 8 => some (inBlock .cfgP p e)
  | 9 => some (inBlock .mem p e)
  | 10 => some (inBlock .telN p e)
  | 11 => some ((inBlock .campP p e).orElse fun _ => inLq p 16 e)
  | 12 => some (inLodge site e)
  | 13 => some (inBlock .thm p e)
  | _ => none

/-- R519. A register of the window of physical site x. -/
def findSite (x o : Nat) : Option (Option RegRef) :=
  if o < 0x100 then some (inBlock .siteId x o)
  else if o < 0x200 then some (inBlock .campS x (o - 0x100))
  else if o < 0x1000 then some (inBlock .lrtFuseS x (o - 0x200))
  else if o < 0x2000 then some (inLodge x (o - 0x1000))
  else none

/-- R518..R520. The register at an offset of the register space: `none` in a reserved range, `some none` where a block
holds no register. -/
def State.findReg (s : State) (x : Nat) : Option (Option RegRef) :=
  if x < 0x800000 then findGlobal x
  else if x < 0x880000 then findTower ((x - 0x800000) / 0x10000) (x % 0x10000)
  else if 0x1000000 ≤ x ∧ x < 0x3000000 then
    let p := (x - 0x1000000) / 0x100000
    findPav p (s.siteOf p) (x % 0x100000)
  else if 0x3000000 ≤ x ∧ x < 0x3240000 then findSite ((x - 0x3000000) / 0x10000) (x % 0x10000)
  else none

/-- R525, Table 22.4. The status a register request meets where its block cannot serve. The PRM block answers behind a
fence, so that REQ = 0 can release it (R327; DEDUCED, assumption 52). A POWER-ON reset that is held outlasts PRM_REQ_TMO
(assumption 113). -/
def State.regReach (s : State) (x : Nat) : Status :=
  if s.hb .porHeld then .timeout
  else if x < 0x800000 then
    if x / 0x10000 = 2 then (if s.presSite.isSome then .ok else .timeout)
    else if !s.isolated 32 then .ok
    else if (x / 0x10000 = 1 ∨ x / 0x10000 = 3 ∨ (0x200000 ≤ x ∧ x < 0x300000)) ∧ ¬ s.isolated 36 then .ok
    else .timeout
  else if x < 0x880000 then (if s.isolated (32 + (x - 0x800000) / 0x10000) then .dead else .ok)
  else if 0x1000000 ≤ x ∧ x < 0x3000000 then
    let p := (x - 0x1000000) / 0x100000
    let b := x % 0x100000 / 0x10000
    if b = 12 ∨ b = 13 then .ok
    else if s.isolated p then .dead
    else if s.power p ≠ 0 ∨ (s.portClosed p 120 ∧ b ≠ 6) then .fenced
    else .ok
  else .ok

end Sys2Proof.Machine
end

