-- ==== Sys2Proof/Machine/Xfl.lean ====
section
/-!
DEFINITION. The XFL lanes (R62..R75, R95): superframes received and sent, lane frames, status pages, and the link states.
-/
namespace Sys2Proof.Machine

/-- A lane at rest. -/
def XflLane.empty : XflLane :=
  ⟨0, 0, 0, none, false, [], 0, false, false, 0, false, false, 0, false, 0, 0xffffffffffffffff, none, none, 0, 0, [], 0,
    []⟩

/-- A lane's run state. -/
def State.lane (s : State) (t l : Nat) : XflLane := tget s.xfl (t, l) XflLane.empty
/-- Replace a lane's run state. -/
def State.setLane (s : State) (t l : Nat) (x : XflLane) : State := { s with xfl := tput s.xfl (t, l) x }
/-- Change a lane's run state. -/
def State.modLane (s : State) (t l : Nat) (f : XflLane → XflLane) : State := s.setLane t l (f (s.lane t l))

/-- The state of a lane: 0 DOWN, 1 BLOCK_LOCK, 2 SF_LOCK, 3 IDENT, 4 UP (Table 3.4). -/
def State.laneState (s : State) (t l : Nat) : Nat := s.fld F.XFL_LANE_STAT_STATE t l

/-- The lane on which the device is time slave (R43). -/
def State.isSlaveLane (s : State) (t l : Nat) : Bool :=
  s.xferSlave && s.fld F.CAMP_XFER_CTL_TOWER == t && s.fld F.CAMP_XFER_CTL_LANE == l

/-- A W1C bit of XFL_LANE_STAT is set: source 1,912 + t when it was 0 (R97). -/
def State.laneBit (s : State) (f : Fld) (t l : Nat) : State :=
  if s.flag f t l then s else (s.setFlag f true t l).device (1912 + t)

/-- A lane changes state (R97); its streams follow, and a slave lane that leaves UP clears VALID (R44, R78). -/
def State.setLaneState (s : State) (t l st : Nat) : State :=
  let was := s.laneState t l
  if was = st then s
  else
    let s := (s.setFld F.XFL_LANE_STAT_STATE st t l).device (1912 + t)
    let s := if was = 4 && s.isSlaveLane t l then s.setFlag F.CAMP_XFER_STAT_VALID false else s
    if was = 4 ∨ st = 4 then s.sourceFollow t l false else s

/-- A lane enters DOWN: PARTNER_VALID clears and the receiver starts afresh (R73). For a lane that was UP that is a fault,
with its alarm (R411); recovery from it is over when the lane is UP again, or is no longer enabled. -/
def State.laneDown (s : State) (t l : Nat) : State :=
  let s := if s.laneState t l = 4 then (s.faultStart 5 (20 * t + l)).alarm (towerNode t) 0x43 else s
  ((s.setLaneState t l 0).setFlag F.XFL_LANE_STAT_PARTNER_VALID false t l).modLane t l fun x =>
    { XflLane.empty with
      backoff := x.backoff, txSf := x.txSf, txRr := x.txRr, tx := x.tx, txScr := x.txScr, txLine := x.txLine }

/-- A lane tries to link up (R74). -/
def State.laneTry (s : State) (t l : Nat) : State :=
  ((s.satFld F.XFL_LANE_STAT_ATTEMPTS 1 t l).modLane t l fun x => { x with waiting := false }).setLaneState t l 1

/-- R74. A lane that enters DOWN with EN at 1 waits out a back-off: 1 ms, doubling up to 8 s. -/
def State.laneFail (s : State) (t l : Nat) : State :=
  (s.laneDown t l).modLane t l fun x =>
    { x with backoff := if x.backoff = 0 then 1 else min 8000 (2 * x.backoff), waiting := true }

/-- The streams of a lane. -/
def State.laneStreams (s : State) (t l : Nat) : List (Nat × Nat) :=
  s.streamKeys.filter fun k => s.entTower k.1 k.2 == t && !s.entEth k.1 k.2 && s.entLane k.1 k.2 == l

/-- R67, R71. The transmitter's first boundary: the anchor, or the first beat edge at least 1 us ahead. Superframes count
from 0 there, so a COUNT sent before is counted from there too. -/
def State.anchorUse (s : State) (t l : Nat) : State :=
  let least := s.time + BitVec.ofNat 64 (s.nsUnits 1000)
  let a := s.reg .XFL_TX_ANCHOR t l
  let s := s.modLane t l fun x => { x with txSf := 0 }
  let s := foldS (fun k s => s.setH .refSentAt 0 k.1 k.2) (s.laneStreams t l) s
  if later least a then s.setRegN .XFL_TX_ANCHOR (cdiv least.toNat 65536 % 2 ^ 48 * 65536) t l else s

/-- R73. A write of XFL_LANE_CTL.EN. -/
def State.laneEn (s : State) (t l : Nat) (en : Bool) : State :=
  let was := s.flag F.XFL_LANE_CTL_EN t l
  let s := s.setFlag F.XFL_LANE_CTL_EN en t l
  if en && !was then (s.anchorUse t l).laneTry t l
  else if was && !en then
    ((s.laneDown t l).faultEnd 5 (20 * t + l)).modLane t l fun x => { x with backoff := 0, waiting := false }
  else s

/-- R73. RETRAIN: the lane drops to DOWN and tries again without back-off. The back-off after the next failure is 1 ms
again, as R74 has it for a WARM reset (DESIGN CHOICE, assumption 149); so it is after EN goes from 0 to 1. -/
def State.laneRetrain (s : State) (t l : Nat) : State :=
  let s := (s.laneDown t l).modLane t l fun x => { x with backoff := 0 }
  if s.flag F.XFL_LANE_CTL_EN t l then s.laneTry t l else s

/-- A write of XFL_LANE_CTL: EN, then RETRAIN. -/
def State.laneCtlWrite (s : State) (t l : Nat) (v : Word) : State :=
  let s := s.laneEn t l (bitOf v.toNat 0)
  if bitOf v.toNat 1 then s.laneRetrain t l else s

/-- R73. A write of XFL_LANE_CTL.EN. -/
def execXflLaneEnWrite (t l : Nat) (en : Bool) (s : State) : Host.Outcome State Fault Refusal := .next (s.laneEn t l en)

/-- R73. A write of XFL_LANE_CTL.RETRAIN. -/
def execXflRetrain (t l : Nat) (s : State) : Host.Outcome State Fault Refusal := .next (s.laneRetrain t l)

/-- R74. The back-off elapses. -/
def execXflBackoffExpiry (t l : Nat) (s : State) : Host.Outcome State Fault Refusal :=
  if s.flag F.XFL_LANE_CTL_EN t l ∧ s.laneState t l = 0 ∧ (s.lane t l).waiting then .next (s.laneTry t l) else .next s

/-- R62. A sync header is valid. -/
def hdrValid (h : Nat) : Bool := h == 1 || h == 2

/-- R62, Clause 49. The headers of the 64 blocks received last are all valid. -/
def lockGained (hdrs : List Nat) : Bool := hdrs.length == 64 && hdrs.all hdrValid

/-- R62, Clause 49. Sixteen of at most 64 headers in a row are invalid. -/
def lockLost (hdrs : List Nat) : Bool := decide (hdrs.length ≤ 64) && decide (16 ≤ (hdrs.filter fun h => !hdrValid h).length)

/-- R66. At a PAM4 rate the last 4 codewords at one position decoded without an uncorrectable result. -/
def State.cwAligned (s : State) (t l : Nat) (uncorr : List Bool) : Bool :=
  decide (s.fld F.XFL_LANE_CFG_RATE t l < 2) || (uncorr.length == 4 && uncorr.all fun b => !b)

/-- R62, R66, R445, R449, R480. Block lock, and codeword alignment at PAM4 rates, on a lane given to XFL at the rate of its
XFL_LANE_CFG with its receiver on, unless boundary scan holds the balls: `hdrs` are the sync headers of the 64 blocks received last, `uncorr`
the results of the last 4 codewords. -/
def execXflBlockLock (t l : Nat) (hdrs : List Nat) (uncorr : List Bool) (s : State) : Host.Outcome State Fault Refusal :=
  if s.laneState t l = 1 ∧ s.fld F.XCV_LANE_CFG_USE t l = 1 ∧ ¬ s.flag F.XCV_LANE_STAT_RATE_MISMATCH t l ∧
      s.flag F.XCV_LANE_CTL_RX_EN t l ∧ ¬ s.scanning ∧ lockGained hdrs ∧ s.cwAligned t l uncorr then
    .next (s.setLaneState t l 2)
  else .next s

/-- R448, R464. A lane given to XFL or Ethernet loses CDR lock. -/
def State.cdrLost (s : State) (t l : Nat) : State :=
  if [1, 2].contains (s.fld F.XCV_LANE_CFG_USE t l) then s.device (1928 + t) else s

/-- R62, R73, R448. Block lock is lost, by the headers of a window of 64 blocks or with the CDR lock: SF_LOCK, IDENT and UP
drop to DOWN. -/
def execXflBlockLockLost (t l : Nat) (hdrs : List Nat) (cdr : Bool) (s : State) : Host.Outcome State Fault Refusal :=
  let u := if cdr then s.cdrLost t l else s
  if 2 ≤ s.laneState t l ∧ (lockLost hdrs ∨ cdr) then .next (u.laneFail t l) else .next u

/-! ### The scrambler (R62) -/

/-- R62. 32 bits of a payload through the scrambler x^58 + x^39 + 1, bit 0 first: what leaves it, and its last 58 bits
after them. `h` holds the last 58 bits before them, the latest in bit 57. -/
def scramble32 (h d : Nat) : Nat × Nat :=
  let o := (d ^^^ h ^^^ (h / 2 ^ 19)) % 2 ^ 32
  (o, (h + o * 2 ^ 58) / 2 ^ 32)

/-- R62. 32 bits of the line through the descrambler. -/
def descramble32 (h o : Nat) : Nat × Nat := ((o ^^^ h ^^^ (h / 2 ^ 19)) % 2 ^ 32, (h + o * 2 ^ 58) / 2 ^ 32)

/-- R62. A payload through the scrambler. -/
def scramble64 (h : Nat) (d : DWord) : DWord × Nat :=
  let a := scramble32 h (loWord d).toNat
  let b := scramble32 a.2 (hiWord d).toNat
  (pairOf (BitVec.ofNat 32 a.1) (BitVec.ofNat 32 b.1), b.2)

/-- R62. A payload of the line through the descrambler. -/
def descramble64 (h : Nat) (d : DWord) : DWord × Nat :=
  let a := descramble32 h (loWord d).toNat
  let b := descramble32 a.2 (hiWord d).toNat
  (pairOf (BitVec.ofNat 32 a.1) (BitVec.ofNat 32 b.1), b.2)

/-- R62. Payloads one after the other through the scrambler. -/
def scrambleAll : Nat → List DWord → List DWord × Nat
  | h, [] => ([], h)
  | h, d :: ds =>
    let a := scramble64 h d
    let r := scrambleAll a.2 ds
    (a.1 :: r.1, r.2)

/-- R62. Blocks of the line with their payloads descrambled; the sync headers are not scrambled. -/
def descrambleAll : Nat → List Blk → List Blk
  | _, [] => []
  | h, b :: bs =>
    let a := descramble64 h b.data
    ⟨b.sync, a.1⟩ :: descrambleAll a.2 bs

/-- R62. The descrambler's bits after a payload of the line: the payload's last 58. -/
def scrState (d : DWord) : Nat := d.toNat / 64

/-! ### Superframes received (R63..R70) -/

/-- A block's payload words (R64). -/
def blkW0 (b : Blk) : Nat := (loWord b.data).toNat
/-- Word 1 of a block. -/
def blkW1 (b : Blk) : Nat := (hiWord b.data).toNat

/-- Block k of a superframe. -/
def blkAt (bs : List Blk) (k : Nat) : Blk := bs.getD k ⟨0, 0⟩

/-- R63. Every block's sync header fits its position. -/
def sfSync (bs : List Blk) : Bool :=
  (List.range 32).all fun k => (blkAt bs k).sync == if k = 0 ∨ k = 31 then 2 else 1

/-- R64. The SOS is present. -/
def sosOk (bs : List Blk) : Bool := (blkAt bs 0).sync == 2 && blkW0 (blkAt bs 0) % 256 == 0xd2
/-- R64. The EOS is present. -/
def eosOk (bs : List Blk) : Bool := (blkAt bs 31).sync == 2 && blkW0 (blkAt bs 31) % 256 == 0xe1

/-- R65. The CRC of a superframe: blocks 0..30 and word 0 of block 31. -/
def sfCrc (bs : List Blk) : Word :=
  crc32c ((List.range 31).flatMap (fun k => natBytes 8 (blkAt bs k).data.toNat) ++ natBytes 4 (blkW0 (blkAt bs 31)))

/-- R63..R65. A superframe passes its CRC. -/
def sfGood (bs : List Blk) : Bool :=
  sfSync bs && sosOk bs && eosOk bs && (sfCrc bs).toNat == blkW1 (blkAt bs 31)

/-- SF_NUM of a superframe. -/
def sfNum (bs : List Blk) : Nat := bitsOf (blkW0 (blkAt bs 0)) 8 16
/-- PAGE of a superframe. -/
def sfPage (bs : List Blk) : Nat := bitsOf (blkW0 (blkAt bs 0)) 24 4

/-- The status words of a superframe (R70). -/
def pageWord (bs : List Blk) (w : Nat) : Nat :=
  match w with
  | 0 => blkW0 (blkAt bs 1)
  | 1 => blkW1 (blkAt bs 1)
  | 2 => blkW0 (blkAt bs 2)
  | _ => blkW1 (blkAt bs 2)

/-- The 112 slots of a superframe (R68). -/
def sfSlots (bs : List Blk) : List Nat :=
  (List.range 112).map fun k => bitsOf (blkAt bs (3 + k / 4)).data.toNat (16 * (k % 4)) 16

/-- One superframe time in device-time units, rounded down. -/
def State.sfUnits (s : State) (t l : Nat) : Nat :=
  32 * blockPs (s.fld F.XFL_LANE_CFG_RATE t l) * s.freq * 65536 / 1000000000

/-- R69. The exact offset of a slot's first bit from its SOS boundary, in device-time units, rounded down. At the PAM4
rates too a slot's place is that in the 66-bit blocks before transcoding (DESIGN CHOICE, assumption 150). -/
def State.slotUnits (s : State) (t l k : Nat) : Nat :=
  blockPs (s.fld F.XFL_LANE_CFG_RATE t l) * (66 * (3 + k / 4) + 2 + 16 * (k % 4)) * s.freq * 65536 / (66 * 1000000000)

/-- R69. The time of slot k counted from a superframe's SOS boundary; slot 112 is slot 0 of the next superframe. -/
def State.slotTime (s : State) (t l : Nat) (stamp : Time) (k : Nat) : Time :=
  stamp + BitVec.ofNat 64 (s.sfUnits t l * (k / 112) + s.slotUnits t l (k % 112))

/-- R69. The stamp of a boundary that arrives now. -/
def State.laneStamp (s : State) (t l : Nat) : Time :=
  s.towerTime t + BitVec.ofInt 64 (s.laneTrim t l)

/-- One lane frame reaches the streams of its lane that run (R68, R78). -/
def State.laneFrame (s : State) (t l : Nat) (eth : Bool) (ts nxt : Time) (xs : List Nat) (gap crc : Bool) : State :=
  foldS (fun k s =>
      if s.entTower k.1 k.2 == t && s.entEth k.1 k.2 == eth && (eth || s.entLane k.1 k.2 == l) &&
          (s.sst k.1 k.2 == 2 || s.sst k.1 k.2 == 3) then
        if s.hb .strmSkip k.1 k.2 then s.setH .strmSkip 0 k.1 k.2 else
        let f : LaneFrame := ⟨ts, nxt, (xs.drop (s.entLo k.1 k.2)).take (s.entN k.1 k.2 + 1), gap, crc⟩
        s.modStream k.1 k.2 fun x => { x with transit := x.transit ++ [f], gapRec := x.gapRec || gap }
      else s) s.streamKeys s

/-- R68. One slot of the lane's sequence, and the time of the slot after it; a frame is complete with its n-th slot, and
the next begins with the slot after it. -/
def State.slotRx (s : State) (t l n : Nat) (eth bad : Bool) (ts nxt : Time) (x : Nat) : State :=
  let a := s.lane t l
  let first := a.slots.isEmpty
  let a := { a with slots := a.slots ++ [x], ts := if first then ts else a.ts, crc := (!first && a.crc) || bad }
  if a.slots.length < n then s.setLane t l a
  else (s.setLane t l { a with slots := [], gap := false, crc := false }).laneFrame t l eth a.ts nxt a.slots a.gap a.crc

/-- R68. The slots of a superframe, from the slot at which they can be placed. -/
def State.slotsRx (s : State) (t l n : Nat) (eth bad : Bool) (stamp : Time) (start : Nat) (xs : List Nat) : State :=
  foldS (fun k s => s.slotRx t l n eth bad (s.slotTime t l stamp k) (s.slotTime t l stamp (k + 1)) (xs.getD k 0))
    ((List.range 112).filter fun k => decide (start ≤ k)) s

/-- R68. FRAME_OFS as the receiver's own count gives it. -/
def XflLane.ownOfs (x : XflLane) (n : Nat) : Nat :=
  if x.slots.isEmpty then 0 else if n - x.slots.length < 112 then n - x.slots.length else 0xff

/-- R64, R68. The payload of a superframe on a lane that is UP; `bad` when it fails its CRC. -/
def State.payloadRx (s : State) (t l : Nat) (bs : List Blk) (bad : Bool) (stamp : Time) : State :=
  let n := s.laneChannels t l
  let x := s.lane t l
  let ofs := bitsOf (blkW1 (blkAt bs 0)) 16 8
  if x.synced && (!sosOk bs || ofs == x.ownOfs n) then s.slotsRx t l n false bad stamp 0 (sfSlots bs)
  else if !sosOk bs then s
  else
    let s := if x.synced then s.laneBit F.XFL_LANE_STAT_FRAME_SLIP t l else s
    let s := s.modLane t l fun x =>
      { x with slots := [], synced := decide (ofs < 112), gap := x.gap || x.synced, crc := false }
    if ofs < 112 then s.slotsRx t l n false bad stamp ofs (sfSlots bs) else s

/-- R75. A valid IDENT is copied; one whose DEV_ID differs while the lane is UP is an identity change. -/
def State.identRx (s : State) (t l : Nat) (bs : List Blk) : State :=
  let id := pairOf (BitVec.ofNat 32 (pageWord bs 0)) (BitVec.ofNat 32 (pageWord bs 1))
  let w2 := pageWord bs 2
  let same := bitsOf w2 16 8 == s.fld F.XFL_LANE_CFG_CH_M1 t l
  let changed := s.laneState t l == 4 && s.reg .XFL_PARTNER_ID t l != id
  let s := s.setReg .XFL_PARTNER_ID id t l
    |>.setRegN .XFL_PARTNER_INFO (bitsOf w2 0 24 + bitsOf (pageWord bs 3) 0 2 * 2 ^ 24) t l
    |>.setFlag F.XFL_LANE_STAT_PARTNER_VALID true t l
    |>.modLane t l fun x => { x with identSeen := true, identOk := same }
  let s := if s.laneState t l = 3 && !same then s.laneBit F.XFL_LANE_STAT_CH_MISMATCH t l else s
  if changed then (s.laneBit F.XFL_LANE_STAT_IDENT_CHG t l).sourceFollow t l false else s

/-- A signed difference of device times in 0.25 ps units. -/
def State.quarterPs (s : State) (d : Time) : Int := d.toInt * 4000000000 / (s.freq * 65536 : Nat)

/-- R71, R72. A TIME page: its stamps are kept for the next one sent, and on the slave lane it ends or begins an
exchange. A page that echoes an earlier superframe than the slave's leaves the exchange open; one that echoes a later
superframe discards it. -/
def State.timeRx (s : State) (t l : Nat) (bs : List Blk) (stamp : Time) : State :=
  let tx := pairOf (BitVec.ofNat 32 (pageWord bs 0)) (BitVec.ofNat 32 (pageWord bs 1))
  let rx := pairOf (BitVec.ofNat 32 (pageWord bs 2)) (BitVec.ofNat 32 (pageWord bs 3))
  let echo := bitsOf (blkW1 (blkAt bs 0)) 0 16
  let x := s.lane t l
  let s := s.modLane t l fun x => { x with rxTimeSf := sfNum bs, rxTime := stamp }
  if !s.isSlaveLane t l then s
  else
    match x.t12, x.t3 with
    | some a, some b =>
      let none_ := rx == 0xffffffffffffffff#64
      if b.2 = echo ∧ !none_ then
        (s.xferExchange 0 (s.quarterPs (a.2 - a.1)) 0 (s.quarterPs (rx - b.1))).modLane t l fun x =>
          { x with t12 := some (tx, stamp), t3 := none }
      else if none_ || decide (32768 ≤ (echo + 65536 - b.2) % 65536) then s
      else s.modLane t l fun x => { x with t12 := some (tx, stamp), t3 := none }
    | _, _ => s.modLane t l fun x => { x with t12 := some (tx, stamp), t3 := none }

/-- R73. The counts of good superframes, missing SOS and failed CRCs. -/
def State.sfCounts (s : State) (t l : Nat) (bs : List Blk) (good : Bool) (stamp : Time) : State :=
  s.modLane t l fun x =>
    let next := match x.lastSf with | some n => sfNum bs == (n + 1) % 65536 | none => false
    { x with
      good := if !good then 0 else if next then x.good + 1 else 1
      noSos := if sosOk bs then 0 else x.noSos + 1
      badCrc := if good then 0 else x.badCrc + 1
      lastSf := if sosOk bs then some (sfNum bs) else x.lastSf.map fun n => (n + 1) % 65536
      boundary := stamp }

/-- R66, R95. What a superframe counts on its lane. -/
def State.sfShow (s : State) (t l : Nat) (bs : List Blk) (good : Bool) (corr uncorr : Nat) : State :=
  let s := s.addFld F.XFL_FEC_CORR_CNT_COUNT corr t l |>.addFld F.XFL_FEC_UNCORR_CNT_COUNT uncorr t l
  let s := if 0 < uncorr then s.laneBit F.XFL_LANE_STAT_FEC_UNCORR t l else s
  let s := if sosOk bs then s.setFld F.XFL_SF_RX_SF_NUM (sfNum bs) t l else s
  if good then s else (s.addFld F.XFL_CRC_ERR_CNT_COUNT 1 t l).laneBit F.XFL_LANE_STAT_CRC_ERR t l

/-- R73. A lane whose losses do not end it moves on: SF_LOCK to IDENT, IDENT to UP. -/
def State.laneAdvance (s : State) (t l : Nat) (bs : List Blk) (good : Bool) : State :=
  let x := s.lane t l
  if s.laneState t l = 2 ∧ 4 ≤ x.good then s.setLaneState t l 3
  else if s.laneState t l = 3 ∧ x.identSeen ∧ x.identOk ∧ good ∧ bitOf (blkW0 (blkAt bs 0)) 29 then
    (((s.setFld F.XFL_LANE_STAT_ATTEMPTS 0 t l).faultEnd 5 (20 * t + l)).modLane t l fun x =>
      { x with backoff := 0 }).setLaneState t l 4
  else s

/-- R64, R66. A superframe whose SOS boundary arrives now, its payloads descrambled, with the codewords corrected and
uncorrectable in it: an uncorrectable one marks its blocks invalid, and the superframe fails its CRC. A loss condition wins
over every other effect. -/
def State.sfRx (s : State) (t l : Nat) (bs : List Blk) (corr uncorr : Nat) : State :=
  let st := s.laneState t l
  if st < 2 then s
  else
    let good := sfGood bs && uncorr == 0
    let stamp := if sosOk bs && eosOk bs then s.laneStamp t l else (s.lane t l).boundary + BitVec.ofNat 64 (s.sfUnits t l)
    let s := (s.sfShow t l bs good corr uncorr).sfCounts t l bs good stamp
    let x := s.lane t l
    if 2 ≤ x.noSos ∨ 4 ≤ x.badCrc then s.laneFail t l
    else
      let s := if st = 4 then s.payloadRx t l bs (!good) stamp else s
      let s := if good && sfPage bs == 1 then s.identRx t l bs
        else if good && sfPage bs == 2 then s.timeRx t l bs stamp else s
      s.laneAdvance t l bs good

/-- R62, R64. A superframe is received: its 32 blocks as they are on the line, and the payload of the block before them,
from which the descrambler runs on. -/
def execSuperframeRx (t l : Nat) (before : DWord) (blocks : List Blk) (corr uncorr : Nat) (s : State) :
    Host.Outcome State Fault Refusal := .next (s.sfRx t l (descrambleAll (scrState before) blocks) corr uncorr)

/-! ### Superframes sent (R71) -/

/-- R71. A stream's COUNT has changed since it was last sent, or was last sent 2,048 superframes ago. -/
def State.refusedDue (s : State) (n : Nat) (k : Nat × Nat) : Bool :=
  s.h .refSent k.1 k.2 != s.regN .GATE_SREFUSED k.1 k.2 || decide (s.h .refSentAt k.1 k.2 + 2048 ≤ n)

/-- R71. Up to two streams to report, round-robin after number `rr`. -/
def State.refusedPick (s : State) (t l n rr : Nat) : List (Nat × Nat) :=
  let due := (s.laneStreams t l).filter fun k => s.refusedDue n k
  ((due.filter fun k => decide (rr < streamNo k.1 k.2)) ++ (due.filter fun k => decide (streamNo k.1 k.2 ≤ rr))).take 2

/-- One record of a REFUSED page (Table 3.3). -/
def State.refusedRecord (s : State) (k : Nat × Nat) : List Nat :=
  [s.entLo k.1 k.2 + s.entN k.1 k.2 * 2 ^ 8 + 2 ^ 31, s.regN .GATE_SREFUSED k.1 k.2]

/-- R67. The lane's transceiver reference clock is locked to the Campanile reference. -/
def State.laneLocked (s : State) (t l : Nat) : Bool := s.flag F.XCV_QUAD_STAT_REF_TRACK t (l / 4)

/-- R67. The boundary of superframe n: ANCHOR + n superframe times. -/
def State.txBoundary (s : State) (t l n : Nat) : Time :=
  s.reg .XFL_TX_ANCHOR t l +
    BitVec.ofNat 64 (n * 32 * blockPs (s.fld F.XFL_LANE_CFG_RATE t l) * s.freq * 65536 / 1000000000)

/-- R67, R70. TX_TIME of the superframe sent next: its boundary at the ball; with an unlocked reference clock the
boundaries drift, and it is the device time at the ball when it is sent. -/
def State.txTime (s : State) (t l : Nat) : Time :=
  if s.laneLocked t l then s.txBoundary t l (s.lane t l).txSf else s.towerTime t - BitVec.ofInt 64 (s.laneTrim t l)

/-- R67. The next superframe departs now at the latest: its boundary has come at the ball, or nothing places it. -/
def State.txDue (s : State) (t l : Nat) : Bool :=
  !s.laneLocked t l || atOrAfter (s.towerTime t) (s.txTime t l + BitVec.ofInt 64 (s.laneTrim t l))

/-- R71. The page of a superframe: its code, its four words, and the streams it reports. -/
def State.txPage (s : State) (t l n : Nat) : Nat × List Nat × List (Nat × Nat) :=
  let x := s.lane t l
  let k := if s.isSlaveLane t l then s.fld F.CAMP_XFER_CTL_RATE else s.fld F.XFL_LANE_CFG_TIME_RATE t l
  let pick := s.refusedPick t l n x.txRr
  let pair (v : DWord) : List Nat := [(loWord v).toNat, (hiWord v).toNat]
  if !x.identSeen || n % 64 == 0 then
    (1, pair (s.reg .XFL_LOCAL_ID t l) ++
      [s.fld F.XFL_LOCAL_TAG_LANE_TAG t l + 2 ^ 8 + s.fld F.XFL_LANE_CFG_CH_M1 t l * 2 ^ 16, 3], [])
  else if n % 2 ^ k == 1 then (2, pair (s.txTime t l) ++ pair x.rxTime, [])
  else if !pick.isEmpty then
    (3, (pick.flatMap s.refusedRecord) ++ List.replicate (4 - 2 * pick.length) 0, pick)
  else (0, [0, 0, 0, 0], [])

/-- R68. FRAME_OFS of superframe n, with lane frames of m slots sent without gaps from superframe 0. -/
def txOfs (m n : Nat) : Nat := let o := (m - 112 * n % m) % m; if o < 112 then o else 0xff

/-- R67, R71. The transmitter sends the next superframe, once its boundary has come; the payload's slots hold 0x0000
(R68). What it sends is kept in `tx`, its SOS, page, and EOS words, and in `txLine`, the 32 payloads on the line. While
TX_EN is 0 the boundary passes in electrical idle (R449). -/
def State.sfTx (s : State) (t l : Nat) : State :=
  if !s.flag F.XFL_LANE_CTL_EN t l || !s.txDue t l then s
  else if !s.flag F.XCV_LANE_CTL_TX_EN t l then s.modLane t l fun x => { x with txSf := x.txSf + 1, tx := [], txLine := [] }
  else
    let x := s.lane t l
    let n := x.txSf
    let (page, ws, sent) := s.txPage t l n
    let sos0 := 0xd2 + n % 65536 * 2 ^ 8 + page * 2 ^ 24 + b2n (decide (3 ≤ s.laneState t l)) * 2 ^ 28 +
      b2n x.identSeen * 2 ^ 29
    let sos1 := (if page = 2 then x.rxTimeSf else 0) + txOfs (s.laneChannels t l) n * 2 ^ 16
    let body := natBytes 4 sos0 ++ natBytes 4 sos1 ++ ws.flatMap (natBytes 4) ++ List.replicate 224 0 ++ natBytes 4 0xe1
    let s := foldS (fun k s =>
      s.setH .refSent (s.regN .GATE_SREFUSED k.1 k.2) k.1 k.2 |>.setH .refSentAt n k.1 k.2) sent s
    let t3 := if page = 2 ∧ s.isSlaveLane t l ∧ x.t12.isSome ∧ x.t3.isNone then some (s.txTime t l, n % 65536) else x.t3
    let block (lo hi : Nat) : DWord := pairOf (BitVec.ofNat 32 lo) (BitVec.ofNat 32 hi)
    let out := scrambleAll x.txScr ([block sos0 sos1, block (ws.getD 0 0) (ws.getD 1 0), block (ws.getD 2 0) (ws.getD 3 0)] ++
      List.replicate 28 (0 : DWord) ++ [pairOf 0xe1 (crc32c body)])
    s.setLane t l { x with
      txSf := n + 1
      t3 := t3
      txRr := match sent.getLast? with | some k => streamNo k.1 k.2 | none => x.txRr
      tx := [BitVec.ofNat 32 sos0, BitVec.ofNat 32 sos1] ++ ws.map (BitVec.ofNat 32) ++ [0xe1, crc32c body]
      txScr := out.2
      txLine := out.1 }

/-- R71. A superframe is sent. -/
def execSuperframeTx (t l : Nat) (s : State) : Host.Outcome State Fault Refusal := .next (s.sfTx t l)

/-- R95. A write of XFL_LANE_CFG: ignored while EN is 1 (set-up order). -/
def State.laneCfgWrite (s : State) (t l : Nat) (v : Word) : State :=
  if s.flag F.XFL_LANE_CTL_EN t l then s else s.setRegN .XFL_LANE_CFG v.toNat t l

/-! ### Ethernet sources (R76) -/

/-- R76, R460. An Ethernet source frame whose destination address began now: its identity, channel count, FRAME_OFS and
slots, the first of them `off` bytes into the frame. The stamps take the trim of lane FIRST. A missing frame, seen by
SF_NUM, makes the receiver realign. -/
def State.ethSource (s : State) (t : Nat) (id w2 w3 off : Nat) (slots : List Nat) : State :=
  let l := 64
  let n := bitsOf w2 16 8 + 1
  let s := s.setH .ethSrcId id t |>.setH .ethSrcCh n t |>.setH .ethSrcSeen 1 t
  let s := s.sourceFollow t 0 true
  let x := s.lane t l
  let sf := bitsOf w3 0 16
  let ofs := bitsOf w3 16 8
  let follows := x.synced && x.lastSf == some ((sf + 65535) % 65536) && ofs == x.ownOfs n
  let start := if follows then 0 else ofs
  let s := s.modLane t l fun x =>
    { x with lastSf := some sf
             slots := if follows then x.slots else []
             synced := follows || decide (ofs < 112)
             gap := x.gap || (x.synced && !follows) }
  if follows || decide (ofs < 112) then
    let at_ (k : Nat) : Time := s.laneStamp t (s.fld F.ETH_CTL_FIRST t) +
      BitVec.ofNat 64 (8 * (off + 2 * k) * s.freq * 65536 / (s.ethGbps t * 1000000))
    foldS (fun k s => s.slotRx t l n true false (at_ k) (at_ (k + 1)) (slots.getD k 0))
      ((List.range 112).filter fun k => decide (start ≤ k)) s
  else s

end Sys2Proof.Machine
end

