-- ==== Sys2Proof/Machine/External.lean ====
section
/-!
DEFINITION. The transceivers, PCI Express and Ethernet (R444..R464), and delivery to farm nodes (R152, R153).
-/
namespace Sys2Proof.Machine

/-! ### Transceivers (R444..R450) -/

/-- A lane's write is ignored. -/
def State.xcvIgn (s : State) (t l : Nat) : State := s.setFlag F.XCV_LANE_STAT_WR_IGN true t l

/-- R446. A lane that PCI Express may use. -/
def pcieLane (t l : Nat) : Bool := (t == 0 || t == 4) && decide (l < 16)

/-- The multiplier of the PLL that a lane configuration names. -/
def State.laneMult (s : State) (t l cfg : Nat) : Nat :=
  if bitOf cfg 3 then s.fld F.XCV_QUAD_CFG_MULT_B t (l / 4) else s.fld F.XCV_QUAD_CFG_MULT_A t (l / 4)

/-- R444, R445. The frequency of that PLL, in kHz: the symbol rate in kBd is this over 2^DIV. -/
def State.lanePll (s : State) (t l cfg : Nat) : Nat := s.fld F.XCV_QUAD_REF_FREF_KHZ t (l / 4) * s.laneMult t l cfg

/-- R445. The symbol rate that a configuration gives lies in its range, and its PLL is on. -/
def State.laneRateOk (s : State) (t l cfg : Nat) : Bool :=
  let f := s.lanePll t l cfg
  let d := 2 ^ bitsOf cfg 4 2
  s.laneMult t l cfg != 0 &&
    (if bitOf cfg 2 then decide (10000000 * d ≤ f) && decide (f ≤ 56000000 * d)
     else decide (1250000 * d ≤ f) && decide (f ≤ 32000000 * d))

/-- A configuration gives exactly a rate, in kBd, and modulation (PAM4 or NRZ). -/
def State.laneRateIs (s : State) (t l cfg kbd : Nat) (pam4 : Bool) : Bool :=
  bitOf cfg 2 == pam4 && s.lanePll t l cfg == kbd * 2 ^ bitsOf cfg 4 2

/-- The symbol rate and modulation of XFL_LANE_CFG.RATE (Table 3.2). -/
def xflRate (r : Nat) : Nat × Bool :=
  match r with
  | 0 => (10312500, false)
  | 1 => (25781250, false)
  | 2 => (26562500, true)
  | _ => (53125000, true)

/-- R445. RATE_MISMATCH of an XFL lane follows its settings; setting it raises source 1,928 + t (R464). -/
def State.rateFollow (s : State) (t l : Nat) : State :=
  let cfg := s.regN .XCV_LANE_CFG t l
  let r := xflRate (s.fld F.XFL_LANE_CFG_RATE t l)
  let bad := bitsOf cfg 0 2 == 1 && !s.laneRateIs t l cfg r.1 r.2
  let was := s.flag F.XCV_LANE_STAT_RATE_MISMATCH t l
  let s := s.setFlag F.XCV_LANE_STAT_RATE_MISMATCH bad t l
  if bad && !was then s.device (1928 + t) else s

/-- R445, R446. A configuration is refused; source 1,928 + t when CFG_ERR was 0. -/
def State.xcvCfgErr (s : State) (t l : Nat) : State :=
  if s.flag F.XCV_LANE_STAT_CFG_ERR t l then s
  else (s.setFlag F.XCV_LANE_STAT_CFG_ERR true t l).device (1928 + t)

/-- R446. The owner that a USE names is on. -/
def State.ownerOn (s : State) (t l use : Nat) : Bool :=
  match use with
  | 0 => false
  | 1 => s.flag F.XFL_LANE_CTL_EN t l
  | 2 => s.flag F.ETH_CTL_EN t
  | _ => pcieLane t l && s.flag F.PCIE_EP_CTL_EN 0 (t / 4)

/-- R445, R446. A write of XCV_LANE_l_CFG. -/
def State.xcvCfgWrite (s : State) (t l v : Nat) : State :=
  let old := s.fld F.XCV_LANE_CFG_USE t l
  let use := bitsOf v 0 2
  if use ≠ old ∧ (s.ownerOn t l old ∨ s.ownerOn t l use) then s.xcvIgn t l
  else if (use = 3 ∧ ¬ pcieLane t l) ∨ ((use = 1 ∨ use = 2) ∧ ¬ s.laneRateOk t l v) then s.xcvCfgErr t l
  else (s.setRegN .XCV_LANE_CFG v t l).rateFollow t l

/-- R445. A write of XCV_LANE_l_CFG. -/
def execXcvLaneCfgWrite (t l : Nat) (v : Word) (s : State) : Host.Outcome State Fault Refusal :=
  wrOut .XCV_LANE_CFG v (s.xcvCfgWrite t l v.toNat)

/-- R449. XCV_LANE_l_CTL takes a value: PRBS_EN 0 to 1 clears the error count, and either change of it clears
PRBS_LOCK. -/
def State.xcvCtlSet (s : State) (t l v : Nat) : State :=
  let was := s.flag F.XCV_LANE_CTL_PRBS_EN t l
  let on := bitOf v 2
  let s := s.setRegN .XCV_LANE_CTL v t l
  let s := if on != was then s.setFlag F.XCV_LANE_STAT_PRBS_LOCK false t l else s
  if on && !was then s.setRegN .XCV_LANE_PRBS_ERR 0 t l else s

/-- R446. A software write of XCV_LANE_l_CTL: ignored on a lane of the endpoint. -/
def State.xcvCtlWrite (s : State) (t l v : Nat) : State :=
  if s.fld F.XCV_LANE_CFG_USE t l = 3 then s.xcvIgn t l else s.xcvCtlSet t l v

/-- R446, R448, Table 18.5. A write of XCV_LANE_l_TXEQ: ignored on a lane of the endpoint, and on a lane of an Ethernet
block under link training. -/
def State.xcvTxeqWrite (s : State) (t l v : Nat) : State :=
  let use := s.fld F.XCV_LANE_CFG_USE t l
  if use = 3 ∨ (use = 2 ∧ s.flag F.ETH_CTL_LT_EN t) then s.xcvIgn t l else s.setRegN .XCV_LANE_TXEQ v t l

/-- R444, R446. A write of XCV_QUAD_q_CFG: PLL B of a quad with a lane of the endpoint keeps its multiplier. -/
def State.xcvQuadWrite (s : State) (t q v : Nat) : State :=
  let own := (List.range 4).filter fun k => s.fld F.XCV_LANE_CFG_USE t (4 * q + k) == 3
  let b := s.fld F.XCV_QUAD_CFG_MULT_B t q
  let s := if own.isEmpty then s.setRegN .XCV_QUAD_CFG v t q
    else
      let s := s.setRegN .XCV_QUAD_CFG (setBitsOf v 18 10 b) t q
      if bitsOf v 18 10 = b then s else foldS (fun k s => s.xcvIgn t (4 * q + k)) own s
  foldS (fun k s => s.rateFollow t (4 * q + k)) (List.range 4) s

/-- R444. A write of XCV_QUAD_q_REF. -/
def State.xcvRefWrite (s : State) (t q v : Nat) : State :=
  foldS (fun k s => s.rateFollow t (4 * q + k)) (List.range 4) (s.setRegN .XCV_QUAD_REF v t q)

/-- R447. A 1 ms window has measured a quad's reference, in 0.01 ppm: REF_TRACK reads 1 after 1,000 windows within
0.01 ppm, and 0 once the reference leaves that band. -/
def State.ppmWindow (s : State) (t q : Nat) (ppm : Int) : State :=
  let within := decide (-1 ≤ ppm) && decide (ppm ≤ 1)
  let n := if within then min 1000 (s.h .xcvTrack t q + 1) else 0
  s.setH .xcvTrack n t q |>.setFld F.XCV_QUAD_STAT_PPM (unsign 16 (clampI (-32767) 32767 ppm)) t q
    |>.setFlag F.XCV_QUAD_STAT_REF_OK true t q
    |>.setFlag F.XCV_QUAD_STAT_REF_TRACK (decide (1000 ≤ n) || (within && s.flag F.XCV_QUAD_STAT_REF_TRACK t q)) t q

/-- R447. Every 1 ms a quad's reference is measured. -/
def execPpmWindow (t q : Nat) (ppm : Int) (s : State) : Host.Outcome State Fault Refusal := .next (s.ppmWindow t q ppm)

/-- R449. A lane's checker sees 64 consecutive matching symbols, and then counts `errs` bit errors. -/
def execPrbsCheckerLock (t l errs : Nat) (s : State) : Host.Outcome State Fault Refusal :=
  if s.fld F.XCV_LANE_CFG_USE t l = 0 ∧ s.flag F.XCV_LANE_CTL_PRBS_EN t l ∧ s.flag F.XCV_LANE_CTL_RX_EN t l then
    .next ((s.setFlag F.XCV_LANE_STAT_PRBS_LOCK true t l).satFld F.XCV_LANE_PRBS_ERR_COUNT errs t l)
  else .next s

/-! ### PCI Express (R451..R458) -/

/-- R455. The conditions under which a function is usable. -/
def State.usableNow (s : State) (f : Nat) : Bool :=
  s.flag F.PCIE_EP_STAT_LINK_UP 0 (f / 2) && s.flag F.PCIE_FN_CFG_EN 0 f && s.flag F.PCIE_FN_STAT_BME 0 f &&
    !s.flag F.PCIE_FN_STAT_D3HOT 0 f && !s.flag F.PCIE_FN_STAT_FLR 0 f &&
    (!s.flag F.PCIE_EP_CTL_IDE_REQ 0 (f / 2) || s.flag F.PCIE_EP_STAT_IDE_SECURE 0 (f / 2))

/-- R455, R464. USABLE follows its conditions: source 1,944 + F tells of a change, and the queue pairs of a function that
stops being usable stall. -/
def State.usableFollow (s : State) (f : Nat) : State :=
  let now := s.usableNow f
  if now == s.flag F.PCIE_FN_STAT_USABLE 0 f then s
  else
    let s := (s.setFlag F.PCIE_FN_STAT_USABLE now 0 f).device (1944 + f)
    if now then s else s.qpsStall f

/-- The two functions of an endpoint follow. -/
def State.endpointFollow (s : State) (e : Nat) : State := (s.usableFollow (2 * e)).usableFollow (2 * e + 1)

/-- R451. Configuration space of a function at its defaults: Bus Master and MSI-X disabled, D0, every vector masked. -/
def State.fnReset (s : State) (f : Nat) (flr : Bool) : State :=
  let s := s.setFlag F.PCIE_FN_STAT_BME false 0 f |>.setFlag F.PCIE_FN_STAT_D3HOT false 0 f
    |>.setFlag F.PCIE_FN_STAT_MSIX_EN false 0 f |>.setFlag F.PCIE_FN_STAT_FLR flr 0 f
  { s with hid := tfilter s.hid fun k => !((k.id == Hid.msixOpen || k.id == .msixAddr || k.id == .msixData) && k.w == f) }

/-- R451, R455. An endpoint is reset, which takes its link down. -/
def State.endpointReset (s : State) (e : Nat) : State :=
  let was := s.flag F.PCIE_EP_STAT_LINK_UP 0 e
  let s := s.setFld F.PCIE_EP_STAT_WIDTH 0 0 e |>.setFld F.PCIE_EP_STAT_GEN 0 0 e
    |>.setFlag F.PCIE_EP_STAT_LINK_UP false 0 e |>.setFlag F.PCIE_EP_STAT_IDE_SECURE false 0 e
  let s := if was then s.device (1948 + e) else s
  ((s.fnReset (2 * e) false).fnReset (2 * e + 1) false).endpointFollow e

/-- R446. Lanes 0..W-1 of an endpoint of width code w have USE PCIE. -/
def State.pcieLanes (s : State) (e w : Nat) : Bool :=
  (List.range (2 ^ w)).all fun l => s.fld F.XCV_LANE_CFG_USE (4 * e) l == 3

/-- R446, R455. An endpoint's link comes up with a width and generation, while EN is 1, within MAXW and MAXGEN and on lanes
with USE PCIE; or goes down. -/
def execPcieLinkChange (e : Nat) (up : Bool) (width gen : Nat) (s : State) : Host.Outcome State Fault Refusal :=
  if !up then .next (s.endpointReset e)
  else if s.flag F.PCIE_EP_CTL_EN 0 e ∧ width ≤ s.fld F.PCIE_EP_CTL_MAXW 0 e ∧ gen ≤ s.fld F.PCIE_EP_CTL_MAXGEN 0 e ∧
      s.pcieLanes e width ∧ ¬ s.flag F.PCIE_EP_STAT_LINK_UP 0 e ∧ ¬ s.scanning then
    .next ((s.setFld F.PCIE_EP_STAT_WIDTH width 0 e |>.setFld F.PCIE_EP_STAT_GEN gen 0 e
      |>.setFlag F.PCIE_EP_STAT_LINK_UP true 0 e |>.device (1948 + e)).endpointFollow e)
  else .next s

/-- R451. The PERST_N ball resets one endpoint. -/
def execPerstNAssert (e : Nat) (s : State) : Host.Outcome State Fault Refusal := .next (s.endpointReset e)

/-- R455. The host changes what a function's usability rests on: Bus Master Enable, D3hot, the end of an FLR, the state of
the IDE stream. -/
def execFunctionUsabilityChange (f : Nat) (bme d3hot flr secure : Bool) (s : State) :
    Host.Outcome State Fault Refusal :=
  .next ((s.setFlag F.PCIE_FN_STAT_BME bme 0 f |>.setFlag F.PCIE_FN_STAT_D3HOT d3hot 0 f
    |>.setFlag F.PCIE_FN_STAT_FLR (flr && s.flag F.PCIE_FN_STAT_FLR 0 f) 0 f
    |>.setFlag F.PCIE_EP_STAT_IDE_SECURE secure 0 (f / 2)).endpointFollow (f / 2))

/-- R451, R455. A function-level reset begins. -/
def execFlr (f : Nat) (s : State) : Host.Outcome State Fault Refusal := .next ((s.fnReset f true).usableFollow f)

/-- R457, R464. An IDE integrity failure: the stream is Insecure. -/
def execIdeFail (e : Nat) (s : State) : Host.Outcome State Fault Refusal :=
  let was := s.flag F.PCIE_EP_STAT_IDE_FAIL 0 e
  let s := s.setFlag F.PCIE_EP_STAT_IDE_SECURE false 0 e |>.setFlag F.PCIE_EP_STAT_IDE_FAIL true 0 e
  .next ((if was then s else s.device (1948 + e)).endpointFollow e)

/-- R455. A write of PCIE_EP_e_CTL: an endpoint that is switched off loses its link. -/
def State.epCtlWrite (s : State) (e v : Nat) : State :=
  let s := s.setRegN .PCIE_EP_CTL v 0 e
  if bitOf v 0 then s.endpointFollow e else s.endpointReset e

/-- R454, R455. A write of PCIE_FN_F_CFG: MSIX_N takes writes only while EN is 0. -/
def State.fnCfgWrite (s : State) (f v : Nat) : State :=
  let on := s.flag F.PCIE_FN_CFG_EN 0 f
  let n := s.fld F.PCIE_FN_CFG_MSIX_N 0 f
  let s := if on && bitsOf v 1 11 != n then s.setFlag F.PCIE_FN_STAT_WR_IGN true 0 f else s
  (s.setRegN .PCIE_FN_CFG (if on then setBitsOf v 1 11 n else v) 0 f).usableFollow f

/-- R456. A failed host-memory access of the device through a function: the queue pair it served, if any, fails. -/
def State.hostFail (s : State) (q : Option Nat) : State := match q with | some n => s.qpFail n | none => s

/-- R456. A completion to a device read of host memory arrives, for queue pair `q` if it served one: EP counts, and a
completion with EP or an error status is a failed host-memory access. -/
def execHostCompletionRx (f : Nat) (q : Option Nat) (res : HostRes) (s : State) : Host.Outcome State Fault Refusal :=
  match res with
  | .good => .next s
  | .poison => .next ((s.addFld F.PCIE_FN_POISON_CNT_COUNT 1 0 f).hostFail q)
  | .failed => .next (s.hostFail q)

/-- R456. A device read of host memory gets no completion in time. -/
def execHostCompletionTimeout (f : Nat) (q : Option Nat) (s : State) : Host.Outcome State Fault Refusal :=
  .next ((s.addFld F.PCIE_FN_CTO_CNT_COUNT 1 0 f).hostFail q)

/-! ### Ethernet (R459..R463) -/

/-- An ignored write of an ETH register. -/
def State.ethIgn (s : State) (t : Nat) : State := s.setFlag F.ETH_STAT_WR_IGN true t

/-- The lane rate and modulation of a speed and lane count (Table 18.4); none where the table has no row. -/
def ethRate (speed n : Nat) : Option (Nat × Bool) :=
  match speed, n with
  | 0, 4 => some (25781250, false)
  | 0, 2 => some (26562500, true)
  | 0, 1 => some (53125000, true)
  | 1, 4 => some (26562500, true)
  | 1, 2 => some (53125000, true)
  | 2, 8 => some (26562500, true)
  | 2, 4 => some (53125000, true)
  | _, _ => none

/-- R459. The first check that a value of ETH_CTL fails, 0 when it passes. The first two look at the lanes that exist. -/
def State.ethCheck (s : State) (t v : Nat) : Nat :=
  let n := 2 ^ bitsOf v 3 2
  let first := bitsOf v 5 5
  let lanes := (List.range n).filterMap fun k => if first + k < 20 then some (first + k) else none
  if lanes.any fun l => s.fld F.XCV_LANE_CFG_USE t l != 2 then 1
  else if (match ethRate (bitsOf v 1 2) n with
      | none => true
      | some r => lanes.any fun l => !s.laneRateIs t l (s.regN .XCV_LANE_CFG t l) r.1 r.2) then 2
  else if 20 < first + n ∨ first % n ≠ 0 then 3
  else 0

/-- R462, R464. An Ethernet link goes down: its streams see their source leave UP. -/
def State.ethDown (s : State) (t : Nat) : State :=
  let was := s.flag F.ETH_STAT_LINK_UP t
  let s := s.setFlag F.ETH_STAT_LINK_UP false t |>.setFlag F.ETH_STAT_PCS_ALIGN false t |>.setH .ethSrcSeen 0 t
    |>.setLane t 64 XflLane.empty
  (if was then s.device (1936 + t) else s).sourceFollow t 0 true

/-- R459, R462. A write of ETH_CTL: EN 0 to 1 is checked, and EN 1 to 0 stops the block. -/
def State.ethCtlWrite (s : State) (t v : Nat) : State :=
  let was := s.flag F.ETH_CTL_EN t
  if bitOf v 0 && !was then
    let e := s.ethCheck t v
    let s := (s.setRegN .ETH_CTL (if e = 0 then v else Machine.setBit v 0 false) t).setFld F.ETH_STAT_ERR e t
    if e = 0 then s else s.device (1936 + t)
  else
    let s := s.setRegN .ETH_CTL v t
    if was && !bitOf v 0 then (s.ethDown t).setFlag F.ETH_STAT_PAUSED false t else s

/-- R459. A write of ETH_CTL. -/
def execEthCtlWrite (t : Nat) (v : Word) (s : State) : Host.Outcome State Fault Refusal :=
  wrOut .ETH_CTL v (s.ethCtlWrite t v.toNat)

/-- R462, R480. An Ethernet link comes up with its PCS aligned. -/
def execEthLinkUp (t : Nat) (s : State) : Host.Outcome State Fault Refusal :=
  if s.flag F.ETH_CTL_EN t ∧ ¬ s.flag F.ETH_STAT_LINK_UP t ∧ ¬ s.scanning then
    .next ((s.setFlag F.ETH_STAT_LINK_UP true t |>.setFlag F.ETH_STAT_PCS_ALIGN true t |>.device (1936 + t)).sourceFollow
      t 0 true)
  else .next s

/-- R462, R464. An Ethernet link goes down; `cdr` is the lane whose CDR lock was lost, if that is the cause. -/
def execEthLinkDown (t : Nat) (cdr : Option Nat) (s : State) : Host.Outcome State Fault Refusal :=
  let s := match cdr with
    | some l => s.cdrLost t l
    | none => s
  .next (s.ethDown t)

/-- R460. The pause quanta elapse. -/
def execPauseExpiry (t : Nat) (s : State) : Host.Outcome State Fault Refusal :=
  .next (s.setFlag F.ETH_STAT_PAUSED false t)

/-- A 16-bit field of a frame, most significant octet first. -/
def netWord (bs : List Byte) (k : Nat) : Nat := (bs.getD k 0).toNat * 256 + (bs.getD (k + 1) 0).toNat

/-- A little-endian word of a source frame's payload. -/
def payWord (bs : List Byte) (k : Nat) : Nat := leNat ((bs.drop (4 * k)).take 4)

/-- R461. MACsec on receive: whether the frame is dropped, and the state with RXPN past an accepted PN. -/
def State.secRx (s : State) (t : Nat) (sec : Option EthSec) : Bool × State :=
  match sec with
  | none => (s.flag F.ETH_SEC_CTL_RX_STRICT t, s)
  | some c =>
    if !c.icv || s.reg .ETH_SEC_PEER_SCI t != c.sci || decide (c.pn < s.regN .ETH_SEC_SA_RXPN t (c.an % 4)) then (true, s)
    else (false, s.setRegN .ETH_SEC_SA_RXPN (c.pn + 1) t (c.an % 4))

/-- R460. A frame past its checks: a source frame feeds the streams, any other EtherType is dropped and counted. `off` is
the length of its SecTAG. -/
def State.ethData (s : State) (t off : Nat) (bs : List Byte) : State :=
  let tag := if netWord bs 12 = 0x8100 then 4 else 0
  let pay := bs.drop (14 + tag)
  if netWord bs (12 + tag) = 0x88b5 ∧ 240 ≤ pay.length then
    (s.addFld F.ETH_RX_CNT_COUNT 1 t).ethSource t (payWord pay 0 + payWord pay 1 * 2 ^ 32) (payWord pay 2) (payWord pay 3)
      (30 + tag + off) ((List.range 112).map fun k => leNat ((pay.drop (16 + 2 * k)).take 2))
  else s.addFld F.ETH_RX_OTHER_COUNT 1 t

/-- R460, R461. A frame whose destination address began now arrives: its octets less the FCS, with any MACsec protection
taken off, and what that carried. -/
def State.ethRx (s : State) (t : Nat) (bs : List Byte) (fcs : Bool) (sec : Option EthSec) : State :=
  if ¬ (s.flag F.ETH_CTL_EN t ∧ s.flag F.ETH_STAT_LINK_UP t) then s
  else if !fcs then s.addFld F.ETH_FCS_ERR_COUNT 1 t
  else if s.fld F.ETH_MAX_FRAME_BYTES t < bs.length + 4 + (if sec.isSome then 32 else 0) then s
  else if netWord bs 12 = 0x8808 ∧ netWord bs 14 = 1 ∧ sec.isNone ∧ s.flag F.ETH_CTL_PAUSE_EN t then
    s.setFlag F.ETH_STAT_PAUSED (netWord bs 16 != 0) t
  else if s.flag F.ETH_SEC_CTL_RX_EN t then
    let r := s.secRx t sec
    if r.1 then r.2.addFld F.ETH_SEC_DROP_COUNT 1 t else r.2.ethData t (if sec.isSome then 16 else 0) bs
  else if sec.isSome then s.addFld F.ETH_RX_OTHER_COUNT 1 t
  else s.ethData t 0 bs

/-- R460. An Ethernet frame is received. -/
def execEthFrameRx (t : Nat) (bytes : List Byte) (fcs : Bool) (sec : Option EthSec) (s : State) :
    Host.Outcome State Fault Refusal := .next (s.ethRx t bytes fcs sec)

/-! ### MACsec on transmit (R461) -/

/-- The PN at which no frame is sent. -/
def State.pnEnd (s : State) (t : Nat) : Nat := if s.flag F.ETH_SEC_CTL_XPN t then 2 ^ 64 - 1 else 2 ^ 32 - 1
/-- The PN that sets PN_WARN. -/
def State.pnLimit (s : State) (t : Nat) : Nat := if s.flag F.ETH_SEC_CTL_XPN t then 2 ^ 63 else 2 ^ 31

/-- R461, R464. PN_EXH follows the active transmit SA. -/
def State.pnFollow (s : State) (t : Nat) : State :=
  let now := s.flag F.ETH_SEC_CTL_TX_EN t &&
    decide (s.pnEnd t ≤ s.regN .ETH_SEC_SA_TXPN t (s.fld F.ETH_SEC_CTL_TX_AN t))
  let was := s.flag F.ETH_SEC_STAT_PN_EXH t
  let s := s.setFlag F.ETH_SEC_STAT_PN_EXH now t
  if now && !was then s.device (1936 + t) else s

/-- R461, R464. One protected frame uses a PN; reaching the threshold sets PN_WARN. -/
def State.pnUse (s : State) (t : Nat) : State :=
  if !s.flag F.ETH_SEC_CTL_TX_EN t then s
  else
    let an := s.fld F.ETH_SEC_CTL_TX_AN t
    let pn := s.regN .ETH_SEC_SA_TXPN t an + 1
    let s := s.setRegN .ETH_SEC_SA_TXPN pn t an
    let s :=
      if pn = s.pnLimit t ∧ ¬ s.flag F.ETH_SEC_STAT_PN_WARN t then
        (s.setFlag F.ETH_SEC_STAT_PN_WARN true t).device (1936 + t)
      else s
    s.pnFollow t

/-- R461. A write of ETH_SEC_CTL. -/
def State.secCtlWrite (s : State) (t v : Nat) : State := (s.setRegN .ETH_SEC_CTL v t).pnFollow t

/-- R461. A write of a register of an SA: ignored on the active transmit SA while TX_EN is 1. -/
def State.saWrite (s : State) (t : Nat) (id : RegId) (i j : Nat) (v : DWord) : State :=
  if s.flag F.ETH_SEC_CTL_TX_EN t ∧ s.fld F.ETH_SEC_CTL_TX_AN t = i then s.setFlag F.ETH_SEC_STAT_WR_IGN true t
  else (s.setReg id v t i j).pnFollow t

/-! ### Delivery to farm nodes (R152, R153) -/

/-- The oldest event for a farm destination, in event-number order. -/
def State.farmEvent (s : State) (d : Nat) : Option Event := s.events.find? fun e => accDest e.words == 4096 + d && !e.sent

/-- The octets of a MAC address, the most significant first. -/
def macBytes (v : Nat) : List Byte := (natBytes 6 v).reverse

/-- R152. The frame of one segment of an event, from byte `pos`. -/
def State.farmFrame (s : State) (d seg : Nat) (e : Event) (data : List Byte) : List Byte :=
  let t := s.fld F.FARM_CFG_TOWER 0 d
  let last := decide (e.bytes.length ≤ e.pos + data.length)
  macBytes (s.regN .FARM_MAC 0 d) ++ macBytes (s.regN .ETH_MAC t) ++
    (if s.flag F.FARM_CFG_VLAN_EN 0 d then
      [0x81, 0x00, BitVec.ofNat 8 (s.fld F.FARM_CFG_VLAN 0 d / 256), BitVec.ofNat 8 (s.fld F.FARM_CFG_VLAN 0 d)]
     else []) ++
    [0x88, 0xb6] ++ natBytes 8 e.num ++ natBytes 4 e.pos ++ natBytes 4 e.bytes.length ++
    natBytes 4 (seg % 65536 + b2n last * 2 ^ 16 + b2n e.resend * 2 ^ 17 + d * 2 ^ 18) ++ natBytes 4 0 ++ data

/-- R152, R460..R462. The next segment of the oldest event of a farm destination is handed to the MAC, when the event is
built and the block can send. With the last one the ACCEPT that submitted it may complete. -/
def State.farmSend (s : State) (d : Nat) : State :=
  let t := s.fld F.FARM_CFG_TOWER 0 d
  if ¬ (s.flag F.ETH_CTL_EN t ∧ s.flag F.ETH_STAT_LINK_UP t) ∨ s.flag F.ETH_STAT_PAUSED t ∨
      s.flag F.ETH_SEC_STAT_PN_EXH t then s
  else
    match s.farmEvent d with
    | none => s
    | some e =>
      if !e.built then s
      else
        let size := (s.fld F.FARM_CFG_MTU 0 d - 24) / 8 * 8
        let data := (e.bytes.drop e.pos).take size
        let frame := s.farmFrame d (if size = 0 then 0 else e.pos / size) e data
        let s := { s with ethTx := tput s.ethTx t frame }
        let s := (s.addFld F.ETH_TX_CNT_COUNT 1 t).pnUse t
        if e.bytes.length ≤ e.pos + data.length then
          (s.setRegN .FARM_LAST e.num 0 d |>.addFld F.FARM_SENT_COUNT 1 0 d).eventSent e
        else s.onEvent e.num fun x => { x with pos := x.pos + data.length }

/-- R152. One segment of an event is handed to the MAC of a farm destination's tower. -/
def execFarmSend (d : Nat) (s : State) : Host.Outcome State Fault Refusal := .next (s.farmSend d)

end Sys2Proof.Machine
end

