-- ==== Sys2Proof/Machine/Spire.lean ====
section
/-!
DEFINITION. Spire contexts: states, starts, faults, loops, address generators, CSRs (R195, R196, R204..R206, R210,
R219..R223, R229..R233).
-/
namespace Sys2Proof.Machine

/-- A context with every register 0 (R210, R233). -/
def SprCtx.zero : SprCtx :=
  ⟨0, [], [], [], [], [], [], 0, 0, 0, false, 0, false, false, 0, 0, 0, none, false, false, 0, 0, 0, false⟩

/-- Context x of Spire k of pavilion p. -/
def State.ctx (s : State) (p k x : Nat) : SprCtx := tget s.spr (p, k, x) SprCtx.zero

/-- Replace a context. -/
def State.setCtx (s : State) (p k x : Nat) (c : SprCtx) : State := { s with spr := tput s.spr (p, k, x) c }

/-- The state of a context: 0 IDLE, 1 RUN, 2 WAIT, 3 FAULT, 4 HALT (Table 8.6). -/
def State.ctxState (s : State) (p k x : Nat) : Nat := bitsOf (s.regN .SPR_STAT p k) (4 * x) 3

/-- R232. SPR_STAT.STATE: 1 RUN while EN is 1; else 2 DRAINING while a context runs, waits or is halted, else 0. -/
def State.sprShow (s : State) (p k : Nat) : State :=
  let live (x : Nat) : Bool := s.ctxState p k x == 1 || s.ctxState p k x == 2 || s.ctxState p k x == 4
  s.setFld F.SPR_STAT_STATE (if s.flag F.SPR_CTL_EN p k then 1 else if live 0 || live 1 then 2 else 0) p k

/-- A context changes state. -/
def State.setCtxState (s : State) (p k x st : Nat) : State :=
  (s.setRegN .SPR_STAT (setBitsOf (s.regN .SPR_STAT p k) (4 * x) 3 st) p k).sprShow p k

/-! ### Registers of a context -/

/-- Scalar register r: s0 reads 0 (R195). -/
def SprCtx.s (c : SprCtx) (r : Nat) : Word := if r = 0 then 0 else tget c.x r 0
/-- Write scalar register r: writes to s0 are discarded. -/
def SprCtx.setS (c : SprCtx) (r : Nat) (v : Word) : SprCtx := if r = 0 then c else { c with x := tput c.x r v }
/-- Lane l of vector register r. -/
def SprCtx.lane (c : SprCtx) (r l : Nat) : BitVec 16 := tget c.v (8 * r + l) 0
/-- Write all lanes of vector register r. -/
def SprCtx.setV (c : SprCtx) (r : Nat) (f : Nat → BitVec 16) : SprCtx :=
  { c with v := foldS (fun l t => tput t (8 * r + l) (f l)) (List.range 8) c.v }
/-- Lane l of coefficient register r, signed. -/
def SprCtx.coef (c : SprCtx) (r l : Nat) : Int := (tget c.c (8 * r + l) 0).toInt
/-- Write all lanes of coefficient register r. -/
def SprCtx.setC (c : SprCtx) (r : Nat) (f : Nat → BitVec 18) : SprCtx :=
  { c with c := foldS (fun l t => tput t (8 * r + l) (f l)) (List.range 8) c.c }
/-- Lane l of accumulator r, signed. -/
def SprCtx.acc (c : SprCtx) (r l : Nat) : Int := (tget c.a (8 * r + l) 0).toInt
/-- Write all lanes of accumulator r. -/
def SprCtx.setA (c : SprCtx) (r : Nat) (f : Nat → BitVec 48) : SprCtx :=
  { c with a := foldS (fun l t => tput t (8 * r + l) (f l)) (List.range 8) c.a }
/-- Address generator g. -/
def SprCtx.gen (c : SprCtx) (g : Nat) : SprAg := tget c.ag g (⟨0, 0, 0, 0⟩ : SprAg)
/-- Replace address generator g. -/
def SprCtx.setGen (c : SprCtx) (g : Nat) (a : SprAg) : SprCtx := { c with ag := tput c.ag g a }

/-! ### Address generators (R206) -/

/-- The effective address of a generator. -/
def SprAg.ea (a : SprAg) : Nat := a.b + a.i

/-- The modifier, signed. -/
def SprAg.mod (a : SprAg) : Int := signed 18 a.m

/-- The post-modify of R206. -/
def SprAg.next (a : SprAg) : SprAg :=
  let i := (a.i : Int) + a.mod
  let i := if a.l = 0 then i else if (a.l : Int) ≤ i then i - a.l else if i < 0 then i + a.l else i
  { a with i := unsign 18 i }

/-- R206. The fault of an access of n bytes through a generator with alignment `al`: 3 ALIGN, 4 ACCESS, 0 none. -/
def SprAg.check (a : SprAg) (n al : Nat) : Nat :=
  if a.ea % al ≠ 0 then 3
  else if dmemSize < a.ea + n ∨ (a.l ≠ 0 ∧ (a.l < a.mod.natAbs ∨ a.b + a.l < a.ea + n ∨ dmemSize < a.b + a.l)) then 4
  else 0

/-- A field of a generator, as AGR reads it. -/
def SprAg.field (a : SprAg) (f : Nat) : Word :=
  match f with
  | 0 => BitVec.ofNat 32 a.b
  | 1 => BitVec.ofNat 32 a.l
  | 2 => BitVec.ofNat 32 a.i
  | _ => BitVec.ofInt 32 a.mod

/-- A generator with one field written, 18 bits. -/
def SprAg.setField (a : SprAg) (f v : Nat) : SprAg :=
  match f with
  | 0 => { a with b := v % 2 ^ 18 }
  | 1 => { a with l := v % 2 ^ 18 }
  | 2 => { a with i := v % 2 ^ 18 }
  | _ => { a with m := v % 2 ^ 18 }

/-! ### Loops (R204, R205) -/

/-- The address and the open loops after the bundle at `b` ends without a jump: the innermost loop that ends there
counts, and goes back to its first bundle or closes. -/
def loopNext (b : Nat) : List SprLoop → Nat × List SprLoop
  | [] => (b + 1, [])
  | l :: ls =>
    if l.last = b then (if 1 < l.count then (l.first, { l with count := l.count - 1 } :: ls) else loopNext b ls)
    else (b + 1, l :: ls)

/-- R205. The loops left open by a jump to `t`: a loop whose body excludes the target closes, with every loop inside it. -/
def loopJump (t : Nat) : List SprLoop → List SprLoop
  | [] => []
  | l :: ls =>
    let rest := loopJump t ls
    if rest.length = ls.length ∧ l.first ≤ t ∧ t ≤ l.last then l :: ls else rest

/-! ### Starts, faults, resets -/

/-- R221. A start of context x at a bundle address is accepted. -/
def State.startOk (s : State) (p k x addr : Nat) : Bool :=
  decide (s.ctxState p k x = 0) && s.flag F.SPR_CTL_EN p k && !s.flag F.SPR_STAT_LOADING p k &&
    s.flag F.SPR_STAT_IMEM_VALID p k && decide (addr ≤ 8191)

/-- R219. A context enters RUN at an address, with s1 and further registers given. -/
def State.sprStart (s : State) (p k x addr : Nat) (args : List Word) : State :=
  let c := s.ctx p k x
  let c := { c with pc := addr, fresh := true, amo := false, refetch := false, waitMask := 0 }
  let c := (args.zipIdx).foldl (fun c a => c.setS (1 + a.2) a.1) c
  ((s.setCtx p k x c).setH .haltReq 0 p k x).setCtxState p k x 1

/-- R219, R221. A write of SPR_START. -/
def State.sprStartWrite (s : State) (p k v : Nat) : State :=
  let x := bitsOf v 16 1
  if s.startOk p k x (bitsOf v 0 13) then s.sprStart p k x (bitsOf v 0 13) [loWord (s.reg .SPR_START_ARG p k)]
  else s.setFlag F.SPR_STAT_START_ERR true p k

/-- R219. A write of SPR_START. -/
def execSprStartWrite (p k : Nat) (v : Word) (s : State) : Host.Outcome State Fault Refusal :=
  wrOut .SPR_START v (s.sprStartWrite p k v.toNat)

/-- The fault register of a context. -/
def sprFaultReg (x : Nat) : RegId := if x = 0 then .SPR_FAULT0 else .SPR_FAULT1

/-- R230, R225. A context faults: the cause and the bundle's address are recorded; a fast class on top pops (R271). -/
def State.ctxFault (s : State) (p k x cause : Nat) : State :=
  let c := s.ctx p k x
  let s := s.setRegN (sprFaultReg x) (cause + c.pc * 2 ^ 16) p k |>.setCtx p k x { c with amo := false, refetch := false }
  let s := (s.setCtxState p k x 3).local p (sprSrc k 0)
  if x = 1 then s.fastLeave p k else s

/-- R220. A context ends: IDLE. A fast class on top of context 1 pops (R271). -/
def State.ctxEnd (s : State) (p k x : Nat) : State :=
  let s := (s.setCtx p k x { s.ctx p k x with amo := false, refetch := false }).setCtxState p k x 0
  if x = 1 then s.fastLeave p k else s

/-- R220. SPR_CTL.CLRF0 and CLRF1: FAULT becomes IDLE. -/
def State.sprClrf (s : State) (p k x : Nat) : State := if s.ctxState p k x = 3 then s.setCtxState p k x 0 else s

/-- R220. A write of SPR_CTL.CLRF0. -/
def execSprClrf0 (p k : Nat) (s : State) : Host.Outcome State Fault Refusal := .next (s.sprClrf p k 0)

/-- R220. A write of SPR_CTL.CLRF1. -/
def execSprClrf1 (p k : Nat) (s : State) : Host.Outcome State Fault Refusal := .next (s.sprClrf p k 1)

/-- R232, R411. A write of SPR_CTL.EN: a Spire out of service stays so. -/
def State.sprEn (s : State) (p k : Nat) (en : Bool) : State :=
  if en && s.hb .sprDead p k then s.sprIgn p k else (s.setFlag F.SPR_CTL_EN en p k).sprShow p k

/-- R232. A write of SPR_CTL.EN. -/
def execSprEnWrite (p k : Nat) (en : Bool) (s : State) : Host.Outcome State Fault Refusal := .next (s.sprEn p k en)

/-! ### DMA (R226, R227) -/

/-- R226, R315. The packets of a channel: up to 256 bytes each, and none crosses a 256-byte boundary of the Promenade. -/
def State.dmaPackets (s : State) (p k c : Nat) : Nat :=
  cdiv (s.regN .SPR_DMA_PADDR_LO p k c % 256 + s.regN .SPR_DMA_LEN p k c) 256

/-- The offset in the transfer at which packet n starts, and its bytes. -/
def State.dmaSpan (s : State) (p k c n : Nat) : Nat × Nat :=
  let skew := s.regN .SPR_DMA_PADDR_LO p k c % 256
  (256 * n - skew, min (s.regN .SPR_DMA_LEN p k c) (256 * (n + 1) - skew) - (256 * n - skew))

/-- The port of a DMA channel (Table 12.1). -/
def dmaPort (k c : Nat) : Nat := 80 + 4 * k + c

/-- The words of a run of memory. -/
def State.ldWords (s : State) (a n : Nat) : List Word := (List.range n).map fun i => BitVec.ofNat 32 (s.ldN (a + 4 * i) 4)

/-- R226, R227. Packet n of a channel: a READ of its bytes, or an acknowledged WRITE of what data memory holds as it is
formed; in the real-time class under DECL with RT = 1, else in the request class. -/
def State.dmaPkt (s : State) (p k c n : Nat) : List Word :=
  let x := s.dmaSpan p k c n
  let addr := s.regN .SPR_DMA_PADDR_HI p k c % 2 ^ 16 * 2 ^ 32 + s.regN .SPR_DMA_PADDR_LO p k c + x.1
  let rt := s.flag F.SPR_DMA_CTL_RT p k c
  let w3 := if rt then s.fld F.SPR_DMA_CTL_DECL p k c else 0
  if s.flag F.SPR_DMA_CTL_DIR p k c then
    pktRequest (if rt then 2 else 0) 2 (s.addrNode addr) addr (x.2 / 4) (n % 256) w3
      (s.ldWords (dmemBase p k + s.regN .SPR_DMA_LADDR p k c + x.1) (x.2 / 4))
  else pktRequest (if rt then 2 else 0) 1 (s.addrNode addr) addr (x.2 / 4) (n % 256) w3 []

/-- A channel ends: DONE, ERR, and its event (R225, R226). -/
def State.dmaEnd (s : State) (p k c err : Nat) : State :=
  let s := s.setFlag F.SPR_DMA_STAT_BUSY false p k c |>.setFlag F.SPR_DMA_STAT_DONE true p k c
    |>.setFld F.SPR_DMA_STAT_ERR err p k c |>.setH .dmaDone 0 p k c |>.setH .dmaLimit 0 p k c |>.setH .dmaSent 0 p k c
  if s.flag F.SPR_DMA_CTL_EVT p k c then s.local p (sprSrc k 1) else s

/-- A packet of a channel waits to enter the router, or the TAG of its next one is in use. -/
def State.dmaHeld (s : State) (p k c : Nat) : Bool :=
  (s.pReq p).contains (dmaPort k c, s.h .dmaSent p k c % 256) ||
    (s.pIn p localPort).any fun f => pktClass f.words != 1 && pktPort f.words == dmaPort k c

/-- R226. The channel sends its next packet, in address order, once the router has taken the one before it; an error
response ends it with ERR 0x1 (assumption 166). -/
def State.dmaNext (s : State) (p k c : Nat) : State :=
  let n := s.h .dmaSent p k c
  if !s.flag F.SPR_DMA_STAT_BUSY p k c || s.hb .dmaLimit p k c || decide (s.dmaPackets p k c ≤ n) || s.dmaHeld p k c then s
  else
    let r := s.prmSend p (dmaPort k c) (s.dmaPkt p k c n)
    if r.1 = .ok then r.2.setH .dmaSent (n + 1) p k c else r.2.dmaEnd p k c 1

/-- R321. A router forwards a packet; a DMA channel whose packet it took from the local input sends its next one. -/
def State.forwardOn (s : State) (n i cls : Nat) : State :=
  let port := match (s.pIn n i).find? fun f => f.cls == cls with
    | some f => if n < 32 ∧ i = localPort ∧ pktClass f.words ≠ 1 then pktPort f.words else 0
    | none => 0
  let s := s.forward n i cls
  if 80 ≤ port ∧ port < 112 then s.dmaNext n ((port - 80) / 4) (port % 4) else s

/-- R381. A parity error as a flit leaves an input buffer: uncorrectable, and the packet goes on with POISON = 1. -/
def State.bufParity (s : State) (n i cls row : Nat) : State :=
  match (s.pIn n i).find? fun f => f.cls == cls with
  | none => s
  | some f =>
    let w := listSet f.words 0 (BitVec.ofNat 32 (setBitsOf (pw f.words 0) 29 1 1))
    let s := s.setPIn n i ((s.pIn n i).map fun g => if g = f then { f with words := w } else g)
    if n < 32 then s.sramUncorrectable n (2096 + (if i < 4 then i else if i < 12 then 4 + ((siteTowers (s.siteOf n)).findIdx (· == i - 4)) else 7)) row
    else s

/-- R321, R381. A router forwards a packet; `par` is the flit of the input buffer at which it holds a parity error, if any. -/
def execPacketForward (n i cls : Nat) (par : Option Nat) (s : State) : Host.Outcome State Fault Refusal :=
  match par with
  | none => .next (s.forwardOn n i cls)
  | some row => .next ((s.bufParity n i cls row).forwardOn n i cls)

/-- R226, R233. The channel stops with ERR 0x4 once the packets already sent have completed. -/
def State.dmaStop (s : State) (p k c : Nat) : State :=
  let n := s.h .dmaSent p k c
  if s.flag F.SPR_DMA_STAT_BUSY p k c then
    if popcount n (s.h .dmaDone p k c) = n then s.dmaEnd p k c 4 else s.setH .dmaLimit (n + 1) p k c
  else s

/-- R226. The check made at GO: 3 alignment or range, 5 the declaration, 0 none. -/
def State.dmaCheck (s : State) (p k c : Nat) : Nat :=
  let la := s.regN .SPR_DMA_LADDR p k c
  let len := s.regN .SPR_DMA_LEN p k c
  let d := s.fld F.SPR_DMA_CTL_DECL p k c
  if la % 16 ≠ 0 ∨ s.regN .SPR_DMA_PADDR_LO p k c % 16 ≠ 0 ∨ len % 16 ≠ 0 ∨ len = 0 ∨ dmemSize < len ∨
      dmemSize < la + len then 3
  else if s.flag F.SPR_DMA_CTL_RT p k c && !(s.fld F.ADM_D_STAT_STATE 0 d == 1 && s.declFrom d 5 (8 * p + k)) then 5
  else 0

/-- R226, R227. A write of SPR_DMA_c_CTL: its fields are kept; GO starts the channel, ABORT stops it. A write with GO
while the channel is busy is ignored. -/
def State.dmaCtlWrite (s : State) (p k c v : Nat) : State :=
  let busy := s.flag F.SPR_DMA_STAT_BUSY p k c
  let s := if bitOf v 16 then s.dmaStop p k c else s
  if bitOf v 0 then
    if busy then s.sprIgn p k
    else
      let s := s.setRegN .SPR_DMA_CTL (v % 2 ^ 16 / 2 * 2) p k c |>.setFld F.SPR_DMA_STAT_ERR 0 p k c
      let e := s.dmaCheck p k c
      if e = 0 then
        (s.setFlag F.SPR_DMA_STAT_BUSY true p k c |>.setH .dmaDone 0 p k c |>.setH .dmaLimit 0 p k c
          |>.setH .dmaSent 0 p k c).dmaNext p k c
      else s.dmaEnd p k c e
  else s.setRegN .SPR_DMA_CTL (v % 2 ^ 16 / 2 * 2) p k c

/-- R226. A write of SPR_DMA_c_CTL with GO. -/
def execDmaGo (p k c : Nat) (v : Word) (s : State) : Host.Outcome State Fault Refusal :=
  wrOut .SPR_DMA_CTL v (s.dmaCtlWrite p k c (setBit v.toNat 0 true))

/-- R226. A write of SPR_DMA_c_CTL.ABORT. -/
def execDmaAbort (p k c : Nat) (s : State) : Host.Outcome State Fault Refusal := .next (s.dmaStop p k c)

end Sys2Proof.Machine
end

