-- ==== Sys2Proof/Machine/Tasks.lean ====
section
/-!
DEFINITION. The task schedulers (R235..R258): commands, delay lists, dispatch, cancel, completions. Target t of pavilion p
is Spire t for t < 8 and the lodge for t = 8.
-/
namespace Sys2Proof.Machine

/-- An empty scheduler. -/
def TskUnit.empty : TskUnit := ⟨[], [], [], [], [], [], 0, 0, 0, 0⟩

/-- The scheduler of pavilion p. -/
def State.tu (s : State) (p : Nat) : TskUnit := tget s.tsk p TskUnit.empty

/-- Every task that holds a slot (R235). -/
def TskUnit.all (u : TskUnit) : List Task :=
  u.ready ++ u.delayed ++ u.running.map Prod.snd ++ u.waiting.map Prod.fst

/-- TSK_TGT_t_STAT of a running task. -/
def tgtStat (t : Option Task) : Nat := match t with | some k => k.slot + k.flow * 2 ^ 14 + 2 ^ 31 | none => 0

/-- The task running on target t. -/
def TskUnit.on (u : TskUnit) (t : Nat) : Option Task := (u.running.find? fun e => e.1 == t).map Prod.snd

/-- A flow has a running task. -/
def TskUnit.flowBusy (u : TskUnit) (f : Nat) : Bool := u.running.any fun e => e.2.flow == f

/-- Replace the scheduler of pavilion p after a change that touched flow f, and show it in its status registers (R257). -/
def State.setTu (s : State) (p f : Nat) (u : TskUnit) : State :=
  let s := { s with tsk := tput s.tsk p u }
  let slots := u.all.length
  let st := if s.flag F.TSK_CTL_EN p then 1 else if slots ≠ 0 ∨ u.fifo ≠ [] then 2 else 0
  let s := s.setFld F.TSK_STAT_STATE st p |>.setFld F.TSK_STAT_SLOTS slots p
    |>.setFld F.TSK_DLY_STAT_USED u.delayed.length p |>.setFld F.TSK_CPL_STAT_FILL u.fifo.length p
    |>.setFld F.TSK_FSTAT_COUNT (u.all.filter fun t => t.flow == f).length p f
    |>.setFlag F.TSK_FSTAT_RUNNING (u.flowBusy f) p f
  foldS (fun t s => s.setRegN .TSK_TGT_STAT (tgtStat (u.on t)) p t) (List.range 9) s

/-- An ignored write of a TSK register. -/
def State.tskIgn (s : State) (p : Nat) : State := s.setFlag F.TSK_STAT_WR_IGN true p

/-! ### Completions (R252, R253) -/

/-- The largest number of records in the completion FIFO. -/
def cplDepth : Nat := 1024

/-- A record enters the FIFO: source 420 when FILL reaches THR; source 421 for a FAULTED completion, and with CPL_FULL when
it becomes full (R258). -/
def State.cplPush (s : State) (p f : Nat) (r : List Word) : State :=
  let u := s.tu p
  let n := u.fifo.length + 1
  let s := s.setTu p f { u with fifo := u.fifo ++ [r] }
  let thr := s.fld F.TSK_CPL_STAT_THR p
  let s := if u.fifo.length < thr ∧ thr ≤ n then s.local p 420 else s
  let s := if bitsOf (r.headD 0).toNat 14 4 = 3 then s.local p 421 else s
  if n = cplDepth then (s.setFlag F.TSK_STAT_CPL_FULL true p).local p 421 else s

/-- Table 9.5. The completion record of a task. -/
def cplRecord (t : Task) (target status : Nat) (now : Time) : List Word :=
  [BitVec.ofNat 32 (t.flow + target * 2 ^ 10 + status * 2 ^ 14 + t.slot * 2 ^ 18), BitVec.ofNat 32 t.word, loWord now,
    hiWord now]

/-- R247, R252, R253. A task that no list holds any longer completes: 1 DONE, 2 CANCELLED, 3 FAULTED. -/
def State.tskComplete (s : State) (p : Nat) (t : Task) (target status : Nat) : State :=
  let s := if status = 2 then s.addFld F.TSK_CANCEL_CNT_COUNT 1 p else s
  let s := if status = 3 then s.addFld F.TSK_FAULT_CNT_COUNT 1 p else s
  let u := s.tu p
  if status = 1 ∧ ¬ s.flag F.TSK_FLOW_CPL_DONE p t.flow then s.setTu p t.flow u
  else
    let r := cplRecord t target status (s.pavTime p)
    if u.fifo.length < cplDepth ∧ u.waiting = [] then s.cplPush p t.flow r
    else s.setTu p t.flow { u with waiting := u.waiting ++ [(t, r)] }

/-- A flow and a TAG, as one number above 0. -/
def flowTag (flow tag : Nat) : Nat := 1 + flow + 1024 * tag

/-- R247. The task running on a target, if there is one, completes; the Spire cycle of a completion of its own is kept for a
CANCEL of the same cycle (R249). -/
def State.tskTargetDone (s : State) (p t status : Nat) : State :=
  let u := s.tu p
  match u.on t with
  | none => s
  | some k =>
    let s := { s with tsk := tput s.tsk p { u with
      running := u.running.filter (fun e => e.1 != t) } }
    let s := if status = 2 then s
      else s.setH .tskEnded (flowTag k.flow (k.word % 65536)) p t |>.setH .tskEndedAt s.sprClock p t
    s.tskComplete p k t status

/-- R252. A read of TSK_CPL_FIFO_W0 pops a record; a waiting record takes the room. -/
def State.cplPop (s : State) (p : Nat) : Word × State :=
  let u := s.tu p
  match u.fifo with
  | [] => (0, s)
  | r :: rs =>
    let s := foldS (fun i s => s.setRegN .TSK_CPL_FIFO_W123 (r.getD (1 + i) 0).toNat p i) (List.range 3) s
    let s := match u.waiting with
      | [] => s.setTu p 0 { u with fifo := rs }
      | w :: ws => (s.setTu p 0 { u with fifo := rs, waiting := ws }).cplPush p w.1.flow w.2
    (r.headD 0, s)

/-- R252. A read of TSK_CPL_FIFO_W0. -/
def execCplFifoRead (p : Nat) (s : State) : Host.Outcome State Fault Refusal := .next (s.cplPop p).2

/-- R257, R258. A write of TSK_CPL_STAT.THR: source 420 is raised when FILL now reaches it. -/
def State.cplThrWrite (s : State) (p v : Nat) : State :=
  let fill := (s.tu p).fifo.length
  let old := s.fld F.TSK_CPL_STAT_THR p
  let s := s.setFld F.TSK_CPL_STAT_THR v p
  if fill < old ∧ v ≤ fill then s.local p 420 else s

/-! ### Commands (R238..R242, R248) -/

/-- The lowest-numbered free slot (R235). -/
def TskUnit.freeSlot (u : TskUnit) : Option Nat := firstWhere 16384 fun n => !u.all.any fun t => t.slot == n

/-- R241. The tick in units of 2^-16 beat. -/
def State.tick (s : State) (p : Nat) : Nat := 2 ^ (s.fld F.TSK_CTL_TICK p + 10)

/-- R241. The tick boundary of a time. -/
def State.tickBoundary (s : State) (p : Nat) (t : Time) : Time :=
  BitVec.ofNat 64 (cdiv t.toNat (s.tick p) * s.tick p)

/-- R241. A task placed in a delay list, after those that are due no later. -/
def delayInsert (t : Task) : List Task → List Task
  | [] => [t]
  | a :: as => if later a.due t.due then t :: a :: as else a :: delayInsert t as

/-- R240. The record is BAD. -/
def State.tskBad (s : State) (p : Nat) (w : List Nat) : Bool :=
  let g (i : Nat) : Nat := w.getD i 0
  let op := bitsOf (g 0) 0 4
  let time : Time := BitVec.ofNat 64 (g 4 + g 5 * 2 ^ 32)
  let rsv := bitsOf (g 0) 5 11 != 0 || g 0 / 2 ^ 26 != 0 || g 3 != 0 || g 6 != 0 || g 7 != 0
  match op with
  | 1 => rsv || bitOf (g 0) 4 || time != 0
  | 2 => rsv || bitOf (g 0) 4 || decide (2 ^ 62 < (time - s.pavTime p).toInt)
  | 3 => rsv || time != 0 || g 2 != 0 || g 1 / 65536 != 0
  | _ => true

/-- R237, R240, R241. A POST, or a DELAY to a boundary. -/
def State.tskPost (s : State) (p flow word arg : Nat) (due : Option Time) : Nat × Nat × State :=
  let u := s.tu p
  let off := !s.flag F.TSK_FLOW_EN p flow ||
    (s.flag F.TSK_FLOW_CMD_STAT_BUSY p && s.h .tskAllFlow p == flow)
  if off then (3, 0, s)
  else
    match u.freeSlot with
    | none => (1, 0, s.local p 421)
    | some n =>
      let t : Task := ⟨n, flow, word, arg, u.seq, due.getD 0⟩
      let u := { u with seq := u.seq + 1 }
      let wait := match due with | some d => later d (s.pavTime p) | none => false
      if wait then
        if 4096 ≤ u.delayed.length then (2, 0, s.local p 421)
        else (0, n, (s.setTu p flow { u with delayed := delayInsert t u.delayed }).addFld F.TSK_POST_CNT_COUNT 1 p)
      else
        let s := if due.isSome then s.addFld F.TSK_DLY_PAST_COUNT 1 p else s
        (0, n, (s.setTu p flow { u with ready := u.ready ++ [t] }).addFld F.TSK_POST_CNT_COUNT 1 p)

/-- The oldest task of a list by order of acceptance. -/
def oldest (l : List Task) : Option Task :=
  l.foldl (fun b t => match b with | none => some t | some x => if t.seq < x.seq then some t else some x) none

/-- A waiting task leaves its list and completes CANCELLED with TARGET 0xF. -/
def State.tskDrop (s : State) (p : Nat) (t : Task) : State :=
  let u := s.tu p
  let u := { u with
    ready := u.ready.filter (fun x => x.slot != t.slot), delayed := u.delayed.filter (fun x => x.slot != t.slot) }
  { s with tsk := tput s.tsk p u }.tskComplete p t 0xf 2

/-- R251. A PCANCEL ends context 1 of a Spire: at once, or at its next bundle boundary while an atomic is outstanding or
the context is halted. -/
def State.tskForceEnd (s : State) (p k : Nat) : State :=
  if s.ctxState p k 1 = 4 ∨ (s.ctx p k 1).amo then s.setH .tskEnd 1 p k
  else (s.ctxEnd p k 1).tskTargetDone p k 2

/-- R248, R249, R251. A CANCEL. A matching task that completed in the same Spire cycle, or whose Spire under PREEMPT stands
in FAULT after it, is too late to cancel. -/
def State.tskCancel (s : State) (p flow tag : Nat) (pcancel : Bool) : Nat × Nat × State :=
  let u := s.tu p
  let hit (t : Task) : Bool := t.flow == flow && t.word % 65536 == tag
  match oldest ((u.ready ++ u.delayed).filter hit) with
  | some t => (0, t.slot, s.tskDrop p t)
  | none =>
    match u.running.find? fun e => hit e.2 with
    | some e =>
      if pcancel ∧ e.1 < 8 ∧ ¬ s.flag F.TSK_FLOW_DISPATCH p flow ∧ s.ctxState p e.1 1 ≠ 3 then
        (0, e.2.slot, s.tskForceEnd p e.1)
      else (6, 0, s)
    | none =>
      if pcancel && (List.range 8).any fun k => s.h .tskFaulted p k == flowTag flow tag && s.ctxState p k 1 == 3 then (6, 0, s)
      else if (List.range 9).any fun t => s.h .tskEnded p t == flowTag flow tag && s.h .tskEndedAt p t == s.sprClock then
        (6, 0, s)
      else (5, 0, s)

/-- R240. A command taken by the scheduler: its status, its slot, and the state. -/
def State.tskCommand (s : State) (p : Nat) (w : List Nat) : Nat × Nat × State :=
  let g (i : Nat) : Nat := w.getD i 0
  let flow := bitsOf (g 0) 16 10
  let r : Nat × Nat × State :=
    if !s.flag F.TSK_CTL_EN p then (7, 0, s)
    else if s.tskBad p w then (4, 0, s)
    else
      match bitsOf (g 0) 0 4 with
      | 1 => s.tskPost p flow (g 1) (g 2) none
      | 2 => s.tskPost p flow (g 1) (g 2) (some (s.tickBoundary p (BitVec.ofNat 64 (g 4 + g 5 * 2 ^ 32))))
      | _ => s.tskCancel p flow (g 1) (bitOf (g 0) 4)
  if r.1 = 0 then r else (r.1, r.2.1, r.2.2.addFld F.TSK_REFUSE_CNT_COUNT 1 p)

/-- R239. The write of TSK_CMD_W7 commits the command words, and the answer appears in TSK_CMD_STAT. -/
def State.tskRegCommit (s : State) (p : Nat) (v : Word) : State :=
  let s := s.setRegN .TSK_CMD_W v.toNat p 7
  let r := s.tskCommand p ((List.range 8).map fun i => s.regN .TSK_CMD_W p i)
  let s := r.2.2.setFld F.TSK_CMD_STAT_STATUS r.1 p
  if r.1 = 0 then s.setFld F.TSK_CMD_STAT_HANDLE r.2.1 p else s

/-- R239. A write of TSK_CMD_W7. -/
def execTskRegCommit (p : Nat) (v : Word) (s : State) : Host.Outcome State Fault Refusal := .next (s.tskRegCommit p v)

/-- R239. A write to TSK_CMD_PORT: the status of Table 9.3 that answers it. A posted, narrower or misaligned write, which
`whole` denies, is BAD. -/
def State.tskPort (s : State) (p : Nat) (words : List Word) (whole : Bool) : Nat × State :=
  if whole ∧ words.length = 8 then
    let r := s.tskCommand p (words.map BitVec.toNat)
    (r.1, r.2.2)
  else (4, s.addFld F.TSK_REFUSE_CNT_COUNT 1 p)

/-- R239. A write to TSK_CMD_PORT. -/
def execTskPortWrite (p : Nat) (words : List Word) (whole : Bool) (s : State) : Host.Outcome State Fault Refusal :=
  .next (s.tskPort p words whole).2

/-- The record of a command (Table 9.2). -/
def tskRecord (op pcancel flow word arg : Nat) (time : Time) : List Nat :=
  [op + pcancel * 16 + flow * 65536, word, arg, 0, (loWord time).toNat, (hiWord time).toNat, 0, 0]

/-- R237. The scheduler takes a POST. -/
def execTskPost (p flow : Nat) (word arg : Word) (s : State) : Host.Outcome State Fault Refusal :=
  .next (s.tskCommand p (tskRecord 1 0 (flow % 1024) word.toNat arg.toNat 0)).2.2

/-- R241. The scheduler takes a DELAY. -/
def execTskDelay (p flow : Nat) (word arg : Word) (time : Time) (s : State) : Host.Outcome State Fault Refusal :=
  .next (s.tskCommand p (tskRecord 2 0 (flow % 1024) word.toNat arg.toNat time)).2.2

/-- R248. The scheduler takes a CANCEL. -/
def execTskCancel (p flow tag : Nat) (pcancel : Bool) (s : State) : Host.Outcome State Fault Refusal :=
  .next (s.tskCommand p (tskRecord 3 (b2n pcancel) (flow % 1024) (tag % 65536) 0 0)).2.2

/-- R236, R241, R243. One scheduler cycle of the delay list: up to 8 tasks whose boundary is reached become READY; those
of one cycle keep the order in which they were accepted. -/
def execDelayReady (p : Nat) (s : State) : Host.Outcome State Fault Refusal :=
  let u := s.tu p
  let due := (u.delayed.filter fun t => atOrAfter (s.pavTime p) t.due).take 8
  let order := due.foldl (fun l t => l.takeWhile (fun x => x.seq < t.seq) ++ [t] ++ l.dropWhile (fun x => x.seq < t.seq)) []
  if due = [] then .next s
  else .next (s.setTu p 0 { u with
    ready := u.ready ++ order, delayed := u.delayed.filter (fun t => !due.any fun x => x.slot == t.slot) })

/-- R242, R254. A write of TSK_CTL. -/
def State.tskCtlWrite (s : State) (p v : Nat) : State :=
  let u := s.tu p
  let keep := !u.delayed.isEmpty
  let s := s.setFlag F.TSK_CTL_EN (bitOf v 0) p
  let s := if keep then s.tskIgn p else s.setFld F.TSK_CTL_TICK (bitsOf v 8 5) p
  s.setTu p 0 u

/-- R242. A write of TSK_CTL. -/
def execTskCtlWrite (p : Nat) (v : Word) (s : State) : Host.Outcome State Fault Refusal :=
  wrOut .TSK_CTL v (s.tskCtlWrite p v.toNat)

/-- R255. The cause that keeps EN at 0: 1 TARGETS is 0, 2 the lodge is named under PREEMPT. -/
def flowErr (v : Nat) : Nat :=
  if bitsOf v 4 9 = 0 then 1 else if ¬ bitOf v 1 ∧ bitOf v 12 then 2 else 0

/-- R255. A write of TSK_FLOW_f. -/
def State.tskFlowWrite (s : State) (p f v : Nat) : State :=
  let old := s.regN .TSK_FLOW p f
  let moved := bitsOf v 13 13 != bitsOf old 13 13 || bitOf v 1 != bitOf old 1 || bitOf v 3 != bitOf old 3
  if moved && s.fld F.TSK_FSTAT_COUNT p f != 0 then s.tskIgn p
  else if bitOf v 0 then
    let e := flowErr v
    let s := s.setFld F.TSK_FSTAT_ERR e p f
    if e = 0 then s.setRegN .TSK_FLOW (v % 2 ^ 26) p f
    else if bitOf old 0 then s.tskIgn p
    else s.setRegN .TSK_FLOW (v % 2 ^ 26 / 2 * 2) p f
  else s.setRegN .TSK_FLOW (v % 2 ^ 26) p f

/-- R255. A write of TSK_FLOW_f. -/
def execTskFlowWrite (p f : Nat) (v : Word) (s : State) : Host.Outcome State Fault Refusal :=
  wrOut .TSK_FLOW v (s.tskFlowWrite p f v.toNat)

/-- R236, R250. CANCEL_ALL: every waiting task of the flow is cancelled in flow order, that in which they became or would
become ready, and BUSY is set. -/
def State.tskCancelAll (s : State) (p f : Nat) : State :=
  if s.flag F.TSK_FLOW_CMD_STAT_BUSY p then s
  else
    let u := s.tu p
    foldS (fun t s => s.tskDrop p t) ((u.ready ++ u.delayed).filter fun t => t.flow == f)
      (s.setFlag F.TSK_FLOW_CMD_STAT_BUSY true p |>.setH .tskAllFlow f p)

/-- R250. A write of TSK_FLOW_CMD: OP other than CANCEL_ALL is ignored. -/
def State.tskFlowCmd (s : State) (p v : Nat) : State :=
  if bitsOf v 12 2 = 1 then s.tskCancelAll p (bitsOf v 0 10) else s

/-- R250. A write of TSK_FLOW_CMD with CANCEL_ALL. -/
def execTskCancelAll (p f : Nat) (s : State) : Host.Outcome State Fault Refusal := .next (s.tskCancelAll p (f % 1024))

/-- R250. CANCEL_ALL has finished. -/
def execCancelAllDone (p : Nat) (s : State) : Host.Outcome State Fault Refusal :=
  .next (s.setFlag F.TSK_FLOW_CMD_STAT_BUSY false p)

/-- R247. A write of TSK_LDG_DONE. -/
def State.ldgDone (s : State) (p : Nat) : State := s.tskTargetDone p 8 1

/-- R247. A write of TSK_LDG_DONE. -/
def execLdgDoneWrite (p : Nat) (s : State) : Host.Outcome State Fault Refusal := .next (s.ldgDone p)

/-! ### Dispatch (R244..R246) -/

/-- R244. Target t is eligible. -/
def State.tgtEligible (s : State) (p t : Nat) : Bool :=
  s.flag F.TSK_TGT_CFG_EN p t && ((s.tu p).on t).isNone && (t == 8 || s.startOk p t 1 0)

/-- R244, R255. The first eligible target of a flow after the one chosen last; a PREEMPT flow never has the lodge. -/
def State.tgtFor (s : State) (p f : Nat) : Option Nat :=
  let u := s.tu p
  ((List.range 9).map fun i => (u.lastTgt + i) % 9).find? fun t =>
    s.bit .TSK_FLOW (4 + t) p f && s.tgtEligible p t && (t != 8 || s.flag F.TSK_FLOW_DISPATCH p f)

/-- R244. The flow of a priority that is served next, after the one served last: it is free, has a ready task and an
eligible target. -/
def State.flowFor (s : State) (p prio last : Nat) : Option Nat :=
  let u := s.tu p
  let can (f : Nat) : Bool :=
    u.ready.any (fun t => t.flow == f) && !u.flowBusy f && s.fld F.TSK_FLOW_PRIO p f == prio && (s.tgtFor p f).isSome
  ((List.range 1024).map fun i => (last + i) % 1024).find? can

/-- Where the mailbox record of target t lies (R246). -/
def State.mboxAddr (s : State) (p t : Nat) : Nat :=
  (if t = 8 then sramBase (s.siteOf p) else dmemBase p t) + s.fld F.TSK_TGT_CFG_MBOX p t

/-- R246. The mailbox record of a task. -/
def Task.mboxRecord (k : Task) : List Byte := natBytes 4 k.word ++ natBytes 4 k.arg ++ natBytes 4 k.flow ++ natBytes 4 k.slot

/-- R244, R245, R246. One dispatch. -/
def State.tskDispatch (s : State) (p : Nat) : State :=
  let u := s.tu p
  let pick : Option (Nat × Nat) :=
    match s.flowFor p 1 u.last1 with
    | some f => some (f, 1)
    | none => (s.flowFor p 0 u.last0).map fun f => (f, 0)
  match pick with
  | none => s
  | some (f, prio) =>
    match s.tgtFor p f, u.ready.find? (fun t => t.flow == f) with
    | some t, some k =>
      let event := s.flag F.TSK_FLOW_DISPATCH p f
      let u := { u with
        ready := u.ready.filter (fun x => x.slot != k.slot)
        running := u.running ++ [(t, k)]
        mbox := if event then u.mbox ++ [(t, s.mboxAddr p t, k.mboxRecord)] else u.mbox
        lastTgt := t + 1
        last0 := if prio = 0 then f + 1 else u.last0
        last1 := if prio = 1 then f + 1 else u.last1 }
      let s := ((s.setTu p f u).addFld F.TSK_DISP_CNT_COUNT 1 p).setH .tskFaulted 0 p t
      if event then s
      else s.sprStart p t 1 (s.fld F.TSK_FLOW_ENTRY p f) [BitVec.ofNat 32 k.arg, BitVec.ofNat 32 k.word, BitVec.ofNat 32 f]
    | _, _ => s

/-- R244. The scheduler dispatches one task. -/
def execTaskDispatch (p : Nat) (s : State) : Host.Outcome State Fault Refusal := .next (s.tskDispatch p)

/-- The memory of target t, as its reservation entries name it (R331). -/
def State.tgtMem (s : State) (p t : Nat) : Nat × Nat :=
  if t = 8 then (400 + s.siteOf p, sramBase (s.siteOf p)) else (64 + 8 * p + t, dmemBase p t)

/-- R246. The oldest mailbox write of target t completes: the record is in memory, and source 424 + t is raised. -/
def State.mboxDone (s : State) (p t : Nat) : State :=
  let u := s.tu p
  match u.mbox.find? fun m => m.1 == t with
  | none => s
  | some m =>
    let s := { s with tsk := tput s.tsk p { u with mbox := u.mbox.erase m } }
    let x := s.tgtMem p t
    ((s.stBytes m.2.1 m.2.2).resvHit x.1 ((m.2.1 - x.2) / 64) p 115).local p (424 + t)

/-- R246. The mailbox write of target t completes. -/
def execMailboxWriteDone (p t : Nat) (s : State) : Host.Outcome State Fault Refusal := .next (s.mboxDone p t)

/-! ### A Spire's context under the scheduler (R230, R233, R247, R251) -/

/-- R172, R411, R415. A Spire fails: it is taken out of service until COLD reset, and the task on it ends FAULTED. That is
all its handling, so its recovery is over at once. It is a fault that may touch a moving set. -/
def State.spireFail (s : State) (p k : Nat) : State :=
  let s := (s.faultStart 4 (8 * p + k)).faultEnd 4 (8 * p + k)
  let s := s.setH .sprDead 1 p k |>.setFlag F.SPR_CTL_EN false p k |>.setFlag F.TSK_TGT_CFG_EN false p k
  (((s.tskTargetDone p k 3).sprShow p k).alarm p 0x44).subTouched p

/-- Context x faults: the scheduler's task on context 1 completes FAULTED; IPARITY takes the Spire out of service
(R411). -/
def State.sprFault (s : State) (p k x cause : Nat) : State :=
  let s := s.ctxFault p k x cause
  let s := if x = 1 then
    let s := match (s.tu p).on k with
      | some t => s.setH .tskFaulted (flowTag t.flow (t.word % 65536)) p k
      | none => s
    (s.setH .tskEnd 0 p k).tskTargetDone p k 3
  else s
  if cause = 6 then s.spireFail p k else s

/-- Context x issues END: the scheduler's task on context 1 completes DONE. -/
def State.sprEnd (s : State) (p k x : Nat) : State :=
  let s := s.ctxEnd p k x
  if x = 1 then (s.setH .tskEnd 0 p k).tskTargetDone p k 1 else s

/-- R251. A PCANCEL waiting for a bundle boundary takes effect. -/
def State.tskEndNow (s : State) (p k : Nat) : State :=
  if s.hb .tskEnd p k then ((s.setH .tskEnd 0 p k).ctxEnd p k 1).tskTargetDone p k 2 else s

/-- R233, R256. A CORE reset of a Spire: contexts, reservations and CSRs to 0, DMA channels stopped, its task FAULTED and
its event stack empty (R271); RESET_SEEN in its debug block (R493). -/
def State.sprCrst (s : State) (p k : Nat) : State :=
  let s := { s with spr := tfilter s.spr fun e => !(e.1 == p && e.2.1 == k) }
  let s := ((s.setCtxState p k 0 0).setCtxState p k 1 0).setH .sprCycBase (s.sprClock + 1) p k
  let s := foldS (fun c s => s.dmaStop p k c) (List.range 4) s
  let s := (s.setH .tskEnd 0 p k).tskTargetDone p k 3
  let s := s.setStack p k 0
  s.setRegN .DBG_CORE_STAT ((setBitsOf (setBitsOf (s.regN .DBG_CORE_STAT p k) 0 16 0) 16 1 1)) p k

/-- R233. A write of SPR_CTL.CRST. -/
def execSprCrst (p k : Nat) (s : State) : Host.Outcome State Fault Refusal := .next (s.sprCrst p k)

end Sys2Proof.Machine
end

