-- ==== Sys2Proof/Machine/Annex.lean ====
section
/-!
DEFINITION. Annex links and their packets (R348..R352).
-/
namespace Sys2Proof.Machine

/-- ANX_a_STAT.STATE. -/
def State.anxState (s : State) (a : Nat) : Nat := s.fld F.ANX_STAT_STATE 0 a

/-- R352. Enter a state. -/
def State.setAnx (s : State) (a st : Nat) : State :=
  if s.anxState a = st then s else (s.setFld F.ANX_STAT_STATE st 0 a).device (1900 + a)

/-- R349. An annex that is not fitted is EMPTY, and one whose bridge site holds no active pavilion is DISCONNECTED. -/
def State.anxFollow (s : State) (a : Nat) : State :=
  let lost (s : State) : State := if s.anxState a = 6 then s.nodeLost (annexNode a) else s
  if !s.flag F.ANX_STAT_FITTED 0 a then s.setAnx a 0
  else if (s.bridgePav a).isNone then (lost s).setAnx a 1
  else if s.anxState a < 2 then s.setAnx a 2 else s

/-- R349, R351. A failure or a loss of the link: DOWN, the node isolated, and a capacity fault when it was UP. -/
def State.anxDown (s : State) (a : Nat) : State :=
  if s.anxState a < 3 then s
  else
    let up := s.anxState a = 6
    let s := s.setAnx a 2
    if up then (s.nodeLost (annexNode a)) else s

/-- R349. A write of ANX_a_CFG. -/
def State.anxCfgWrite (s : State) (a : Nat) (v : Word) : State :=
  let s := (s.setReg .ANX_CFG ((v.zeroExtend 64) &&& RegId.ANX_CFG.row.rw) 0 a).anxFollow a
  if bitOf v.toNat 0 then s else s.anxDown a

/-- R349. A write of EN. -/
def execAnxEnWrite (a : Nat) (v : Word) (s : State) : Host.Outcome State Fault Refusal :=
  wrOut .ANX_CFG v (s.anxCfgWrite a v)

/-- R349. The back-off has elapsed: training begins. -/
def execAnxBackoffExpiry (a : Nat) (s : State) : Host.Outcome State Fault Refusal :=
  let s := s.anxFollow a
  if s.anxState a = 2 ∧ s.flag F.ANX_CFG_EN 0 a then .next ((s.satFld F.ANX_STAT_ATTEMPTS 1 0 a).setAnx a 3) else .next s

/-- R349. Training has reached an active link at a rate; the exchange of parameters caps it at MAX_RATE. -/
def execAnxTrainingDone (a rate : Nat) (s : State) : Host.Outcome State Fault Refusal :=
  if s.anxState a = 3 then
    .next ((s.setFld F.ANX_STAT_RATE (min rate (s.fld F.ANX_CFG_MAX_RATE 0 a)) 0 a).setAnx a 4)
  else .next s

/-- R349. Parameters are exchanged: the IDENT read is issued. -/
def execAnxParamDone (a : Nat) (s : State) : Host.Outcome State Fault Refusal :=
  if s.anxState a = 4 then .next (s.setAnx a 5) else .next s

/-- R349, R191. The identity words arrive: the annex is UP. -/
def execAnxIdentResponse (a : Nat) (w0 w1 w2 w3 : Word) (s : State) : Host.Outcome State Fault Refusal :=
  if s.anxState a = 5 then
    let s := s.setRegN .ANX_ID_W w0.toNat 0 a 0 |>.setRegN .ANX_ID_W w1.toNat 0 a 1 |>.setRegN .ANX_ID_W w2.toNat 0 a 2
      |>.setRegN .ANX_ID_W w3.toNat 0 a 3 |>.setFld F.ANX_STAT_ATTEMPTS 0 0 a
    .next (((s.setAnx a 6).isolate (annexNode a) false).capacityBack)
  else .next s

/-- R349. No answer to the IDENT read within 100 us. -/
def execAnxIdentTimeout (a : Nat) (s : State) : Host.Outcome State Fault Refusal :=
  if s.anxState a = 5 then .next (s.setAnx a 2) else .next s

/-- R351. The UCIe link is lost. -/
def execAnxLinkLoss (a : Nat) (s : State) : Host.Outcome State Fault Refusal := .next (s.anxDown a)

/-- R350. The address space of a request is open to an annex. -/
def State.anxAllowed (s : State) (a : Nat) (w : List Word) : Bool :=
  pktClass w == 1 ||
    match pktAddr w / 2 ^ 45 with
    | 0 => s.flag F.ANX_ALLOW_DOME 0 a
    | 1 => s.flag F.ANX_ALLOW_REG 0 a
    | 2 => s.flag F.ANX_ALLOW_LOCAL 0 a
    | _ => true

/-- R350. A packet from an annex reaches the bridge router. A flit of CLASS 0x7 carries credits and goes no further. -/
def State.anxPacket (s : State) (a : Nat) (w : List Word) : State :=
  match s.bridgePav a with
  | none => s
  | some p =>
    if s.anxState a ≠ 6 ∨ pktClass w = 7 then s
    else
      let w := pktStamp (annexNode a) (pktPort w) (s.pavTime p) w
      if !s.anxAllowed a w then
        let s := s.addFld F.ANX_DENY_CNT_COUNT 1 0 a
        s.prmRefuse p w .ur
      else if !pktOk w || decide (bitsOf (s.regN .ANX_ID_W 0 a 2) 0 7 < w.length - 4) then
        if pktNonPosted w then s.prmAnswer p 127 w Status.bad.code 0 false [] else s.prmCount F.PRM_BAD_CNT_COUNT p
      else
        let s := if pktNonPosted w then
            s.setPReq (annexNode a) (s.pReq (annexNode a) ++ [(pktPort w, pktTag w)]) else s
        let (w, s) := s.prmStray (annexNode a) (pktPort w) w
        s.prmPut (annexNode a) w

/-- R350. A packet from an annex. -/
def execAnxPacketIn (a : Nat) (pkt : List Word) (s : State) : Host.Outcome State Fault Refusal := .next (s.anxPacket a pkt)

end Sys2Proof.Machine
end

