-- ==== Sys2Proof/Machine/Panel.lean ====
section
/-!
DEFINITION. The folly map and its changes (R13, R17, R19..R22).
-/
namespace Sys2Proof.Machine

/-- R20. The map in force becomes another: OVERRIDE and the annexes follow it. -/
def State.setMap (s : State) (map : Nat) : State :=
  let s := s.setRegN .CFG_FOLLY_MAP (map % 2 ^ 16 + (if map % 2 ^ 16 = s.follyFuse then 0 else 2 ^ 31))
  foldS (fun a s => s.anxFollow a) (List.range 4) s

/-- R21. Every port but 112, 114 and 120 of a pavilion is fenced. -/
def State.fencedForMove (s : State) (p : Nat) : Bool :=
  s.fld F.PRM_STAT_FENCE p == 2 &&
    (s.fld F.PRM_FENCE_CTL_SCOPE p == 0 ||
      (List.range 128).all fun b => [112, 114, 120].contains b || s.bit .PRM_FENCE_PORT (b % 32) p (b / 32))

/-- R21. The dome of a pavilion is quiesced: nothing in service, no commit undecided, and nothing new performed. -/
def State.domeQuiet (s : State) (p : Nat) : Bool :=
  s.domeHolds p &&
    ((List.range 16).all fun c => (s.rqOf p c).isEmpty && (s.wqOf p c).isEmpty && (s.issuedOf p c).isEmpty) &&
    s.streams.all fun e => e.2.flight.all fun c =>
      (c.home.pav != p || c.home.settled) && (c.twin.st == .unused || c.twin.pav != p || c.twin.settled)

/-- R21. A pavilion may change its site. -/
def State.mayMove (s : State) (p : Nat) : Bool := s.isolated p || (s.fencedForMove p && s.domeQuiet p)

/-- R21. The error of an APPLY of a map (0 none). -/
def State.mapError (s : State) (map : Nat) : Nat :=
  if (List.range 4).any fun r => decide (8 < follySlot map r) then 1
  else if s.loading then 3
  else if (List.range 32).any fun p => s.siteOf p != siteUnder map p && !s.mayMove p then 2
  else if (List.range 32).any fun p => s.siteOf p != siteUnder map p &&
      s.fld F.LDG_SITE_STAT_SELFTEST (siteUnder map p) == 2 && (s.pavAt (siteUnder map p)).isNone then 4
  else 0

/-- R21, R22. APPLY: a map that passes is accepted. -/
def State.mapApply (s : State) : State :=
  if s.flag F.CFG_PMAP_CTL_BUSY then s
  else
    let map := s.regN .CFG_FOLLY_STAGE % 2 ^ 16
    let e := s.mapError map
    if e = 0 then (s.setFld F.CFG_PMAP_CTL_ERR 0 |>.setFlag F.CFG_PMAP_CTL_BUSY true).setH .pmapNext map
    else s.setFld F.CFG_PMAP_CTL_ERR e

/-- R20, R21. A write of CFG_PMAP_CTL: the presiding lodge's alone. -/
def State.pmapCtlWrite (s : State) (v : Nat) (who : Requester) : State :=
  if s.isPresiding who && bitOf v 0 then s.mapApply else s

/-- R21. A write of CFG_PMAP_CTL. -/
def execPmapApply (v : Word) (who : Requester) (s : State) : Host.Outcome State Fault Refusal :=
  wrOut .CFG_PMAP_CTL v (s.pmapCtlWrite v.toNat who)

/-- R22. An accepted map takes effect; a GO that waited starts its load. -/
def State.mapDone (s : State) : State :=
  if !s.flag F.CFG_PMAP_CTL_BUSY then s
  else
    let s := (s.setFlag F.CFG_PMAP_CTL_BUSY false).setMap (s.h .pmapNext)
    if s.hb .loadWait then (s.setH .loadWait 0).loadGo (s.h .loadWait - 1) else s

/-- R22. An accepted map takes effect. -/
def execPmapApplyDone (s : State) : Host.Outcome State Fault Refusal := .next s.mapDone

end Sys2Proof.Machine
end

