-- ==== Sys2Proof/Machine/Thermal.lean ====
section
/-!
DEFINITION. Temperature, thermal steps, channel faults and power states (R132, R135, R434..R438, R442, R443).
-/
namespace Sys2Proof.Machine

/-! ### Power states (R437, R438) -/

/-- R438. Every unit of a pavilion reads IDLE. -/
def State.unitsIdle (s : State) (p : Nat) : Bool :=
  s.fld F.GATE_STAT_STATE p == 0 && s.fld F.TSK_STAT_STATE p == 0 &&
    (List.range 8).all fun k => s.fld F.SPR_STAT_STATE p k == 0

/-- R438. A change towards THM_PWR_CTL.TARGET starts: the fence for a lower state, power, clocks and the dome for a
higher one. -/
def State.pwrGo (s : State) (p : Nat) : State :=
  let st := s.power p
  let tgt := s.fld F.THM_PWR_CTL_TARGET p
  let s := s.setFlag F.THM_PWR_STAT_BUSY true p
  if st < tgt ∨ (st = tgt ∧ 2 ≤ tgt) then
    if tgt = 1 then foldS (fun q s => (s.plotFence p q).setPlot p q 1) (List.range 4) s
    else if s.fld F.PRM_STAT_FENCE p = 0 then s.fenceWrite p 1
    else s.pwrFenced p
  else
    let s := if st = 3 then s.setH .domeReady 0 p |>.setH .domeSr 0 p else s
    (s.setH .domePower 0 p).srUpdate p

/-- R438. THM_PWR_STAT.STATE changes (R443). -/
def State.setPower (s : State) (p st : Nat) : State :=
  let s := s.setFlag F.THM_PWR_STAT_BUSY false p
  if s.power p = st then s else (s.setFld F.THM_PWR_STAT_STATE st p).local p 509

/-- R438. A write of THM_PWR_CTL. -/
def State.pwrWrite (s : State) (p v : Nat) (who : Requester) : State :=
  let tgt := v % 4
  let hot := s.hb .thmTrip p && decide (tgt < 2) &&
    decide (((4 * s.fld F.THM_CFG_TRIP_C p : Nat) : Int) - 40 ≤ signed 32 (s.h .thmCtl p))
  if !s.isPresiding who || s.flag F.THM_PWR_STAT_BUSY p || hot then s.setFlag F.THM_PWR_STAT_WR_IGN true p
  else if 2 ≤ tgt ∧ ¬ s.unitsIdle p then (s.setFld F.THM_PWR_STAT_ERR 1 p).local p 509
  else
    let s := s.setFld F.THM_PWR_CTL_TARGET tgt p |>.setFld F.THM_PWR_STAT_ERR 0 p
    let s := if tgt < 2 then s.setH .thmTrip 0 p else s
    if tgt = s.power p then s else s.pwrGo p

/-- R438. A write of THM_PWR_CTL.TARGET. -/
def execPwrTargetWrite (p : Nat) (v : Word) (who : Requester) (s : State) : Host.Outcome State Fault Refusal :=
  wrOut .THM_PWR_CTL v (s.pwrWrite p v.toNat who)

/-- R438. What has to hold before a change is complete. -/
def State.pwrReached (s : State) (p tgt : Nat) : Bool :=
  if 2 ≤ tgt then
    s.fld F.PRM_STAT_FENCE p == 2 && (s.h .domeSr p == 2 || !s.hb .domeReady p)
  else decide (s.power p < 2) || s.domeServes p

/-- R438. A change completes. Downward, the fabric's plots are BLANK, and OFF loses the dome's contents; upward, the node
is unfenced. -/
def State.pwrDone (s : State) (p : Nat) : State :=
  let st := s.power p
  let tgt := s.fld F.THM_PWR_CTL_TARGET p
  if !s.flag F.THM_PWR_STAT_BUSY p || !s.pwrReached p tgt then s
  else
    let s := if st = 0 ∧ 1 ≤ tgt then
      let s := foldS (fun q s => ((s.plotReady p q false).setH .plotFence 2 p q).plotBlank p q) (List.range 4) s
      foldS (fun e s => s.edgeFault (neighbour p e) (opposite e)) (List.range 4) s
    else s
    let s := if tgt = 3 then (s.setH .domeReady 0 p).makeUndef (domeBase p) (2 ^ 31) |>.domeShow p else s
    let s := if tgt = 0 then foldS (fun e s => s.edgeBack (neighbour p e) (opposite e)) (List.range 4) s else s
    let s := if tgt < 2 ∧ 2 ≤ st ∧ s.fld F.PRM_STAT_FENCE p = 2 then s.fenceWrite p 0 else s
    s.setPower p tgt

/-- R438. A power-state change completes. -/
def execPwrChangeDone (p : Nat) (s : State) : Host.Outcome State Fault Refusal := .next (s.pwrDone p)

/-! ### Sensors and trips (R434, R435, R436) -/

/-- R434. A flag of THM_STAT is set; local source 508 tells when it changes from 0 to 1. -/
def State.thmFlag (s : State) (f : Fld) (p : Nat) : State := if s.flag f p then s else (s.setFlag f true p).local p 508

/-- R435. A thermal trip: STANDBY without the check of R438, and a substitution candidate. -/
def State.thermalTrip (s : State) (p : Nat) : State :=
  let s := ((s.thmFlag F.THM_STAT_TRIPPED p).alarm p 0x51).setH .thmTrip 1 p
  let s := if s.power p < 2 ∨ s.flag F.THM_PWR_STAT_BUSY p then
    ((s.setFld F.THM_PWR_CTL_TARGET 2 p).pwrGo p).pavLost p
  else s
  s.pavFault p

/-- R434. One sensor's sample, in 0.25 C units. -/
def State.sensor (s : State) (p i : Nat) (r : Int) : State :=
  let bad := decide (r < -220) || decide (600 < r)
  let was := s.flag F.THM_TEMP_BAD p i
  let s := s.setFld F.THM_TEMP_TEMP (unsign 12 r) p i |>.setFlag F.THM_TEMP_BAD bad p i
  if bad && !was then (s.alarm p 0x52).thmFlag F.THM_STAT_SENSOR_BAD p else s

/-- R434, R435. The four sensors of a pavilion are sampled. -/
def State.sensorSample (s : State) (p : Nat) (rs : List Int) : State :=
  let s := foldS (fun i s => s.sensor p i (rs.getD i 0)) (List.range 4) s
  let good := ((List.range 4).filter fun i => !s.flag F.THM_TEMP_BAD p i).map fun i => rs.getD i 0
  let ctl : Int := match good with | [] => 600 | r :: l => l.foldl max r
  let s := s.setH .thmCtl (unsign 32 ctl) p |>.setFld F.THM_MAX_MAX (unsign 9 (ctl / 4)) p
    |>.setFld F.DOME_TEMP_TEMP (unsign 9 (ctl / 4)) p
  let alarmC : Int := (4 * s.fld F.THM_CFG_ALARM_C p : Nat)
  let s := if alarmC < ctl then
      (if s.flag F.THM_STAT_ALARM p then s else (s.thmFlag F.THM_STAT_ALARM p).alarm p 0x50)
    else if ctl < alarmC - 12 then s.setFlag F.THM_STAT_ALARM false p else s
  let ovr := s.flag F.THM_CFG_TRIP_EN p && decide (((4 * s.fld F.THM_CFG_TRIP_C p : Nat) : Int) < ctl)
  let was := s.hb .thmOver p
  let s := s.setH .thmOver (b2n ovr) p
  if ovr && !was then s.thermalTrip p else s

/-- R18, R434. The four sensors of a folly, in its keep domain, are sampled. No register of the spec shows them
(DESIGN CHOICE, assumption 148). -/
def State.follySample (s : State) (x : Nat) (rs : List Int) : State :=
  if (s.pavAt x).isSome then s
  else
    foldS (fun i s =>
      let r := rs.getD i 0
      s.setH .follyTemp (unsign 12 r + b2n (decide (r < -220) || decide (600 < r)) * 2 ^ 12) x i) (List.range 4) s

/-- R434. Every 50 us the four sensors of pavilion p are sampled, or for 32 + x those of the folly at site x: their
readings in 0.25 C units. -/
def execSensorSample (p : Nat) (readings : List Int) (s : State) : Host.Outcome State Fault Refusal :=
  .next (if p < 32 then s.sensorSample p readings else s.follySample (p - 32) readings)

/-- R436. A minute passes. -/
def execLifeMinute (p : Nat) (s : State) : Host.Outcome State Fault Refusal :=
  let ctl := signed 32 (s.h .thmCtl p)
  let s := if 340 < ctl then s.satFld F.THM_LIFE_85_MIN 1 p else s
  .next (if 400 < ctl then s.satFld F.THM_LIFE_100_MIN 1 p else s)

/-! ### Thermal steps of a dome (R132, R133) and channel faults (R135) -/

/-- Table 5.4. The step at a temperature in 0.25 C units: entered above its value, left below it less 3 C. -/
def stepAt (cur : Nat) (t : Int) : Nat :=
  (List.range 3).foldl (fun m k =>
    let enter : Int := 4 * (85 + 10 * k : Nat)
    if enter < t ∨ (k + 1 ≤ cur ∧ enter - 12 ≤ t) then k + 1 else m) 0

/-- R132. The dome controller samples the controlling temperature. -/
def State.domeThermal (s : State) (p : Nat) : State :=
  let cur := s.thermStep p
  let new := stepAt cur (signed 32 (s.h .thmCtl p))
  if new = cur then s
  else
    let s := ((s.setFld F.DOME_STAT_THERM_STEP new p).alarm p 0x10).local p 411
    let s := s.srUpdate p
    if cur < 2 ∧ 2 ≤ new then s.capacityFault 5 (Decl.toDome · p)
    else if new < 2 ∧ 2 ≤ cur then s.capacityBack
    else s

/-- R132. Every 50 us the dome controller samples its temperature. -/
def execDomeThermalSample (p : Nat) (s : State) : Host.Outcome State Fault Refusal := .next (s.domeThermal p)

/-- R135. A channel fault. -/
def State.channelFault (s : State) (p c : Nat) : State :=
  if s.bit .DOME_CHAN_STAT c p then s
  else
    let s := ((s.setBit .DOME_CHAN_STAT c true p).alarm p 0x12).local p 412
    let s := ((s.domeShow p).twinLost p).capacityFault 5 (Decl.toDome · p)
    s.pavFault p

/-- R135. A channel's training fails, or more than 16 uncorrectable words came from it within 1 ms. -/
def execChannelFault (p c : Nat) (s : State) : Host.Outcome State Fault Refusal :=
  if c < 8 then .next (s.channelFault p c) else .next s

end Sys2Proof.Machine
end

