-- ==== Sys2Proof/Machine/Recovery.lean ====
section
/-!
DEFINITION. Lodges, the lodge ring, elections, the recovery journal, faults and substitution (R401..R416, R420, R421).
-/
namespace Sys2Proof.Machine

/-! ### Sites and lodges (R401, R403, R421) -/

/-- The pavilion a site holds raises a local source (R424). -/
def State.siteLocal (s : State) (x q : Nat) : State :=
  match s.pavAt x with
  | some p => s.local p q
  | none => s

/-- The lodge of a site is halted by its debug block (R490). -/
def State.lodgeHalted (s : State) (x : Nat) : Bool := s.flag F.DBG_CORE_STAT_HALTED0 x 8

/-- R403. A lodge stands for election. -/
def State.standing (s : State) (x : Nat) : Bool :=
  decide (x < 36) && s.lodgeRuns x && s.fld F.LDG_SITE_STAT_SELFTEST x == 1 && !s.flag F.LDG_SITE_STAT_FAILED x &&
    (s.pavAt x).isSome && !s.lodgeHalted x && !s.hb .lodgeDead x

/-- One ms in device-time units. -/
def State.msUnits (s : State) (n : Nat) : Nat := s.nsUnits (n * 1000000)

/-- The watchdog of a site counts (R421, R497). -/
def State.wdogRuns (s : State) (x : Nat) : Bool :=
  s.flag F.LDG_WDOG_CTL_EN x && !(s.lodgeHalted x && s.flag F.LDG_WDOG_CTL_FREEZE x)

/-- Units of the period already counted. -/
def State.wdogUsed (s : State) (x : Nat) : Nat :=
  s.h .wdogUsed x + (if s.wdogRuns x then (s.time - s.hTime .wdogBase x).toNat else 0)

/-- The period from which the watchdog count runs: PERIOD as the last reload took it, or the count's reset value. -/
def State.wdogFrom (s : State) (x : Nat) : Nat := if s.hb .wdogLoad x then s.h .wdogLoad x - 1 else 1000

/-- What is left of the watchdog's period, in device-time units. -/
def State.wdogLeft (s : State) (x : Nat) : Nat := s.msUnits (s.wdogFrom x) - s.wdogUsed x

/-- LDG_WDOG_CNT: the whole ms that are left (R421, R497). -/
def State.wdogCnt (s : State) (x : Nat) : Nat := s.wdogLeft x / s.msUnits 1

/-- The count is brought up to date before its enables change. -/
def State.wdogSync (s : State) (x : Nat) : State :=
  s.setH .wdogUsed (s.wdogUsed x) x |>.setH .wdogBase s.time.toNat x

/-- R421. The count is reloaded. -/
def State.wdogReload (s : State) (x : Nat) : State :=
  s.setH .wdogUsed 0 x |>.setH .wdogBase s.time.toNat x |>.setH .wdogLoad (s.fld F.LDG_WDOG_CTL_PERIOD x + 1) x

/-- R421. A write of LDG_WDOG_KICK. -/
def execWatchdogKick (x : Nat) (s : State) : Host.Outcome State Fault Refusal := .next (s.wdogReload x)

/-- R421. A write of LDG_WDOG_CTL. -/
def State.wdogCtlWrite (s : State) (x v : Nat) : State := (s.wdogSync x).setRegN .LDG_WDOG_CTL (v &&& 0xffff03) x

/-- R410, R490. A lodge leaves the holders; its copy stays in its SRAM. -/
def State.holderLeave (s : State) (x : Nat) : State :=
  (s.setFlag F.LDG_JRNL_STAT_HOLDER false x |>.setFlag F.LDG_JRNL_STAT_FILLING false x)

/-- Every reservation of a requester is dropped (R331). -/
def State.resvLeave (s : State) (node port : Nat) : State :=
  { s with resv := s.resv.map fun (e : Nat × List (Nat × Nat × Nat)) => (e.1, e.2.filter fun r => r.2 != (node, port)) }

/-- R417, R401, R501, R247, R256. A CORE reset of a lodge: its core, event stacks and reservations; its memory and debug
settings stay, the task running on it completes FAULTED, and it boots again. -/
def State.lodgeReset (s : State) (x : Nat) : State :=
  let s := { s with lodges := tdel s.lodges x }
  let s := s.setFld F.LDG_BOOT_STAT_STATE 0 x |>.setH .lodgeWfi 0 x |>.setH .lodgeBackoff 0 x |>.setH .haltReq 0 x 8 0
  let s := s.setRegN .DBG_CORE_STAT (setBitsOf (setBitsOf (s.regN .DBG_CORE_STAT x 8) 0 16 0) 16 1 1) x 8
  let s := (s.setStack hevc x 0).wdogReload x |>.holderLeave x
  match s.pavAt x with
  | some p => ((s.setStack p 8 0).resvLeave p 112).tskTargetDone p 8 3
  | none => s

/-- R417. A write of LDG_CORE_CTL.CRST. -/
def execLdgCoreReset (x : Nat) (s : State) : Host.Outcome State Fault Refusal := .next (s.lodgeReset x)

/-- R411. A lodge has failed. -/
def State.lodgeFault (s : State) (x : Nat) : State :=
  if s.hb .faultOpen 3 x then s else (s.faultStart 3 x).devAlarm 0x45

/-- R421, R400, R411. A CORE reset by the watchdog (1) or by an exception in a fast handler (2). -/
def State.lodgeCrash (s : State) (x cause : Nat) : State :=
  let s := s.satFld F.LDG_WDOG_RST_CNT_COUNT 1 x |>.setFld F.LDG_WDOG_RST_CNT_LAST cause x
  let s := if cause = 1 then s.setH .wdogPend 1 x else s
  (s.lodgeFault x).lodgeReset x

/-- R421, R497. The watchdog's period is over; a kick that comes first has reloaded it. -/
def execWatchdogExpiry (x : Nat) (s : State) : Host.Outcome State Fault Refusal :=
  if s.wdogRuns x ∧ s.wdogLeft x = 0 then .next (s.lodgeCrash x 1) else .next s

/-- R502. A lodge enters halt: it leaves the holders, and its reservations go (R490, R496). -/
def State.lodgeHalt (s : State) (x cause : Nat) : State :=
  let s := (s.wdogSync x).setH .lodgeWfi 0 x
  let s := s.setFlag F.DBG_CORE_STAT_HALTED0 true x 8 |>.setFld F.DBG_CORE_STAT_CAUSE0 cause x 8 |>.holderLeave x
  let s := match s.pavAt x with
    | some p => s.resvLeave p 112
    | none => s
  s.siteLocal x 506

/-- R401, R410, R421, R492. The header check passes, and the core starts at 0x2000_0120. -/
def State.lodgeBoot (s : State) (x src : Nat) : State :=
  if s.lodgeRuns x then s
  else
    let s := s.setFld F.LDG_BOOT_STAT_STATE 1 x |>.setFld F.LDG_BOOT_STAT_SRC src x |>.setFld F.LDG_BOOT_STAT_ATTEMPTS 0 x
      |>.setH .lodgeBackoff 0 x
    let s := { s with lodges := tput s.lodges x (⟨0x20000120, [], [], [], 0⟩ : LodgeCore) }
    let s := if s.hb .wdogPend x then (s.setH .wdogPend 0 x).siteLocal x 505 else s
    let s := if s.hb .jrnlCopy x then (s.setFlag F.LDG_JRNL_STAT_HOLDER true x).jrnlWritten else s
    let s := s.faultEnd 3 x
    if s.flag F.DBG_CORE_CTL_HALT_ON_START x 8 then s.lodgeHalt x 5 else s

/-- R401. A lodge boots from the T0 flash (0) or the T4 flash (1). -/
def execLodgeBootDone (x src : Nat) (s : State) : Host.Outcome State Fault Refusal := .next (s.lodgeBoot x src)

/-- R401. A failed check, or a flash error, with its code of Table 14.3. -/
def execLodgeBootFail (x err : Nat) (s : State) : Host.Outcome State Fault Refusal :=
  if s.fld F.LDG_BOOT_STAT_STATE x ≠ 0 then .next s
  else
    let b := s.h .lodgeBackoff x
    .next ((s.setFld F.LDG_BOOT_STAT_STATE 2 x |>.setFld F.LDG_BOOT_STAT_ERR err x |>.satFld F.LDG_BOOT_STAT_ATTEMPTS 1 x).setH
      .lodgeBackoff (if b = 0 then 1 else min 8000 (2 * b)) x)

/-- R401. The back-off elapses and the boot is tried again. -/
def execLodgeBackoffExpiry (x : Nat) (s : State) : Host.Outcome State Fault Refusal :=
  if s.fld F.LDG_BOOT_STAT_STATE x = 2 then .next (s.setFld F.LDG_BOOT_STAT_STATE 0 x) else .next s

/-- R411, R273. A lodge has not booted again within 1 s: it stays out of service, and what is routed to it stays pending. -/
def execLodgeRebootTimeout (x : Nat) (s : State) : Host.Outcome State Fault Refusal :=
  if s.lodgeRuns x ∨ ¬ s.hb .faultOpen 3 x then .next s
  else
    let s := s.setH .lodgeDead 1 x
    .next (match s.pavAt x with | some p => (s.evRefresh p).evRefresh hevc | none => s.evRefresh hevc)

/-! ### The ring and elections (R402..R406) -/

/-- A lodge's view of the presiding site and the deputies (R424). -/
def State.setView (s : State) (x pres d0 d1 : Nat) : State :=
  let role := if pres = x then 1 else if d0 = x ∨ d1 = x then 2 else 0
  let v := pres + d0 * 2 ^ 8 + d1 * 2 ^ 16 + role * 2 ^ 24 + 2 ^ 26 * s.fld F.LDG_RING_STAT_BYPASS x
  if s.regN .LDG_RING_STAT x = v then s else (s.setRegN .LDG_RING_STAT v x).siteLocal x 504

/-- The standing sites above one, ascending and wrapping, without it (R404). -/
def State.standAfter (s : State) (x : Nat) : List Nat :=
  ((List.range 35).map fun i => (x + 1 + i) % 36).filter fun y => s.standing y

/-- R402. A site that forwards nothing for 10 us is bypassed. -/
def execRingBypass (x : Nat) (s : State) : Host.Outcome State Fault Refusal :=
  .next (foldS (fun d s => s.setFlag F.LDG_RING_STAT_BYPASS true ((x + d) % 36)) [1, 2, 34, 35] s)

/-- R404, R406. The deputies a presiding lodge names: those that still stand, then the next standing sites. -/
def State.deputies (s : State) (x : Nat) : Nat × Nat :=
  let all := s.standAfter x
  let old := [s.fld F.LDG_RING_STAT_DEP0 x, s.fld F.LDG_RING_STAT_DEP1 x].filter fun d => all.contains d
  let l := old.eraseDups ++ all.filter fun d => !old.contains d
  (l.getD 0 63, l.getD 1 63)

/-- R406, R407. The holders follow the roles: a named deputy without a copy is filled, and a site without a role leaves. -/
def State.holdersFollow (s : State) (x d0 d1 : Nat) : State :=
  foldS (fun y s =>
    if y = x then s
    else if y = d0 ∨ y = d1 then
      (if s.jrnlHolder y ∨ ¬ s.jrnlHolder x then s else s.setFlag F.LDG_JRNL_STAT_FILLING true y)
    else if s.hb .jrnlCopy y ∨ s.flag F.LDG_JRNL_STAT_FILLING y then (s.setH .jrnlCopy 0 y).holderLeave y
    else s) (List.range 36) s

/-- R402, R406. The presiding lodge, or the winner of an election, sends a heartbeat: routers learn its node, and a deputy
that no longer stands is replaced. -/
def State.heartbeat (s : State) : State :=
  let x := if s.hb .elecWin then s.h .elecWin - 1 else 63
  if !s.standing x then s
  else
    let d := s.deputies x
    let s := s.setH .hbTerm (s.regN .LDG_TERM x) |>.setH .hbDep (d.1 + 64 * d.2) |>.setH .presiding (x + 1)
    let s := s.setView x x d.1 d.2
    if s.jrnlHolder x then s.holdersFollow x d.1 d.2 else s

/-- R402. A heartbeat every ms. -/
def execHeartbeatSend (s : State) : Host.Outcome State Fault Refusal := .next s.heartbeat

/-- R405. A lodge that presides and meets a higher term steps down at once. -/
def State.stepDown (s : State) (x term : Nat) : State :=
  if s.hb .elecWin ∧ s.h .elecWin = x + 1 ∧ s.regN .LDG_TERM x < term then
    s.setH .elecWin 0
  else s

/-- R405. The heartbeat sent last reaches a lodge: one of a lower term than it has seen is ignored. -/
def execHeartbeatRx (x : Nat) (s : State) : Host.Outcome State Fault Refusal :=
  let t := s.h .hbTerm
  if s.h .presiding = 0 ∨ t < s.regN .LDG_TERM x then .next s
  else
    let d := s.h .hbDep
    .next ((s.setRegN .LDG_TERM t x).setView x (s.h .presiding - 1) (d % 64) (d / 64))

/-- R404, R405, R411. Three missed heartbeats at a lodge: it starts an election of the next term, which merges with one of
the same term. The lodge that presided has failed, unless its debug block halted it. -/
def execHeartbeatTimeout (x : Nat) (s : State) : Host.Outcome State Fault Refusal :=
  if !s.lodgeRuns x then .next s
  else
    let t := s.regN .LDG_TERM x + 1
    let s := match s.presSite with
      | some y => if s.lodgeHalted y ∨ s.standing y then s else s.lodgeFault y
      | none => s
    let s := (s.stepDown x t).setRegN .LDG_TERM t x
    let own := if s.standing x then x + 1 else 0
    if s.h .elecTerm = t then
      .next (if own ≠ 0 ∧ (s.h .elecCand = 0 ∨ own < s.h .elecCand) then s.setH .elecCand own else s)
    else .next (s.setH .elecTerm t |>.setH .elecStart (x + 1) |>.setH .elecCand own)

/-- R404, R405. The election message passes a lodge. -/
def execElectionMsg (x : Nat) (s : State) : Host.Outcome State Fault Refusal :=
  let t := s.h .elecTerm
  if t = 0 ∨ t < s.regN .LDG_TERM x then .next s
  else
    let s := (s.stepDown x t).setRegN .LDG_TERM t x
    if s.standing x ∧ (s.h .elecCand = 0 ∨ x + 1 < s.h .elecCand) then .next (s.setH .elecCand (x + 1)) else .next s

/-- R404, R424. The message is back at its starter, which announces the winner. -/
def execElectionAnnounce (s : State) : Host.Outcome State Fault Refusal :=
  let w := s.h .elecCand
  if s.h .elecTerm = 0 ∨ w = 0 then .next s
  else
    let s := s.setRegN .LDG_TERM (s.h .elecTerm) (w - 1)
    .next ((s.setH .elecWin w |>.setH .elecTerm 0 |>.setH .presides 0
      |>.addFld F.LDG_ELECT_CNT_COUNT 1).device 1033)

/-! ### The journal (R407..R410) -/

/-- R419. Placement at start-up: in each row with a failed active site and a passing folly, the folly moves onto the lowest
failed slot; every other failed pavilion is isolated and a candidate. -/
def State.placement (s : State) : State :=
  let bad (x : Nat) : Bool := s.fld F.LDG_SITE_STAT_SELFTEST x == 2
  let s := foldS (fun row s =>
    let folly := 9 * row + follySlot s.follyMap row
    match firstWhere 9 fun k => bad (9 * row + k) && (s.pavAt (9 * row + k)).isSome with
    | some k => if bad folly then s else s.setMap (s.mapMoved (9 * row + k))
    | none => s) (List.range 4) s
  foldS (fun p s => if bad (s.siteOf p) then (s.isolate p true).pavFault p else s) (List.range 32) s

/-- R353, R419. At the end of a POWER-ON or COLD reset a load starts by itself when SRC is a flash source. -/
def State.loadBegin (s : State) : State :=
  if s.loadState = 0 ∧ s.fld F.CFG_LOAD_CTL_SRC < 2 then s.loadStart false (2 ^ 32 - 1) else s

/-- R410. The winner of the first election since POWER-ON or COLD reset creates the journal, and copies it to both
deputies. -/
def State.jrnlCreate (s : State) (x : Nat) : State :=
  let d := s.deputies x
  let s := foldS (fun y s =>
    if y = x ∨ y = d.1 ∨ y = d.2 then
      s.setH .jrnlCopy 1 y |>.setH .jrnlCount 1 y |>.setFlag F.LDG_JRNL_STAT_HOLDER true y
    else s) (List.range 36) (s.setH .jrnlMade 1)
  ((s.jrnlWritten.setView x x d.1 d.2).placement).loadBegin

/-- R408. A unit writes an entry to the presiding lodge's journal port: one of another term is refused. -/
def execJournalEntryWrite (term : Nat) (s : State) : Host.Outcome State Fault Refusal :=
  match s.jrnlHead with
  | some x =>
    if s.jrnlHolder x ∧ term = s.regN .LDG_TERM x ∧ ¬ s.safeHold then
      .next ((s.setH .jrnlCount (s.h .jrnlCount x + 1) x).jrnlBytes x)
    else .next s
  | none => .next s

/-- R408. A deputy acknowledges its copy of the entries so far: they are held. -/
def execJournalEntryHeld (y : Nat) (s : State) : Host.Outcome State Fault Refusal :=
  match s.jrnlHead with
  | some x => if s.jrnlHolder y ∧ y ≠ x then .next ((s.setH .jrnlCount (s.h .jrnlCount x) y).jrnlBytes y) else .next s
  | none => .next s

/-- R406. A replacement deputy's copy is complete. -/
def execDeputyCopyDone (y : Nat) (s : State) : Host.Outcome State Fault Refusal :=
  match s.jrnlHead with
  | some x =>
    if s.flag F.LDG_JRNL_STAT_FILLING y ∧ s.jrnlHolder x then
      .next ((s.setFlag F.LDG_JRNL_STAT_FILLING false y |>.setFlag F.LDG_JRNL_STAT_HOLDER true y |>.setH .jrnlCopy 1 y
        |>.setH .jrnlCount (s.h .jrnlCount x) y).jrnlWritten)
    else .next s
  | none => .next s

/-- R416. A presiding lodge elected after the journal was created reaches no passing copy within 20 ms. -/
def State.safeHoldEnter (s : State) : State :=
  if s.safeHold || !s.hb .jrnlMade || !s.hb .elecWin || s.hb .presides then s
  else
    let s := ((s.setFlag F.LDG_HOLD_STAT_ACTIVE true).device 1032).devAlarm 0x4b
    foldS (fun (k : Nat × Nat) s => if s.sst k.1 k.2 = 2 then s.setSst k.1 k.2 3 else s) (tkeys s.streams) s

/-- R416. Safe hold is entered. -/
def execSafeHoldEnter (s : State) : Host.Outcome State Fault Refusal := .next s.safeHoldEnter

/-! ### Self-test and faults (R411, R419) -/

/-- R419, R411. Self-test of every site has completed: `failed` names the sites that failed and the unit of each. -/
def execSelfTestDone (failed : List (Nat × Nat)) (s : State) : Host.Outcome State Fault Refusal :=
  .next (foldS (fun x s =>
    match failed.find? fun e => e.1 == x with
    | some e =>
      (s.setFld F.LDG_SITE_STAT_SELFTEST 2 x |>.setFld F.LDG_SITE_STAT_FAIL_UNIT e.2 x |>.setFlag F.LDG_SITE_STAT_FAILED true
        x).setBit .LDG_FAILED x true
    | none => s.setFld F.LDG_SITE_STAT_SELFTEST 1 x) (List.range 36) s)

/-- R411, R329, R171. A tower has failed: its live links are all DOWN, or its register block timed out for 10 ms. -/
def execTowerFault (t : Nat) (s : State) : Host.Outcome State Fault Refusal :=
  if 8 ≤ t ∨ s.presSite.isNone then .next s
  else .next ((((s.faultStart 2 t).devAlarm 0x42)).isolate (towerNode t) true)

/-- R411. A CORE reset of a Spire has not completed within 10 us. -/
def execSpireResetTimeout (p k : Nat) (s : State) : Host.Outcome State Fault Refusal := .next (s.spireFail p k)

end Sys2Proof.Machine
end

