-- ==== Sys2Proof/Machine/LodgeCsr.lean ====
section
/-!
DEFINITION. The registers of a lodge core: the normal and fast banks, the custom CSRs of Table 16.2, and the standard
machine-mode CSRs of RISC-V (assumption 80).
-/
namespace Sys2Proof.Machine

/-- The core of the lodge at a site. -/
def State.lodge (s : State) (x : Nat) : LodgeCore := tget s.lodges x (⟨0, [], [], [], 0⟩ : LodgeCore)

/-- Replace it. -/
def State.setLodge (s : State) (x : Nat) (c : LodgeCore) : State := { s with lodges := tput s.lodges x c }

/-- A stored CSR. -/
def LodgeCore.c (c : LodgeCore) (n : Nat) : Word := tget c.csr n 0

/-- Replace a stored CSR. -/
def LodgeCore.setC (c : LodgeCore) (n : Nat) (v : Word) : LodgeCore := { c with csr := tput c.csr n v }

/-- LFCTL.FIE (Table 16.2). -/
def LodgeCore.fie (c : LodgeCore) : Bool := bitOf (c.c 0x7c0).toNat 0
/-- LFCTL.IN_FAST. -/
def LodgeCore.inFast (c : LodgeCore) : Bool := bitOf (c.c 0x7c0).toNat 1

/-- Register r of the bank in use (R400); x0 reads 0. -/
def LodgeCore.r (c : LodgeCore) (r : Nat) : Word :=
  if r = 0 then 0 else if c.inFast then tget c.f r 0 else tget c.x r 0

/-- Write register r of the bank in use; a write of x0 is discarded. -/
def LodgeCore.setR (c : LodgeCore) (r : Nat) (v : Word) : LodgeCore :=
  if r = 0 then c else if c.inFast then { c with f := tput c.f r v } else { c with x := tput c.x r v }

/-- Set or clear IN_FAST. -/
def LodgeCore.setFast (c : LodgeCore) (b : Bool) : LodgeCore :=
  c.setC 0x7c0 (BitVec.ofNat 32 (Machine.setBit (c.c 0x7c0).toNat 1 b))

/-- The event class a lodge is offered, by its pavilion's EVC or by the HEVC. -/
def State.lodgeOffered (s : State) (x cls : Nat) : Bool :=
  (s.evNext hevc x cls).isSome ||
    (match s.pavAt x with
      | some p => (s.evNext p 8 cls).isSome
      | none => false)

/-- mip: the normal class drives the machine external interrupt, bit 11 (R400). -/
def State.lodgeMip (s : State) (x : Nat) : Nat := 2 ^ 11 * b2n (s.lodgeOffered x 0)

/-- LSITE (Table 16.2). -/
def State.lsite (s : State) (x : Nat) : Nat :=
  x + x / 9 * 2 ^ 6 + x % 9 * 2 ^ 8 + b2n (x % 9 == follySlot s.follyMap (x / 9)) * 2 ^ 12 +
    s.fld F.LDG_RING_STAT_ROLE x * 2 ^ 13 +
    (match s.pavAt x with
      | some p => p * 2 ^ 16 + 2 ^ 21
      | none => 0)

/-- The standard machine-mode CSRs that hold a value: the bits that read, and those a write changes. -/
def stdCsr (n : Nat) : Option (Nat × Nat) :=
  match n with
  | 0x300 => some (0x1888, 0x88)
  | 0x304 => some (0x888, 0x888)
  | 0x305 => some (0xfffffffd, 0xfffffffd)
  | 0x340 => some (0xffffffff, 0xffffffff)
  | 0x341 => some (0xfffffffe, 0xfffffffe)
  | 0x342 => some (0xffffffff, 0xffffffff)
  | 0x343 => some (0xffffffff, 0xffffffff)
  | 0xb00 | 0xb02 | 0xb80 | 0xb82 => some (0xffffffff, 0xffffffff)
  | 0x7c0 => some (3, 1)
  | 0x7c1 => some (0xffffffff, 0xffffffff)
  | 0x7c2 => some (0xfffffffc, 0xfffffffc)
  | 0x7c3 => some (0x1ffff, 0x1ffff)
  | _ => none

/-- The standard CSRs that read 0 and discard writes: the event counters and their selectors, and mstatush. -/
def zeroCsr (n : Nat) : Bool :=
  (decide (0x323 ≤ n) && decide (n ≤ 0x33f)) || (decide (0xb03 ≤ n) && decide (n ≤ 0xb1f)) ||
    (decide (0xb83 ≤ n) && decide (n ≤ 0xb9f)) || n == 0x310

/-- R399. The value of a CSR and the core after the read; none where there is no such CSR. -/
def State.lodgeCsrRead (s : State) (x n : Nat) (c : LodgeCore) : Option (Word × LodgeCore) :=
  match n with
  | 0xfc0 => some (BitVec.ofNat 32 (s.lsite x), c)
  | 0xfc1 => some (loWord (s.siteTime x), { c with timeHi := hiWord (s.siteTime x) })
  | 0xfc2 => some (c.timeHi, c)
  | 0x300 => some (BitVec.ofNat 32 ((c.c 0x300).toNat ||| 0x1800), c)
  | 0x301 => some (0x40001105, c)
  | 0x344 => some (BitVec.ofNat 32 (s.lodgeMip x), c)
  | 0xf11 | 0xf12 | 0xf13 | 0xf15 => some (0, c)
  | 0xf14 => some (BitVec.ofNat 32 x, c)
  | n => if (stdCsr n).isSome then some (c.c n, c) else if zeroCsr n then some (0, c) else none

/-- R399. A write of a CSR; none where there is none, or it is read-only. -/
def LodgeCore.csrWrite (c : LodgeCore) (n v : Nat) : Option LodgeCore :=
  match stdCsr n with
  | some (_, w) =>
    let old := (c.c n).toNat
    some (c.setC n (BitVec.ofNat 32 ((old - (old &&& w)) + (v &&& w))))
  | none => if zeroCsr n ∨ n = 0x301 ∨ n = 0x344 then some c else none

end Sys2Proof.Machine
end

