-- ==== Sys2Proof/Machine/SpireIsa.lean ====
section
/-!
DEFINITION. The instruction set of the Spires (R197..R201, R207): the two slots of a bundle as data, and their decoders.
A decoder answers none for what raises ILLEGAL.
-/
namespace Sys2Proof.Machine

/-- A scalar slot (Table 8.3). Immediates are as the instruction uses them: offsets signed, the others as encoded. -/
inductive SOp where
  | nop
  | alu (fn rd a b : Nat)
  | addi (rd a : Nat) (imm : Int)
  | logi (fn rd a imm : Nat)
  | lui (rd imm : Nat)
  | shi (kind rd a sh : Nat)
  | load (size : Nat) (sx : Bool) (rd a : Nat) (imm : Int)
  | store (size b a : Nat) (imm : Int)
  | branch (cond a b : Nat) (off : Int)
  | jal (rd : Nat) (off : Int)
  | jalr (rd a : Nat) (imm : Int)
  | loopi (count last : Nat)
  | loop (a last : Nat)
  | agw (g f a : Nat)
  | agr (rd g f : Nat)
  | lwa (rd g : Nat)
  | swa (a g : Nat)
  | csrr (rd csr : Nat)
  | csrw (csr a : Nat)
  | amo (fn rd a b : Nat)
  | waite (mask : Nat)
  | waitt (lo hi : Nat)
  | stop
  | sig (n : Nat)
  | feedack (f : Nat)
  | eret
  | ebreak
deriving DecidableEq, Repr

/-- A vector slot (Table 8.4). -/
inductive VOp where
  | nop
  | vld (d g : Nat)
  | vst (a g : Nat)
  | vldc (d g : Nat) (bcast : Bool)
  | vbc (d a : Nat)
  | valu (fn d a b : Nat)
  | vsh (fn d a sh : Nat)
  | vmac (d a c : Nat) (u sub clr : Bool)
  | ftap (d g : Nat) (u : Bool)
  | ftapv (d g h : Nat) (u : Bool)
  | vclr (d : Nat)
  | vrnd (d a sh rm : Nat) (u : Bool)
  | vhsum (rd a : Nat) (u : Bool)
  | vext (rd a lane : Nat) (u : Bool)
deriving DecidableEq, Repr

/-- The CSRs of Table 8.5, with the DMA registers at 0x100 + 0x10c + r. -/
def csrExists (n : Nat) : Bool :=
  decide (n ≤ 4) || (decide (0x10 ≤ n) && decide (n ≤ 0x14)) || n == 0x20 || n == 0x21 || n == 0x30 || n == 0x31 ||
    (decide (0x40 ≤ n) && decide (n ≤ 0x4b)) ||
    (decide (0x100 ≤ n) && decide (n < 0x140) && decide (n % 16 ≤ 5))

/-- The CSRs that CSRW may name. -/
def csrWritable (n : Nat) : Bool :=
  (decide (0x10 ≤ n) && decide (n ≤ 0x13)) || n == 0x20 || n == 0x21 || n == 0x30 || decide (0x100 ≤ n)

/-- The ALU functions that exist (Table 8.3). -/
def aluExists (fn : Nat) : Bool := decide (fn ≤ 0xd) || (decide (0x10 ≤ fn) && decide (fn ≤ 0x12))

/-- R200, R201. The scalar slot that word 0 spells. -/
def sDecode (w : Nat) : Option SOp :=
  let rd := bitsOf w 21 5
  let ra := bitsOf w 16 5
  let rb := bitsOf w 11 5
  let fn := bitsOf w 0 11
  let imm := bitsOf w 0 16
  let simm := signed 16 imm
  let g := bitsOf w 18 3
  let f := bitsOf w 16 2
  let csr := bitsOf w 0 12
  match bitsOf w 26 6 with
  | 0x00 => if w % 2 ^ 26 = 0 then some .nop else none
  | 0x01 => if aluExists fn then some (.alu fn rd ra rb) else none
  | 0x02 => some (.addi rd ra simm)
  | 0x03 => some (.logi 0 rd ra imm)
  | 0x04 => some (.logi 1 rd ra imm)
  | 0x05 => some (.logi 2 rd ra imm)
  | 0x06 => if ra = 0 then some (.lui rd imm) else none
  | 0x07 => if imm / 128 = 0 ∧ bitsOf imm 5 2 ≤ 2 then some (.shi (bitsOf imm 5 2) rd ra (bitsOf imm 0 5)) else none
  | 0x08 => some (.load 4 false rd ra simm)
  | 0x09 => some (.load 2 true rd ra simm)
  | 0x0a => some (.load 2 false rd ra simm)
  | 0x0b => some (.load 1 true rd ra simm)
  | 0x0c => some (.load 1 false rd ra simm)
  | 0x0d => some (.store 4 rd ra simm)
  | 0x0e => some (.store 2 rd ra simm)
  | 0x0f => some (.store 1 rd ra simm)
  | 0x10 => some (.branch 0 rd ra simm)
  | 0x11 => some (.branch 1 rd ra simm)
  | 0x12 => some (.branch 2 rd ra simm)
  | 0x13 => some (.branch 3 rd ra simm)
  | 0x14 => some (.branch 4 rd ra simm)
  | 0x15 => some (.branch 5 rd ra simm)
  | 0x16 => some (.jal rd (signed 21 (bitsOf w 0 21)))
  | 0x17 => some (.jalr rd ra simm)
  | 0x18 => if bitsOf w 0 10 = 0 then none else some (.loopi (bitsOf w 10 16) (bitsOf w 0 10))
  | 0x19 => if bitsOf w 0 10 = 0 ∨ bitsOf w 10 11 ≠ 0 then none else some (.loop rd (bitsOf w 0 10))
  | 0x1a => if imm = 0 then some (.agw g f rd) else none
  | 0x1b => if imm = 0 then some (.agr rd g f) else none
  | 0x1c => if imm = 0 ∧ f = 0 then some (.lwa rd g) else none
  | 0x1d => if imm = 0 ∧ f = 0 then some (.swa rd g) else none
  | 0x1e => if bitsOf w 12 9 = 0 ∧ csrExists csr then some (.csrr rd csr) else none
  | 0x1f => if bitsOf w 12 9 = 0 ∧ csrExists csr ∧ csrWritable csr then some (.csrw csr rd) else none
  | 0x20 => if fn ≤ 8 then some (.amo fn rd ra rb) else none
  | 0x21 => if bitsOf w 16 10 = 0 ∧ imm ≠ 0 ∧ imm < 512 then some (.waite imm) else none
  | 0x22 => if rd = 0 ∧ fn = 0 then some (.waitt ra rb) else none
  | 0x23 => if w % 2 ^ 26 = 0 then some .stop else none
  | 0x24 => if bitsOf w 16 10 = 0 then some (.sig (bitsOf imm 0 2)) else none
  | 0x25 => if bitsOf w 16 10 = 0 ∧ imm < 4 then some (.feedack imm) else none
  | 0x26 => if w % 2 ^ 26 = 0 then some .eret else none
  | 0x27 => if w % 2 ^ 26 = 0 then some .ebreak else none
  | _ => none

/-- R207. The vector slot that word 1 spells. Bits that Table 8.4 does not list must be 0. -/
def vDecode (w : Nat) : Option VOp :=
  let none0 (n : Nat) (op : VOp) : Option VOp := if w % 2 ^ n = 0 then some op else none
  let d := bitsOf w 22 4
  match bitsOf w 26 6 with
  | 0x00 => none0 26 .nop
  | 0x01 => none0 19 (.vld d (bitsOf w 19 3))
  | 0x02 => none0 19 (.vst d (bitsOf w 19 3))
  | 0x03 => none0 19 (.vldc (bitsOf w 23 3) (bitsOf w 20 3) (bitOf w 19))
  | 0x04 => none0 17 (.vbc d (bitsOf w 17 5))
  | 0x05 => if bitsOf w 4 10 = 0 then some (.valu (bitsOf w 0 4) d (bitsOf w 18 4) (bitsOf w 14 4)) else none
  | 0x06 =>
    if bitsOf w 2 12 = 0 ∧ bitsOf w 0 2 ≤ 2 then some (.vsh (bitsOf w 0 2) d (bitsOf w 18 4) (bitsOf w 14 4)) else none
  | 0x07 =>
    if bitsOf w 3 14 = 0 then
      some (.vmac (bitsOf w 24 2) (bitsOf w 20 4) (bitsOf w 17 3) (bitOf w 2) (bitOf w 1) (bitOf w 0))
    else none
  | 0x08 => none0 20 (.ftap (bitsOf w 24 2) (bitsOf w 21 3) (bitOf w 20))
  | 0x09 =>
    if bitsOf w 21 3 = bitsOf w 18 3 then none
    else none0 17 (.ftapv (bitsOf w 24 2) (bitsOf w 21 3) (bitsOf w 18 3) (bitOf w 17))
  | 0x0a => none0 24 (.vclr (bitsOf w 24 2))
  | 0x0b =>
    if bitsOf w 14 6 ≤ 47 ∧ bitsOf w 12 2 ≤ 2 then
      none0 11 (.vrnd d (bitsOf w 20 2) (bitsOf w 14 6) (bitsOf w 12 2) (bitOf w 11))
    else none
  | 0x0c => none0 16 (.vhsum (bitsOf w 21 5) (bitsOf w 17 4) (bitOf w 16))
  | 0x0d => none0 13 (.vext (bitsOf w 21 5) (bitsOf w 17 4) (bitsOf w 14 3) (bitOf w 13))
  | _ => none

/-- The scalar register a scalar slot writes. -/
def SOp.dest : SOp → Option Nat
  | .alu _ rd _ _ => some rd
  | .addi rd _ _ => some rd
  | .logi _ rd _ _ => some rd
  | .lui rd _ => some rd
  | .shi _ rd _ _ => some rd
  | .load _ _ rd _ _ => some rd
  | .jal rd _ => some rd
  | .jalr rd _ _ => some rd
  | .agr rd _ _ => some rd
  | .lwa rd _ => some rd
  | .csrr rd _ => some rd
  | .amo _ rd _ _ => some rd
  | _ => none

/-- The scalar register a vector slot writes. -/
def VOp.dest : VOp → Option Nat
  | .vhsum rd _ _ => some rd
  | .vext rd _ _ _ => some rd
  | _ => none

/-- The address generator a scalar slot uses. -/
def SOp.gen : SOp → Option Nat
  | .agw g _ _ => some g
  | .agr _ g _ => some g
  | .lwa _ g => some g
  | .swa _ g => some g
  | _ => none

/-- The address generators a vector slot uses. -/
def VOp.gens : VOp → List Nat
  | .vld _ g => [g]
  | .vst _ g => [g]
  | .vldc _ g _ => [g]
  | .ftap _ g _ => [g]
  | .ftapv _ g h _ => [g, h]
  | _ => []

/-- R198. Both slots write the same scalar register, or use the same address generator. A vector slot names no feed. -/
def conflict (a : SOp) (b : VOp) : Bool :=
  (match a.dest, b.dest with | some x, some y => x == y | _, _ => false) ||
    (match a.gen with | some g => b.gens.contains g | none => false)

/-- The slot reads data memory. -/
def SOp.reads : SOp → Bool
  | .load _ _ _ _ _ => true
  | .lwa _ _ => true
  | _ => false

/-- The slot reads data memory. -/
def VOp.reads : VOp → Bool
  | .vld _ _ => true
  | .vldc _ _ _ => true
  | .ftap _ _ _ => true
  | .ftapv _ _ _ _ => true
  | _ => false

/-! ### What a slot computes -/

/-- The signed saturation of ADDS and SUBS. -/
def sat32 (x : Int) : Word := BitVec.ofInt 32 (clampI (-2147483648) 2147483647 x)

/-- The ALU functions of Table 8.3. -/
def aluOp (fn : Nat) (a b : Word) : Word :=
  match fn with
  | 0x0 => a + b
  | 0x1 => a - b
  | 0x2 => a &&& b
  | 0x3 => a ||| b
  | 0x4 => a ^^^ b
  | 0x5 => a <<< (b.toNat % 32)
  | 0x6 => a >>> (b.toNat % 32)
  | 0x7 => a.sshiftRight (b.toNat % 32)
  | 0x8 => if a.toInt < b.toInt then 1 else 0
  | 0x9 => if a.toNat < b.toNat then 1 else 0
  | 0xa => if a.toInt ≤ b.toInt then a else b
  | 0xb => if a.toInt ≤ b.toInt then b else a
  | 0xc => sat32 (a.toInt + b.toInt)
  | 0xd => sat32 (a.toInt - b.toInt)
  | 0x10 => BitVec.ofInt 32 (a.toInt * b.toInt)
  | 0x11 => BitVec.ofInt 32 (a.toInt * b.toInt / 4294967296)
  | _ => BitVec.ofNat 32 (a.toNat * b.toNat / 4294967296)

/-- The comparisons of BEQ, BNE, BLT, BGE, BLTU and BGEU. -/
def branchTaken (cond : Nat) (a b : Word) : Bool :=
  match cond with
  | 0 => a == b
  | 1 => a != b
  | 2 => decide (a.toInt < b.toInt)
  | 3 => decide (b.toInt ≤ a.toInt)
  | 4 => decide (a.toNat < b.toNat)
  | _ => decide (b.toNat ≤ a.toNat)

/-- R207. A lane as a number: unsigned with U = 1, else signed. -/
def laneInt (u : Bool) (x : BitVec 16) : Int := if u then x.toNat else x.toInt

/-- The functions of VALU (Table 8.4): the result, and whether it saturated. -/
def valuOp (fn : Nat) (a b : BitVec 16) : BitVec 16 × Bool :=
  let sat (lo hi x : Int) : BitVec 16 × Bool := (BitVec.ofInt 16 (clampI lo hi x), decide (clampI lo hi x ≠ x))
  match fn with
  | 0x0 => (a + b, false)
  | 0x1 => (a - b, false)
  | 0x2 => sat (-32768) 32767 (a.toInt + b.toInt)
  | 0x3 => sat (-32768) 32767 (a.toInt - b.toInt)
  | 0x4 => sat 0 65535 (a.toNat + b.toNat)
  | 0x5 => sat 0 65535 ((a.toNat : Int) - b.toNat)
  | 0x6 => (if a.toInt ≤ b.toInt then a else b, false)
  | 0x7 => (if a.toInt ≤ b.toInt then b else a, false)
  | 0x8 => (if a.toNat ≤ b.toNat then a else b, false)
  | 0x9 => (if a.toNat ≤ b.toNat then b else a, false)
  | 0xa => (a &&& b, false)
  | 0xb => (a ||| b, false)
  | 0xc => (a ^^^ b, false)
  | 0xd => (BitVec.ofNat 16 ((a.toNat : Int) - b.toNat).natAbs, false)
  | 0xe => (if b.toInt ≤ a.toInt then 0xffff else 0, false)
  | _ => (if b.toNat ≤ a.toNat then 0xffff else 0, false)

/-- R208. sat48, and whether it saturated. -/
def sat48 (wrap : Bool) (v : Int) : BitVec 48 × Bool :=
  if wrap then (BitVec.ofInt 48 v, false)
  else
    let x := clampI (-140737488355328) 140737488355327 v
    (BitVec.ofInt 48 x, decide (x ≠ v))

/-- R209. ad[l] / 2^sh rounded: down, half up, or half to even. -/
def vround (rm sh : Nat) (v : Int) : Int :=
  let q := (2 : Int) ^ sh
  if sh = 0 then v
  else if rm = 0 then v / q
  else if rm = 1 then (2 * v + q) / (2 * q)
  else
    let f := v / q
    let r := 2 * (v - f * q)
    if r < q then f else if q < r then f + 1 else if f % 2 = 0 then f else f + 1

end Sys2Proof.Machine
end

