-- ==== Sys2Proof/Machine/SpireRun.lean ====
section
/-!
DEFINITION. Executing one bundle (R198..R212, R228): the fault checks, the vector slot, the scalar slot, and the next
bundle. Both slots read the registers as they stood before the bundle; the vector slot's memory access comes first (R211).
-/
namespace Sys2Proof.Machine

/-! ### CSRs (R210) -/

/-- Spire cycles since the last CORE reset of a Spire, or WARM reset of its pavilion. -/
def State.sprCycles (s : State) (p k : Nat) : DWord :=
  let base := if s.hb .sprCycBase p k then s.h .sprCycBase p k else s.h .sprWarm p
  BitVec.ofNat 64 (s.sprClock - (base - 1))

/-- The registers of DMA channel c, in the order of Table 8.9. -/
def dmaReg (r : Nat) : RegId :=
  match r with
  | 0 => .SPR_DMA_LADDR
  | 1 => .SPR_DMA_PADDR_LO
  | 2 => .SPR_DMA_PADDR_HI
  | 3 => .SPR_DMA_LEN
  | 4 => .SPR_DMA_CTL
  | _ => .SPR_DMA_STAT

/-- R210. The value of a CSR, and the context after the read: TIME_LO and CYCLE_LO snapshot their upper words. -/
def State.csrRead (s : State) (p k x n : Nat) (c : SprCtx) : Word × SprCtx :=
  match n with
  | 0x000 => (BitVec.ofNat 32 x, c)
  | 0x001 => (loWord (s.pavTime p), { c with timeHi := (hiWord (s.pavTime p)).toNat })
  | 0x002 => (BitVec.ofNat 32 c.timeHi, c)
  | 0x003 => (loWord (s.sprCycles p k), { c with cycHi := (hiWord (s.sprCycles p k)).toNat })
  | 0x004 => (BitVec.ofNat 32 c.cycHi, c)
  | 0x010 => (BitVec.ofNat 32 c.tap, c)
  | 0x011 => (BitVec.ofNat 32 c.tapLen, c)
  | 0x012 => (BitVec.ofNat 32 c.flags, c)
  | 0x013 => (BitVec.ofNat 32 (b2n c.wrap), c)
  | 0x014 => (BitVec.ofNat 32 (match c.loops with | [] => 0 | l :: _ => l.count), c)
  | 0x020 => (BitVec.ofNat 32 c.epc, c)
  | 0x021 => (BitVec.ofNat 32 (b2n c.eie + 2 * b2n c.inEvt), c)
  | 0x030 => (BitVec.ofNat 32 c.phi, c)
  | 0x031 => (BitVec.ofNat 32 (b2n c.rsv.isSome), c)
  | n =>
    if n < 0x44 then (loWord (s.reg .SPR_FEED_WIDX p k (n - 0x40)), c)
    else if n < 0x48 then (loWord (s.reg .SPR_FEED_RIDX p k (n - 0x44)), c)
    else if n < 0x4c then (loWord (s.reg .SPR_FEED_PWIDX p k (n - 0x48)), c)
    else (loWord (s.reg (dmaReg (n % 16)) p k (n / 16 % 16)), c)

/-- R210. A CSRW that writes a register of the context: unlisted bits are discarded. -/
def SprCtx.csrWrite (c : SprCtx) (n v : Nat) : SprCtx :=
  match n with
  | 0x010 => { c with tap := v % 64 }
  | 0x011 => { c with tapLen := v % 64 }
  | 0x012 => { c with flags := c.flags - (c.flags &&& v) }
  | 0x013 => { c with wrap := bitOf v 0 }
  | 0x020 => { c with epc := v % 8192 }
  | 0x021 => { c with eie := bitOf v 0, inEvt := bitOf v 1 }
  | 0x030 => { c with phi := v % 65536 }
  | _ => c

/-- R226. A write of register r of DMA channel c. -/
def State.dmaWrite (s : State) (p k c r v : Nat) : State :=
  if r = 4 then s.dmaCtlWrite p k c v
  else if r = 5 then (if bitOf v 1 then s.setFlag F.SPR_DMA_STAT_DONE false p k c else s)
  else s.setReg (dmaReg r) (BitVec.ofNat 64 v &&& (dmaReg r).row.rw) p k c

/-- R210. A CSRW that writes a DMA register. -/
def State.csrWrite (s : State) (p k n v : Nat) : State :=
  if 0x100 ≤ n then s.dmaWrite p k (n / 16 % 16) (n % 16) v else s

/-! ### Conditions -/

/-- R203. A WAITE condition named in the mask holds. -/
def State.waitHolds (s : State) (p k mask : Nat) : Bool :=
  (List.range 4).any (fun c => bitOf mask c && !s.flag F.SPR_DMA_STAT_BUSY p k c) ||
  (List.range 4).any (fun f => bitOf mask (4 + f) && s.regN .SPR_FEED_RIDX p k f != s.regN .SPR_FEED_WIDX p k f) ||
  (bitOf mask 8 && (s.evNext p k 0).isSome)

/-! ### Control flow -/

/-- Where a bundle goes next. -/
inductive Flow where
  | seq
  | jump (t : Int)
  | loop (count last : Nat)
  | stay
deriving DecidableEq, Repr

/-- The flow of a scalar slot. -/
def SOp.flow (op : SOp) (c : SprCtx) : Flow :=
  match op with
  | .branch cond a b off => if branchTaken cond (c.s a) (c.s b) then .jump (c.pc + off) else .seq
  | .jal _ off => .jump (c.pc + off)
  | .jalr _ a imm => .jump ((c.s a + BitVec.ofInt 32 imm).toNat : Nat)
  | .loopi n last => .loop n (c.pc + last)
  | .loop a last => .loop ((c.s a).toNat % 65536) (c.pc + last)
  | .eret => .jump c.epc
  | .stop => .stay
  | _ => .seq

/-- R201, R204, R205. The next bundle and the open loops; none when the address would lie outside 0..8,191 (R202). -/
def Flow.next (f : Flow) (c : SprCtx) : Option (Nat × List SprLoop) :=
  let r : Option (Nat × List SprLoop) :=
    match f with
    | .seq => some (loopNext c.pc c.loops)
    | .jump t => if 0 ≤ t then some (t.toNat, loopJump t.toNat c.loops) else none
    | .loop 0 last => some (loopNext last c.loops)
    | .loop n last => some (c.pc + 1, ⟨c.pc + 1, last, n⟩ :: c.loops)
    | .stay => some (c.pc, c.loops)
  match r with
  | some (t, ls) => if t ≤ 8191 then some (t, ls) else none
  | none => none

/-! ### Memory accesses and their faults -/

/-- A scalar load's or store's address. -/
def SprCtx.addr (c : SprCtx) (a : Nat) (imm : Int) : Nat := (c.s a + BitVec.ofInt 32 imm).toNat

/-- The accesses a scalar slot makes to data memory: address and bytes. -/
def SOp.access (op : SOp) (c : SprCtx) : List (Nat × Nat) :=
  match op with
  | .load n _ _ a imm => [(c.addr a imm, n)]
  | .store n _ a imm => [(c.addr a imm, n)]
  | .lwa _ g => [((c.gen g).ea, 4)]
  | .swa _ g => [((c.gen g).ea, 4)]
  | _ => []

/-- The accesses a vector slot makes to data memory. -/
def VOp.access (op : VOp) (c : SprCtx) : List (Nat × Nat) :=
  match op with
  | .vld _ g => [((c.gen g).ea, 16)]
  | .vst _ g => [((c.gen g).ea, 16)]
  | .vldc _ g b => [((c.gen g).ea, if b then 4 else 32)]
  | .ftap _ g _ => [((c.gen g).ea, 16)]
  | .ftapv _ g h _ => [((c.gen g).ea, 16), ((c.gen h).ea, 32)]
  | _ => []

/-- R202. The fault of a scalar access. -/
def plainCheck (a n : Nat) : Nat := if a % n ≠ 0 then 3 else if dmemSize < a + n then 4 else 0

/-- R202, R204, R206. The access and loop faults of a scalar slot. -/
def SOp.faults (op : SOp) (c : SprCtx) : List Nat :=
  match op with
  | .load n _ _ a imm => [plainCheck (c.addr a imm) n]
  | .store n _ a imm => [plainCheck (c.addr a imm) n]
  | .lwa _ g => [(c.gen g).check 4 4]
  | .swa _ g => [(c.gen g).check 4 4]
  | .loopi _ _ => [if 4 ≤ c.loops.length then 7 else 0]
  | .loop _ _ => [if 4 ≤ c.loops.length then 7 else 0]
  | _ => []

/-- R206. The access faults of a vector slot. -/
def VOp.faults (op : VOp) (c : SprCtx) : List Nat :=
  match op with
  | .vld _ g => [(c.gen g).check 16 16]
  | .vst _ g => [(c.gen g).check 16 16]
  | .vldc _ g b => [if b then (c.gen g).check 4 4 else (c.gen g).check 32 32]
  | .ftap _ g _ => [(c.gen g).check 16 16]
  | .ftapv _ g h _ => [(c.gen g).check 16 16, (c.gen h).check 32 32]
  | _ => []

/-- The lowest fault code of a list, 0 when all are 0. -/
def lowestFault (l : List Nat) : Nat := l.foldl (fun a b => if b = 0 then a else if a = 0 then b else min a b) 0

/-! ### The vector slot -/

/-- The lanes of 16 bytes of data memory. -/
def State.vecAt (s : State) (p k a l : Nat) : BitVec 16 := BitVec.ofNat 16 (s.ldN (dmemBase p k + a + 2 * l) 2)

/-- Bits 17:0 of a word of data memory. -/
def State.coefAt (s : State) (p k a : Nat) : BitVec 18 := BitVec.ofNat 18 (s.ldN (dmemBase p k + a) 4)

/-- Set flag bits. -/
def SprCtx.flag (c : SprCtx) (bit : Nat) (b : Bool) : SprCtx := if b then { c with flags := c.flags ||| 2 ^ bit } else c

/-- R208. Write every lane of an accumulator through sat48. -/
def SprCtx.accumulate (c : SprCtx) (d : Nat) (f : Nat → Int) : SprCtx :=
  let wrap := c.wrap
  (c.setA d fun l => (sat48 wrap (f l)).1).flag 1 ((List.range 8).any fun l => (sat48 wrap (f l)).2)

/-- R207..R209. The vector slot's effect: `o` is the context before the bundle. -/
def State.vRun (s : State) (p k : Nat) (op : VOp) (o : SprCtx) : SprCtx × State :=
  match op with
  | .nop => (o, s)
  | .vld d g => ((o.setV d fun l => s.vecAt p k (o.gen g).ea l).setGen g (o.gen g).next, s)
  | .vst a g =>
    (o.setGen g (o.gen g).next,
      s.stBytes (dmemBase p k + (o.gen g).ea) ((List.range 8).flatMap fun l => natBytes 2 (o.lane a l).toNat))
  | .vldc d g b =>
    ((o.setC d fun l => s.coefAt p k ((o.gen g).ea + if b then 0 else 4 * l)).setGen g (o.gen g).next, s)
  | .vbc d a => (o.setV d fun _ => (o.s a).truncate 16, s)
  | .valu fn d a b =>
    ((o.setV d fun l => (valuOp fn (o.lane a l) (o.lane b l)).1).flag 0
      ((List.range 8).any fun l => (valuOp fn (o.lane a l) (o.lane b l)).2), s)
  | .vsh fn d a sh =>
    (o.setV d fun l =>
      if fn = 0 then o.lane a l <<< sh else if fn = 1 then o.lane a l >>> sh else (o.lane a l).sshiftRight sh, s)
  | .vmac d a c u sub clr =>
    (o.accumulate d fun l =>
      let x := laneInt u (o.lane a l) * o.coef c l
      (if clr then 0 else o.acc d l) + (if sub then -x else x), s)
  | .ftap d g u =>
    let w := o.coef (o.tap / 8) (o.tap % 8)
    let t := o.tap + 1
    let o' := o.accumulate d fun l => o.acc d l + laneInt u (s.vecAt p k (o.gen g).ea l) * w
    ({ o' with tap := if t = (if o.tapLen = 0 then 64 else o.tapLen) then 0 else t % 64 }.setGen g (o.gen g).next, s)
  | .ftapv d g h u =>
    (((o.accumulate d fun l =>
        o.acc d l + laneInt u (s.vecAt p k (o.gen g).ea l) * (s.coefAt p k ((o.gen h).ea + 4 * l)).toInt).setGen g
      (o.gen g).next).setGen h (o.gen h).next, s)
  | .vclr d => (o.setA d fun _ => 0, s)
  | .vrnd d a sh rm u =>
    let lo : Int := if u then 0 else -32768
    let hi : Int := if u then 65535 else 32767
    let r (l : Nat) : Int := vround rm sh (o.acc a l)
    ((o.setV d fun l => BitVec.ofInt 16 (clampI lo hi (r l))).flag 2
      ((List.range 8).any fun l => decide (clampI lo hi (r l) ≠ r l)), s)
  | .vhsum rd a u =>
    (o.setS rd (BitVec.ofInt 32 ((List.range 8).foldl (fun t l => t + laneInt u (o.lane a l)) 0)), s)
  | .vext rd a l u => (o.setS rd (BitVec.ofInt 32 (laneInt u (o.lane a l))), s)

/-! ### The scalar slot -/

/-- The value a load returns. -/
def State.loadVal (s : State) (p k a n : Nat) (sx : Bool) : Word :=
  let v := s.ldN (dmemBase p k + a) n
  if sx then BitVec.ofInt 32 (signed (8 * n) v) else BitVec.ofNat 32 v

/-- R201. The scalar slot's effect on registers, memory and units: `o` is the context before the bundle, `c` and `s` what
the vector slot left. An AMO writes the value `amo` that its response brought. -/
def State.sRun (s : State) (p k x : Nat) (op : SOp) (o c : SprCtx) (amo : Word) : SprCtx × State :=
  match op with
  | .nop => (c, s)
  | .alu fn rd a b => (c.setS rd (aluOp fn (o.s a) (o.s b)), s)
  | .addi rd a imm => (c.setS rd (o.s a + BitVec.ofInt 32 imm), s)
  | .logi fn rd a imm =>
    let i := BitVec.ofNat 32 imm
    (c.setS rd (if fn = 0 then o.s a &&& i else if fn = 1 then o.s a ||| i else o.s a ^^^ i), s)
  | .lui rd imm => (c.setS rd (BitVec.ofNat 32 (imm * 65536)), s)
  | .shi kind rd a sh =>
    (c.setS rd (if kind = 0 then o.s a <<< sh else if kind = 1 then o.s a >>> sh else (o.s a).sshiftRight sh), s)
  | .load n sx rd a imm => (c.setS rd (s.loadVal p k (o.addr a imm) n sx), s)
  | .store n b a imm => (c, s.stN (dmemBase p k + o.addr a imm) n (o.s b).toNat)
  | .branch _ _ _ _ => (c, s)
  | .jal rd _ => (c.setS rd (BitVec.ofNat 32 (o.pc + 1)), s)
  | .jalr rd _ _ => (c.setS rd (BitVec.ofNat 32 (o.pc + 1)), s)
  | .loopi _ _ => (c, s)
  | .loop _ _ => (c, s)
  | .agw g f a => (c.setGen g ((o.gen g).setField f (o.s a).toNat), s)
  | .agr rd g f => (c.setS rd ((o.gen g).field f), s)
  | .lwa rd g => ((c.setGen g (o.gen g).next).setS rd (s.loadVal p k (o.gen g).ea 4 false), s)
  | .swa a g => (c.setGen g (o.gen g).next, s.stN (dmemBase p k + (o.gen g).ea) 4 (o.s a).toNat)
  | .csrr rd n =>
    let r := s.csrRead p k x n o
    ({ c with timeHi := r.2.timeHi, cycHi := r.2.cycHi }.setS rd r.1, s)
  | .csrw n a => (c.csrWrite n (o.s a).toNat, s.csrWrite p k n (o.s a).toNat)
  | .amo _ rd _ _ => (c.setS rd amo, s)
  | .waite _ => (c, s)
  | .waitt _ _ => (c, s)
  | .stop => (c, s)
  | .sig n => (c, s.local p (sprSrc k (4 + n)))
  | .feedack f => (c, s.feedAck p k f)
  | .eret => ({ c with eie := true, inEvt := false }, s)
  | .ebreak => (c, s)

/-- The vector slot steps the tap counter. -/
def VOp.stepsTap : VOp → Bool
  | .ftap _ _ _ => true
  | _ => false

/-- A scalar slot's CSRW and the vector slot write one CSR in the same bundle: TAP under FTAP, or a sticky flag set and
cleared. The spec orders neither; what results is a free value (assumption 40). -/
def State.csrRace (s : State) (a : SOp) (b : VOp) (o v c : SprCtx) : SprCtx × State :=
  match a with
  | .csrw 0x010 _ =>
    if b.stepsTap then
      let f := s.takeFree
      ({ c with tap := f.1.toNat % 64 }, f.2)
    else (c, s)
  | .csrw 0x012 r =>
    let both := (v.flags - (v.flags &&& o.flags)) &&& (o.s r).toNat
    if both = 0 then (c, s)
    else
      let f := s.takeFree
      ({ c with flags := (c.flags - (c.flags &&& both)) ||| (f.1.toNat &&& both) }, f.2)
  | _ => (c, s)

/-! ### One bundle -/

/-- The two words of a bundle (R197). -/
def State.bundleAt (s : State) (p k b : Nat) : Nat × Nat :=
  (s.ldN (imemBase p k + 8 * b) 4, s.ldN (imemBase p k + 8 * b + 4) 4)

/-- How a bundle issues. -/
inductive Issue where
  /-- it faults with a cause of Table 8.8 -/
  | fault (cause : Nat)
  /-- EBREAK -/
  | ebreak
  /-- it executes -/
  | run (a : SOp) (b : VOp)
deriving DecidableEq, Repr

/-- R198, R200..R212. How the bundle at a context's PC issues. `par` is the data-memory address at which a parity error
is found, if any. When several faults apply, the lowest code of Table 8.8 is taken. -/
def State.issueOf (s : State) (p k x : Nat) (par : Option Nat) : Issue :=
  let c := s.ctx p k x
  let w := s.bundleAt p k c.pc
  match sDecode w.1, vDecode w.2 with
  | some a, some b =>
    if conflict a b then .fault 2
    else
      let reads := (if a.reads then a.access c else []) ++ (if b.reads then b.access c else [])
      let hit := match par with | some e => reads.any fun r => decide (r.1 ≤ e) && decide (e < r.1 + r.2) | none => false
      let f := lowestFault ([if ((a.flow c).next c).isSome then 0 else 1, if hit then 5 else 0] ++ a.faults c ++ b.faults c)
      if f ≠ 0 then .fault f else if a = .ebreak then .ebreak else .run a b
  | _, _ => .fault 1

/-- The issue counter of a context. -/
def sprIssueReg (x : Nat) : Fld := if x = 0 then F.SPR_ISSUE0_CNT_COUNT else F.SPR_ISSUE1_CNT_COUNT

/-- R198. Both slots execute: the registers, memory and units change, and PC and the loops move on. `amo` is the value
an AMO returns. A WAITE or WAITT whose condition does not hold leaves PC at its bundle and the context in WAIT (R203). -/
def State.bundleDo (s : State) (p k x : Nat) (a : SOp) (b : VOp) (amo : Word) : State :=
  let o := s.ctx p k x
  let s := s.addFld (sprIssueReg x) 1 p k
  let v := s.vRun p k b o
  let r := v.2.sRun p k x a o v.1 amo
  let r := r.2.csrRace a b o v.1 r.1
  let n := ((a.flow o).next o).getD (o.pc, o.loops)
  let c := { r.1 with pc := n.1, loops := n.2, amo := false, fresh := false, waitMask := 0 }
  match a with
  | .waite m =>
    if r.2.waitHolds p k m then r.2.setCtx p k x c
    else (r.2.setCtx p k x { c with pc := o.pc, loops := o.loops, waitMask := m }).setCtxState p k x 2
  | .waitt lo hi =>
    let t := pairOf (o.s lo) (o.s hi)
    if atOrAfter (s.pavTime p) t then r.2.setCtx p k x c
    else (r.2.setCtx p k x { c with pc := o.pc, loops := o.loops, waitTime := t }).setCtxState p k x 2
  | .amo fn _ ra _ =>
    let line := (o.phi * 2 ^ 32 + (o.s ra).toNat) / 64
    r.2.setCtx p k x { c with rsv := if fn = 0 then some line else none }
  | _ => r.2.setCtx p k x c

/-- R203. A waiting context goes on with the next bundle. -/
def State.waitEnd (s : State) (p k x : Nat) : State :=
  let c := s.ctx p k x
  let n := (Flow.seq.next c).getD (c.pc, c.loops)
  (s.setCtx p k x { c with pc := n.1, loops := n.2, waitMask := 0 }).setCtxState p k x 1

/-- R203. A named WAITE condition holds. -/
def execWaitConditionMet (p k x : Nat) (s : State) : Host.Outcome State Fault Refusal :=
  let c := s.ctx p k x
  if s.ctxState p k x = 2 ∧ c.waitMask ≠ 0 ∧ s.waitHolds p k c.waitMask then .next (s.waitEnd p k x) else .next s

/-- R203. The Spire replica has reached a WAITT target. -/
def execWaittTimeReached (p k x : Nat) (s : State) : Host.Outcome State Fault Refusal :=
  let c := s.ctx p k x
  if s.ctxState p k x = 2 ∧ c.waitMask = 0 ∧ atOrAfter (s.pavTime p) c.waitTime then .next (s.waitEnd p k x) else .next s

/-- R229. 4,096 Spire cycles have passed since a context's LR. -/
def execSpireReservationExpiry (p k x : Nat) (s : State) : Host.Outcome State Fault Refusal :=
  .next (s.setCtx p k x { s.ctx p k x with rsv := none })

/-- R224. A normal-class event is taken in context 0, between bundles. -/
def execNormalEventTaken (p k : Nat) (s : State) : Host.Outcome State Fault Refusal :=
  let c := s.ctx p k 0
  let st := s.ctxState p k 0
  if (st = 1 ∨ st = 2) ∧ c.eie ∧ ¬ c.amo ∧ (s.evNext p k 0).isSome then
    .next ((s.setCtx p k 0 { c with
      epc := c.pc, eie := false, inEvt := true, pc := s.fld F.SPR_VEC_NORMAL p k, refetch := false, waitMask := 0 }).setCtxState p k 0 1)
  else .next s

/-! ### Loading instruction memory (R213) -/

/-- R213. A write of SPR_CTL.LOAD. -/
def State.sprLoad (s : State) (p k : Nat) : State :=
  let busy (x : Nat) : Bool := s.ctxState p k x != 0 && s.ctxState p k x != 3
  if busy 0 || busy 1 || s.flag F.SPR_STAT_LOADING p k then s.sprIgn p k
  else s.setFlag F.SPR_STAT_LOADING true p k |>.setFlag F.SPR_STAT_IMEM_VALID false p k

/-- R213. A write of SPR_CTL.LOAD. -/
def execSprLoad (p k : Nat) (s : State) : Host.Outcome State Fault Refusal := .next (s.sprLoad p k)

/-- The dome address of line n of the image (R213). -/
def State.imgAddr (s : State) (p k n : Nat) : Nat :=
  let b := s.regN .SPR_IMG_BASE p k
  bitsOf b 25 4 * 2 ^ 31 + (b % 2 ^ 25 + n) * 64

end Sys2Proof.Machine
end

