-- ==== Sys2Proof/Machine/SpireExec.lean ====
section
/-!
DEFINITION. A Spire issues a bundle (R196..R213, R228..R231, R489..R492); instruction memory is loaded and refetched, DMA
packets complete, and launch queues start contexts and post tasks.
-/
namespace Sys2Proof.Machine

/-! ### Halts of a context (R489, R492, R496) -/

/-- R489, R496, R502. A context enters HALT: its reservation is cleared, and the Spire raises its source. -/
def State.ctxHalt (s : State) (p k x cause : Nat) : State :=
  let c := s.ctx p k x
  let s := s.setCtx p k x { c with haltFrom := s.ctxState p k x, rsv := none, fresh := false }
  let s := s.setRegN .DBG_CORE_STAT (setBitsOf (s.regN .DBG_CORE_STAT p k) (8 * x) 8 (1 + 16 * cause)) p k
    |>.setBit .DBG_CORE_STAT (19 + x) false p k |>.setH .haltReq 0 p k x
  (s.setCtxState p k x 4).local p (sprSrc k 3)

/-- R220, R251. A halted context returns to the state before its halt; a PCANCEL given while context 1 was halted ends it. -/
def State.ctxUnhalt (s : State) (p k x : Nat) : State :=
  let s := s.setRegN .DBG_CORE_STAT (setBitsOf (s.regN .DBG_CORE_STAT p k) (8 * x) 8 0) p k
  let s := s.setCtxState p k x (s.ctx p k x).haltFrom
  if x = 1 then s.tskEndNow p k else s

/-- R489, R491, R496. A halt asked of a running context takes effect at its bundle boundary, once no atomic and no
refetch is outstanding; a context that ended or faulted meanwhile does not halt. -/
def State.haltTake (s : State) (p k x : Nat) : State :=
  let r := s.h .haltReq p k x
  let st := s.ctxState p k x
  if r = 0 then s
  else if st ≠ 1 ∧ st ≠ 2 then s.setH .haltReq 0 p k x
  else if (s.ctx p k x).amo ∨ (s.ctx p k x).refetch then s
  else s.ctxHalt p k x r

/-- R492. A context is attached to a debugger. -/
def State.sprAttached (s : State) (p k : Nat) : Bool := s.flag F.DBG_CORE_CTL_ATTACH p k

/-- R492. An enabled breakpoint of a Spire matches the bundle a context is to issue. -/
def State.sprBreak (s : State) (p k x : Nat) : Bool :=
  s.sprAttached p k && (List.range 4).any fun i =>
    s.flag F.DBG_CORE_BP_CTL_EN p k i && bitOf (s.fld F.DBG_CORE_BP_CTL_CTXM p k i) x &&
      s.regN .DBG_CORE_BP_ADDR p k i == (s.ctx p k x).pc

/-- R489, R492. The cause with which a context halts before its next bundle, 0 when it does not. -/
def State.haltBefore (s : State) (p k x : Nat) : Nat :=
  let fresh := (s.ctx p k x).fresh
  if fresh ∧ s.flag F.DBG_CORE_CTL_HALT_ON_START p k then 5
  else if fresh ∧ s.bit .DBG_CORE_STAT (19 + x) p k then 1
  else if s.sprBreak p k x then 3
  else 0

/-! ### Issue -/

/-- R196, R212, R228, R489. A context can issue: in RUN, with no atomic, refetch or halt outstanding, and not waiting for
a line the other context is refetching. -/
def State.ctxReady (s : State) (p k x : Nat) : Bool :=
  let c := s.ctx p k x
  let o := s.ctx p k (1 - x)
  s.ctxState p k x == 1 && !c.amo && !c.refetch && s.h .haltReq p k x == 0 && !(o.refetch && o.pc / 8 == c.pc / 8)

/-- R196. The context that issues next. -/
def State.issuer (s : State) (p k : Nat) : Option Nat :=
  if 2 ≤ s.power p then none
  else if s.ctxReady p k 1 then some 1
  else if s.ctxReady p k 0 then some 0
  else none

/-- The port of a Spire context (Table 12.1). -/
def sprPort (k x : Nat) : Nat := 64 + 2 * k + x

/-- The stores a bundle makes to data memory. -/
def bundleStores (a : SOp) (b : VOp) (c : SprCtx) : List (Nat × Nat) :=
  (match a with
   | .store _ _ _ _ => a.access c
   | .swa _ _ => a.access c
   | _ => []) ++
  (match b with
   | .vst _ _ => b.access c
   | _ => [])

/-- R198, R331. A bundle executes, and its stores clear the reservations of others on their lines. -/
def State.bundleRun (s : State) (p k x : Nat) (a : SOp) (b : VOp) (amo : Word) : State :=
  let o := s.ctx p k x
  let s := s.bundleDo p k x a b amo
  let s := foldS (fun e s => s.resvHit (64 + 8 * p + k) (e.1 / 64) p (sprPort k x)) (bundleStores a b o) s
  if a = .stop then s.sprEnd p k x else s

/-- R228. The address of an AMO. -/
def amoAddr (c : SprCtx) (ra : Nat) : Nat := c.phi % 2 ^ 16 * 2 ^ 32 + (c.s ra).toNat

/-- R228, R266, R315, R330. An SC without a reservation on its line writes 1 to rd and is not sent; one to the register
space, or not aligned, is sent, for the error response it gets. -/
def scLocal (fn addr : Nat) (c : SprCtx) : Bool :=
  fn == 1 && c.rsv != some (addr / 64) && addr % 4 == 0 && addr / 2 ^ 45 != 1

/-- R228, R229. An AMO issues. An SC, and any other AMO, clears the context's reservation. -/
def State.amoIssue (s : State) (p k x : Nat) (a : SOp) (b : VOp) (fn rd ra rb : Nat) : State :=
  let c := s.ctx p k x
  let addr := amoAddr c ra
  if scLocal fn addr c then s.bundleRun p k x a b 1
  else
    let c := { c with rsv := none }
    let payload := if fn = 0 then [] else if fn = 8 then [c.s rd, c.s rb] else [c.s rb]
    let r := s.prmSend p (sprPort k x) (pktRequest 0 3 (s.addrNode addr) addr payload.length 0 fn payload)
    if r.1 = .ok then r.2.setCtx p k x { c with amo := true } else (r.2.setCtx p k x c).sprFault p k x 8

/-- R9, R226. A CSRW gives a DMA register a value whose effect is not defined. -/
def SOp.undefinedCsr (op : SOp) (c : SprCtx) : Bool :=
  match op with
  | .csrw n a => decide (0x100 ≤ n) && decide (n % 16 ≤ 4) && !(dmaReg (n % 16)).defined (c.s a).toNat
  | _ => false

/-- R212, R380. A parity error at an address of data memory is counted and located. -/
def State.dmemParity (s : State) (p k a : Nat) : State :=
  (s.addFld F.SPR_PERR_CNT_COUNT 1 p k).sramUncorrectable p (2048 + 4 * k + a / 16 % 4) (a / 64)

/-- R198, R212. The bundle at a context's PC issues. -/
def State.bundleIssue (s : State) (p k x : Nat) (ipar : Bool) (par : Option Nat) :
    Host.Outcome State Fault Refusal :=
  let c := s.ctx p k x
  if ipar then
    if ¬ s.flag F.SPR_STAT_IMEM_VALID p k ∨ s.hb .imemDebug p k (c.pc / 8) then
      .next ((s.sprFault p k x 6).sramUncorrectable p (2080 + k) (c.pc / 8))
    else .next (s.setCtx p k x { c with refetch := true })
  else
    match s.issueOf p k x par with
    | .fault e =>
      let s := s.sprFault p k x e
      .next (if e = 5 then
        s.dmemParity p k (par.getD 0)
        else s)
    | .ebreak => .next (if s.sprAttached p k then s.ctxHalt p k x 4 else s.sprFault p k x 9)
    | .run a b =>
      if a.undefinedCsr c then .fault .undefinedFieldValue
      else
        match a with
        | .amo fn rd ra rb => .next (s.amoIssue p k x a b fn rd ra rb)
        | _ => .next (s.bundleRun p k x a b 0)

/-- R196, R197. A Spire issues one bundle of the priority context, after `stall` cycles in which a context in RUN could
not issue. `ipar` tells of a parity error in its instruction line, `par` of one in data memory. -/
def execBundleIssue (p k : Nat) (ipar : Bool) (par : Option Nat) (stall : Nat) (s : State) :
    Host.Outcome State Fault Refusal :=
  match s.issuer p k with
  | none => .next s
  | some x =>
    let s := s.addFld F.SPR_STALL_CNT_COUNT stall p k
    let h := s.haltBefore p k x
    if h ≠ 0 then .next (s.ctxHalt p k x h) else s.bundleIssue p k x ipar par

/-- R228. The response to an AMO: an error raises BUS. -/
def State.amoResponse (s : State) (p k x status : Nat) (v : Word) : State :=
  let c := s.ctx p k x
  if s.ctxState p k x ≠ 1 ∨ ¬ c.amo then s
  else if status ≠ 0 then s.sprFault p k x 8
  else
    match s.issueOf p k x none with
    | .run a b =>
      let s := s.bundleRun p k x a b v
      if x = 1 then s.tskEndNow p k else s
    | _ => s

/-- R228. The response to an AMO. -/
def execAmoResponse (p k x status : Nat) (v : Word) (s : State) : Host.Outcome State Fault Refusal :=
  .next (s.amoResponse p k x status v)

/-! ### Instruction memory (R212, R213) -/

/-- Read line n of a Spire's image from the dome: none where it meets poison or an unreachable dome. -/
def State.imgLine (s : State) (p k n : Nat) : Option (List Byte) × State :=
  let r := s.domeRead p (s.imgAddr p k n) 64
  (if r.1 = .ok ∧ ¬ r.2.1 then some r.2.2.1 else none, r.2.2.2)

/-- R213. Copy lines of the image into instruction memory, and record their CRCs; whether every read passed. -/
def State.imgCopy (p k : Nat) : List Nat → State → Bool × State
  | [], s => (true, s)
  | n :: ns, s =>
    match s.imgLine p k n with
    | (some bs, s) =>
      State.imgCopy p k ns ((s.stBytes (imemBase p k + 64 * n) bs).setH .imemCrc (crc32c bs).toNat p k n)
    | (none, s) => (false, s)

/-- R213. The copy of an image is over. Bundles above it read as NOP. -/
def State.sprLoadDone (s : State) (p k : Nat) : State :=
  if ¬ s.flag F.SPR_STAT_LOADING p k then s
  else
    let s := s.setFlag F.SPR_STAT_LOADING false p k
    let s := { s with hid := tfilter s.hid fun e =>
      !((e.id == Hid.imemCrc || e.id == Hid.imemDebug) && e.w == p && e.i == k) }
    let r := State.imgCopy p k (List.range (s.regN .SPR_IMG_LEN p k)) (s.clearBytes (imemBase p k) 65536)
    if r.1 then r.2.setFlag F.SPR_STAT_IMEM_VALID true p k
    else (r.2.makeUndef (imemBase p k) 65536).setFlag F.SPR_STAT_LOAD_ERR true p k

/-- R213. The instruction-memory copy completes. -/
def execSprLoadDone (p k : Nat) (s : State) : Host.Outcome State Fault Refusal := .next (s.sprLoadDone p k)

/-- R212, R380. A line is refetched for a context: it passes its recorded CRC and is stored, or IPARITY is raised. The
bundle then issues, when its context has the issue. -/
def execIrefetchDone (p k x : Nat) (s : State) : Host.Outcome State Fault Refusal :=
  let c := s.ctx p k x
  if ¬ c.refetch then .next s
  else
    let n := c.pc / 8
    let r := s.imgLine p k n
    let s := r.2.addFld F.SPR_IREFETCH_CNT_COUNT 1 p k |>.setCtx p k x { c with refetch := false }
    match r.1 with
    | some bs =>
      if (crc32c bs).toNat = s.h .imemCrc p k n then
        let s := (s.stBytes (imemBase p k + 64 * n) bs).sramCorrected p
        if s.issuer p k = some x ∧ s.haltBefore p k x = 0 then s.bundleIssue p k x false none else .next s
      else .next ((s.sprFault p k x 6).sramUncorrectable p (2080 + k) n)
    | none => .next ((s.sprFault p k x 6).sramUncorrectable p (2080 + k) n)

/-! ### DMA packets (R226) -/

/-- R226. Packet n of a channel, one of those sent, completes: with a status of Table 12.4, whether it carries poison, and
the bytes of a read. The last one ends the transfer. -/
def State.dmaPacket (s : State) (p k c n status : Nat) (poison : Bool) (data : List Byte) : State :=
  let done := s.h .dmaDone p k c
  let lim := s.h .dmaLimit p k c
  let total := if lim = 0 then s.dmaPackets p k c else lim - 1
  let dir := s.flag F.SPR_DMA_CTL_DIR p k c
  let at' := s.regN .SPR_DMA_LADDR p k c + (s.dmaSpan p k c n).1
  if ¬ s.flag F.SPR_DMA_STAT_BUSY p k c ∨ s.h .dmaSent p k c ≤ n ∨ bitOf done n then s
  else if status ≠ 0 then s.dmaEnd p k c 1
  else if poison then (if dir then s.dmemParity p k at' else s).dmaEnd p k c 2
  else
    let len := (s.dmaSpan p k c n).2
    let s := if dir then s
      else
        let s := s.stBytes (dmemBase p k + at') (data.take len)
        foldS (fun l s => s.resvHit (64 + 8 * p + k) l p (dmaPort k c)) (linesOf at' len) s
    let s := s.setH .dmaDone (done + 2 ^ n) p k c
    if popcount (n + total + 1) (done + 2 ^ n) = total then s.dmaEnd p k c (if lim = 0 then 0 else 4) else s.dmaNext p k c

/-- R226. A DMA packet completes. -/
def execDmaPacketDone (p k c n status : Nat) (poison : Bool) (data : List Byte) (s : State) :
    Host.Outcome State Fault Refusal := .next (s.dmaPacket p k c n status poison data)

/-! ### Launch queues (R47, R51, R219) -/

/-- R47, R51, R219. A SPIRE_START entry: a target error for a Spire in reset or fenced, and for a start R221 refuses. -/
def execLaunchSpireStart (p q : Nat) (s : State) : Host.Outcome State Fault Refusal :=
  .next (s.lqLaunch p q 1 fun e s =>
    let k := bitsOf (e.param 0) 0 3
    let x := bitsOf (e.param 0) 3 1
    let addr := bitsOf (e.param 1) 0 16
    if s.startOk p k x addr && !s.portClosed p (sprPort k x) && decide (s.power p < 2) then
      (true, s.sprStart p k x addr [BitVec.ofNat 32 (e.param 2)])
    else (false, s))

/-- R47, R51. A TSK_POST entry: a target error where the scheduler is fenced or refuses the task. -/
def execLaunchTskPost (p q : Nat) (s : State) : Host.Outcome State Fault Refusal :=
  .next (s.lqLaunch p q 2 fun e s =>
    if s.portClosed p 115 || decide (2 ≤ s.power p) then (false, s)
    else
      let r := s.tskCommand p (tskRecord 1 0 (bitsOf (e.param 0) 0 10) (e.param 1) (e.param 2) 0)
      (r.1 == 0, r.2.2))

end Sys2Proof.Machine
end

