-- ==== Sys2Proof/Machine/Debug.lean ====
section
/-!
DEFINITION. Debug and run control (R479..R502): the TAP, the debug engine, and the core debug blocks of Spires (w: the
pavilion, i: the Spire) and lodges (w: the site, i: 8).
-/
namespace Sys2Proof.Machine

/-- R485. The part is locked. -/
def State.dbgLocked (s : State) : Bool := s.flag F.DBG_STAT_SECURE && !s.flag F.DBG_STAT_UNLOCKED

/-! ### The test access port (R479, R480) -/

/-- R480, R73, R164, R455. Every lane link goes down. -/
def State.linksDown (s : State) : State :=
  let s := foldS (fun (k : Nat × Nat) s => if k.2 < 64 ∧ 2 ≤ s.laneState k.1 k.2 then s.laneFail k.1 k.2 else s)
    (tkeys s.xfl) s
  let s := foldS (fun t s => if s.flag F.ETH_STAT_LINK_UP t then s.ethDown t else s) (List.range 8) s
  foldS (fun e s => if s.flag F.PCIE_EP_STAT_LINK_UP 0 e then s.endpointReset e else s) (List.range 2) s

/-- R479. Update-IR: an instruction is in force; the links go down when it takes the balls. -/
def State.tapUpdate (s : State) (ir : Nat) : State :=
  let was := s.scanning
  let s := s.setH .jtagIr (1 + ir)
  if s.scanning && !was then s.linksDown else s

/-- R480. Update-IR of a boundary instruction, or Capture-DR to Update-DR of the boundary register under it. -/
def State.tapBoundary (s : State) (ir : Nat) (dr : Option Nat) : State :=
  match dr with
  | none => s.tapUpdate ir
  | some d =>
    if s.tapIr = ir then
      { (s.setH .jtagTdo s.boundaryCapture).setH .boundary (d % 2 ^ 4064) with free := s.free + 1 }
    else s

/-- R480. EXTEST. -/
def execJtagExtest (dr : Option Nat) (s : State) : Host.Outcome State Fault Refusal := .next (s.tapBoundary 0x00 dr)
/-- R480. EXTEST_PULSE. -/
def execJtagExtestPulse (dr : Option Nat) (s : State) : Host.Outcome State Fault Refusal := .next (s.tapBoundary 0x0c dr)
/-- R480. EXTEST_TRAIN. -/
def execJtagExtestTrain (dr : Option Nat) (s : State) : Host.Outcome State Fault Refusal := .next (s.tapBoundary 0x0d dr)
/-- R479. SAMPLE/PRELOAD. -/
def execJtagSamplePreload (dr : Option Nat) (s : State) : Host.Outcome State Fault Refusal := .next (s.tapBoundary 0x01 dr)
/-- R479. HIGHZ. -/
def execJtagHighz (s : State) : Host.Outcome State Fault Refusal := .next (s.tapUpdate 0x08)
/-- R479. CLAMP. -/
def execJtagClamp (s : State) : Host.Outcome State Fault Refusal := .next (s.tapUpdate 0x09)

/-- Table 20.1. The identity register. -/
def idcode : Nat := 1 + Config.jtagMaker.toNat * 2 + 0xa536 * 2 ^ 12 + Config.jtagVersion.toNat * 2 ^ 28

/-- R479. IDCODE, and the capture of its register. -/
def execJtagIdcode (s : State) : Host.Outcome State Fault Refusal :=
  .next ((s.tapUpdate 0x02).setH .jtagTdo idcode)

/-- R479. BYPASS, or an opcode not listed; its one-bit register captures 0. -/
def execJtagBypass (s : State) : Host.Outcome State Fault Refusal := .next ((s.tapUpdate 0xff).setH .jtagTdo 0)

/-- R479. Test-Logic-Reset: IDCODE is in force, and the balls are back with their functions. -/
def execJtagTestLogicReset (s : State) : Host.Outcome State Fault Refusal := .next (s.setH .jtagIr 0)

/-! ### The debug engine (R481, R482, R485) -/

/-- The packet of an access: a management READ or WRITE of one word, a READ with PEEK unless TOUCH is asked (R483). -/
def dbgPacket (node op addr data : Nat) : List Word :=
  if op % 4 = 1 then pktRequest 4 1 node addr 1 0 (if bitOf op 2 then 0 else 16) []
  else pktRequest 4 2 node addr 1 0 0 [BitVec.ofNat 32 data]

/-- R481, R482. An access of front end i completes. -/
def State.dbgComplete (s : State) (i status : Nat) (v : Word) : State :=
  let read := s.h .dbgOp 0 i % 4 == 1 && status == 0
  let s := s.setH .dbgOp 0 0 i |>.setH .dbgCur 0
  if i = 0 then
    let s := s.setH .dbgStat status
    if read then s.setH .dbgRead v.toNat else s
  else
    let s := s.setFld F.DBG_ACC_STAT_STATUS status |>.setFlag F.DBG_ACC_STAT_BUSY false
    if read then s.setRegN .DBG_ACC_DATA v.toNat else s

/-- R482. The engine issues the access of front end i: a refused packet completes at once. -/
def State.dbgIssue (s : State) (i : Nat) : State :=
  let a := s.h .dbgAddr 0 i
  let r := s.prmSend 32 6 (dbgPacket (s.addrNode a) (s.h .dbgOp 0 i) a (s.h .dbgData 0 i))
  if r.1 = .ok then r.2.setH .dbgCur (1 + i) else r.2.dbgComplete i r.1.code 0

/-- R482. One access at a time: the JTAG front end goes first. -/
def State.dbgNext (s : State) : State :=
  if s.hb .dbgCur then s
  else
    let s := if s.hb .dbgOp 0 0 then s.dbgIssue 0 else s
    if !s.hb .dbgCur && s.hb .dbgOp 0 1 then s.dbgIssue 1 else s

/-- A front end asks for an access. -/
def State.dbgAsk (s : State) (i op addr data : Nat) : State :=
  (s.setH .dbgOp op 0 i |>.setH .dbgAddr addr 0 i |>.setH .dbgData data 0 i).dbgNext

/-- R481. What DBG_ACCESS captures. -/
def State.dbgCapture (s : State) : Nat :=
  s.h .dbgStat + b2n (s.hb .dbgOp 0 0) * 2 ^ 4 + b2n s.dbgLocked * 2 ^ 5 + s.h .dbgOver * 2 ^ 6 + s.h .dbgRead * 2 ^ 52

/-- R481. DBG_ACCESS selects its data register. -/
def execJtagDbgAccess (s : State) : Host.Outcome State Fault Refusal := .next (s.tapUpdate 0x20)

/-- R481, R485. A scan of DBG_ACCESS: the capture, and Update-DR with the 84 bits shifted in. -/
def State.dbgScan (s : State) (dr : Nat) : State :=
  let op := bitsOf dr 0 2
  let s := s.setH .jtagTdo s.dbgCapture
  if op = 0 ∨ op = 3 ∨ s.dbgLocked then s
  else if s.hb .dbgOp 0 0 then s.setH .dbgOver 1
  else (s.setH .dbgOver 0).dbgAsk 0 (bitsOf dr 0 3) (bitsOf dr 4 48) (bitsOf dr 52 32)

/-- R481. Capture-DR to Update-DR while DBG_ACCESS is in force. -/
def execDbgAccessUpdateDr (dr : Nat) (s : State) : Host.Outcome State Fault Refusal :=
  if s.tapIr = 0x20 then .next (s.dbgScan dr) else .next s

/-- R482, R485. A write of DBG_ACC_CTL. -/
def State.dbgAccWrite (s : State) (v : Nat) : State :=
  let s := s.setFlag F.DBG_ACC_CTL_TOUCH (bitOf v 2)
  if bitsOf v 0 2 = 0 then s
  else if s.dbgLocked then s.setFld F.DBG_ACC_STAT_STATUS 9
  else if s.flag F.DBG_ACC_STAT_BUSY then s.setFlag F.DBG_ACC_STAT_OVERRUN true
  else
    (s.setFlag F.DBG_ACC_STAT_BUSY true).dbgAsk 1 (bitsOf v 0 3) (s.regN .DBG_ACC_ADDR % 2 ^ 48) (s.regN .DBG_ACC_DATA)

/-- R482. A write of DBG_ACC_CTL with OP READ. -/
def execDbgAccRead (v : Word) (s : State) : Host.Outcome State Fault Refusal := wrOut .DBG_ACC_CTL v (s.dbgAccWrite v.toNat)
/-- R482. A write of DBG_ACC_CTL with OP WRITE. -/
def execDbgAccWrite (v : Word) (s : State) : Host.Outcome State Fault Refusal := wrOut .DBG_ACC_CTL v (s.dbgAccWrite v.toNat)

/-- R482, R326. The access on its way completes with a status of Table 12.4 and, for a READ, its data. -/
def State.dbgDone (s : State) (status : Nat) (v : Word) : State :=
  if s.hb .dbgCur then (s.dbgComplete (s.h .dbgCur - 1) status v).dbgNext else s

/-- R482. A debug access completes. -/
def execDbgAccessDone (status : Nat) (v : Word) (s : State) : Host.Outcome State Fault Refusal := .next (s.dbgDone status v)

/-! ### Unlock (R486) -/

/-- R486. Every configuration load and plot reconfiguration is abandoned. -/
def State.loadsAbandon (s : State) : State :=
  let s := foldS (fun (e : Nat × Nat) s =>
    if [1, 2, 3].contains (s.fld F.CFG_PLOT_STAT_STATE e.1 e.2) then s.plotBlank e.1 e.2 else s)
    ((List.range 32).flatMap fun p => (List.range 4).map fun q => (p, q)) s
  if s.loading then { s.setH .loadWait 0 with loadInit := [] }.setLoad 0 else s

/-- R486. An unlock is requested: a locked part starts the erase. -/
def State.unlockGo (s : State) : State :=
  if s.dbgLocked && !s.flag F.DBG_STAT_ERASING then (s.setFlag F.DBG_STAT_ERASING true).loadsAbandon else s

/-- R486. The JTAG UNLOCK instruction. -/
def execJtagUnlock (s : State) : Host.Outcome State Fault Refusal := .next ((s.tapUpdate 0x31).unlockGo)

/-- R486. A write of DBG_UNLOCK_CTL.GO. -/
def execDbgUnlockGo (s : State) : Host.Outcome State Fault Refusal := .next s.unlockGo

/-! ### Halt, resume, step (R489..R493, R497) -/

/-- A write of a core debug block is ignored. -/
def State.dbgIgn (s : State) (w i : Nat) : State := s.setFlag F.DBG_CORE_STAT_WR_IGN true w i

/-- R497, R220. A halted lodge goes on; `reload` at a resume: a watchdog count that reads 0 becomes 1 ms. -/
def State.lodgeUnhalt (s : State) (x : Nat) (reload : Bool) : State :=
  let s := s.wdogSync x
  let s := if reload && s.flag F.LDG_WDOG_CTL_FREEZE x && s.wdogCnt x == 0 then
      (s.setH .wdogUsed 0 x).setH .wdogLoad 2 x
    else s
  s.setFlag F.DBG_CORE_STAT_HALTED0 false x 8 |>.setFld F.DBG_CORE_STAT_CAUSE0 0 x 8

/-- The named context is halted. -/
def State.coreHalted (s : State) (w i x : Nat) : Bool := if i < 8 then s.ctxState w i x == 4 else s.lodgeHalted w

/-- R489, R490. A HALT. -/
def State.coreHalt (s : State) (w i x : Nat) : State :=
  if i < 8 then
    match s.ctxState w i x with
    | 0 => s.setBit .DBG_CORE_STAT (19 + x) true w i
    | 1 => s.setH .haltReq 1 w i x
    | 2 => s.setH .haltReq 1 w i x
    | _ => s
  else if s.lodgeHalted w then s
  else s.setH .haltReq 1 w 8 0

/-- R220. A RESUME of a halted context. -/
def State.coreResume (s : State) (w i x : Nat) : State :=
  if i < 8 then s.ctxUnhalt w i x else s.lodgeUnhalt w true

/-- R491. After the bundle of a step: the context halts again, at once or when its atomic or refetch is over. -/
def State.stepEnd (s : State) (p k x : Nat) : State :=
  let s := s.setH .haltReq 2 p k x
  s.haltTake p k x

/-- R491. A STEP of a halted Spire context. -/
def State.sprStep (s : State) (p k x : Nat) (ipar : Bool) (par : Option Nat) : Host.Outcome State Fault Refusal :=
  let c := s.ctx p k x
  let s := s.ctxUnhalt p k x
  if s.ctxState p k x = 0 then .next s
  else if c.haltFrom = 2 then
    let met := if c.waitMask = 0 then atOrAfter (s.pavTime p) c.waitTime else s.waitHolds p k c.waitMask
    .next ((if met then s.waitEnd p k x else s).stepEnd p k x)
  else
    match s.bundleIssue p k x ipar par with
    | .next s => .next (s.stepEnd p k x)
    | o => o

/-- R491. A STEP of a halted lodge: it executes its next instruction, which halts it again. -/
def State.lodgeStep (s : State) (x : Nat) : State := (s.lodgeUnhalt x false).setH .haltReq 2 x 8 0

/-- R488..R493, R485. A write of DBG_CORE_CTL. `ipar` and `par` are as for BUNDLE_ISSUE, for the bundle of a step. -/
def State.coreCtl (s : State) (w i v : Nat) (ipar : Bool) (par : Option Nat) : Host.Outcome State Fault Refusal :=
  let halt := bitOf v 0
  let resume := bitOf v 1
  let step := bitOf v 2
  let x := if i < 8 then bitsOf v 3 1 else 0
  if s.dbgLocked || (halt && resume) || (step && resume) then .next (s.dbgIgn w i)
  else
    let s := s.setRegN .DBG_CORE_CTL (v &&& 0x38) w i
    let s := if halt then s.coreHalt w i x else s
    if (resume || step) && !s.coreHalted w i x then .next (s.dbgIgn w i)
    else if resume then .next (s.coreResume w i x)
    else if !step then .next s
    else if i < 8 then s.sprStep w i x ipar par
    else .next (s.lodgeStep w)

/-- R489. A write of DBG_CORE_CTL with HALT. -/
def execDbgHalt (w i : Nat) (v : Word) (s : State) : Host.Outcome State Fault Refusal :=
  if RegId.DBG_CORE_CTL.defined v.toNat then s.coreCtl w i v.toNat false none else .fault .undefinedFieldValue

/-- R220. A write of DBG_CORE_CTL with RESUME. -/
def execDbgResume (w i : Nat) (v : Word) (s : State) : Host.Outcome State Fault Refusal :=
  if RegId.DBG_CORE_CTL.defined v.toNat then s.coreCtl w i v.toNat false none else .fault .undefinedFieldValue

/-- R490. A lodge reaches an instruction boundary with a halt asked of it. -/
def State.lodgeHaltTake (s : State) (x : Nat) : State :=
  if s.hb .haltReq x 8 0 && s.lodgeRuns x then (s.lodgeHalt x (s.h .haltReq x 8 0)).setH .haltReq 0 x 8 0 else s

/-- R489, R490, R496. A context or lodge enters HALT. -/
def execDbgHaltTaken (w i x : Nat) (s : State) : Host.Outcome State Fault Refusal :=
  .next (if i < 8 then s.haltTake w i x else s.lodgeHaltTake w)

/-! ### Register transfer (R494) -/

/-- A register of a Spire context as DBG_CORE_REGDATA shows it; none where there is no such register. -/
def State.sprPeek (s : State) (p k x cls idx : Nat) : Option Nat :=
  let c := s.ctx p k x
  match cls with
  | 0 => if idx < 32 then some (c.s idx).toNat else none
  | 1 => if idx < 128 then some (tget c.v idx 0).toNat else none
  | 2 => if idx < 64 then some (tget c.c idx 0).toNat else none
  | 3 => if idx < 32 then some (tget c.a idx 0).toNat else none
  | 4 => if csrExists idx then some (s.csrRead p k x idx c).1.toNat else none
  | 5 => some c.pc
  | 6 => if idx < 32 then some ((c.gen (idx / 4)).field (idx % 4)).toNat else none
  | _ => none

/-- A write of a register of a Spire context: s0 and read-only CSRs keep their value. -/
def State.sprPoke (s : State) (p k x cls idx v : Nat) : State :=
  let c := s.ctx p k x
  match cls with
  | 0 => s.setCtx p k x (c.setS idx (BitVec.ofNat 32 v))
  | 1 => s.setCtx p k x { c with v := tput c.v idx (BitVec.ofNat 16 v) }
  | 2 => s.setCtx p k x { c with c := tput c.c idx (BitVec.ofNat 18 v) }
  | 3 => s.setCtx p k x { c with a := tput c.a idx (BitVec.ofNat 48 v) }
  | 4 =>
    if !csrWritable idx then s
    else if idx = 0x12 then s.setCtx p k x { c with flags := v % 8 }
    else (s.setCtx p k x (c.csrWrite idx (v % 2 ^ 32))).csrWrite p k idx (v % 2 ^ 32)
  | 5 => s.setCtx p k x { c with pc := v % 8192 }
  | _ => s.setCtx p k x (c.setGen (idx / 4) ((c.gen (idx / 4)).setField (idx % 4) v))

/-- A register of a lodge as DBG_CORE_REGDATA shows it. -/
def State.lodgePeek (s : State) (x cls idx : Nat) : Option Nat :=
  let c := s.lodge x
  match cls with
  | 8 => if idx < 32 then some (if idx = 0 then 0 else (tget c.x idx 0).toNat) else none
  | 9 => if idx < 32 then some (if idx = 0 then 0 else (tget c.f idx 0).toNat) else none
  | 10 => (s.lodgeCsrRead x idx c).map fun r => r.1.toNat
  | 11 => some c.pc
  | _ => none

/-- A write of a register of a lodge: x0 and read-only CSRs keep their value. -/
def State.lodgePoke (s : State) (x cls idx v : Nat) : State :=
  let c := s.lodge x
  let w := BitVec.ofNat 32 v
  match cls with
  | 8 => if idx = 0 then s else s.setLodge x { c with x := tput c.x idx w }
  | 9 => if idx = 0 then s else s.setLodge x { c with f := tput c.f idx w }
  | 10 => s.setLodge x ((c.csrWrite idx w.toNat).getD c)
  | _ => s.setLodge x { c with pc := w.toNat / 2 * 2 }

/-- The classes of DBG_CORE_REGSEL of a block (Table 20.4). -/
def regClass (i cls : Nat) : Bool := if i < 8 then decide (cls ≤ 6) else decide (8 ≤ cls) && decide (cls ≤ 11)

/-- R9, R226. The value a transfer gives a DMA register has a defined effect. -/
def pokeDefined (i cls idx v : Nat) : Bool :=
  !(i < 8 && cls == 4 && decide (0x100 ≤ idx) && decide (idx % 16 ≤ 4)) || (dmaReg (idx % 16)).defined (v % 2 ^ 32)

/-- R494. A write of DBG_CORE_REGSEL. -/
def State.regTransfer (s : State) (w i v : Nat) : Host.Outcome State Fault Refusal :=
  let idx := bitsOf v 0 12
  let cls := bitsOf v 12 4
  let x := s.fld F.DBG_CORE_CTL_CTX w i
  if s.dbgLocked then .next (s.dbgIgn w i)
  else if !RegId.DBG_CORE_REGSEL.defined v || !regClass i cls then .fault .undefinedFieldValue
  else
    let s := s.setRegN .DBG_CORE_REGSEL v w i
    let still := if i < 8 then [0, 3, 4].contains (s.ctxState w i x) else s.lodgeHalted w
    let r := if i < 8 then s.sprPeek w i x cls idx else s.lodgePeek w cls idx
    let data := s.regN .DBG_CORE_REGDATA w i
    match (if still then r else none) with
    | none => .next (s.setFlag F.DBG_CORE_STAT_REG_ERR true w i)
    | some d =>
      if !bitOf v 16 then .next (s.setRegN .DBG_CORE_REGDATA d w i)
      else if !pokeDefined i cls idx data then .fault .undefinedFieldValue
      else .next (if i < 8 then s.sprPoke w i x cls idx data else s.lodgePoke w cls idx data)

/-- R494. A write of DBG_CORE_REGSEL. -/
def execDbgRegTransfer (w i : Nat) (v : Word) (s : State) : Host.Outcome State Fault Refusal := s.regTransfer w i v.toNat

/-! ### Instruction memory, virtual terminal, patches (R495, R498, R499) -/

/-- The address of the bundle DBG_CORE_IMEM_ADDR names. -/
def State.dbgBundle (s : State) (p k : Nat) : Nat := imemBase p k + 8 * s.regN .DBG_CORE_IMEM_ADDR p k

/-- R495. A read of DBG_CORE_IMEM_DATA_LO takes the bundle. -/
def State.imemRead (s : State) (p k : Nat) : State := s.setRegN .DBG_CORE_IMEM_DATA (s.ldN (s.dbgBundle p k) 8) p k

/-- R495. A read of DBG_CORE_IMEM_DATA_LO. -/
def execImemBundleRead (p k : Nat) (s : State) : Host.Outcome State Fault Refusal := .next (s.imemRead p k)

/-- R495. DBG_CORE_IMEM_DATA is given a value, and the bundle is written; its line is marked. -/
def State.imemWrite (s : State) (p k d : Nat) : State :=
  let run (x : Nat) : Bool := s.ctxState p k x == 1 || s.ctxState p k x == 2
  if s.dbgLocked || run 0 || run 1 then s.dbgIgn p k
  else
    (s.setRegN .DBG_CORE_IMEM_DATA d p k).stN (s.dbgBundle p k) 8 d |>.setH .imemDebug 1 p k
      (s.regN .DBG_CORE_IMEM_ADDR p k / 8)

/-- R495. A write of DBG_CORE_IMEM_DATA_HI. -/
def execImemBundleWrite (p k : Nat) (v : Word) (s : State) : Host.Outcome State Fault Refusal :=
  .next (s.imemWrite p k ((s.stageOf ⟨.DBG_CORE_IMEM_DATA, p, k, 0⟩).toNat + v.toNat * 2 ^ 32))

/-- R498. A write of DBG_CORE_VT_IN, or DBG_CORE_VT_OUT when `out` is set. -/
def State.vtWrite (s : State) (w i : Nat) (out : Bool) (v : Word) : State :=
  let full := if out then F.DBG_CORE_VT_STAT_OUT_FULL else F.DBG_CORE_VT_STAT_IN_FULL
  if s.flag full w i then s.setFlag (if out then F.DBG_CORE_VT_STAT_OUT_OVF else F.DBG_CORE_VT_STAT_IN_OVF) true w i
  else (s.setRegN (if out then .DBG_CORE_VT_OUT else .DBG_CORE_VT_IN) v.toNat w i).setFlag full true w i

/-- R498. A write of a terminal register. -/
def execVtWrite (w i : Nat) (out : Bool) (v : Word) (s : State) : Host.Outcome State Fault Refusal :=
  .next (s.vtWrite w i out v)

/-- R498. What a read of a terminal register returns: an empty one reads 0. -/
def State.vtWord (s : State) (w i : Nat) (out : Bool) : Nat :=
  if s.flag (if out then F.DBG_CORE_VT_STAT_OUT_FULL else F.DBG_CORE_VT_STAT_IN_FULL) w i then
    s.regN (if out then .DBG_CORE_VT_OUT else .DBG_CORE_VT_IN) w i
  else 0

/-- R498. A read of a terminal register clears FULL. -/
def State.vtRead (s : State) (w i : Nat) (out : Bool) : State :=
  s.setFlag (if out then F.DBG_CORE_VT_STAT_OUT_FULL else F.DBG_CORE_VT_STAT_IN_FULL) false w i

/-- R498. A read of a terminal register. -/
def execVtRead (w i : Nat) (out : Bool) (s : State) : Host.Outcome State Fault Refusal := .next (s.vtRead w i out)

/-- R499, R485. A write of a patch unit of the lodge at a site: the lodge's own, or anyone's while the part is unlocked. -/
def State.patchWrite (s : State) (x n : Nat) (data : Bool) (v : Nat) (who : Requester) : State :=
  if s.dbgLocked && who != .lodge x then s.dbgIgn x 8
  else s.setRegN (if data then .DBG_PATCH_DATA else .DBG_PATCH_ADDR) v x 8 n

/-- R499. A write of a patch register. -/
def execPatchWrite (x n : Nat) (data : Bool) (v : Word) (who : Requester) (s : State) :
    Host.Outcome State Fault Refusal :=
  wrOut (if data then .DBG_PATCH_DATA else .DBG_PATCH_ADDR) v (s.patchWrite x n data v.toNat who)

/-- R499. The flash word at an address of the flash window as the lodge sees it: the lowest enabled unit that names it
replaces it. -/
def State.patched (s : State) (x addr : Nat) (v : Word) : Word :=
  match firstWhere 16 fun n =>
    s.flag F.DBG_PATCH_ADDR_EN x 8 n && bitsOf (s.regN .DBG_PATCH_ADDR x 8 n) 2 24 == bitsOf addr 2 24 with
  | some n => loWord (s.reg .DBG_PATCH_DATA x 8 n)
  | none => v

/-- R485, R494..R499. A register of a core debug block is given a value; `j` is its index. -/
def State.dbgCoreWrite (s : State) (w i : Nat) (id : RegId) (j : Nat) (d : DWord) (who : Requester) :
    Host.Outcome State Fault Refusal :=
  let v := loWord d
  match id with
  | .DBG_CORE_VT_IN => .next (s.vtWrite w i false v)
  | .DBG_CORE_VT_OUT => .next (s.vtWrite w i true v)
  | .DBG_PATCH_ADDR => if i < 8 then .next (if s.dbgLocked then s.dbgIgn w i else s) else wrOut id v (s.patchWrite w j false v.toNat who)
  | .DBG_PATCH_DATA => if i < 8 then .next (if s.dbgLocked then s.dbgIgn w i else s) else wrOut id v (s.patchWrite w j true v.toNat who)
  | .DBG_CORE_CTL =>
    if RegId.DBG_CORE_CTL.defined v.toNat then s.coreCtl w i v.toNat false none else .fault .undefinedFieldValue
  | .DBG_CORE_REGSEL => s.regTransfer w i v.toNat
  | .DBG_CORE_IMEM_DATA => .next (if i < 8 then s.imemWrite w i d.toNat else s)
  | id =>
    if s.dbgLocked then .next (s.dbgIgn w i)
    else
      let old := s.reg id w i j
      let new := (d &&& id.row.rw) ||| (old &&& ~~~ id.row.rw &&& ~~~ (d &&& id.row.w1c))
      wrOut id v (s.setReg id new w i j)

end Sys2Proof.Machine
end

