-- ==== Sys2Proof/Machine/Gpio.lean ====
section
/-!
DEFINITION. The management pins, their multiplexing and the peripheral units (R465..R478), and PIN_DRIVE (R47).
-/
namespace Sys2Proof.Machine

/-! ### Pins (R471..R475) -/

/-- R473. A masked write: the low half's bits where the high half is 1. -/
def maskedWrite (old v : Nat) : Nat :=
  foldS (fun b x => if bitOf v (16 + b) then Machine.setBit x b (bitOf v b) else x) (List.range 16) old

/-- R473. A write of GPIO_DOUT_k or GPIO_OE_k. -/
def State.gpioMasked (s : State) (id : RegId) (k v : Nat) : State :=
  s.setRegN id (maskedWrite (s.regN id 0 k) v) 0 k

/-- R473. A masked write of GPIO_OE_k or GPIO_DOUT_k. -/
def execGpioMaskedWrite (k : Nat) (oe : Bool) (v : Word) (s : State) : Host.Outcome State Fault Refusal :=
  .next (s.gpioMasked (if oe then .GPIO_OE else .GPIO_DOUT) k v.toNat)

/-- R472. Hold the drive a pin has. -/
def State.gpioHold (s : State) (n : Nat) : State :=
  if s.hb .gpioHeld 0 n then s
  else s.setH .gpioHeld (match s.gpioDrive n with | some b => 3 + b2n b | none => 1) 0 n

/-- R472. A write of GPIO_FUNC_w starts a switch of the pins whose code changes: their drive is held. -/
def State.gpioFuncWrite (s : State) (w v : Nat) : State :=
  let old := s.regN .GPIO_FUNC 0 w
  let pins := indicesWhere 8 fun j => bitsOf old (4 * j) 4 != bitsOf v (4 * j) 4
  if pins.isEmpty then s
  else
    let n := s.h .gpioSwN 0 w
    let mask := foldS (fun j m => m + 2 ^ j) pins 0
    let s := foldS (fun j s => s.gpioHold (8 * w + j)) pins s
    s.setRegN .GPIO_FUNC v 0 w |>.setH .gpioSwN (n + 1) 0 w
      |>.setH .gpioSwPins (s.h .gpioSwPins 0 w + mask * 256 ^ n) 0 w

/-- R472. A write of GPIO_FUNC_w. -/
def execGpioFuncWrite (w : Nat) (v : Word) (s : State) : Host.Outcome State Fault Refusal :=
  .next (s.gpioFuncWrite w v.toNat)

/-- R472. At e0 + 2 of the oldest switch of a word its pins take the new function's drive, except those that a later
switch still holds. -/
def State.gpioSwitchEnd (s : State) (w : Nat) : State :=
  let n := s.h .gpioSwN 0 w
  if n = 0 then s
  else
    let q := s.h .gpioSwPins 0 w
    let rest := q / 256
    let later (j : Nat) : Bool := (List.range (n - 1)).any fun k => bitOf (rest / 256 ^ k) j
    let s := s.setH .gpioSwN (n - 1) 0 w |>.setH .gpioSwPins rest 0 w
    foldS (fun j s => s.setH .gpioHeld 0 0 (8 * w + j)) (indicesWhere 8 fun j => bitOf q j && !later j) s

/-- R472. A function switch ends. -/
def execGpioSwitchEnd (w : Nat) (s : State) : Host.Outcome State Fault Refusal := .next (s.gpioSwitchEnd w)

/-- R475. An edge of a pin's synchronised level: on a pin in GPIO function whose selection names it, EVT is set, and
setting it raises source 1,952 + n div 8. -/
def State.gpioEdge (s : State) (n : Nat) (rising : Bool) : State :=
  let s := s.setH .gpioIn (if rising then 2 else 1) 0 n
  let sel := bitsOf (s.regN .GPIO_EDGE 0 (n / 16)) (2 * (n % 16)) 2
  if s.gpioFunc n = 0 ∧ bitOf sel (if rising then 0 else 1) ∧ ¬ s.bit .GPIO_EVT (n % 16) 0 (n / 16) then
    (s.setBit .GPIO_EVT (n % 16) true 0 (n / 16)).device (1952 + n / 8)
  else s

/-- R475. A pin shows an edge. -/
def execGpioEdgeSeen (n : Nat) (rising : Bool) (s : State) : Host.Outcome State Fault Refusal :=
  .next (s.gpioEdge n rising)

/-- R47, R302, R469. A PIN_DRIVE entry drives the masked pins of its group: a target error on a group whose owner is its
port; a management pin follows it only in the Campanile function. -/
def execLaunchPinDrive (t q : Nat) (s : State) : Host.Outcome State Fault Refusal :=
  .next (s.lqLaunch (towerNode t) q 5 fun e s =>
    let g := bitsOf (e.param 0) 0 5
    let p := e.param 1
    if g < 18 ∧ s.flag F.TIO_GRP_CFG_OWNER t g then (false, s)
    else
      let may (b : Nat) : Bool := decide (g < 18) || s.gpioFunc ((if t = 0 then 0 else 48) + 8 * (g - 18) + b) == 15
      let take (v m old : Nat) : Nat :=
        foldS (fun b x => if bitOf m b && may b then Machine.setBit x b (bitOf v b) else x) (List.range 8) old
      (true, s.setH .pinOut (take (bitsOf p 0 8) (bitsOf p 8 8) (s.h .pinOut t g)) t g
        |>.setH .pinOe (take (bitsOf p 16 8) (bitsOf p 24 8) (s.h .pinOe t g)) t g))

/-! ### Peripheral units (R476..R478) -/

/-- The kind of a unit. -/
inductive UnitKind where
  | uart
  | i2c
  | spi
  | timer
  | mdio
deriving DecidableEq, Repr

/-- R476. The kind of unit x. -/
def unitKind (x : Nat) : UnitKind :=
  if x < 4 then .uart else if x < 8 then .i2c else if x < 12 then .spi else if x < 20 then .timer else .mdio

/-- R476. The least DIV of a kind. -/
def UnitKind.leastDiv : UnitKind → Nat
  | .uart => 3
  | .i2c => 124
  | .spi => 1
  | .timer => 0
  | .mdio => 49

/-- The TX FIFO of a unit. -/
def State.unitTx (s : State) (e x : Nat) : List Word := tget s.gpioTx (e, x) []
/-- The RX FIFO of a unit. -/
def State.unitRx (s : State) (e x : Nat) : List Word := tget s.gpioRx (e, x) []

/-- R476. Replace a unit's TX FIFO: BUSY reads 1 while it holds entries. -/
def State.setUnitTx (s : State) (e x : Nat) (l : List Word) : State :=
  { s with gpioTx := tput s.gpioTx (e, x) l }.setFld F.GPIO_U_STAT_TX_FILL l.length e x
    |>.setFlag F.GPIO_U_STAT_BUSY (!l.isEmpty) e x

/-- R478. The tower's unit event. -/
def State.unitEvent (s : State) (e x : Nat) : State :=
  if s.flag F.GPIO_U_CFG_EVT e x then s.device (1964 + e) else s

/-- R476, R478. A unit sets an ERR bit. -/
def State.unitErr (s : State) (e x b : Nat) : State :=
  let err := s.fld F.GPIO_U_STAT_ERR e x
  if bitOf err b then s else (s.setFld F.GPIO_U_STAT_ERR (err + 2 ^ b) e x).unitEvent e x

/-- R476, R478. A word enters a unit's RX FIFO, or is dropped when it is full. -/
def State.unitRxPush (s : State) (e x : Nat) (w : Word) : State :=
  let l := s.unitRx e x
  if 16 ≤ l.length then s.unitErr e x 1
  else
    let s := { s with gpioRx := tput s.gpioRx (e, x) (l ++ [w]) }.setFld F.GPIO_U_STAT_RX_FILL (l.length + 1) e x
    if l.isEmpty then s.unitEvent e x else s

/-- R476. A write of GPIO_U_CFG: EN with a DIV below the least value leaves EN at 0. -/
def State.unitCfgWrite (s : State) (e x v : Nat) : State :=
  if bitOf v 31 ∧ bitsOf v 0 16 < (unitKind x).leastDiv then
    (s.setRegN .GPIO_U_CFG (Machine.setBit v 31 false) e x).unitErr e x 3
  else s.setRegN .GPIO_U_CFG v e x

/-- R476. A write of GPIO_U_CFG. -/
def execUnitCfgWrite (e x : Nat) (v : Word) (s : State) : Host.Outcome State Fault Refusal :=
  wrOut .GPIO_U_CFG v (s.unitCfgWrite e x v.toNat)

/-- R476. A write of GPIO_U_TX: ignored while EN is 0, dropped when the FIFO is full. -/
def State.unitTxPush (s : State) (e x : Nat) (v : Word) : State :=
  let l := s.unitTx e x
  if ¬ s.flag F.GPIO_U_CFG_EN e x then s.setFlag F.GPIO_U_STAT_WR_IGN true e x
  else if 16 ≤ l.length then s.unitErr e x 0
  else s.setUnitTx e x (l ++ [v])

/-- R476. A write of GPIO_U_TX. -/
def execUnitTxPush (e x : Nat) (v : Word) (s : State) : Host.Outcome State Fault Refusal := .next (s.unitTxPush e x v)

/-- R476. A read of GPIO_U_RX pops a word; an empty FIFO reads 0. -/
def State.unitRxPop (s : State) (e x : Nat) : Word × State :=
  match s.unitRx e x with
  | [] => (0, s)
  | w :: l => (w, { s with gpioRx := tput s.gpioRx (e, x) l }.setFld F.GPIO_U_STAT_RX_FILL l.length e x)

/-- R476. A read of GPIO_U_RX. -/
def execUnitRxPop (e x : Nat) (s : State) : Host.Outcome State Fault Refusal := .next (s.unitRxPop e x).2

/-- An MDIO frame reads: OP 0b10 in Clause 22, OP 0b10 or 0b11 in Clause 45 (IEEE 802.3). -/
def mdioReads (clause45 : Bool) (w : Nat) : Bool := bitOf w 29 && (clause45 || !bitOf w 28)

/-- R476, Table 19.3. A unit finishes sending the oldest TX word; `rx` is what its bus returned meanwhile. A timer channel
sends in its one-pulse mode; in PWM mode a word goes at the end of a period. -/
def State.unitWordDone (s : State) (e x : Nat) (rx : Word) : State :=
  match s.unitTx e x with
  | [] => s
  | w :: l =>
    let o := s
    let s := s.setUnitTx e x l
    match unitKind x with
    | .uart => s
    | .i2c =>
      if bitOf w.toNat 10 then s.unitRxPush e x (rx &&& 0xff)
      else if bitOf rx.toNat 8 then (s.unitRxPush e x 0x100).unitErr e x 2
      else s
    | .spi => s.unitRxPush e x (rx &&& 0xff)
    | .timer => if bitsOf (s.fld F.GPIO_U_CFG_MODE e x) 0 2 = 3 then s else o
    | .mdio => if mdioReads (bitOf (s.fld F.GPIO_U_CFG_MODE e x) 0) w.toNat then s.unitRxPush e x (rx &&& 0xffff) else s

/-- R476. A unit finishes sending a TX word. -/
def execUnitWordDone (e x : Nat) (rx : Word) (s : State) : Host.Outcome State Fault Refusal :=
  .next (s.unitWordDone e x rx)

/-- R476. A UART receives a byte, with a framing or parity error or without. -/
def execUartRxByte (e x : Nat) (byte : Byte) (bad : Bool) (s : State) : Host.Outcome State Fault Refusal :=
  if s.flag F.GPIO_U_CFG_EN e x ∧ unitKind x = .uart then
    let s := s.unitRxPush e x (BitVec.ofNat 32 (byte.toNat + 256 * b2n bad))
    .next (if bad then s.unitErr e x 2 else s)
  else .next s

/-- R476, Table 19.3. A timer channel in capture mode sees a rising edge: its device time, less the two clocks of the
synchroniser, to the 8 ns that hold it. -/
def execTimerCapture (e c : Nat) (s : State) : Host.Outcome State Fault Refusal :=
  if s.flag F.GPIO_U_CFG_EN e (12 + c) ∧ bitsOf (s.fld F.GPIO_U_CFG_MODE e (12 + c)) 0 2 = 1 then
    let late := (Config.freeWord s.free 0).toNat % (s.nsUnits 8 + 1)
    .next ({ s with free := s.free + 1 }.unitRxPush e (12 + c)
      (loWord (s.towerTime (4 * e) - BitVec.ofNat 64 (s.nsUnits 16) - BitVec.ofNat 64 late)))
  else .next s

/-- R476. The period of a timer channel in PWM mode ends: the next word takes effect. -/
def execPwmPeriodEnd (e c : Nat) (s : State) : Host.Outcome State Fault Refusal :=
  if bitsOf (s.fld F.GPIO_U_CFG_MODE e (12 + c)) 0 2 = 2 then
    match s.unitTx e (12 + c) with
    | [] => .next s
    | w :: l => .next ((s.setUnitTx e (12 + c) l).setH .unitWord (1 + w.toNat) e (12 + c))
  else .next s

end Sys2Proof.Machine
end

