-- ==== Sys2Proof/Machine/SubSteps.lean ====
section
/-!
DEFINITION. What the steps of a substitution do, and their re-run (R412..R414, Table 16.5).
-/
namespace Sys2Proof.Machine

/-- R413, R414. The pavilions that a substitution moves beside PAV. -/
def State.subOthers (s : State) : List Nat := (List.range 32).filter fun p => bitOf s.subMove p && p != s.subPav

/-- R413, Table 16.5. QUIESCE: the streams of the moving pavilions pause; each, but PAV, is fenced but for ports 112, 114
and 120, and its dome answers DOME_HOLD. -/
def State.subQuiesce (s : State) : State :=
  let s := foldS (fun (k : Nat × Nat) s =>
    if bitOf s.subMove k.1 && s.sst k.1 k.2 == 2 then (s.setSst k.1 k.2 3).setH .subPaused 1 k.1 k.2 else s) s.streamKeys s
  foldS (fun p s =>
    let s := foldS (fun w s => s.setRegN .PRM_FENCE_PORT (if w = 3 then 0xfefaffff else 0xffffffff) p w) (List.range 4) s
    (s.fenceWrite p 3).setH .domeQuiesce 1 p |>.domeShow p) s.subOthers s

/-- R413. The streams that QUIESCE paused resume. -/
def State.subResume (s : State) : State :=
  foldS (fun (k : Nat × Nat) s =>
    if s.hb .subPaused k.1 k.2 then
      (let s := s.setH .subPaused 0 k.1 k.2
       if s.sst k.1 k.2 = 3 then s.streamRun k.1 k.2 else s)
    else s) s.streamKeys s

/-- R413. The fences of QUIESCE are released, and the domes leave quiescence. -/
def State.subUnfence (s : State) : State :=
  foldS (fun p s => ((s.fenceWrite p 0).setH .domeQuiesce 0 p).domeShow p) s.subOthers s

/-- R413. The state area of a dome lies below the reserved region, outside every enabled ring region, key range and
metadata. -/
def State.subAreaOk (s : State) (p : Nat) : Bool :=
  let a := s.fld F.LDG_SUB_CFG_STATE_LINE
  let hit (b n : Nat) : Bool := overlaps a 16384 b n
  decide (a + 16384 ≤ s.regN .DOME_RSV_BASE p) &&
    !((List.range 512).any fun r => s.flag F.DOME_RING_CFG_EN p r &&
      (hit (s.ringIdx p r / 64) (s.ringSlots p r / 4) || hit (s.ringData p r / 64) (s.ringLines p r))) &&
    !((List.range 16).any fun k => s.keyState p k != 0 &&
      (hit (s.regN .MEM_KEY_BASE p k * 64) (s.regN .MEM_KEY_PAGES p k * 64) ||
        hit (s.regN .MEM_KEY_META p k) (s.regN .MEM_KEY_MLINES p k)))

/-- R413. SAVE: with STATE_EN each dome's state area is written, in a form the spec does not give; an area that breaks its
rule sets STATE_ERR and is not written. -/
def State.subSave (s : State) : State :=
  if !s.flag F.LDG_SUB_CFG_STATE_EN then s
  else foldS (fun p s =>
    if s.subAreaOk p then
      (s.makeUndef (domeBase p + 64 * s.fld F.LDG_SUB_CFG_STATE_LINE) (2 ^ 20)).setH .subSaved 1 p
    else (s.setFlag F.LDG_SUB_STAT_STATE_ERR true).setH .subSaved 0 p) s.subOthers s

/-- R413. APPLY: the new map is staged and applied. -/
def State.subApply (s : State) : State :=
  (s.setRegN .CFG_FOLLY_STAGE (s.mapMoved (s.fld F.LDG_SUB_STAT_SITE) % 2 ^ 16)).mapApply

/-- R81, R413. W1.TWIN of every DEGRADED stream whose twin moved is written again. -/
def State.subTwins (s : State) : State :=
  foldS (fun (k : Nat × Nat) s =>
    if s.entAssured k.1 k.2 && s.flag F.GATE_SST_DEGRADED k.1 k.2 && s.sstActive k.1 k.2 &&
        s.subOthers.contains (s.entTwin k.1 k.2) then
      s.sentWrite k.1 k.2 1 (s.ent k.1 k.2 1)
    else s) s.streamKeys s

/-- R413. RESTART. -/
def State.subRelease (s : State) : State :=
  ((s.subUnfence.isolate s.subPav false).subResume.subTwins).capacityBack

/-- R414, Table 16.5. The step in progress runs again from its start: a map already in force stays, a copy resumes where the
journal has it, and a load restarts from its beginning. -/
def State.subRerun (s : State) : State :=
  if s.subState ≠ 2 then s
  else
    match s.subStep with
    | 2 => s.isolate s.subPav true
    | 4 => s.subQuiesce
    | 5 => s.subSave
    | 6 => if s.follyMap = s.mapMoved (s.fld F.LDG_SUB_STAT_SITE) % 2 ^ 16 then s else s.subApply
    | 8 => ((s.setRegN .CFG_LOAD_PAVMASK s.subMove).setFld F.CFG_LOAD_STAT_STATE 0).loadGo 2
    | 10 => s.subRelease
    | _ => s

/-- R409. The copy to adopt, of those that the winner reaches: the highest entry counter among the copies whose header
passes, where every section passes in some copy. -/
def State.jrnlBest (s : State) (copies : List (Nat × Nat)) : Option (Nat × Nat) :=
  let held := copies.filter fun e => s.hb .jrnlCopy e.1
  if (List.range 6).all fun k => held.any fun e => bitOf e.2 k then
    (held.filter fun e => bitOf e.2 0).foldl (fun b e =>
      match b with
      | none => some e
      | some d => if s.h .jrnlCount d.1 < s.h .jrnlCount e.1 then some e else b) none
  else none

/-- R409, R410. The winner's journal copy: created by the first election, adopted from the best copy by a later one, where a
section that fails is taken from another holder and counts as a corrected error; none where no copy passes. -/
def State.jrnlAdopt (s : State) (x : Nat) (copies : List (Nat × Nat)) : Option State :=
  if !s.hb .jrnlMade then some (s.jrnlCreate x)
  else (s.jrnlBest copies).map fun e =>
    let s := match s.pavAt e.1 with
      | some p => foldS (fun k (s : State) => if bitOf e.2 k then s else s.sramCorrected p) (List.range 6) s
      | none => s
    (s.setH .jrnlCopy 1 x |>.setH .jrnlCount (s.h .jrnlCount e.1) x |>.setFlag F.LDG_JRNL_STAT_HOLDER true x).jrnlWritten

/-- R409, R410, R411, R414. The winner holds a complete journal copy and acts as presiding lodge. It applies CORE reset to
failed lodges, runs the step of a substitution in progress again, and AUTO may start one. -/
def State.preside (s : State) (copies : List (Nat × Nat)) : State :=
  let x := if s.hb .elecWin then s.h .elecWin - 1 else 63
  if !s.standing x || s.safeHold then s
  else
    match s.jrnlAdopt x copies with
    | none => s
    | some s =>
      let s := (foldS (fun y s => if s.hb .faultOpen 3 y ∧ s.lodgeRuns y ∧ y ≠ x then s.lodgeReset y else s) (List.range 36)
        s.heartbeat).setH .presides 1
      s.subRerun.subAuto

/-- R409, R410, R414. The winner acts as presiding lodge, and a substitution in progress runs its step again; `copies` names
the sites whose journal copies it reaches, each with the sections (bit 0 Header .. bit 5 Declarations, Table 16.3) whose
CRCs pass. -/
def execPresideStart (copies : List (Nat × Nat)) (s : State) : Host.Outcome State Fault Refusal := .next (s.preside copies)

end Sys2Proof.Machine
end

