-- ==== Sys2Proof/Machine/Reset.lean ====
section
/-!
DEFINITION. Resets and start-up (R10, R11, R17, R28, R137, R169, R192, R256, R277, R308, R346, R353, R365, R376, R417..R419,
R486, R506).
-/
namespace Sys2Proof.Machine

/-! ### Kept state (R10, R11) -/

/-- The bits of a register that a reset keeps. -/
def RegId.kept (id : RegId) (cold : Bool) : DWord := if cold then id.row.coldKeep else id.row.warmKeep

/-- R11. The registers of a scope after a reset: kept bits, and the reset value of the others. -/
def State.regsAfter (s : State) (cold : Bool) (sc : RegKey → Bool) : Table RegKey DWord :=
  s.regs.filterMap fun e =>
    if !sc e.1 then some e
    else
      let m := e.1.id.kept cold
      if m = 0 then none else some (e.1, (e.2 &&& m) ||| (s.initial e.1 &&& ~~~ m))

/-- Registers that belong to a logical pavilion. -/
def Block.ofPav (b : Block) : Bool :=
  [Block.evc, .tsk, .spr, .gate, .dome, .prm, .cfgP, .mem, .campP, .thm, .lrt, .telN, .lq, .lqStage].contains b

/-- The registers of a set of pavilions: their windows, and the debug blocks of their Spires. -/
def pavRegs (sc : Nat → Bool) (k : RegKey) : Bool :=
  decide (k.w < 32) && sc k.w && (k.id.row.block.ofPav || (k.id.row.block == .dbgC && decide (k.i < 8)))

/-- Hidden state that belongs to a logical pavilion, by its instance. -/
def Hid.ofPav : Hid → Bool
  | .evcCount => true
  | .evcShadow => true
  | .evcMoved => true
  | .evcCoal => true
  | .evcExpiry => true
  | .evcStack => true
  | .plotFence => true
  | .lqForwarded => true
  | .lqPrevTime => true
  | .lqHasPrev => true
  | .lqCredit => true
  | .keyMajor => true
  | .keyMinor => true
  | .keyChange => true
  | .remapPend => true
  | .remapGroup => true
  | .remapEntry => true
  | .domeReady => true
  | .domeSr => true
  | .domeSrHot => true
  | .keyBad => true
  | .domePower => true
  | .domeAct => true
  | .domeRefDue => true
  | .domeRefAhead => true
  | .domeRefCount => true
  | .domeBatch => true
  | .domeRr => true
  | .domeRow => true
  | .domeCapWin => true
  | .domeCapCnt => true
  | .domePatrol => true
  | .domeErr => true
  | .ringBusy => true
  | .refSent => true
  | .refSentAt => true
  | .dmaDone => true
  | .dmaLimit => true
  | .dmaSent => true
  | .imemCrc => true
  | .imemDebug => true
  | .sprCycBase => true
  | .sprDead => true
  | .tskEnd => true
  | .tskFaulted => true
  | .tskEnded => true
  | .tskEndedAt => true
  | .tskAllFlow => true
  | .linkDown => true
  | .prmRr => true
  | .prmTelCyc => true
  | .prmOwed => true
  | .prmMgmtCyc => true
  | .prmMgmtSent => true
  | .rtSlot => true
  | .pllCfg => true
  | .pllDiv => true
  | .gclkSrc => true
  | .rstNet => true
  | .sportEdge => true
  | .loadPlot => true
  | .plotWritten => true
  | .verNext => true
  | .strmSkip => true
  | .gateNoted => true
  | .codecWrote => true
  | _ => false

/-- Hidden state of a set of pavilions; halt requests of their Spires are indexed beside those of lodges. -/
def pavHid (sc : Nat → Bool) (k : HidKey) : Bool :=
  decide (k.w < 32) && sc k.w && (k.id.ofPav || (k.id == .haltReq && decide (k.i < 8)))

/-- The hidden state that a reset of a scope leaves. -/
def hidAfter (h : Table HidKey Nat) (cold : Bool) (sc : HidKey → Bool) : Table HidKey Nat :=
  tfilter h fun k => !sc k || (if cold then k.id.coldKept else k.id.warmKept)

/-! ### Streams, queues, domes, plots -/

/-- R93, R89. A stream after a WARM reset: ARMED, or IDLE when it drained; the issue counter goes on, and the next
accepted fragment carries GAP. -/
def State.streamWarm (s : State) (p i : Nat) : State :=
  let x := s.stream p i
  let st := s.sst p i
  let s := s.setStream p i { Stream.empty with
    issued := x.issued, before := x.before, gapAcc := true, gapRec := true, newTwin := x.newTwin,
    w6 := s.ent p i 6, w7 := s.ent p i 7 }
  s.setFld F.GATE_SST_STATE (if st = 4 then 5 else if st = 1 ∨ st = 2 ∨ st = 3 then 1 else st) p i

/-- R93. The streams of a set of pavilions. -/
def State.streamsWarm (s : State) (sc : Nat → Bool) : State :=
  foldS (fun k s => s.streamWarm k.1 k.2) (s.streamKeys.filter fun k => sc k.1) s

/-- R256. The scheduler of a pavilion: every slot is freed, and their number is recorded. -/
def State.tskWarm (s : State) (p : Nat) : State :=
  let n := (s.tu p).all.length
  let s := { s with tsk := tdel s.tsk p }
  let s := if n = 0 ∧ s.regN .TSK_RST_LOST p = 0 then s else s.setRegN .TSK_RST_LOST n p
  if s.flag F.TSK_CTL_EN p then s.setFld F.TSK_STAT_STATE 1 p else s

/-- R376, R10. The plots of a pavilion: what was being reconfigured is BLANK with error 0x0E, PLOT_READY follows, and every
flip-flop takes its initial value. -/
def State.plotsWarm (s : State) (p : Nat) : State :=
  foldS (fun q s =>
    let st := s.fld F.CFG_PLOT_STAT_STATE p q
    let s := if st = 1 ∨ st = 2 ∨ st = 3 then
        ((s.plotEnter p q 4).clearBytes (cellBase p q) (4096 * plotFrames) |>.setFld F.CFG_PLOT_STAT_STATE 4 p q
          |>.setFld F.CFG_PLOT_STAT_ERR 0x0e p q).setH .plotFence 2 p q
      else s
    if st = 0 then (s.plotReady p q true).ffsInit p q else s) (List.range 4) s

/-- R293. Reset nets with WARM = 1, and those that software holds, are asserted. -/
def State.netsWarm (s : State) (p : Nat) : State :=
  foldS (fun (k : RegKey) s => if k.id == .CFG_RST && k.w == p && (s.flag F.CFG_RST_WARM p k.i || s.flag F.CFG_RST_SW p k.i) then
    s.setH .rstNet 1 p k.i else s) (tkeys s.regs) s

/-- R137. The dome of a pavilion: what is queued is discarded, and its state reads as it is. -/
def State.domeWarm (s : State) (p : Nat) : State :=
  if s.hb .domeReady p then s.srUpdate p else s.domeShow p

/-- R82. A stream descriptor that waited at a gatehouse of the scope is to be applied again. -/
def QDesc.dropped (d : QDesc) (sc : Nat → Bool) : QDesc :=
  if d.op = 3 ∧ d.started ∧ d.result.isNone ∧ sc (d.w 4 % 2 ^ 13 / 256) then { d with started := false } else d

/-- What lies in pavilions and is not kept: engines, queues, routers, feeds, stream ports. -/
def State.pavClear (s : State) (sc : Nat → Bool) : State :=
  { s with
    strmWait := s.strmWait.filter fun (e : Nat × List (Nat × Word)) => !sc e.1
    qps := s.qps.map fun (e : Nat × QPair) => (e.1, { e.2 with acc := e.2.acc.map fun d => d.dropped sc })
    lq := s.lq.filter fun (e : (Nat × Nat) × List LqEntry) => !(decide (e.1.1 < 32) && sc e.1.1)
    domeRq := s.domeRq.filter fun (e : (Nat × Nat) × List DomeReq) => !sc e.1.1
    domeWq := s.domeWq.filter fun (e : (Nat × Nat) × List DomeReq) => !sc e.1.1
    domeIssued := s.domeIssued.filter fun (e : (Nat × Nat) × List DomeReq) => !sc e.1.1
    domeNrf := s.domeNrf.filter fun (e : (Nat × Nat) × List (Nat × Nat)) => !sc e.1.1
    domeTxns := s.domeTxns.filter fun (e : Nat × DomeTxn) => !sc e.2.pav
    keyCache := s.keyCache.filter fun (e : Nat × List MetaLine) => !sc e.1
    spr := s.spr.filter fun (e : (Nat × Nat × Nat) × SprCtx) => !sc e.1.1
    resv := s.resv.filter fun (e : Nat × List (Nat × Nat × Nat)) =>
      !((decide (e.1 < 32) && sc e.1) || (decide (64 ≤ e.1) && decide (e.1 < 320) && sc ((e.1 - 64) / 8)))
    prmIn := s.prmIn.filter fun (e : (Nat × Nat) × List Flight) => !(decide (e.1.1 < 32) && sc e.1.1)
    prmOut := s.prmOut.filter fun (e : (Nat × Nat) × List Flight) => !(decide (e.1.1 < 32) && sc e.1.1)
    prmRx := s.prmRx.filter fun (e : Nat × List (List Word)) => !(decide (e.1 < 32) && sc e.1)
    prmReq := s.prmReq.filter fun (e : Nat × List (Nat × Nat)) => !(decide (e.1 < 32) && sc e.1)
    lrt := s.lrt.filter fun (e : (Nat × Nat) × LrtSide) => !(decide (e.1.1 < 32) && sc e.1.1)
    telQ := s.telQ.filter fun (e : Nat × List TelRec) => !(decide (e.1 < 32) && sc e.1)
    sport := s.sport.filter fun (e : (Nat × Nat) × SportOut) => !sc e.1.1
    cross := s.cross.filter fun (e : (Nat × Nat × Nat) × Crossing) => !sc e.1.1 }

/-- R233. The data memories of a pavilion's Spires are not defined. -/
def State.dmemUndef (s : State) (p : Nat) : State := s.makeUndef (dmemBase p 0) (8 * dmemSize)

/-- What every reset of a pavilion that keeps its dome does, once registers and hidden state are reset. -/
def State.pavAfter (s : State) (p : Nat) : State :=
  (((((s.tskWarm p).plotsWarm p).netsWarm p).domeWarm p).gateShow p).keysShow p

/-- R412. The equivalent of a WARM reset of a pavilion; without `keep`, its registers restart at their COLD values. Its
dome and its fabric configuration stay. -/
def State.pavWarm (s : State) (p : Nat) (keep : Bool) : State :=
  let sc := fun q => q == p
  let s := s.ringsZero sc
  let s := if keep then s.streamsWarm sc else { s with streams := s.streams.filter fun (e : (Nat × Nat) × Stream) => !sc e.1.1 }
  let fence := s.regN .PRM_STAT p
  let fctl := s.regN .PRM_FENCE_CTL p
  let iso := s.regN .PRM_ISO p
  let ports := (List.range 4).map fun w => s.regN .PRM_FENCE_PORT p w
  let s := { s with
    regs := s.regsAfter (!keep) (pavRegs sc)
    hid := hidAfter s.hid false (pavHid sc) }
  let s := s.setRegN .PRM_STAT fence p |>.setRegN .PRM_FENCE_CTL fctl p |>.setRegN .PRM_ISO iso p
  let s := foldS (fun w s => s.setRegN .PRM_FENCE_PORT (ports.getD w 0) p w) (List.range 4) s
  (((s.pavClear sc).setH .sprWarm (s.sprClock + 1) p).dmemUndef p).pavAfter p

/-- R412, R137. The pavilion that a substitution replaces restarts at its COLD values: its streams are FREE, and its dome
is to be initialised. -/
def State.pavCold (s : State) (p : Nat) : State :=
  let sc := fun q => q == p
  let iso := s.regN .PRM_ISO p
  let s := { s with
    regs := s.regsAfter true (pavRegs sc)
    hid := hidAfter s.hid true (pavHid sc)
    streams := s.streams.filter fun (e : (Nat × Nat) × Stream) => !sc e.1.1
    plots := s.plots.filter fun (e : (Nat × Nat) × PlotLogic) => !sc e.1.1
    tsk := tdel s.tsk p }
  let s := s.setRegN .PRM_ISO iso p
  ((s.pavClear sc).dmemUndef p).clearBytes (domeBase p) (2 ^ 31)

/-! ### The record of the last reset (R418) -/

/-- R418. LDG_RST_CAUSE: type 1 COLD or 2 WARM, and its source. -/
def State.resetCause (s : State) (type src : Nat) : State :=
  s.setFld F.LDG_RST_CAUSE_TYPE type |>.setFld F.LDG_RST_CAUSE_SRC src |>.satFld F.LDG_RST_CAUSE_COUNT 1

/-! ### POWER-ON and COLD (R10, R17, R28, R506) -/

/-- R17. The fuse map fails its check: a row without exactly one fused folly, a slot above 8, a folly at an end of
physical row 1 or 2, or a site that disagrees with CFG_FOLLY_FUSE. -/
def State.fuseBad (s : State) : Bool :=
  let m := s.follyFuse
  ((List.range 4).any fun r => ((List.range 9).filter fun i => s.siteFolly (9 * r + i)).length != 1) ||
    ((List.range 4).any fun r => decide (8 < follySlot m r)) ||
    ([1, 2].any fun r => follySlot m r == 0 || follySlot m r == 8) ||
    (List.range 36).any fun x => s.siteFolly x != (follySlot m (x / 9) == x % 9)

/-- R17, R353. The folly-map check of start-up: a map that fails loads no configuration. -/
def State.fuseCheck (s : State) : State :=
  if s.fuseBad then ((s.setFld F.CFG_PMAP_CTL_ERR 5).setFld F.CFG_LOAD_STAT_STATE 6).devAlarm 0x01 else s

/-- The memories that hold undefined contents after POWER-ON and COLD resets: Spire data and instruction memories, lodge
memories, and the staging areas (R56, R233; assumption 3). -/
def undefMemories (seed : Nat) : List UndefRange :=
  [⟨2 ^ 41, 256 * 2 ^ 18, seed⟩, ⟨2 ^ 42, 256 * 2 ^ 16, seed⟩, ⟨2 ^ 43, 36 * 2 ^ 18, seed⟩, ⟨2 ^ 44, 41 * 4096, seed⟩]

/-- The block with nothing of its own left: fuses, the part's speed grade, host memory, and the commands that wait. -/
def State.blankPart (s : State) : State :=
  { State.reset with
    fuses := s.fuses
    free := s.free + 1
    hid := tfilter s.hid fun k => k.id == .speedGrade
    mem := s.mem.filter fun (c : Host.Cell) => decide (2 ^ 64 ≤ c.1)
    undef := undefMemories s.free
    pending := s.pending }

/-- R506. A POWER-ON reset, held. -/
def State.powerOn (s : State) : State := s.blankPart.setH .porHeld 1

/-- R10, R506. POR_N is low for at least 10 us. -/
def execPorNLow (s : State) : Host.Outcome State Fault Refusal := .next s.powerOn

/-- R506. VCC_KEEP is below 0.68 V for 1 us. -/
def execKeepRailLow (s : State) : Host.Outcome State Fault Refusal := .next s.powerOn

/-- R419, R353, R506. The POWER-ON reset is released: fuses and the BOOT_MODE balls are read, and start-up begins. -/
def execPowerOnRelease (bootMode : Nat) (s : State) : Host.Outcome State Fault Refusal :=
  if !s.hb .porHeld then .next s
  else
    let k : RegKey := ⟨.CFG_BOOT, 0, 0, 0⟩
    let s := { s with fuses := tput s.fuses k (BitVec.ofNat 64 (setBitsOf (s.fuse k).toNat 0 2 bootMode)) }
    .next ({ s.setH .porHeld 0 with time := 0 }.fuseCheck)

/-- R10. A COLD reset: all but fuses, the reset-cause record and what tables keep; device time restarts at the rate of
FREQ_KHZ (R28); a load in progress leaves error 0x0E (R365). -/
def State.coldReset (s : State) (src : Nat) : State :=
  if s.hb .porHeld then s
  else
    let busy := s.loading
    let b := s.blankPart
    let b := { b with
      regs := s.regsAfter true fun _ => true
      hid := hidAfter s.hid true fun _ => true }
    let b := b.setH .campFreq (b.fld F.CAMP_REF_CFG_FREQ_KHZ)
    let b := b.setFld F.CFG_LOAD_STAT_STATE 0 |>.setFld F.CFG_LOAD_STAT_ERR (if busy then 0x0e else 0)
    (b.resetCause 1 src).fuseCheck

/-- R417. RST_N is low for at least 1 us. -/
def execRstNLow (s : State) : Host.Outcome State Fault Refusal := .next (s.coldReset 1)

/-- R479. The JTAG COLD_RESET instruction. -/
def execJtagColdReset (s : State) : Host.Outcome State Fault Refusal := .next ((s.tapUpdate 0x30).coldReset 5)

/-- R486. The erase of an unlock has written every memory with zeros, and cleared the user key, the key words and the
MACsec keys; a COLD reset follows, after which the part is unlocked. -/
def State.unlockDone (s : State) : State :=
  if !s.flag F.DBG_STAT_ERASING then s
  else
    let key (k : RegKey) : Bool := k.id == .CFG_UKEY_W || k.id == .MEM_KEY_KEY_W || k.id == .ETH_SEC_SA_KEY_W
    let s := { s with regs := s.regs.filter fun (e : RegKey × DWord) => !key e.1 }
    let s := s.coldReset 5
    { s.setFlag F.DBG_STAT_UNLOCKED true |>.setFlag F.DBG_STAT_ERASING false with undef := [] }

/-- R486. The erase completes. -/
def execUnlockEraseDone (s : State) : Host.Outcome State Fault Refusal := .next s.unlockDone

/-! ### WARM (R10, R417, R419) -/

/-- R428. Alarm writes that the collector has taken count as acknowledged. -/
def State.alarmsSettle (s : State) : State :=
  foldS (fun (k : HidKey) s => if k.id == .almTaken && s.hb .almTaken k.w k.i then s.alarmAck k.w k.i else s) (tkeys s.hid) s

/-- R308. The output groups of the towers: released to high impedance, or held. -/
def State.tioWarm (s : State) : State :=
  foldS (fun (k : RegKey) s =>
    if k.id == .TIO_GRP_CFG && s.flag F.TIO_GRP_CFG_DIR k.w k.i && !s.flag F.TIO_GRP_CFG_RST_DRV k.w k.i then
      s.setH .pinOe 0 k.w k.i
    else s) (tkeys s.regs) s

/-- R74. The XFL lanes: their receivers start afresh, and each lane with EN at 1 tries again at once. -/
def State.lanesWarm (s : State) : State :=
  foldS (fun (k : Nat × Nat) s =>
    if 64 ≤ k.2 then s.setLane k.1 k.2 XflLane.empty
    else
      let x := s.lane k.1 k.2
      let s := s.setLane k.1 k.2 { XflLane.empty with
        txSf := x.txSf, txRr := x.txRr, tx := x.tx, txScr := x.txScr, txLine := x.txLine }
      if s.flag F.XFL_LANE_CTL_EN k.1 k.2 then s.laneTry k.1 k.2 else s) (tkeys s.xfl) s

/-- R82, R169. A descriptor that had no effect starts again: an ACCEPT whose accept was not journalled, and a STREAM_CTL
that waited at its gatehouse. -/
def State.descWarm (s : State) (q : Nat) (d : QDesc) : QDesc :=
  if d.started ∧ d.result.isNone ∧ ((d.op = 1 ∧ ¬ s.events.any fun e => e.qp == some (q, d.seq)) ∨ d.op = 3) then
    { d with started := false }
  else d

/-- R169. The queue pairs: RUN becomes RECOVER, and what was fetched and not accepted is fetched again. -/
def State.qpsWarm (s : State) : State :=
  let s := (({ s with accIn := [], strmWait := [] }).eventsRestart)
  foldS (fun q s =>
    let x := s.qp q
    let s := s.setQp q { x with
      fetched := [], acc := x.acc.map (s.descWarm q), polls := 0, wake := x.wake && s.qpState q == 2 }
    if s.qpState q = 1 then s.setFld F.RDO_QP_STAT_STATE 6 0 q else s) (tkeys s.qps) s

/-- R455. What a WARM reset keeps of the PCI Express blocks: links and configuration space. -/
def State.pcieKeep (s old : State) : State :=
  let s := foldS (fun e s => s.setRegN .PCIE_EP_STAT (old.regN .PCIE_EP_STAT 0 e &&& 0xff) 0 e) (List.range 2) s
  foldS (fun f s => s.setRegN .PCIE_FN_STAT (old.regN .PCIE_FN_STAT 0 f &&& 0x1f) 0 f) (List.range 4) s

/-- R10. A WARM reset. An accepted APPLY completes first (R22); a load in progress starts again from its source (R365); a
substitution in progress runs its step again from the start, its domes quiesced until RESTART (R414). -/
def State.warmReset (s : State) (src : Nat) : State :=
  if s.hb .porHeld then s
  else
    let s := s.mapDone.alarmsSettle
    let load := s.loading
    let lsrc := s.h .loadSrc
    let lst := s.loadState
    let old := s
    let s := ((s.ringsZero fun _ => true).streamsWarm fun _ => true).qpsWarm
    let s := { s with
      regs := s.regsAfter false fun _ => true
      stage := []
      snap := []
      peekSnap := []
      shots := []
      hid := hidAfter s.hid false fun _ => true
      psamp := []
      domeTxns := []
      resv := []
      ethTx := []
      annexOut := []
      tio := []
      telIntake := []
      loadInit := []
      lodges := []
      gpioTx := []
      gpioRx := [] }
    let s := s.pavClear fun _ => true
    let s := { s with lq := [], prmIn := [], prmOut := [], prmRx := [], prmReq := [], lrt := [], telQ := [] }
    let s := foldS (fun p s => s.setH .sprWarm (s.sprClock + 1) p) (List.range 32) s
    let s := foldS (fun x s => s.setH .wdogBase s.time.toNat x) (List.range 36) s
    let s := (s.pcieKeep old).setFlag F.CAMP_STAT_SLEWING (s.reg .CAMP_SLEW_REM != 0)
    let s := s.setFlag F.TEL_STAT_INST (s.isolated 32) |>.setFlag F.RDO_STAT_INST (s.isolated 32)
    let s := s.admWarm (old.h .admPending)
    let s := foldS (fun a s => s.anxFollow a) (List.range 4) s
    let s := foldS (fun p s => (s.dmemUndef p).pavAfter p) (List.range 32) s
    let s := s.tioWarm.lanesWarm.rdoShow
    let s := s.setFld F.CFG_LOAD_STAT_STATE lst
    let s := if load then
        let mask := s.h .loadMask
        let s := s.setFld F.CFG_LOAD_STAT_STATE 0
        ((s.loadStart (s.hb .loadPav) mask).setH .loadSrc lsrc).setFld F.CFG_LOAD_STAT_ERR 0x0e
      else s
    let s := if [4, 5, 6, 7, 8, 9, 10].contains s.subStep && s.subState == 2 then s.subQuiesce else s
    s.subRerun.resetCause 2 src

/-- R417. WRST_N is low for at least 1 us. -/
def execWrstNLow (s : State) : Host.Outcome State Fault Refusal := .next (s.warmReset 2)

/-- R423. A requester that may use the global LDG block's controls: the host or the presiding lodge. -/
def State.ldgMay (s : State) (who : Requester) : Bool :=
  s.isPresiding who || (match who with | .host _ => true | _ => false)

/-- The source of a reset that LDG_RST_CTL asks for (Table 16.9). -/
def rstSrc (who : Requester) : Nat := match who with | .host _ => 3 | _ => 4

/-- R423, R417. A write of LDG_RST_CTL: of both bits in one write, the broader reset takes place. -/
def State.rstCtlWrite (s : State) (v : Nat) (who : Requester) : State :=
  if !s.ldgMay who then s.setFlag F.LDG_SUB_STAT_WR_IGN true
  else if bitOf v 1 then s.coldReset (rstSrc who)
  else if bitOf v 0 then s.warmReset (rstSrc who)
  else s

/-- R423. A write of LDG_RST_CTL.WARM. -/
def execLdgRstWarm (who : Requester) (s : State) : Host.Outcome State Fault Refusal := .next (s.rstCtlWrite 1 who)
/-- R423. A write of LDG_RST_CTL.COLD. -/
def execLdgRstCold (who : Requester) (s : State) : Host.Outcome State Fault Refusal := .next (s.rstCtlWrite 2 who)

end Sys2Proof.Machine
end

