-- ==== Sys2Proof/Machine/Sub.lean ====
section
/-!
DEFINITION. Pavilion substitution (R412..R415): the effect of a step is at its start, and its completion starts the next.
-/
namespace Sys2Proof.Machine

/-! ### Starting (R411, R413, R415) -/

/-- R423. A write by a requester that may not use the control is ignored. -/
def State.subIgn (s : State) : State := s.setFlag F.LDG_SUB_STAT_WR_IGN true

/-- R413, R415. GO: the named candidate starts. -/
def State.subGo (s : State) (p : Nat) : State :=
  if s.bit .LDG_SUB_CAND p && s.subMay then s.subStart p else s.subIgn

/-- R415. The steps done are undone in reverse order; PAV stays isolated, and a site that failed its self-test stays
marked failed. -/
def State.subUndo (s : State) : State :=
  let x := s.fld F.LDG_SUB_STAT_SITE
  let s := if 4 ≤ s.subStep then s.subUnfence.subResume else s
  if 2 ≤ s.subStep ∧ s.fld F.LDG_SITE_STAT_SELFTEST x ≠ 2 then
    s.setBit .LDG_FAILED x false |>.setFlag F.LDG_SITE_STAT_FAILED false x
  else s

/-- R415. CANCEL before the start of APPLY abandons the substitution; later it is ignored. -/
def State.subCancel (s : State) : State :=
  if s.subState = 2 ∧ s.subStep < 6 then s.subUndo.subAbandoned 3 else s.subIgn

/-- R413, R415, R423. A write of LDG_SUB_CTL: CANCEL acts before GO. -/
def State.subCtlWrite (s : State) (v : Nat) (who : Requester) : State :=
  if !s.ldgMay who then s.subIgn
  else
    let s := if bitOf v 1 then s.subCancel else s
    if bitOf v 0 then s.subGo (bitsOf v 8 5) else s

/-- R413. A write of LDG_SUB_CTL.GO. -/
def execSubGo (v : Word) (who : Requester) (s : State) : Host.Outcome State Fault Refusal :=
  wrOut .LDG_SUB_CTL v (s.subCtlWrite v.toNat who)

/-- R415. A write of LDG_SUB_CTL.CANCEL. -/
def execSubCancel (v : Word) (who : Requester) (s : State) : Host.Outcome State Fault Refusal :=
  wrOut .LDG_SUB_CTL v (s.subCtlWrite v.toNat who)

/-! ### The steps (Table 16.5) -/

/-- R412. Every moving pavilion restarts at its new site. -/
def State.subRestart (s : State) : State :=
  (foldS (fun p s => s.pavWarm p (s.flag F.LDG_SUB_CFG_STATE_EN && s.hb .subSaved p)) s.subOthers s).pavCold s.subPav

/-- R413, R415. DONE: the count, the alarm, and the next waiting candidate. -/
def State.subFinish (s : State) : State :=
  let s := (s.addFld F.LDG_SUB_CNT_COUNT 1).devAlarm 0x49
  let s := (s.setBit .LDG_SUB_CAND s.subPav false).faultEnd 0 s.subPav
  (s.setSub 11 3).subAuto

/-- R413. A step starts. -/
def State.subEnter (s : State) (n : Nat) : State :=
  let s := s.setSub n 2
  match n with
  | 2 => s.isolate s.subPav true
  | 4 => s.subQuiesce
  | 5 => s.subSave
  | 6 => s.subApply
  | 8 => (s.setRegN .CFG_LOAD_PAVMASK s.subMove).loadGo 2
  | 10 => s.subRelease
  | 11 => s.subFinish
  | _ => s

/-- R415. CONFIRM completes: the row's folly site has run its self-test. -/
def State.subConfirm (s : State) (ok : Bool) : State :=
  let y := s.subFolly (s.fld F.LDG_SUB_STAT_SITE)
  let bad := !ok || s.bit .LDG_FAILED y || (s.pavAt y).isSome || y == s.fld F.LDG_SUB_STAT_SITE
  let s := if (s.pavAt y).isSome then s else s.setFld F.LDG_SITE_STAT_SELFTEST (if ok then 1 else 2) y
  if bad then s.subUndo.subAbandoned 1 else s.subEnter 2

/-- R413, R414. The step in progress has done its work: its bound apart, its last condition holds. -/
def State.subStepMet (s : State) : Bool :=
  match s.subStep with
  | 4 => s.subOthers.all (fun p => s.mayMove p) &&
      s.streams.all fun e => !bitOf s.subMove e.1.1 || e.2.flight.isEmpty
  | 6 => !s.flag F.CFG_PMAP_CTL_BUSY && s.follyMap == s.mapMoved (s.fld F.LDG_SUB_STAT_SITE) % 2 ^ 16
  | 8 => s.loadState == 4
  | _ => true

/-- R413. MOVE: one copy, nearest the old folly first; after the last, the dome now under PAV is initialised. A copy leaves
out the reserved region, which then holds what the site held before (assumption 56). -/
def State.subCopy (s : State) : State :=
  let n := s.h .subCopies + 1
  let s := (s.setH .subCopies n).jrnlWritten
  if n < s.subOthers.length then s
  else
    let s := foldS (fun p s => s.makeUndef (domeBase p + 64 * s.regN .DOME_RSV_BASE p) (64 * s.regN .DOME_RSV_SIZE p))
      s.subOthers s
    (((s.domeZero s.subPav).setH .domeReady 1 s.subPav).domeShow s.subPav).subEnter 8

/-- R413, R414. A step completes, is journalled, and the next starts. A step whose condition does not hold yet runs again
from its start. -/
def State.subDone (s : State) (ok : Bool) : State :=
  if s.subState ≠ 2 ∨ ¬ s.jrnlOk then s
  else if s.subStep = 1 then s.subConfirm ok
  else if !s.subStepMet then
    (if s.subStep = 6 then s.subApply
     else if s.subStep = 8 && s.loadState == 0 then s.loadGo 2 else s)
  else if s.subStep = 6 then s.subRestart.subEnter 7
  else if s.subStep = 7 then s.subCopy
  else s.subEnter (s.subStep + 1)

/-- R413. A step of the substitution completes; `ok` is the self-test's result in CONFIRM. -/
def execSubStepDone (ok : Bool) (s : State) : Host.Outcome State Fault Refusal := .next (s.subDone ok)

end Sys2Proof.Machine
end

