-- ==== Sys2Proof/Machine/RegRead.lean ====
section
/-!
DEFINITION. Reads of registers: the value a read returns, and what a read does (R6..R8, R484, R520, R522, R524).
-/
namespace Sys2Proof.Machine

/-! ### Values formed at the read -/

/-- Table 1.3. SITE_ID. -/
def State.siteIdVal (s : State) (x : Nat) : Nat :=
  let at_ := s.pavAt x
  x + x / 9 * 2 ^ 6 + x % 9 * 2 ^ 8 + b2n (s.siteFolly x) * 2 ^ 12 + b2n at_.isNone * 2 ^ 13 +
    at_.getD 0 * 2 ^ 16 + b2n at_.isSome * 2 ^ 21

/-- Table 1.4. TWR_ID. -/
def State.towerIdVal (s : State) (t : Nat) : Nat :=
  t + b2n (t % 4 == 0) * 8 +
    foldS (fun i v => v + b2n (s.pavAt ((towerSites t).getD i 99)).isSome * 2 ^ (4 + i)) (List.range 4) 0 +
    (towerSites t).headD 0 % 9 * 2 ^ 8 + t / 4 * 2 ^ 12

/-- Table 1.5. CFG_PMAP_r: the slots of a logical row. -/
def State.pmapVal (s : State) (r : Nat) : Nat :=
  foldS (fun c v => v + slotOf s.follyMap r c * 2 ^ (4 * c)) (List.range 8) 0

/-- The bits of a register that an analogue part, a link partner or the outside world drives, and no command reports: locks,
eyes and error counts of links, the power drawn, and the multiplier that an endpoint sets (assumption 119). -/
def State.measuredBits (s : State) (r : RegRef) : DWord :=
  match r.id with
  | .THM_POWER => 0xffffffff
  | .XCV_LANE_STAT => 0xff03
  | .XCV_QUAD_STAT => 0x3
  | .XCV_QUAD_CFG =>
    if (List.range 4).any fun k => s.fld F.XCV_LANE_CFG_USE r.w (4 * r.i + k) == 3 then 0xffc0000 else 0
  | .PCIE_EP_CE_CNT => 0xffffffff
  | .PCIE_EP_UE_CNT => 0xffffffff
  | .ETH_FEC_CORR => 0xffffffff
  | .ETH_FEC_UNCORR => 0xffffffff
  | .ANX_CRC_CNT => 0xffffffff
  | .ANX_RETRY_CNT => 0xffffffff
  | _ => 0

/-- A register of which some bits are measured. -/
def measuredReg (id : RegId) : Bool :=
  [RegId.THM_POWER, .XCV_LANE_STAT, .XCV_QUAD_STAT, .XCV_QUAD_CFG, .PCIE_EP_CE_CNT, .PCIE_EP_UE_CNT, .ETH_FEC_CORR,
    .ETH_FEC_UNCORR, .ANX_CRC_CNT, .ANX_RETRY_CNT].contains id

/-- Such a register's value: what is stored, and a free value in its measured bits. -/
def State.measured (s : State) (r : RegRef) : DWord :=
  let m := s.measuredBits r
  (s.reg r.id r.w r.i r.j &&& r.id.row.rd &&& ~~~m) ||| ((Config.measured r.id r.w r.i r.j s.free).zeroExtend 64 &&& m)

/-- The value of a register, before any effect of reading it (R8). -/
def State.regVal (s : State) (r : RegRef) : DWord :=
  let n (v : Nat) : DWord := BitVec.ofNat 64 v
  match r.id with
  | .SITE_ID => n (s.siteIdVal r.w)
  | .TWR_ID => n (s.towerIdVal r.w)
  | .CFG_PMAP => n (s.pmapVal r.i)
  | .CAMP_TIME => s.time
  | .CAMP_LTIME => s.pavTime r.w
  | .CAMP_LTIME_T => s.towerTime r.w
  | .SPR_PC0 => n (s.ctx r.w r.i 0).pc
  | .SPR_PC1 => n (s.ctx r.w r.i 1).pc
  | .LDG_SITE_STAT => n (Machine.setBit (s.regN .LDG_SITE_STAT r.w) 9 (s.standing r.w))
  | .LDG_JRNL_FILL => n s.jrnlFill
  | .LDG_JRNL_STAT => n (s.jrnlStat r.w)
  | .LDG_WDOG_CNT => n (s.wdogCnt r.w)
  | .GPIO_DIN => n (s.gpioDin r.i)
  | .DBG_ACC_STAT => if s.dbgLocked then n (setBitsOf (s.regN .DBG_ACC_STAT) F.DBG_ACC_STAT_STATUS.lo 4 9) else s.reg .DBG_ACC_STAT
  | .MEM_REMAP_ENTRY => s.reg .MEM_REMAP_ENTRY r.w (s.fld F.MEM_REMAP_SEL_GROUP r.w) (s.fld F.MEM_REMAP_SEL_ENTRY r.w)
  | .EVC_ACK_0 => (s.ackWord r.w r.i 0).zeroExtend 64
  | .EVC_ACK_1 => (s.ackWord r.w r.i 1).zeroExtend 64
  | .HEVC_ACK_0 => (s.ackWord 32 r.i 0).zeroExtend 64
  | .HEVC_ACK_1 => (s.ackWord 32 r.i 1).zeroExtend 64
  | .CAMP_LQ_STAGE => n (s.ldN (stageBase r.w + 4 * r.i) 4)
  | .CAMP_PSAMP_FIFO => (s.psampPop r.w).1.zeroExtend 64
  | .TSK_CPL_FIFO_W0 => (s.cplPop r.w).1.zeroExtend 64
  | .GPIO_U_RX => (s.unitRxPop r.w r.i).1.zeroExtend 64
  | .DBG_CORE_VT_IN => n (s.vtWord r.w r.i false)
  | .DBG_CORE_VT_OUT => n (s.vtWord r.w r.i true)
  | .DBG_CORE_IMEM_DATA => n (if r.i < 8 then s.ldN (s.dbgBundle r.w r.i) 8 else 0)
  | .DBG_PATCH_ADDR => if r.i < 8 then 0 else s.reg .DBG_PATCH_ADDR r.w r.i r.j
  | .DBG_PATCH_DATA => if r.i < 8 then 0 else s.reg .DBG_PATCH_DATA r.w r.i r.j
  | id => if measuredReg id then s.measured r else s.reg id r.w r.i r.j &&& id.row.rd

/-- What a read does (R8, code RC). -/
def State.regTake (s : State) (r : RegRef) : State :=
  match r.id with
  | .EVC_ACK_0 => s.ackTake r.w r.i 0
  | .EVC_ACK_1 => s.ackTake r.w r.i 1
  | .HEVC_ACK_0 => s.ackTake 32 r.i 0
  | .HEVC_ACK_1 => s.ackTake 32 r.i 1
  | .CAMP_PSAMP_FIFO => (s.psampPop r.w).2
  | .TSK_CPL_FIFO_W0 => (s.cplPop r.w).2
  | .GPIO_U_RX => (s.unitRxPop r.w r.i).2
  | .GATE_SSLACK => s.slackRead r.w r.i
  | .DBG_CORE_VT_IN => s.vtRead r.w r.i false
  | .DBG_CORE_VT_OUT => s.vtRead r.w r.i true
  | .DBG_CORE_IMEM_DATA => if r.i < 8 then s.imemRead r.w r.i else s
  | id => if measuredReg id then { s with free := s.free + 1 } else s

/-- Table 20.2. A register whose read takes a word from a FIFO. -/
def fifoPort : RegId → Bool
  | .CAMP_PSAMP_FIFO => true
  | .TSK_CPL_FIFO_W0 => true
  | .GPIO_U_RX => true
  | _ => false

/-- R7, R524. A read of the _LO of a pair: its value, with the snapshot of _HI. -/
def State.pairLoRead (s : State) (r : RegRef) : Word × State :=
  let v := s.regVal r
  (loWord v, ({ s with snap := tput s.snap r.key (hiWord v) }).regTake r)

/-- R7, R524. A peek of the _LO of a pair: the debug snapshot takes _HI (R484). -/
def State.pairLoPeek (s : State) (r : RegRef) : Word × State :=
  let v := s.regVal r
  (loWord v, { s with peekSnap := tput s.peekSnap r.key (hiWord v) })

/-- R53. The launched writes of this cycle to a register, first to last. -/
def State.shotsAt (s : State) (r : RegRef) : List LqShot :=
  s.shots.filter fun x => x.key == r.key && x.hi == r.hi && x.at_ == s.time

/-- R49, R53. What a read returns of a value formed in this cycle: the value before the launched writes of the cycle. -/
def State.shotOld (s : State) (r : RegRef) (v : Word) : Word :=
  match s.shotsAt r with
  | [] => v
  | x :: _ => x.old

/-- R7, R8. A read of a register that is there. -/
def State.refRead (s : State) (r : RegRef) : Word × State :=
  let y := if r.hi then (s.snapOf r.key, s)
    else if r.id.row.pair then s.pairLoRead r
    else (loWord (s.regVal r), s.regTake r)
  (s.shotOld r y.1, y.2)

/-- R483, R484, Table 20.2. A peek read of a register that is there. -/
def State.refPeek (s : State) (r : RegRef) : Status × Word × State :=
  if fifoPort r.id then (.peekDenied, 0, s)
  else if r.hi then (.ok, tget s.peekSnap r.key 0, s)
  else if r.id.row.pair then
    let x := s.pairLoPeek r
    (.ok, x.1, x.2)
  else (.ok, loWord (s.regVal r), s)

/-- R520, R525. A read of a register offset. -/
def State.regRead (s : State) (x : Nat) (peek : Bool) : Status × Word × State :=
  match s.findReg x with
  | none => (.ur, 0, s)
  | some o =>
    let st := s.regReach x
    if st ≠ .ok then (st, 0, s)
    else
      match o with
      | none => (.access, 0, s)
      | some r =>
        if peek then s.refPeek r
        else
          let y := s.refRead r
          (.ok, y.1, y.2)

/-- R522. A read of n words: single-word reads in ascending order, up to the first that is refused. -/
def State.regReads (peek : Bool) : Nat → Nat → State → Status × List Word × State
  | 0, _, s => (.ok, [], s)
  | n + 1, x, s =>
    let r := s.regRead x peek
    if r.1 ≠ .ok then (r.1, [], r.2.2)
    else
      let q := State.regReads peek n (x + 4) r.2.2
      (q.1, r.2.1 :: q.2.1, q.2.2)

/-- R7, R524. A read of the _LO register of a pair. -/
def execPairLoRead (x : Nat) (s : State) : Host.Outcome State Fault Refusal := .next (s.regRead x false).2.2

end Sys2Proof.Machine
end

