-- ==== Sys2Proof/Machine/Telemetry.lean ====
section
/-!
DEFINITION. Alarms, logs and traces (R425..R433, R440, R441, R443).
-/
namespace Sys2Proof.Machine

/-! ### Alarms (R427..R429) -/

/-- R428. Without an acknowledgement, the node sends its alarm write again every 10 us. -/
def execAlarmRetry (n ty : Nat) (s : State) : Host.Outcome State Fault Refusal :=
  if s.bit .TEL_ALM_PEND (ty % 32) n (ty / 32) ∧ ¬ s.hb .almTaken n ty then .next (s.alarmSend n ty) else .next s

/-- R429. The collector takes an alarm record: it activates its type or adds to it. -/
def State.alarmRecord (s : State) (ty count node : Nat) (time : Time) : State :=
  if s.bit .TEL_ALM_ACT (ty % 32) 0 (ty / 32) then
    (s.satFld F.TEL_ALM_CNT_COUNT count 0 ty).setBit .TEL_ALM_SRC node true 0 ty
  else
    (s.setBit .TEL_ALM_ACT (ty % 32) true 0 (ty / 32)
      |>.setReg .TEL_ALM_FIRST time 0 ty
      |>.setRegN .TEL_ALM_CNT count 0 ty
      |>.setRegN .TEL_ALM_SRC (2 ^ node) 0 ty).device 1034

/-- R425. DROPS received at the collector. -/
def State.dropsRx (s : State) (d : Nat) : State :=
  (s.addFld F.TEL_SRC_DROP_COUNT d).setH .telGapSum (satAdd (2 ^ 32 - 1) (s.h .telGapSum) d)

/-- R428, R429. The alarm write of type ty in flight from node n reaches the collector, which takes it once, however
often it is sent, and acknowledges it. -/
def execAlarmRecordRx (n ty : Nat) (s : State) : Host.Outcome State Fault Refusal :=
  if s.h .almSent n ty = 0 ∨ s.hb .almTaken n ty then .next s
  else
    .next (((s.alarmRecord ty (s.h .almSent n ty) n (s.hTime .almTime n ty)).dropsRx (s.h .almDrops n ty)).setH .almTaken 1
      n ty)

/-- R429. A write of TEL_ALM_ACT_w: the types of the 1 bits become inactive, with CNT and SRC 0. -/
def State.alarmClear (s : State) (w : Nat) (v : Nat) : State :=
  foldS (fun b s =>
    if s.bit .TEL_ALM_ACT b 0 w then
      (s.setBit .TEL_ALM_ACT b false 0 w).setRegN .TEL_ALM_CNT 0 0 (32 * w + b) |>.setRegN .TEL_ALM_SRC 0 0 (32 * w + b)
    else s) (indicesWhere 32 (bitOf v)) s

/-- R429. A write of TEL_ALM_ACT_w. -/
def execAlarmActClear (w : Nat) (v : Word) (s : State) : Host.Outcome State Fault Refusal :=
  .next (s.alarmClear w v.toNat)

/-- R427. A write of TEL_ALM_RAISE. -/
def State.almRaise (s : State) (n v : Nat) : State :=
  if v % 256 < 0x80 then s.setFlag F.TEL_Q_STAT_WR_IGN true n else s.alarm n (v % 256)

/-- R427. A write of TEL_ALM_RAISE. -/
def execTelAlmRaise (n : Nat) (v : Word) (s : State) : Host.Outcome State Fault Refusal :=
  wrOut .TEL_ALM_RAISE v (s.almRaise n v.toNat)

/-! ### Sending (R430, R431) -/

/-- The telemetry queue of a node. -/
def State.tq (s : State) (n : Nat) : List TelRec := tget s.telQ n []

/-- Replace the telemetry queue of a node; FILL follows. -/
def State.setTq (s : State) (n : Nat) (l : List TelRec) : State :=
  { s with telQ := tput s.telQ n l }.setFld F.TEL_Q_STAT_FILL l.length n

/-- R430. The record of a submission: the node fills in all but the class and the payload. -/
def telRecord (trace gap : Bool) (cls node port : Nat) (time : Time) (data : List Word) : List Word :=
  BitVec.ofNat 32 ((if trace then 0 else cls) + 8 * b2n gap + node * 2 ^ 8 + port * 2 ^ 14) :: loWord time :: hiWord time ::
    (List.range 5).map fun i => data.getD i 0

/-- R430, R431. One write to TEL_LOG_PORT or TEL_TRC_PORT; `whole` when it is one posted write of 32 aligned bytes. -/
def State.telSubmit (s : State) (n port : Nat) (trace : Bool) (words : List Word) (whole : Bool) : State :=
  if !whole || words.length != 8 then s.setFlag F.TEL_Q_STAT_WR_IGN true n
  else
    let q := s.tq n
    if 32 ≤ q.length + (if trace then 15 else 0) then
      (s.satFld F.TEL_Q_STAT_DROPS 1 n).setH .telDrops (satAdd 255 (s.h .telDrops n) 1) n
    else
      s.setTq n (q ++ [(⟨trace, telRecord trace false ((words.getD 0 0).toNat % 8) n port (s.nodeTime n) (words.drop 3), 0⟩ : TelRec)])

/-- R430. A log is submitted at node n by a port. -/
def execLogSubmit (n port : Nat) (words : List Word) (whole : Bool) (s : State) : Host.Outcome State Fault Refusal :=
  .next (s.telSubmit n port false words whole)

/-- R430, R431. A trace is submitted at node n by a port. -/
def execTraceSubmit (n port : Nat) (words : List Word) (whole : Bool) (s : State) : Host.Outcome State Fault Refusal :=
  .next (s.telSubmit n port true words whole)

/-! ### Collecting (R431..R433) -/

/-- The intake; TEL_STAT.INTAKE follows. -/
def State.setIntake (s : State) (l : List TelRec) : State :=
  { s with telIntake := l }.setFld F.TEL_STAT_INTAKE l.length

/-- R431. A record reaches the intake: a trace only while 32 entries are free, a log while one is. -/
def State.telArrive (s : State) (r : TelRec) : State :=
  if s.telIntake.length + (if r.trace then 31 else 0) < 64 then
    (s.setIntake (s.telIntake ++ [r])).dropsRx r.drops
  else if r.trace then s.dropsRx r.drops
  else s

/-- R425, R431. The record at the head of a node's queue is sent to the intake, with the DROPS since the last; a log that
finds no room stays. -/
def State.telSend (s : State) (n : Nat) : State :=
  match s.tq n with
  | [] => s
  | r :: q =>
    if !r.trace && decide (64 ≤ s.telIntake.length) then s
    else ((s.setTq n q).setH .telDrops 0 n).telArrive { r with drops := s.h .telDrops n }

/-- The ring registers: base, write index, read index and size. -/
def telBase (trace : Bool) : RegId := if trace then .TEL_TRC_BASE else .TEL_LOG_BASE
/-- The write index. -/
def telWr (trace : Bool) : RegId := if trace then .TEL_TRC_WR else .TEL_LOG_WR
/-- The read index. -/
def telRd (trace : Bool) : RegId := if trace then .TEL_TRC_RD else .TEL_LOG_RD
/-- The records a ring holds. -/
def State.telSize (s : State) (trace : Bool) : Nat :=
  2 ^ (if trace then s.fld F.TEL_TRC_CFG_SIZE_LOG2 else s.fld F.TEL_LOG_CFG_SIZE_LOG2)
/-- WR - RD. -/
def State.telHeld (s : State) (trace : Bool) : Nat :=
  (s.regN (telWr trace) + 2 ^ 32 - s.regN (telRd trace)) % 2 ^ 32
/-- A ring is enabled. -/
def State.telEn (s : State) (trace : Bool) : Bool := if trace then s.flag F.TEL_CTL_TRC_EN else s.flag F.TEL_CTL_LOG_EN

/-- R432. F: the free records; none while a failed write keeps the log ring full, or while the ring is off. -/
def State.telFree (s : State) (trace : Bool) : Nat :=
  if !s.telEn trace || (!trace && s.hb .telLogErr) then 0 else s.telSize trace - s.telHeld trace

/-- Store a record of 32 bytes at the write index: whether the write succeeded, and the state after. -/
def State.telStore (s : State) (trace : Bool) (w : List Word) : Bool × State :=
  let base := s.regN (telBase trace)
  let ofs := 32 * (s.regN (telWr trace) % s.telSize trace)
  let host := if trace then s.flag F.TEL_CTL_TRC_MEM else s.flag F.TEL_CTL_LOG_MEM
  let f := s.fld F.TEL_CTL_FUNC
  let bytes := w.flatMap wordBytes
  let r : Bool × State :=
    if host then
      if s.fnUsable f then (true, s.stBytes (hostBase (f / 2) + base + ofs) bytes) else (false, s)
    else
      let r := s.domeWrite (bitsOf base 40 5) (base % 2 ^ 35 + ofs) bytes false s.telNode 5
      (r.1 == Status.ok, r.2)
  if r.1 then (true, r.2.setRegN (telWr trace) ((s.regN (telWr trace) + 1) % 2 ^ 32)) else (false, r.2)

/-- The log ring has reached WM (R443). -/
def State.logWm (s : State) (before : Nat) : State :=
  let wm := s.fld F.TEL_LOG_CFG_WM
  if before < wm ∧ wm ≤ s.telHeld false then s.device 1035 else s

/-- R432. A log of class c is dropped at the ring. -/
def State.logDrop (s : State) (c : Nat) : State :=
  let was := s.flag F.TEL_STAT_LOG_DROP
  let s := (s.addFld F.TEL_LOG_DROP_COUNT 1 0 c).setH .telGap (satAdd 65535 (s.h .telGap 0 c) 1) 0 c
    |>.setFlag F.TEL_STAT_LOG_DROP true
  if was then s else s.device 1035

/-- R432. A ring write of a log failed. -/
def State.logFail (s : State) (c : Nat) : State :=
  (((s.setFlag F.TEL_STAT_LOG_ERR true).setH .telLogErr 1).device 1035).logDrop c

/-- A gap count is pending. -/
def State.gapPending (s : State) : Bool := (List.range 8).any fun c => s.hb .telGap 0 c

/-- R430, R432. The gap record. -/
def State.gapRecord (s : State) : List Word :=
  telRecord false true 7 s.telNode 0 (s.nodeTime s.telNode)
    ((List.range 4).map (fun c => BitVec.ofNat 32 (s.h .telGap 0 (2 * c) + 2 ^ 16 * s.h .telGap 0 (2 * c + 1))) ++
      [BitVec.ofNat 32 (s.h .telGapSum)])

/-- R432. The collector writes a log to its ring, after a gap record when one is due, or drops it. -/
def State.logWrite (s : State) (w : List Word) : State :=
  let c := (w.getD 0 0).toNat % 8
  let before := s.telHeld false
  let gap := s.gapPending
  if s.telFree false < 1 + (7 - c) * s.fld F.TEL_LOG_CFG_STEP + b2n gap then s.logDrop c
  else
    let r := if gap then s.telStore false s.gapRecord else (true, s)
    if !r.1 then r.2.logFail c
    else
      let s := if gap then (foldS (fun c s => s.setH .telGap 0 0 c) (List.range 8) r.2).setH .telGapSum 0 else r.2
      let r := s.telStore false w
      if r.1 then r.2.logWm before else r.2.logFail c

/-- R433. The collector samples a trace, and writes it to its ring or drops it. -/
def State.traceWrite (s : State) (w : List Word) : State :=
  let n := s.h .telSample
  let s := s.setH .telSample ((n + 1) % 2 ^ 15)
  if n % 2 ^ s.fld F.TEL_TRC_CFG_SAMPLE ≠ 0 ∨ ¬ s.flag F.TEL_CTL_TRC_EN then s
  else if s.telFree true = 0 then
    let was := s.flag F.TEL_STAT_TRC_FULL
    let s := (s.addFld F.TEL_TRC_DROP_COUNT 1).setFlag F.TEL_STAT_TRC_FULL true
    if was then s else s.device 1036
  else
    let r := s.telStore true w
    if r.1 then r.2 else r.2.addFld F.TEL_TRC_DROP_COUNT 1

/-- R432, R433. The collector takes the oldest record of its intake. -/
def State.telTake (s : State) : State :=
  match s.telIntake with
  | [] => s
  | r :: l =>
    let s := s.setIntake l
    if r.trace then s.traceWrite r.words else s.logWrite r.words

/-- R431..R433. A node's oldest record goes to the intake; with no node named, the collector writes or drops the oldest
record of the intake. -/
def execTelIntakeRecord (node : Option Nat) (s : State) : Host.Outcome State Fault Refusal :=
  match node with
  | some n => .next (s.telSend n)
  | none => .next s.telTake

/-- R425. A telemetry-class WRITE to TEL_INTAKE, by the KIND of its header word 3: an alarm, a log or a trace. -/
def State.telPacket (s : State) (node hdr : Nat) (w : List Word) : State :=
  let drops := bitsOf hdr 8 8
  match hdr % 4 with
  | 0 =>
    (s.alarmRecord ((w.getD 0 0).toNat % 256) ((w.getD 0 0).toNat / 2 ^ 16) node (pairOf (w.getD 1 0) (w.getD 2 0))).dropsRx
      drops
  | 1 => s.telArrive ⟨false, (List.range 8).map fun i => w.getD i 0, drops⟩
  | 2 => s.telArrive ⟨true, (List.range 8).map fun i => w.getD i 0, drops⟩
  | _ => s

/-! ### Registers (R432, R440) -/

/-- A write to the global TEL block is ignored. -/
def State.telIgn (s : State) : State := s.setFlag F.TEL_STAT_WR_IGN true

/-- R432. A write of TEL_LOG_RD or TEL_TRC_RD. -/
def State.telRdWrite (s : State) (trace : Bool) (v : Nat) : State :=
  if (s.regN (telWr trace) + 2 ^ 32 - v) % 2 ^ 32 ≤ s.telSize trace then s.setRegN (telRd trace) v else s.telIgn

/-- R432. A write of TEL_LOG_RD or TEL_TRC_RD. -/
def execTelLogRdWrite (trace : Bool) (v : Word) (s : State) : Host.Outcome State Fault Refusal :=
  .next (s.telRdWrite trace v.toNat)

/-- R440, R432. A write of TEL_CTL: setting an enable zeroes its ring's indices. -/
def State.telCtlWrite (s : State) (v : Nat) : State :=
  let log := s.flag F.TEL_CTL_LOG_EN
  let trc := s.flag F.TEL_CTL_TRC_EN
  let s := s.setRegN .TEL_CTL (v % 2 ^ 6)
  let s := if bitOf v 0 && !log then ((s.setRegN .TEL_LOG_WR 0).setRegN .TEL_LOG_RD 0).setH .telLogErr 0 else s
  if bitOf v 1 && !trc then ((s.setRegN .TEL_TRC_WR 0).setRegN .TEL_TRC_RD 0).setH .telSample 0 else s

/-- R440. A write of TEL_CTL. -/
def execTelRingEnable (v : Word) (s : State) : Host.Outcome State Fault Refusal := wrOut .TEL_CTL v (s.telCtlWrite v.toNat)

/-- R440. A write of a ring's base or set-up: only while the ring is off. -/
def State.telSetup (s : State) (trace : Bool) (id : RegId) (v : DWord) : State :=
  if s.telEn trace then s.telIgn else s.setReg id (v &&& id.row.rw)

end Sys2Proof.Machine
end

