-- ==== Sys2Proof/Machine/RegWrite.lean ====
section
/-!
DEFINITION. Writes of registers by a requester (R7..R9, R520, R522, R524). Each block's function names its registers that
do more than keep a value; the rest follow their access codes.
-/
namespace Sys2Proof.Machine

/-- R8. A write under the access codes alone: RW bits take the value, W1C bits clear where it has a 1, and the rest stay. -/
def State.rwWrite (s : State) (r : RegRef) (d : DWord) : State :=
  let row := r.id.row
  let old := s.reg r.id r.w r.i r.j
  s.setReg r.id ((d &&& row.rw) ||| (old &&& ~~~row.rw &&& ~~~(d &&& row.w1c))) r.w r.i r.j

/-- Writes of the CAMP blocks, their launch queues and staging areas. -/
def State.setCamp (s : State) (r : RegRef) (d : DWord) : State :=
  let v := loWord d
  match r.id with
  | .CAMP_SITE_TRIM_USER => s.siteTrimWrite r.w v
  | .CAMP_TWR_TRIM_USER => s.towerTrimWrite r.w v
  | .CAMP_CTL => s.campCtlWrite v
  | .CAMP_REF_CFG => s.freqWrite v
  | .CAMP_XFER_CTL => s.xferCtlWrite v
  | .CAMP_ADJ_CTL => if bitOf v.toNat 0 then s.adjGo else s
  | .CAMP_LQ_PUSH => if r.j = 7 then s.lqPush r.w r.i v else s.setReg r.id d r.w r.i r.j
  | .CAMP_LQ_CTL => s.lqCtlWrite r.w r.i v
  | .CAMP_LQ_STAGE => s.stN (stageBase r.w + 4 * r.i) 4 v.toNat
  | _ => s.rwWrite r d

/-- Writes of the global CFG block and of the per-pavilion CFG blocks. -/
def State.setCfg (s : State) (r : RegRef) (d : DWord) (who : Requester) : State :=
  let v := loWord d
  match r.id with
  | .CFG_FOLLY_STAGE => if s.isPresiding who then s.rwWrite r d else s
  | .CFG_PMAP_CTL => s.pmapCtlWrite v.toNat who
  | .CFG_LOAD_CTL => s.loadCtlWrite v.toNat who
  | .CFG_UKEY_W => s.setReg r.id d r.w r.i r.j
  | .CFG_PLL_CFG => s.fabRegWrite r.w r.id r.i r.j v
  | .CFG_PLL_DIV => s.fabRegWrite r.w r.id r.i r.j v
  | .CFG_PLL_CTL => s.fabRegWrite r.w r.id r.i r.j v
  | .CFG_GCLK => s.fabRegWrite r.w r.id r.i r.j v
  | .CFG_RST => s.fabRegWrite r.w r.id r.i r.j v
  | .CFG_FEVT => s.fabRegWrite r.w r.id r.i r.j v
  | .CFG_FTIME => s.fabRegWrite r.w r.id r.i r.j v
  | .CFG_SPORT => s.fabRegWrite r.w r.id r.i r.j v
  | .CFG_XOUT => s.fabRegWrite r.w r.id r.i r.j v
  | .CFG_XIN => s.fabRegWrite r.w r.id r.i r.j v
  | .CFG_FEP => s.fabRegWrite r.w r.id r.i r.j v
  | .CFG_VER_CTL => s.verCtlWrite r.w v.toNat
  | .CFG_PLOT_CTL => if bitOf v.toNat 0 then s.plotGo r.w r.i else s
  | .CFG_PLOT_SRC => s.plotSetup r.w r.i r.id r.j v
  | .CFG_PLOT_LEN => s.plotSetup r.w r.i r.id r.j v
  | .CFG_PLOT_HPOL => s.plotSetup r.w r.i r.id r.j v
  | _ => s.rwWrite r d

/-- Writes of the LDG blocks. -/
def State.setLdg (s : State) (r : RegRef) (d : DWord) (who : Requester) : State :=
  let v := loWord d
  match r.id with
  | .LDG_CORE_CTL => if bitOf v.toNat 0 then s.lodgeReset r.w else s
  | .LDG_WDOG_CTL => s.wdogCtlWrite r.w v.toNat
  | .LDG_WDOG_KICK => s.wdogReload r.w
  | .LDG_RST_CTL => s.rstCtlWrite v.toNat who
  | .LDG_SUB_CFG => if s.ldgMay who then (s.rwWrite r d).subAuto else s.subIgn
  | .LDG_SUB_CTL => s.subCtlWrite v.toNat who
  | .LDG_SUB_CAND => if s.ldgMay who then s.rwWrite r d else s.subIgn
  | _ => s.rwWrite r d

/-- Writes of the TEL blocks. -/
def State.setTel (s : State) (r : RegRef) (d : DWord) : State :=
  let v := loWord d
  match r.id with
  | .TEL_LOG_PORT => s.telSubmit r.w (telPort r.w) false [v] false
  | .TEL_TRC_PORT => s.telSubmit r.w (telPort r.w) true [v] false
  | .TEL_ALM_RAISE => s.almRaise r.w v.toNat
  | .TEL_ALM_ACT => s.alarmClear r.i v.toNat
  | .TEL_CTL => s.telCtlWrite v.toNat
  | .TEL_LOG_BASE => s.telSetup false r.id d
  | .TEL_LOG_CFG => s.telSetup false r.id d
  | .TEL_TRC_BASE => s.telSetup true r.id d
  | .TEL_TRC_CFG => s.telSetup true r.id d
  | .TEL_LOG_RD => s.telRdWrite false v.toNat
  | .TEL_TRC_RD => s.telRdWrite true v.toNat
  | _ => s.rwWrite r d

/-- R275. A write of a controller's CTL: HOLD is set or released. -/
def State.evCtlWrite (s : State) (c v : Nat) : State := if bitOf v 0 then s.holdSet c else s.holdRelease c

/-- R271. A write of a target's CTL: WAKE is kept, STK_CLR acts. -/
def State.evTgtCtl (s : State) (r : RegRef) (c : Nat) (d : DWord) : State :=
  let s := s.rwWrite r d
  if bitOf d.toNat 1 then s.stkClear c r.i else s

/-- Writes of the event controllers. -/
def State.setEvc (s : State) (r : RegRef) (d : DWord) : State :=
  let v := loWord d
  match r.id with
  | .EVC_CTL => s.evCtlWrite r.w v.toNat
  | .HEVC_CTL => s.evCtlWrite 32 v.toNat
  | .EVC_SWRAISE => s.raise r.w (v.toNat % evSources r.w)
  | .HEVC_SWRAISE => s.raise 32 (v.toNat % evSources 32)
  | .EVC_PEND => s.pendWrite r.w r.i v
  | .HEVC_PEND => s.pendWrite 32 r.i v
  | .EVC_MASK => s.maskWrite r.w r.i v
  | .HEVC_MASK => s.maskWrite 32 r.i v
  | .EVC_SGRP => s.sgrpWrite r.w r.i v
  | .HEVC_SGRP => s.sgrpWrite 32 r.i v
  | .EVC_EOI => s.eoi r.w r.i (v.toNat % 2)
  | .HEVC_EOI => s.eoi 32 r.i (v.toNat % 2)
  | .EVC_TGT_CTL => s.evTgtCtl r r.w d
  | .HEVC_TGT_CTL => s.evTgtCtl r 32 d
  | _ => s.rwWrite r d

/-- Writes of the tower blocks XFL and TIO, and of the Lartum links. -/
def State.setLinks (s : State) (r : RegRef) (d : DWord) (who : Requester) : State :=
  let v := loWord d
  match r.id with
  | .XFL_LANE_CFG => (s.laneCfgWrite r.w r.i v).rateFollow r.w r.i
  | .XFL_LANE_CTL => s.laneCtlWrite r.w r.i v
  | .TIO_ANCHOR => s.tioAnchorWrite r.w d
  | .TIO_GRP_CFG => s.tioCfgWrite r.w r.i v.toNat
  | .TIO_GRP_DECL => s.tioWordWrite r.w r.i r.id v
  | .TIO_GRP_LAT => s.tioWordWrite r.w r.i r.id v
  | .LRT_LINK_CTL => s.lrtCtlWrite r.w r.i v.toNat who
  | .LRT_LINK_LANE_THR => s.lrtThrWrite r.w r.i v.toNat who
  | .ANX_CFG => s.anxCfgWrite r.i v
  | _ => s.rwWrite r d

/-- Writes of the blocks of the outside interfaces: GPIO, PCIE, ETH, XCV, and the debug engine. -/
def State.setOuter (s : State) (r : RegRef) (d : DWord) : State :=
  let v := loWord d
  match r.id with
  | .GPIO_DOUT => s.gpioMasked .GPIO_DOUT r.i v.toNat
  | .GPIO_OE => s.gpioMasked .GPIO_OE r.i v.toNat
  | .GPIO_FUNC => s.gpioFuncWrite r.i v.toNat
  | .GPIO_U_CFG => s.unitCfgWrite r.w r.i v.toNat
  | .GPIO_U_TX => s.unitTxPush r.w r.i v
  | .DBG_UNLOCK_CTL => if bitOf v.toNat 0 then s.unlockGo else s
  | .DBG_ACC_CTL => s.dbgAccWrite v.toNat
  | .PCIE_EP_CTL => s.epCtlWrite r.i v.toNat
  | .PCIE_FN_CFG => s.fnCfgWrite r.i v.toNat
  | .ETH_CTL => s.ethCtlWrite r.w v.toNat
  | .ETH_SEC_CTL => s.secCtlWrite r.w v.toNat
  | .ETH_SEC_SA_KEY_W => s.saWrite r.w r.id r.i r.j d
  | .ETH_SEC_SA_SALT_W => s.saWrite r.w r.id r.i r.j d
  | .ETH_SEC_SA_SSCI => s.saWrite r.w r.id r.i r.j d
  | .ETH_SEC_SA_TXPN => s.saWrite r.w r.id r.i r.j d
  | .ETH_SEC_SA_RXPN => s.saWrite r.w r.id r.i r.j d
  | .XCV_QUAD_CFG => s.xcvQuadWrite r.w r.i v.toNat
  | .XCV_QUAD_REF => s.xcvRefWrite r.w r.i v.toNat
  | .XCV_LANE_CFG => s.xcvCfgWrite r.w r.i v.toNat
  | .XCV_LANE_CTL => s.xcvCtlWrite r.w r.i v.toNat
  | .XCV_LANE_TXEQ => s.xcvTxeqWrite r.w r.i v.toNat
  | _ => s.rwWrite r d

/-- R187. A write of ADM_CMD. -/
def State.admCmd (s : State) (v : Nat) : State :=
  match bitsOf v 12 3 with
  | 1 => s.admAdmit (bitsOf v 0 12)
  | 2 => s.admRelease (bitsOf v 0 12)
  | 3 => s.admQuery (bitsOf v 0 12)
  | _ => s

/-- Writes of the ADM and RDO blocks. -/
def State.setRdo (s : State) (r : RegRef) (d : DWord) : State :=
  let v := loWord d
  match r.id with
  | .ADM_CFG => s.admCfgWrite v
  | .ADM_CMD => s.admCmd v.toNat
  | .RDO_CTL => s.rdoEn (bitOf v.toNat 0)
  | .RDO_EVNUM => s.evnumWrite d
  | .RDO_ACC_PORT => (s.accPort [v] false none).2
  | .RDO_SSET_W => s.ssetWrite r.i r.j v
  | .RDO_NUDGE => s.nudge r.i
  | .RDO_QP_SQ_BASE => s.qpWordWrite r.i r.id d
  | .RDO_QP_CQ_BASE => s.qpWordWrite r.i r.id d
  | .RDO_QP_DB => s.qpWordWrite r.i r.id d
  | .RDO_QP_CFG => s.qpCfgWrite r.i v.toNat
  | .RDO_QP_CTL => s.qpCtlWrite r.i v.toNat
  | .RDO_QP_SQ_HEAD => s.qpRoWrite r.i
  | .RDO_QP_CQ_TAIL => s.qpRoWrite r.i
  | .RDO_QP_JSEQ => s.qpRoWrite r.i
  | .RDO_QP_DSEQ => s.qpRoWrite r.i
  | .RDO_QP_ERR_SEQ => s.qpRoWrite r.i
  | _ => s.rwWrite r d

/-- R220, R232, R213. A write of SPR_CTL: CLRF, EN, LOAD, and CRST last. -/
def State.sprCtlWrite (s : State) (p k v : Nat) : State :=
  let s := if bitOf v 3 then s.sprClrf p k 0 else s
  let s := if bitOf v 4 then s.sprClrf p k 1 else s
  let s := s.sprEn p k (bitOf v 0)
  let s := if bitOf v 1 then s.sprLoad p k else s
  if bitOf v 2 then s.sprCrst p k else s

/-- Writes of the TSK and SPR blocks. -/
def State.setTsk (s : State) (r : RegRef) (d : DWord) : State :=
  let v := loWord d
  match r.id with
  | .TSK_CTL => s.tskCtlWrite r.w v.toNat
  | .TSK_CMD_W => if r.i = 7 then s.tskRegCommit r.w v else s.setReg r.id d r.w r.i r.j
  | .TSK_CMD_PORT => (s.tskPort r.w [v] false).2
  | .TSK_LDG_DONE => s.ldgDone r.w
  | .TSK_CPL_STAT => s.cplThrWrite r.w (bitsOf v.toNat 16 11)
  | .TSK_FLOW_CMD => s.tskFlowCmd r.w v.toNat
  | .TSK_FLOW => s.tskFlowWrite r.w r.i v.toNat
  | .SPR_CTL => s.sprCtlWrite r.w r.i v.toNat
  | .SPR_START => s.sprStartWrite r.w r.i v.toNat
  | .SPR_DMA_CTL => s.dmaCtlWrite r.w r.i r.j v.toNat
  | .SPR_FEED_CFG => s.feedCfgWrite r.w r.i r.j v.toNat
  | .SPR_FEED_SBASE => s.feedSetupWrite r.w r.i r.j r.id v
  | .SPR_FEED_SLEN => s.feedSetupWrite r.w r.i r.j r.id v
  | .SPR_FEED_PBASE => s.feedSetupWrite r.w r.i r.j r.id v
  | .SPR_FEED_PLEN => s.feedSetupWrite r.w r.i r.j r.id v
  | .SPR_FEED_RIDX => s.feedRidxWrite r.w r.i r.j v.toNat
  | _ => s.rwWrite r d

/-- Writes of the GATE, DOME, PRM, MEM and THM blocks. -/
def State.setPav (s : State) (r : RegRef) (d : DWord) (who : Requester) : State :=
  let v := loWord d
  match r.id with
  | .GATE_CTL => s.gateCtlWrite r.w v
  | .GATE_STRM_CMD => if bitsOf v.toNat 8 3 = 0 then s else s.strmCmd r.w (bitsOf v.toNat 0 8) (bitsOf v.toNat 8 3)
  | .GATE_SENT_W => s.sentWrite r.w r.i r.j v.toNat
  | .DOME_CTL => s.domeCtlWrite r.w v
  | .DOME_SCHED => (s.rwWrite r d).batchFollow r.w
  | .DOME_PORT_CFG => s.rwWrite r (d &&& 0x3c)
  | .DOME_RING_CFG => s.ringCfgWrite r.w r.i v
  | .DOME_RING_IDX_BASE => s.ringWordWrite r.w r.i r.id v
  | .DOME_RING_DATA_BASE => s.ringWordWrite r.w r.i r.id v
  | .DOME_RING_DATA_LINES => s.ringWordWrite r.w r.i r.id v
  | .PRM_FENCE_CTL => s.fenceWrite r.w v.toNat
  | .PRM_ISO => s.isoWrite r.w true (hiWord d) who
  | .MEM_REMAP_ENTRY => s.remapWrite r.w v.toNat who
  | .MEM_KEY_BASE => s.keySetup r.w r.i r.id r.j v who
  | .MEM_KEY_PAGES => s.keySetup r.w r.i r.id r.j v who
  | .MEM_KEY_META => s.keySetup r.w r.i r.id r.j v who
  | .MEM_KEY_MLINES => s.keySetup r.w r.i r.id r.j v who
  | .MEM_KEY_KEY_W => if r.j = 7 then s.keyW7 r.w r.i v who else s.keySetup r.w r.i r.id r.j v who
  | .MEM_KEY_CTL =>
    if bitOf v.toNat 1 then s.keyRetire r.w r.i who
    else if bitOf v.toNat 0 then s.keyStart r.w r.i who else s
  | .THM_PWR_CTL => s.pwrWrite r.w v.toNat who
  | _ => s.rwWrite r d

/-- The effect of giving a register its value, where the value is defined (R9). -/
def State.regSet (s : State) (r : RegRef) (d : DWord) (who : Requester) : Option State :=
  if !r.id.defined d.toNat then none
  else
    match r.id.row.block with
    | .siteId => some s
    | .towerId => some s
    | .campS => some (s.setCamp r d)
    | .campT => some (s.setCamp r d)
    | .campG => some (s.setCamp r d)
    | .campP => some (s.setCamp r d)
    | .lq => some (s.setCamp r d)
    | .lqStage => some (s.setCamp r d)
    | .cfgG => some (s.setCfg r d who)
    | .cfgP => some (s.setCfg r d who)
    | .ldgS => some (s.setLdg r d who)
    | .ldgG => some (s.setLdg r d who)
    | .telN => some (s.setTel r d)
    | .telG => some (s.setTel r d)
    | .evc => some (s.setEvc r d)
    | .hevc => some (s.setEvc r d)
    | .xfl => some (s.setLinks r d who)
    | .tio => some (s.setLinks r d who)
    | .lrt => some (s.setLinks r d who)
    | .lrtFuseS => some s
    | .anx => some (s.setLinks r d who)
    | .gpio => some (s.setOuter r d)
    | .gpioU => some (s.setOuter r d)
    | .dbgG => some (s.setOuter r d)
    | .pcie => some (s.setOuter r d)
    | .eth => some (s.setOuter r d)
    | .xcv => some (s.setOuter r d)
    | .adm => some (s.setRdo r d)
    | .rdo => some (s.setRdo r d)
    | .rdoQp => some (s.setRdo r d)
    | .tsk => some (s.setTsk r d)
    | .spr => some (s.setTsk r d)
    | .gate => some (s.setPav r d who)
    | .dome => some (s.setPav r d who)
    | .prm => some (s.setPav r d who)
    | .mem => some (s.setPav r d who)
    | .thm => some (s.setPav r d who)
    | .dbgC =>
      match s.dbgCoreWrite r.w r.i r.id r.j d who with
      | .next t => some t
      | _ => none

/-- R7, R166. A write of a _LO register: only the write stage of the pair takes the value. A queue pair's registers take no
write while it is not DISABLED. -/
def State.pairLoWrite (s : State) (r : RegRef) (v : Word) : State :=
  if qpPair r.id && s.qpState r.i != 0 then s.qpIgn r.i else { s with stage := tput s.stage r.key v }

/-- R7. A write of a _HI register: the pair takes the stage and the word. -/
def State.pairHiWrite (s : State) (r : RegRef) (v : Word) (who : Requester) : Option State :=
  s.regSet r (pairOf (s.stageOf r.key) v) who

/-- R53. What a software or debug write gives a register in the cycle of a launched write: the launched bits win. -/
def State.shotMask (s : State) (r : RegRef) (v : Word) (who : Requester) : Word :=
  match who with
  | .launch _ _ => v
  | _ => (s.shotsAt r).foldl (fun v x => (v &&& ~~~x.mask) ||| (x.data &&& x.mask)) v

/-- R7, R8, R53. A write of a register that is there. -/
def State.refWrite (s : State) (r : RegRef) (v : Word) (who : Requester) : Option State :=
  let v := s.shotMask r v who
  if r.hi then s.pairHiWrite r v who
  else if r.id == .PRM_ISO then some (s.isoWrite r.w false v who)
  else if r.id.row.pair then some (s.pairLoWrite r v)
  else s.regSet r (v.zeroExtend 64) who

/-- R520, R525. A write of a register offset: its status, and the state after it; `none` where the value's effect is not
defined (R9). -/
def State.regWrite (s : State) (x : Nat) (v : Word) (who : Requester) : Option (Status × State) :=
  match s.findReg x with
  | none => some (.ur, s)
  | some o =>
    let st := s.regReach x
    if st ≠ .ok then some (st, s)
    else
      match o with
      | none => some (.access, s)
      | some r => (s.refWrite r v who).map fun t => (.ok, t)

/-- R522. A write of words: single-word writes in ascending order, up to the first that is refused. -/
def State.regWrites (who : Requester) : List Word → Nat → State → Option (Status × State)
  | [], _, s => some (.ok, s)
  | v :: vs, x, s =>
    match s.regWrite x v who with
    | none => none
    | some (st, t) => if st ≠ .ok then some (st, t) else State.regWrites who vs (x + 4) t

/-- The outcome of a write that may have no defined effect (R9). -/
def outOf (r : Option State) : Host.Outcome State Fault Refusal :=
  match r with
  | some t => .next t
  | none => .fault .undefinedFieldValue

/-- R7. A write of the _LO register of a pair. -/
def execPairLoWrite (x : Nat) (v : Word) (who : Requester) (s : State) : Host.Outcome State Fault Refusal :=
  outOf ((s.regWrite x v who).map Prod.snd)

/-- R7. A write of the _HI register of a pair. -/
def execPairHiWrite (x : Nat) (v : Word) (who : Requester) (s : State) : Host.Outcome State Fault Refusal :=
  outOf ((s.regWrite x v who).map Prod.snd)

/-- R8. A write of a register. -/
def execRegisterWrite (x : Nat) (v : Word) (who : Requester) (s : State) : Host.Outcome State Fault Refusal :=
  outOf ((s.regWrite x v who).map Prod.snd)

end Sys2Proof.Machine
end

