-- ==== Sys2Proof/Machine/Access.lean ====
section
/-!
DEFINITION. Requests performed at their targets: Promenade reads, writes and atomics, peek reads, BAR0 accesses, and the
register writes of launch queues (R51, R52, R266, R315..R317, R330, R331, R453, R483, R498, R521, R523).
-/
namespace Sys2Proof.Machine

/-! ### Atomics (Table 8.3) -/

/-- Table 8.3. What an atomic stores: `a` is the operand, or the compare word of CAS with `b` the new word. -/
def amoNew (fn : Nat) (old a b : Word) : Word :=
  match fn with
  | 1 => a
  | 2 => a
  | 3 => old + a
  | 4 => old &&& a
  | 5 => old ||| a
  | 6 => if old.toInt ≤ a.toInt then old else a
  | 7 => if old.toInt ≤ a.toInt then a else old
  | 8 => if old = a then b else old
  | _ => old

/-! ### Requesters and targets -/

/-- Who sent a packet: its source node and port (Table 12.1). -/
def State.pktWho (s : State) (w : List Word) : Requester :=
  let n := pktSrc w
  let q := pktPort w
  if 40 ≤ n then .annex (n - 40)
  else if 32 ≤ n then (if q = 2 then .host (2 * ((n - 32) / 4)) else if q = 4 then .launch n 0 else .debug)
  else if q < 64 then .fabric n q
  else if q < 80 then .spire n ((q - 64) / 2) (q % 2)
  else if q < 112 then .dma n ((q - 80) / 4) (q % 4)
  else if q = 112 then .lodge (s.siteOf n)
  else .launch n 0

/-- What a LOCAL address names at node n (Table 12.5). -/
inductive LocalAt where
  /-- bytes of a memory at `base`, with the reservation entries `resv` (R331) -/
  | mem (base resv off : Nat)
  /-- a fabric endpoint -/
  | fabric
  | ur
  | access
deriving DecidableEq, Repr

/-- Table 12.5. The unit of a LOCAL address. -/
def State.localAt (s : State) (n a : Nat) : LocalAt :=
  let u := bitsOf a 36 4
  let off := bitsOf a 0 36
  if u < 8 then (if off < dmemSize then .mem (dmemBase n u) (64 + 8 * n + u) off else .access)
  else if u = 8 then (if off < 2 ^ 18 then .mem (sramBase (s.siteOf n)) (400 + s.siteOf n) off else .access)
  else if u = 9 then .fabric
  else .ur

/-- The bytes of words. -/
def wordsBytes (l : List Word) : List Byte := l.flatMap wordBytes

/-- What a served request answers: now, or later, when its target has performed it. -/
structure Served where
  status : Status
  poison : Bool
  result : Nat
  data : List Word
  state : State
  later : Bool := false

/-- A request answered without data. -/
def served (st : Status) (s : State) : Served := ⟨st, false, 0, [], s, false⟩

/-- A request that a dome has queued is answered when it is over; one that met an error, at once. -/
def queued (st : Status) (s : State) : Served := ⟨st, false, 0, [], s, st == .ok⟩

/-- R327, R317. The status a request meets at node n before its target counts. A register request is checked by its
window (Table 22.4). -/
def State.nodeReach (s : State) (n : Nat) (w : List Word) : Status :=
  let a := pktAddr w
  if s.addrNode a ≠ n then .ur
  else if a / 2 ^ 45 ≠ 1 ∧ n < 32 ∧ s.portClosed n (reqPort w) then .fenced
  else .ok

/-- Reserved bits of a register-space or dome address are 0 (Table 12.5). -/
def addrOk (a : Nat) : Bool :=
  match a / 2 ^ 45 with
  | 0 => bitsOf a 35 5 == 0
  | 1 => bitsOf a 26 19 == 0
  | _ => true

/-! ### Reads (R315, R483) -/

/-- R212, R381. A parity error at a byte of a Spire's data memory or of the lodge SRAM of node n, which a read of the `rs`
memory found. -/
def State.localParity (s : State) (n rs e : Nat) : State :=
  if rs < 400 then s.dmemParity n (rs % 8) e else s.sramUncorrectable n (2088 + e / 65536) (e % 65536 / 16)

/-- R315, R317. A READ at node n; `fabStatus` and `fabData` are what a fabric endpoint answers, and `par` the byte at which
data memory or lodge SRAM holds a parity error, if any: a read of it returns poison (R212, R381). -/
def State.serveRead (s : State) (n : Nat) (w : List Word) (fabStatus : Status) (fabData : List Word) (par : Option Nat) :
    Served :=
  let a := pktAddr w
  let len := pktLen w
  let st := s.nodeReach n w
  if st ≠ .ok then served st s
  else if !addrOk a then served .ur s
  else
    match a / 2 ^ 45 with
    | 0 =>
      let r := s.domeReadReq n (bitsOf a 0 35) (4 * len) (pktHint w) (n, w)
      queued r.1 r.2
    | 1 =>
      let r := State.regReads (pktPeek w) len (a % 2 ^ 26) s
      ⟨r.1, false, 0, r.2.1, r.2.2, false⟩
    | 2 =>
      match s.localAt n a with
      | .mem base rs off =>
        let data := bytesWords (s.ldBytes (base + off) (4 * len))
        match par.filter fun e => decide (off ≤ e) && decide (e < off + 4 * len) with
        | some e => ⟨.ok, true, 0, data, s.localParity n rs e, false⟩
        | none => ⟨.ok, false, 0, data, s, false⟩
      | .fabric => ⟨fabStatus, false, 0, (List.range len).map fun i => fabData.getD i 0, s, false⟩
      | .ur => served .ur s
      | .access => served .access s
    | _ => served .ur s

/-- The delivered packet leaves the node and its answer enters the network; refused reads carry data 0. A request that a
dome has queued is answered when the dome has performed it (`State.txnAnswer`), and a write of RDO_ACC_PORT that was taken
when its accept is accepted (R141). -/
def Served.finish (r : Served) (n : Nat) (w : List Word) (len : Nat) : State :=
  let data := if r.status = .ok then r.data else List.replicate len 0
  if r.later || r.state.accIn.any fun a => a.req == some (n, w) then r.state
  else r.state.prmAnswer n (reqPort w) w r.status.code r.result r.poison data

/-- R315. A READ at its target. -/
def State.prmRead (s : State) (n : Nat) (w : List Word) (fabStatus : Status) (fabData : List Word) (par : Option Nat) :
    State :=
  let s := s.setPRx n ((s.pRx n).erase w)
  (s.serveRead n w fabStatus fabData par).finish n w (pktLen w)

/-- R315. A READ request at its target, `n`. -/
def execPrmRead (n : Nat) (pkt : List Word) (fabStatus : Status) (fabData : List Word) (par : Option Nat) (s : State) :
    Host.Outcome State Fault Refusal :=
  if (s.pRx n).contains pkt ∧ pktClass pkt ≠ 1 ∧ pktOp pkt = 1 ∧ ¬ pktPeek pkt then
    .next (s.prmRead n pkt fabStatus fabData par)
  else .next s

/-- R483, R484. A peek read at its target. -/
def execPeekRead (n : Nat) (pkt : List Word) (fabStatus : Status) (fabData : List Word) (s : State) :
    Host.Outcome State Fault Refusal :=
  if (s.pRx n).contains pkt ∧ pktOp pkt = 1 ∧ pktPeek pkt then .next (s.prmRead n pkt fabStatus fabData none)
  else .next s

/-! ### Writes (R315, R316) -/

/-- R239, R141, R428. A write of a command or record port. A command or accept port takes 8 words at its base, and answers
a write of any other shape that touches it BAD (R316). -/
def State.portWrite (s : State) (n : Nat) (w : List Word) (r : RegRef) (vs : List Word) : Option (Nat × State) :=
  let whole := decide (vs.length = 8) && pktNonPosted w && r.i == 0
  match r.id with
  | .TSK_CMD_PORT => some (s.tskPort r.w vs whole)
  | .RDO_ACC_PORT => some (s.accPort vs whole (some (n, w)))
  | _ =>
  if r.i ≠ 0 then none
  else
    match r.id with
    | .TEL_LOG_PORT => if vs.length = 8 then some (0, s.telSubmit r.w (telPort r.w) false vs true) else none
    | .TEL_TRC_PORT => if vs.length = 8 then some (0, s.telSubmit r.w (telPort r.w) true vs true) else none
    | .TEL_INTAKE => if pktClass w = 3 then some (0, s.telPacket (pktSrc w) (pw w 3) vs) else none
    | _ => none

/-- R522, R316, R425. A WRITE in the register space (BAD for the last KIND of a telemetry packet); `none` where a value's effect is not defined (R9). -/
def State.serveRegWrite (s : State) (n : Nat) (w : List Word) (x : Nat) (vs : List Word) : Option Served :=
  let port := match s.findReg x with
    | some (some r) => if s.regReach x = .ok then s.portWrite n w r vs else none
    | _ => none
  let bad := match s.findReg x with
    | some (some r) => r.id == .TEL_INTAKE && pktClass w == 3 && (pw w 3) % 4 == 3
    | _ => false
  if bad && s.regReach x == .ok then some (served .bad s)
  else
  match port with
  | some (res, t) => some ⟨.ok, false, res, [], t, false⟩
  | none => (State.regWrites (s.pktWho w) vs x s).map fun (r : Status × State) => served r.1 r.2

/-- R315, R317. A WRITE at node n. -/
def State.serveWrite (s : State) (n : Nat) (w : List Word) (fabStatus : Status) : Option Served :=
  let a := pktAddr w
  let vs := pktPayload w
  let st := s.nodeReach n w
  if st ≠ .ok then some (served st s)
  else if !addrOk a then some (served .ur s)
  else
    match a / 2 ^ 45 with
    | 0 =>
      let r := s.domeWriteReq n (bitsOf a 0 35) (wordsBytes vs) (pktPoison w) (pktClass w == 2) (pktHint w)
        (pktSrc w, pktPort w) (some (n, w))
      some (queued r.1 r.2)
    | 1 => s.serveRegWrite n w (a % 2 ^ 26) vs
    | 2 =>
      match s.localAt n a with
      | .mem base rs off =>
        some (served .ok (foldS (fun l s => s.resvHit rs l (pktSrc w) (pktPort w)) (linesOf off (4 * vs.length))
          (s.stBytes (base + off) (wordsBytes vs))))
      | .fabric => some (served fabStatus s)
      | .ur => some (served .ur s)
      | .access => some (served .access s)
    | _ => some (served .ur s)

/-- R315. A WRITE request at its target, `n`. -/
def execPrmWrite (n : Nat) (pkt : List Word) (fabStatus : Status) (s : State) : Host.Outcome State Fault Refusal :=
  if (s.pRx n).contains pkt ∧ pktClass pkt ≠ 1 ∧ pktOp pkt = 2 then
    let s := s.setPRx n ((s.pRx n).erase pkt)
    outOf ((s.serveWrite n pkt fabStatus).map fun (r : Served) => r.finish n pkt 0)
  else .next s

/-! ### Atomics (R330, R331, R266, R498) -/

/-- R330. A read-modify-write of one word of a memory: `ld` and `st` are its access, `rs` its reservation entries. -/
def State.amoMem (s : State) (rs off fn : Nat) (a b old : Word) (node port : Nat) (st : State → Word → State) :
    Word × State :=
  let l := off / 64
  match fn with
  | 0 => (old, s.resvSet rs l node port)
  | 1 =>
    if s.resvHeld rs l node port then (0, ((st s a).resvHit rs l node port).resvDrop rs node port)
    else (1, s.resvDrop rs node port)
  | _ => (old, (st s (amoNew fn old a b)).resvHit rs l node port)

/-- R330, R331. What an atomic of a dome's line comes to: `held` says that its requester holds a reservation on the line. -/
def amoPlan (fn : Nat) (a b : Word) (held : Bool) (old : Word) : AmoPlan :=
  match fn with
  | 0 => ⟨false, old, old, true⟩
  | 1 => if held then ⟨true, a, 0, true⟩ else ⟨false, old, 1, true⟩
  | _ => ⟨true, amoNew fn old a b, old, fn == 2⟩

/-- R330, R331. An ATOMIC at the dome of node n: an LR sets its requester's reservation, and an SC drops it. -/
def State.domeAmo (s : State) (n : Nat) (w : List Word) (a b : Word) : Served :=
  let off := bitsOf (pktAddr w) 0 35
  let l := off % 2 ^ 31 / 64
  let fn := pktAfn w
  let who := (pktSrc w, pktPort w)
  let r := s.domeAmoReq n off (pktHint w) (amoPlan fn a b (s.resvHeld n l who.1 who.2)) who (n, w)
  queued r.1 (match r.2.1 with
    | none => r.2.2
    | some _ => if fn = 0 then r.2.2.resvSet n l who.1 who.2 else if fn = 1 then r.2.2.resvDrop n who.1 who.2 else r.2.2)

/-- R266, R498. An atomic whose write part is ignored. -/
def amoReadOnly : RegId → Bool
  | .EVC_ACK_0 => true
  | .EVC_ACK_1 => true
  | .HEVC_ACK_0 => true
  | .HEVC_ACK_1 => true
  | .DBG_CORE_VT_IN => true
  | .DBG_CORE_VT_OUT => true
  | _ => false

/-- R330. An atomic on a register: one read with its effects, then one write. -/
def State.amoReg (s : State) (x fn : Nat) (a b : Word) (who : Requester) : Option Served :=
  if fn < 2 then some (served .bad s)
  else
    let r := s.regRead x false
    if r.1 ≠ .ok then some (served r.1 r.2.2)
    else
      let ro := match s.findReg x with | some (some q) => amoReadOnly q.id | _ => false
      if ro || (fn == 8 && r.2.1 != a) then some ⟨.ok, false, 0, [r.2.1], r.2.2, false⟩
      else (r.2.2.regWrite x (amoNew fn r.2.1 a b) who).map fun (y : Status × State) => ⟨y.1, false, 0, [r.2.1], y.2, false⟩

/-- R330. An ATOMIC at node n. -/
def State.serveAtomic (s : State) (n : Nat) (w : List Word) (fabStatus : Status) (fabData : Word) : Option Served :=
  let adr := pktAddr w
  let fn := pktAfn w
  let a := (pktPayload w).getD 0 0
  let b := (pktPayload w).getD 1 0
  let st := s.nodeReach n w
  if st ≠ .ok then some (served st s)
  else if !addrOk adr then some (served .ur s)
  else
    match adr / 2 ^ 45 with
    | 0 => some (s.domeAmo n w a b)
    | 1 => s.amoReg (adr % 2 ^ 26) fn a b (s.pktWho w)
    | 2 =>
      match s.localAt n adr with
      | .mem base rs off =>
        let y := s.amoMem rs off fn a b (BitVec.ofNat 32 (s.ldN (base + off) 4)) (pktSrc w) (pktPort w)
          fun t v => t.stBytes (base + off) (wordBytes v)
        some ⟨.ok, false, 0, [y.1], y.2, false⟩
      | .fabric => some ⟨fabStatus, false, 0, [fabData], s, false⟩
      | .ur => some (served .ur s)
      | .access => some (served .access s)
    | _ => some (served .ur s)

/-- R330. An ATOMIC request at its target, `n`. -/
def execPrmAtomic (n : Nat) (pkt : List Word) (fabStatus : Status) (fabData : Word) (s : State) :
    Host.Outcome State Fault Refusal :=
  if (s.pRx n).contains pkt ∧ pktClass pkt ≠ 1 ∧ pktOp pkt = 3 then
    let s := s.setPRx n ((s.pRx n).erase pkt)
    outOf ((s.serveAtomic n pkt fabStatus fabData).map fun (r : Served) => r.finish n pkt 1)
  else .next s

/-! ### BAR0 (R453, R523) -/

/-- R453, R523. An access discarded or aborted. -/
def State.barBad (s : State) (f : Nat) : State := s.addFld F.PCIE_FN_BAD_CNT_COUNT 1 0 f

/-- R453. An offset is that of the _LO of a pair. -/
def State.isPairLo (s : State) (x : Nat) : Bool :=
  match s.findReg x with
  | some (some r) => r.id.row.pair && !r.hi
  | _ => false

/-- R453, R523. A host access to BAR0 at offset x of function f: `len` bytes, a write of `vs` (EP set where `ep`), or a
read. -/
def State.bar0 (s : State) (f x len : Nat) (write ep : Bool) (vs : List Word) : Option State :=
  let whole := decide ((len = 4 ∧ x % 4 = 0) ∨ (len = 8 ∧ x % 8 = 0 ∧ s.isPairLo x))
  if !whole || (write && (ep || vs.length != len / 4)) then some (s.barBad f)
  else
    let r := if write then State.regWrites (.host f) vs x s
      else
        let y := State.regReads false (len / 4) x s
        some (y.1, y.2.2)
    r.map fun (q : Status × State) => if q.1 = .ok then q.2 else q.2.barBad f

/-- R453. A host BAR0 access. -/
def execBar0Access (f x len : Nat) (write ep : Bool) (vs : List Word) (s : State) : Host.Outcome State Fault Refusal :=
  outOf (s.bar0 f x len write ep vs)

/-! ### Launched register writes (R51..R54) -/

/-- R50. The window of a home, and its size (Table 2.2). -/
def lqWindow (h : Nat) : Nat × Nat :=
  if h < 32 then (0x1000000 + h * 0x100000, 0x100000)
  else if h < 40 then (0x800000 + (h - 32) * 0x10000, 0x10000)
  else (0, 0x800000)

/-- Table 0.1. The registers of access code RC: a read takes something, and a write does what the register describes. -/
def rcReg (id : RegId) : Bool :=
  [RegId.EVC_ACK_0, .EVC_ACK_1, .HEVC_ACK_0, .HEVC_ACK_1, .CAMP_PSAMP_FIFO, .TSK_CPL_FIFO_W0, .GPIO_U_RX, .GATE_SSLACK,
    .DBG_CORE_VT_IN, .DBG_CORE_VT_OUT].contains id

/-- R8. A register that software only reads. -/
def roReg (id : RegId) : Bool :=
  id.row.rw == 0 && id.row.w1c == 0 && id.row.rd != 0 && id != .CFG_PMAP_CTL && !rcReg id

/-- R53. A launched write is remembered for its cycle, with the value the register had before the cycle's first. -/
def State.shotAdd (s : State) (r : RegRef) (old data mask : Word) : State :=
  { s with shots := s.shots.filter (fun x => x.at_ == s.time) ++ [⟨r.key, r.hi, s.shotOld r old, data, mask, s.time⟩] }

/-- R51, R52, Table 2.4. The masked write of an entry: whether its target took it; `none` where the value's effect is
not defined (R9). -/
def State.lqWrite (s : State) (h q : Nat) (e : LqEntry) : Option (Bool × State) :=
  let off := e.param 0 % 2 ^ 24
  let x := (lqWindow h).1 + off
  if (lqWindow h).2 ≤ off ∨ s.regReach x ≠ .ok then some (false, s)
  else
    match s.findReg x with
    | some (some r) =>
      if roReg r.id then some (false, s)
      else
        let old := if r.hi then hiWord (s.regVal r) else loWord (s.regVal r)
        let m : Word := BitVec.ofNat 32 (e.param 2)
        let d := BitVec.ofNat 32 (e.param 1)
        ((s.shotAdd r old d m).refWrite r ((old &&& ~~~m) ||| (d &&& m)) (.launch h q)).map fun t => (true, t)
    | _ => some (false, s)

/-- R48..R52. The head entry of a queue, a REG_WRITE that is due. -/
def State.lqWriteHead (s : State) (h q : Nat) (e : LqEntry) : Option State :=
  if s.lqIsLate h q e && bitOf e.w2 4 then some (s.lqLaunch h q 7 fun _ s => (true, s))
  else (s.lqWrite h q e).map fun (r : Bool × State) => s.lqLaunch h q 7 fun _ _ => r

/-- R52. One cycle of a batch: up to n REG_WRITE entries of equal T, in queue order. -/
def State.lqBatch (h q : Nat) (t : Time) : Nat → State → Option State
  | 0, s => some s
  | n + 1, s =>
    match s.lqHead h q 7 with
    | none => some s
    | some e =>
      if e.time ≠ t then some s
      else
        match s.lqWriteHead h q e with
        | none => none
        | some s' =>
          match s'.lqOf h q with
          | e' :: _ =>
            if e'.kind = 7 ∧ e'.time = t ∧ s'.flag F.CAMP_LQ_CTL_EN h q then
              State.lqBatch h q t n (s'.setH .lqForwarded 1 h q)
            else some s'
          | [] => some s'

/-- R52. A REG_WRITE batch launches: 16 writes in its cycle. -/
def execLaunchRegWrite (h q : Nat) (s : State) : Host.Outcome State Fault Refusal :=
  match s.lqHead h q 7 with
  | none => .next s
  | some e => outOf (State.lqBatch h q e.time 16 s)

/-- The bit of XCV_LANE_l_CTL that an XCV_STATE operation writes, and its value (Table 2.4). -/
def xcvOp (op : Nat) : Nat × Bool :=
  match op with
  | 0 => (0, false)
  | 1 => (0, true)
  | 2 => (1, true)
  | 3 => (1, false)
  | 4 => (2, true)
  | _ => (2, false)

/-- R47, R53, R449. An XCV_STATE entry of a tower's queue writes one bit of XCV_LANE_l_CTL as a REG_WRITE would: a target
error on a lane with USE ETH or PCIE, and for PRBS on a lane with USE XFL. -/
def execLaunchXcvState (t q : Nat) (s : State) : Host.Outcome State Fault Refusal :=
  .next (s.lqLaunch (towerNode t) q 4 fun e s =>
    let l := bitsOf (e.param 0) 0 5
    let op := bitsOf (e.param 1) 0 4
    let use := s.fld F.XCV_LANE_CFG_USE t l
    let b := xcvOp op
    let v := s.regN .XCV_LANE_CTL t l
    let m : Word := BitVec.ofNat 32 (2 ^ b.1)
    if use = 2 ∨ use = 3 ∨ (use = 1 ∧ 4 ≤ op) then (false, s)
    else
      (true, (s.shotAdd ⟨.XCV_LANE_CTL, t, l, 0, false⟩ (BitVec.ofNat 32 v) (if b.2 then m else 0) m).xcvCtlSet t l
        (Machine.setBit v b.1 b.2)))

end Sys2Proof.Machine
end

