-- ==== Sys2Proof/Machine/EventsRun.lean ====
section
/-!
DEFINITION. The event controllers' commands (R259..R275): arbitration with its deliveries to the scheduler, to MSI-X
vectors and to context 1 of a Spire, acknowledge, end of interrupt, hold, and software writes.
-/
namespace Sys2Proof.Machine

/-- R265, R267. A source has been delivered: its pending bit and count clear. -/
def State.evTaken (s : State) (c q : Nat) : State :=
  (s.evClear c q).evSettle c (s.evGroup c q)

/-- R267. Vector q of function f can be written now. -/
def State.msixCan (s : State) (f q : Nat) : Bool :=
  !s.msixFenced f q && s.flag F.PCIE_FN_STAT_MSIX_EN 0 f && s.hb .msixOpen f q

/-- R267. The message write of vector q of function f. -/
def State.msixSend (s : State) (f q : Nat) : State :=
  s.stN (hostBase (f / 2) + s.h .msixAddr f q) 4 (s.h .msixData f q)

/-- R239, R267. The POST that offers source q to flow f of the scheduler; an OK answer is the delivery. -/
def State.evPost (s : State) (p q f : Nat) : State :=
  let r := s.tskCommand p (tskRecord 1 0 f (q + min 65535 (s.h .evcCount p q) * 65536) 0 0)
  if r.1 = 0 then r.2.2.evTaken p q else r.2.2

/-- R267. What an arbitration delivers from a ripe group to a target that needs no acknowledge. -/
def State.evOfferGroup (s : State) (c g : Nat) : State :=
  if s.evHold c ∨ s.ev c .gstat g 16 1 = 0 then s
  else
    match s.evDeliverTo c g with
    | .sched f =>
      match s.evLive c g with
      | [] => s
      | q :: _ => if s.targetFenced c q (.sched f) then s else s.evPost c q f
    | .msix f =>
      match (s.evLive c g).find? (s.msixCan f) with
      | some q => (s.msixSend f q).evTaken c q
      | none => s
    | _ => s

/-- R264, R273. What an arbitration does for a core target: a lodge asleep with WAKE = 1 wakes, and context 1 of a Spire
starts for the fast class. -/
def State.evCore (s : State) (c t : Nat) : State :=
  let some' (cls : Nat) : Bool := (s.evNext c t cls).isSome
  let s := if s.coreAsleep c t ∧ s.ev c .tctl t 0 1 = 1 ∧ (some' 0 ∨ some' 1) then
      s.setH .lodgeWfi 0 (if c < 32 then s.siteOf c else t)
    else s
  if c < 32 ∧ t < 8 ∧ some' 1 ∧ ¬ s.coreFenced c t ∧ s.startOk c t 1 (s.fld F.SPR_VEC_FAST c t) then
    s.sprStart c t 1 (s.fld F.SPR_VEC_FAST c t) []
  else s

/-- R260, R264, R267, R272, R273. One arbitration of controller c. -/
def State.evArbitrate (s : State) (c : Nat) : State :=
  let s := (s.evMove c).evRefresh c
  let s := foldS (fun g s => s.evOfferGroup c g) (List.range 64) s
  let s := foldS (fun t s => s.evCore c t) (List.range (evTargets c)) s
  s.evRequests c

/-- R272. One arbitration. -/
def execEvcArbitration (c : Nat) (s : State) : Host.Outcome State Fault Refusal := .next (s.evArbitrate c)

/-- R261. The coalescing timer of a group expires. -/
def execCoalTimerExpiry (c g : Nat) (s : State) : Host.Outcome State Fault Refusal :=
  if atOrAfter (s.nodeTime c) (s.hTime .evcExpiry c g) then .next (s.timerExpire c g) else .next s

/-- R265. A read of EVC_ACK_t_c. -/
def execEvcAckRead (c t cls : Nat) (s : State) : Host.Outcome State Fault Refusal := .next (s.ackTake c t cls)

/-- R270. A write of EVC_EOI_t. -/
def execEvcEoi (c t cls : Nat) (s : State) : Host.Outcome State Fault Refusal := .next (s.eoi c t cls)

/-- R270. A write of EVC_TGT_t_CTL.STK_CLR. -/
def execStkClr (c t : Nat) (s : State) : Host.Outcome State Fault Refusal := .next (s.stkClear c t)

/-- R275. HOLD written 1. -/
def execEvcHoldSet (c : Nat) (s : State) : Host.Outcome State Fault Refusal := .next (s.holdSet c)

/-- R275. HOLD written 0. -/
def execEvcHoldRelease (c : Nat) (s : State) : Host.Outcome State Fault Refusal := .next (s.holdRelease c)

/-- R275. A write of EVC_SWRAISE. -/
def execEvcSwraise (c : Nat) (v : Word) (s : State) : Host.Outcome State Fault Refusal :=
  wrOut (if c < 32 then .EVC_SWRAISE else .HEVC_SWRAISE) v (s.raise c (v.toNat % evSources c))

/-- R274. A write of EVC_PEND_w. -/
def execEvcPendWrite (c w : Nat) (v : Word) (s : State) : Host.Outcome State Fault Refusal := .next (s.pendWrite c w v)

/-- R273. A ripe group's target has been fenced for FB_TMO. -/
def execFallbackTimeout (c g : Nat) (s : State) : Host.Outcome State Fault Refusal := .next (s.fallback c g)

/-- R267. The host enables MSI-X of a function, or unmasks one vector, whose table entry holds this address and data; a
pending source of that vector in a ripe group is then delivered. -/
def State.msixUnmask (s : State) (f : Nat) (entry : Option (Nat × DWord × Word)) : State :=
  let s := match entry with
    | none => s.setFlag F.PCIE_FN_STAT_MSIX_EN true 0 f
    | some (q, a, d) => s.setH .msixOpen 1 f q |>.setH .msixAddr a.toNat f q |>.setH .msixData d.toNat f q
  foldS (fun g s => s.evOfferGroup hevc g) (List.range 64) s

/-- R267. The host unmasks an MSI-X vector or enables MSI-X. -/
def execMsixVectorUnmask (f : Nat) (entry : Option (Nat × DWord × Word)) (s : State) :
    Host.Outcome State Fault Refusal := .next (s.msixUnmask f entry)

end Sys2Proof.Machine
end

