-- ==== Sys2Proof/Machine/LodgeRv.lean ====
section
/-!
DEFINITION. RV32IMAC as far as it needs no memory: the compressed forms, immediates and arithmetic (R398; the encodings
are RISC-V's, assumption 80).
-/
namespace Sys2Proof.Machine

/-! ### Fields and immediates -/

/-- An I-type word. -/
def rvI (op f3 rd rs1 imm : Nat) : Nat := op + rd * 2 ^ 7 + f3 * 2 ^ 12 + rs1 * 2 ^ 15 + imm % 2 ^ 12 * 2 ^ 20
/-- An R-type word. -/
def rvR (op f3 f7 rd rs1 rs2 : Nat) : Nat := op + rd * 2 ^ 7 + f3 * 2 ^ 12 + rs1 * 2 ^ 15 + rs2 * 2 ^ 20 + f7 * 2 ^ 25
/-- An S-type word. -/
def rvS (op f3 rs1 rs2 imm : Nat) : Nat :=
  op + bitsOf imm 0 5 * 2 ^ 7 + f3 * 2 ^ 12 + rs1 * 2 ^ 15 + rs2 * 2 ^ 20 + bitsOf imm 5 7 * 2 ^ 25
/-- A B-type word. -/
def rvB (f3 rs1 rs2 imm : Nat) : Nat :=
  0x63 + bitsOf imm 11 1 * 2 ^ 7 + bitsOf imm 1 4 * 2 ^ 8 + f3 * 2 ^ 12 + rs1 * 2 ^ 15 + rs2 * 2 ^ 20 +
    bitsOf imm 5 6 * 2 ^ 25 + bitsOf imm 12 1 * 2 ^ 31
/-- A JAL word. -/
def rvJ (rd imm : Nat) : Nat :=
  0x6f + rd * 2 ^ 7 + bitsOf imm 12 8 * 2 ^ 12 + bitsOf imm 11 1 * 2 ^ 20 + bitsOf imm 1 10 * 2 ^ 21 + bitsOf imm 20 1 * 2 ^ 31

/-- The w-bit two's complement value x, widened to 32 bits. -/
def sext (w x : Nat) : Nat := unsign 32 (signed w x)

/-- The 6-bit immediate of the CI forms, widened. -/
def rvcImm6 (h : Nat) : Nat := sext 6 (bitsOf h 2 5 + bitsOf h 12 1 * 2 ^ 5)

/-- The jump offset of C.J and C.JAL. -/
def rvcJ (h : Nat) : Nat :=
  sext 12 (bitsOf h 3 3 * 2 + bitsOf h 11 1 * 2 ^ 4 + bitsOf h 2 1 * 2 ^ 5 + bitsOf h 7 1 * 2 ^ 6 + bitsOf h 6 1 * 2 ^ 7 +
    bitsOf h 9 2 * 2 ^ 8 + bitsOf h 8 1 * 2 ^ 10 + bitsOf h 12 1 * 2 ^ 11)

/-- The branch offset of C.BEQZ and C.BNEZ. -/
def rvcB (h : Nat) : Nat :=
  sext 9 (bitsOf h 3 2 * 2 + bitsOf h 10 2 * 2 ^ 3 + bitsOf h 2 1 * 2 ^ 5 + bitsOf h 5 2 * 2 ^ 6 + bitsOf h 12 1 * 2 ^ 8)

/-- Quadrant 0 of the compressed forms. -/
def rvcQ0 (h : Nat) : Option Nat :=
  let rd := 8 + bitsOf h 2 3
  let rs := 8 + bitsOf h 7 3
  let off := bitsOf h 6 1 * 2 ^ 2 + bitsOf h 10 3 * 2 ^ 3 + bitsOf h 5 1 * 2 ^ 6
  match bitsOf h 13 3 with
  | 0 =>
    let imm := bitsOf h 6 1 * 2 ^ 2 + bitsOf h 5 1 * 2 ^ 3 + bitsOf h 11 2 * 2 ^ 4 + bitsOf h 7 4 * 2 ^ 6
    if imm = 0 then none else some (rvI 0x13 0 rd 2 imm)
  | 2 => some (rvI 0x03 2 rd rs off)
  | 6 => some (rvS 0x23 2 rs rd off)
  | _ => none

/-- The register and immediate arithmetic of quadrant 1. -/
def rvcAlu (h : Nat) : Option Nat :=
  let rd := 8 + bitsOf h 7 3
  let rs := 8 + bitsOf h 2 3
  let sh := bitsOf h 2 5
  match bitsOf h 10 2 with
  | 0 => if bitOf h 12 then none else some (rvI 0x13 5 rd rd sh)
  | 1 => if bitOf h 12 then none else some (rvI 0x13 5 rd rd (sh + 0x400))
  | 2 => some (rvI 0x13 7 rd rd (rvcImm6 h))
  | _ =>
    if bitOf h 12 then none
    else
      match bitsOf h 5 2 with
      | 0 => some (rvR 0x33 0 0x20 rd rd rs)
      | 1 => some (rvR 0x33 4 0 rd rd rs)
      | 2 => some (rvR 0x33 6 0 rd rd rs)
      | _ => some (rvR 0x33 7 0 rd rd rs)

/-- Quadrant 1. -/
def rvcQ1 (h : Nat) : Option Nat :=
  let rd := bitsOf h 7 5
  match bitsOf h 13 3 with
  | 0 => some (rvI 0x13 0 rd rd (rvcImm6 h))
  | 1 => some (rvJ 1 (rvcJ h))
  | 2 => some (rvI 0x13 0 rd 0 (rvcImm6 h))
  | 3 =>
    if rvcImm6 h = 0 then none
    else if rd = 2 then
      some (rvI 0x13 0 2 2 (sext 10 (bitsOf h 6 1 * 2 ^ 4 + bitsOf h 2 1 * 2 ^ 5 + bitsOf h 5 1 * 2 ^ 6 +
        bitsOf h 3 2 * 2 ^ 7 + bitsOf h 12 1 * 2 ^ 9)))
    else some (0x37 + rd * 2 ^ 7 + rvcImm6 h % 2 ^ 20 * 2 ^ 12)
  | 4 => rvcAlu h
  | 5 => some (rvJ 0 (rvcJ h))
  | 6 => some (rvB 0 (8 + bitsOf h 7 3) 0 (rvcB h))
  | _ => some (rvB 1 (8 + bitsOf h 7 3) 0 (rvcB h))

/-- Quadrant 2. -/
def rvcQ2 (h : Nat) : Option Nat :=
  let rd := bitsOf h 7 5
  let rs := bitsOf h 2 5
  match bitsOf h 13 3 with
  | 0 => if bitOf h 12 then none else some (rvI 0x13 1 rd rd rs)
  | 2 =>
    if rd = 0 then none
    else some (rvI 0x03 2 rd 2 (bitsOf h 4 3 * 2 ^ 2 + bitsOf h 12 1 * 2 ^ 5 + bitsOf h 2 2 * 2 ^ 6))
  | 4 =>
    if !bitOf h 12 then
      (if rs = 0 then (if rd = 0 then none else some (rvI 0x67 0 0 rd 0)) else some (rvR 0x33 0 0 rd 0 rs))
    else if rs = 0 then (if rd = 0 then some 0x100073 else some (rvI 0x67 0 1 rd 0))
    else some (rvR 0x33 0 0 rd rd rs)
  | 6 => some (rvS 0x23 2 2 rs (bitsOf h 9 4 * 2 ^ 2 + bitsOf h 7 2 * 2 ^ 6))
  | _ => none

/-- The 32-bit form of a compressed instruction; none where it is illegal. -/
def rvc (h : Nat) : Option Nat :=
  match h % 4 with
  | 0 => rvcQ0 h
  | 1 => rvcQ1 h
  | 2 => rvcQ2 h
  | _ => none

/-! ### Arithmetic -/

/-- OP and OP-IMM: the function f3, with `alt` for SUB and SRA. -/
def rvAlu (f3 : Nat) (alt : Bool) (a b : Word) : Word :=
  let sh := b.toNat % 32
  match f3 with
  | 0 => if alt then a - b else a + b
  | 1 => a <<< sh
  | 2 => if a.toInt < b.toInt then 1 else 0
  | 3 => if a.toNat < b.toNat then 1 else 0
  | 4 => a ^^^ b
  | 5 => if alt then a.sshiftRight sh else a >>> sh
  | 6 => a ||| b
  | _ => a &&& b

/-- The M extension: multiply, and divide with its corners at 0 and overflow. -/
def rvMul (f3 : Nat) (a b : Word) : Word :=
  let hi (x : Int) : Word := BitVec.ofInt 32 (x / 2 ^ 32)
  match f3 with
  | 0 => a * b
  | 1 => hi (a.toInt * b.toInt)
  | 2 => hi (a.toInt * (b.toNat : Int))
  | 3 => hi ((a.toNat : Int) * (b.toNat : Int))
  | 4 => if b = 0 then BitVec.allOnes 32 else BitVec.ofInt 32 (a.toInt.tdiv b.toInt)
  | 5 => if b = 0 then BitVec.allOnes 32 else BitVec.ofNat 32 (a.toNat / b.toNat)
  | 6 => if b = 0 then a else BitVec.ofInt 32 (a.toInt.tmod b.toInt)
  | _ => if b = 0 then a else BitVec.ofNat 32 (a.toNat % b.toNat)

/-- A branch is taken; none where f3 names no branch. -/
def rvBranch (f3 : Nat) (a b : Word) : Option Bool :=
  match f3 with
  | 0 => some (a == b)
  | 1 => some (a != b)
  | 4 => some (decide (a.toInt < b.toInt))
  | 5 => some (!decide (a.toInt < b.toInt))
  | 6 => some (decide (a.toNat < b.toNat))
  | 7 => some (!decide (a.toNat < b.toNat))
  | _ => none

/-- What an AMO of the A extension stores, by funct5; none where there is no such AMO. -/
def rvAmo (f5 : Nat) (old a : Word) : Option Word :=
  match f5 with
  | 1 => some a
  | 0 => some (old + a)
  | 4 => some (old ^^^ a)
  | 12 => some (old &&& a)
  | 8 => some (old ||| a)
  | 16 => some (if old.toInt ≤ a.toInt then old else a)
  | 20 => some (if old.toInt ≤ a.toInt then a else old)
  | 24 => some (if old.toNat ≤ a.toNat then old else a)
  | 28 => some (if old.toNat ≤ a.toNat then a else old)
  | _ => none

/-- The function of a Promenade atomic (Table 8.3) of an AMO, by funct5; the Promenade has no XOR, MINU or MAXU. -/
def rvAfn (f5 : Nat) : Option Nat :=
  match f5 with
  | 2 => some 0
  | 3 => some 1
  | 1 => some 2
  | 0 => some 3
  | 12 => some 4
  | 8 => some 5
  | 16 => some 6
  | 20 => some 7
  | _ => none

/-- A load's value in its register: by f3, the low bits of v. -/
def rvLoad (f3 v : Nat) : Word :=
  match f3 with
  | 0 => BitVec.ofNat 32 (sext 8 v)
  | 1 => BitVec.ofNat 32 (sext 16 v)
  | 4 => BitVec.ofNat 32 (v % 2 ^ 8)
  | 5 => BitVec.ofNat 32 (v % 2 ^ 16)
  | _ => BitVec.ofNat 32 v

end Sys2Proof.Machine
end

