-- ==== Sys2Proof/Machine/Lodge.lean ====
section
/-!
DEFINITION. A lodge core at work: its address map, instructions, exceptions and interrupts (R398..R400, R407, R490..R493,
R499).
-/
namespace Sys2Proof.Machine

/-! ### The address map (Table 16.1) -/

/-- What an access of a lodge comes to: its value and the state after it, an access fault, or no defined effect (R9). -/
inductive LodgeBus where
  | ok (v : Word) (s : State)
  | fault (s : State)
  | undefined

/-- The node a lodge's reservations are kept under: its pavilion, or 63 at a site that holds none. -/
def State.lodgeNode (s : State) (x : Nat) : Nat := (s.pavAt x).getD 63

/-- The outcome of a served Promenade request: an error status, and poisoned data, are an access fault (R380;
assumption 80). -/
def Served.bus (r : Served) : LodgeBus := if r.status = .ok ∧ ¬ r.poison then .ok (r.data.getD 0 0) r.state else .fault r.state

/-- R330. A lodge's read or atomic of one word of a dome, done within its instruction (assumption 159). -/
def State.lodgeDome (s : State) (p n addr op fn : Nat) (a : Word) : LodgeBus :=
  if op = 2 then
    let r := s.domeWrite n addr (wordBytes a) false p 112
    if r.1 = .ok then .ok 0 r.2 else .fault r.2
  else
    let r := s.domeRead n addr 4
    if r.1 ≠ .ok ∨ r.2.1 then .fault r.2.2.2
    else
      let old : Word := BitVec.ofNat 32 (leNat r.2.2.1)
      let stores := fn ≠ 0 ∧ (fn ≠ 1 ∨ r.2.2.2.resvHeld n (addr % 2 ^ 31 / 64) p 112)
      if op = 1 then .ok old r.2.2.2
      else if stores ∧ (r.2.2.2.domeWrite n addr (wordBytes old) false p 112).1 ≠ .ok then
        .fault (r.2.2.2.domeWrite n addr (wordBytes old) false p 112).2
      else
        let y := r.2.2.2.amoMem n (addr % 2 ^ 31) fn a 0 old p 112 fun t v => (t.domeWrite n addr (wordBytes v) false p 112).2
        .ok y.1 y.2

/-- A store to RDO_ACC_PORT that was taken is over for the lodge. -/
def State.lodgePosted (s : State) (n : Nat) (w : List Word) : State :=
  { s with accIn := s.accIn.map fun a => if a.req = some (n, w) then { a with req := none } else a }

/-- R398, R521. A lodge's Promenade window: one request of one word; `op` 1 reads, 2 writes, 3 is an atomic `fn`. `ext` is
what a fabric endpoint or an annex answers, none for an error. -/
def State.lodgeProm (s : State) (x addr op fn : Nat) (a : Word) (ext : Option Word) : LodgeBus :=
  match s.pavAt x with
  | none => .fault s
  | some p =>
    let adr := ((s.lodge x).c 0x7c3).toNat % 2 ^ 17 * 2 ^ 31 + addr % 2 ^ 31
    let n := s.addrNode adr
    let len := if op = 3 ∧ fn = 0 then 0 else 1
    let pay := if op = 1 ∨ len = 0 then [] else [a]
    let w := pktStamp p 112 (s.nodeTime p) (pktRequest 0 op n adr len 0 fn pay)
    let fab : Status := if ext.isSome then .ok else .bad
    if s.portClosed p 112 ∨ s.isolated n then .fault s
    else if 40 ≤ n ∧ n < 44 then (match ext with | some v => .ok v s | none => .fault s)
    else if adr / 2 ^ 45 = 0 ∧ addrOk adr ∧ s.nodeReach n w = .ok then s.lodgeDome p n (bitsOf adr 0 35) op fn a
    else if op = 1 then (s.serveRead n w fab [ext.getD 0] none).bus
    else
      match (if op = 2 then s.serveWrite n w fab else s.serveAtomic n w fab (ext.getD 0)) with
      | none => .undefined
      | some r => ({ r with state := r.state.lodgePosted n w } : Served).bus

/-- R381. The bytes that a lodge reads at an address, where `par` names one that holds a parity error: whether the read is an
access fault, and the state with the error counted. The SRAM has no clean copy; the flash cache is read again from flash. -/
def State.lodgeClean (s : State) (x a n : Nat) (par : Option Nat) : Bool × State :=
  match par.filter fun e => decide (a ≤ e) && decide (e < a + n), s.pavAt x with
  | some e, some p =>
    if e < 0x40000 then (true, s.sramUncorrectable p (2088 + e / 65536) (e % 65536 / 16))
    else if 0x20000000 ≤ e ∧ e < 0x24000000 then (false, s.sramCorrected p)
    else (false, s)
  | some e, none => (decide (e < 0x40000), s)
  | none, _ => (false, s)

/-- R398, R499. A word load of a lodge: the SRAM, the own LDG block, the flash window (`fd` is the flash word there), and
the Promenade window. -/
def State.lodgeLd (s : State) (x addr : Nat) (fd : Word) (ext : Option Word) : LodgeBus :=
  if addr < 0x40000 then .ok (BitVec.ofNat 32 (s.ldN (sramBase x + addr) 4)) s
  else if 0x10000000 ≤ addr ∧ addr < 0x10001000 then
    match inLodge x (addr % 0x1000) with
    | some r =>
      let y := s.refRead r
      .ok y.1 y.2
    | none => .fault s
  else if 0x20000000 ≤ addr ∧ addr < 0x24000000 then .ok (s.patched x addr fd) s
  else if 0x80000000 ≤ addr then s.lodgeProm x addr 1 0 0 ext
  else .fault s

/-- R407. The lodge's core may not store to the journal while it presides or is a deputy. -/
def State.jrnlLocked (s : State) (x addr : Nat) : Bool := decide (0x10000 ≤ addr) && s.fld F.LDG_RING_STAT_ROLE x != 0

/-- R398, R407. A store of n bytes of a lodge. Registers and the Promenade take whole words (assumption 80). -/
def State.lodgeSt (s : State) (x addr n : Nat) (v : Word) (ext : Option Word) : LodgeBus :=
  if addr < 0x40000 then
    if s.jrnlLocked x addr then .fault s
    else .ok 0 ((s.stN (sramBase x + addr) n v.toNat).resvHit (400 + x) (addr / 64) (s.lodgeNode x) 112)
  else if n ≠ 4 then .fault s
  else if 0x10000000 ≤ addr ∧ addr < 0x10001000 then
    match inLodge x (addr % 0x1000) with
    | some r =>
      match s.refWrite r v (.lodge x) with
      | some t => .ok 0 t
      | none => .undefined
    | none => .fault s
  else if 0x80000000 ≤ addr then s.lodgeProm x addr 2 0 v ext
  else .fault s

/-- R331, R398. An atomic of a lodge, by funct5: on the SRAM or through the Promenade window. -/
def State.lodgeAmo (s : State) (x addr f5 : Nat) (a : Word) (ext : Option Word) : LodgeBus :=
  if addr < 0x40000 then
    let t := 400 + x
    let l := addr / 64
    let n := s.lodgeNode x
    let old : Word := BitVec.ofNat 32 (s.ldN (sramBase x + addr) 4)
    if f5 = 2 then .ok old (s.resvSet t l n 112)
    else if s.jrnlLocked x addr then .fault s
    else if f5 = 3 then
      if s.resvHeld t l n 112 then .ok 0 (((s.stN (sramBase x + addr) 4 a.toNat).resvHit t l n 112).resvDrop t n 112)
      else .ok 1 (s.resvDrop t n 112)
    else
      match rvAmo f5 old a with
      | some v => .ok old ((s.stN (sramBase x + addr) 4 v.toNat).resvHit t l n 112)
      | none => .fault s
  else if 0x80000000 ≤ addr then
    match rvAfn f5 with
    | some fn => s.lodgeProm x addr 3 fn a ext
    | none => .fault s
  else .fault s

/-- A halfword fetch: the SRAM or the flash window, whose words at the pc and after it are f0 and f1. -/
def State.lodgeFetch16 (s : State) (x pc a : Nat) (f0 f1 : Word) : Option Nat :=
  if a < 0x40000 then some (s.ldN (sramBase x + a) 2)
  else if 0x20000000 ≤ a ∧ a < 0x24000000 then
    let w := s.patched x a (if a / 4 = pc / 4 then f0 else f1)
    some (bitsOf w.toNat (8 * (a % 4)) 16)
  else none

/-- A fetch: the instruction and its length; none for an access fault. -/
def State.lodgeFetch (s : State) (x pc : Nat) (f0 f1 : Word) : Option (Nat × Nat) :=
  match s.lodgeFetch16 x pc pc f0 f1 with
  | none => none
  | some lo =>
    if lo % 4 ≠ 3 then some (lo, 2)
    else (s.lodgeFetch16 x pc (pc + 2) f0 f1).map fun hi => (lo + hi * 2 ^ 16, 4)

/-! ### Exceptions and interrupts (R400) -/

/-- R400. An exception: inside a fast handler a CORE reset, else the machine-mode trap. -/
def State.lodgeTrap (s : State) (x cause tval : Nat) : State :=
  let c := s.lodge x
  if c.inFast then s.lodgeCrash x 2
  else
    let st := (c.c 0x300).toNat
    let st := setBitsOf (setBitsOf st 7 1 (b2n (bitOf st 3))) 3 1 0
    let vec := (c.c 0x305).toNat
    let pc := if 2 ^ 31 ≤ cause ∧ vec % 4 = 1 then vec - 1 + 4 * (cause % 2 ^ 31) else vec / 4 * 4
    let c := c.setC 0x341 (BitVec.ofNat 32 c.pc) |>.setC 0x342 (BitVec.ofNat 32 cause) |>.setC 0x343 (BitVec.ofNat 32 tval)
      |>.setC 0x300 (BitVec.ofNat 32 st)
    s.setLodge x { c with pc := pc }

/-- MRET: out of a fast handler by LFEPC (R400), else the machine-mode return. -/
def LodgeCore.mret (c : LodgeCore) : LodgeCore :=
  if c.inFast then (let d := c.setFast false
                    { d with pc := (c.c 0x7c1).toNat })
  else
    let st := (c.c 0x300).toNat
    let d := c.setC 0x300 (BitVec.ofNat 32 (setBitsOf (setBitsOf st 3 1 (b2n (bitOf st 7))) 7 1 1))
    { d with pc := (c.c 0x341).toNat }

/-- The lodge is at an instruction boundary, where an interrupt may be taken: not within a step (R491). -/
def State.lodgeReady (s : State) (x : Nat) : Bool :=
  s.lodgeRuns x && !s.lodgeHalted x && s.h .haltReq x 8 0 == 0

/-- R400. A fast-class interrupt is taken. -/
def execLodgeFastEntry (x : Nat) (s : State) : Host.Outcome State Fault Refusal :=
  let c := s.lodge x
  if s.lodgeReady x && c.fie && !c.inFast && s.lodgeOffered x 1 then
    let c := (c.setC 0x7c1 (BitVec.ofNat 32 c.pc)).setFast true
    .next ((s.setH .lodgeWfi 0 x).setLodge x { c with pc := (c.c 0x7c2).toNat })
  else .next s

/-- R400. The machine external interrupt is taken, under the standard enables. -/
def execLodgeNormalInterrupt (x : Nat) (s : State) : Host.Outcome State Fault Refusal :=
  let c := s.lodge x
  if s.lodgeReady x && !c.inFast && s.lodgeOffered x 0 && bitOf (c.c 0x304).toNat 11 && bitOf (c.c 0x300).toNat 3 then
    .next ((s.setH .lodgeWfi 0 x).lodgeTrap x (2 ^ 31 + 11) 0)
  else .next s

/-! ### Instructions -/

/-- What an instruction comes to. -/
inductive LodgeRes where
  | done (s : State)
  | trap (cause tval : Nat) (s : State)
  | halt (s : State)
  | undefined

/-- A finished bus access gives its value to register rd, and the pc moves on. -/
def LodgeBus.finish (b : LodgeBus) (x rd next cause addr : Nat) (f : Word → Word) : LodgeRes :=
  match b with
  | .ok v t =>
    let c := (t.lodge x).setR rd (f v)
    .done (t.setLodge x { c with pc := next })
  | .fault t => .trap cause addr t
  | .undefined => .undefined

/-- R399. A CSR instruction. -/
def State.lodgeCsr (s : State) (x ins next : Nat) : LodgeRes :=
  let c := s.lodge x
  let f3 := bitsOf ins 12 3
  let rd := bitsOf ins 7 5
  let rs := bitsOf ins 15 5
  let n := bitsOf ins 20 12
  let src : Word := if f3 < 4 then c.r rs else BitVec.ofNat 32 rs
  let rw := f3 % 4 = 1
  let rdIt := !(decide rw && rd == 0)
  match (if rdIt then s.lodgeCsrRead x n c else some ((0 : Word), c)) with
  | none => .trap 2 ins s
  | some (old, c1) =>
    let new := if rw then src else if f3 % 4 = 2 then old ||| src else old &&& ~~~src
    match (if !decide rw && rs == 0 then some c1 else c1.csrWrite n new.toNat) with
    | none => .trap 2 ins s
    | some c2 =>
      let c3 := if rdIt then c2.setR rd old else c2
      .done (s.setLodge x { c3 with pc := next })

/-- SYSTEM instructions. -/
def State.lodgeSystem (s : State) (x ins next : Nat) : LodgeRes :=
  let c := s.lodge x
  if bitsOf ins 12 3 ≠ 0 then (if bitsOf ins 12 3 = 4 then .trap 2 ins s else s.lodgeCsr x ins next)
  else
    match ins with
    | 0x00000073 => .trap 11 0 s
    | 0x00100073 => if s.flag F.DBG_CORE_CTL_ATTACH x 8 then .halt s else .trap 3 c.pc s
    | 0x30200073 => .done (s.setLodge x c.mret)
    | 0x10500073 =>
      let s := s.setLodge x { c with pc := next }
      if s.lodgeOffered x 1 || (s.lodgeOffered x 0 && bitOf (c.c 0x304).toNat 11) then .done s
      else .done (s.setH .lodgeWfi 1 x)
    | _ => .trap 2 ins s

/-- Memory instructions: loads, stores and atomics. `par` is a byte that holds a parity error, if any (R381). -/
def State.lodgeMem (s : State) (x ins next : Nat) (fd : Word) (ext : Option Word) (par : Option Nat) : LodgeRes :=
  let c := s.lodge x
  let f3 := bitsOf ins 12 3
  let rd := bitsOf ins 7 5
  let a := c.r (bitsOf ins 15 5)
  let b := c.r (bitsOf ins 20 5)
  match ins % 128 with
  | 0x03 =>
    let adr := (a.toNat + sext 12 (bitsOf ins 20 12)) % 2 ^ 32
    let n := 2 ^ (f3 % 4)
    if f3 = 3 ∨ 5 < f3 then .trap 2 ins s
    else if adr % n ≠ 0 then .trap 4 adr s
    else
      let t := s.lodgeClean x adr n par
      if t.1 then .trap 5 adr t.2
      else (t.2.lodgeLd x (adr / 4 * 4) fd ext).finish x rd next 5 adr fun v => rvLoad f3 (v.toNat / 2 ^ (8 * (adr % 4)))
  | 0x23 =>
    let adr := (a.toNat + sext 12 (bitsOf ins 7 5 + bitsOf ins 25 7 * 2 ^ 5)) % 2 ^ 32
    let n := 2 ^ f3
    if 2 < f3 then .trap 2 ins s
    else if adr % n ≠ 0 then .trap 6 adr s
    else (s.lodgeSt x adr n b ext).finish x 0 next 7 adr id
  | _ =>
    let f5 := bitsOf ins 27 5
    let adr := a.toNat
    let lr := f5 = 2
    if f3 ≠ 2 ∨ (lr ∧ bitsOf ins 20 5 ≠ 0) ∨ ¬ (lr ∨ f5 = 3 ∨ (rvAmo f5 0 0).isSome) then .trap 2 ins s
    else if adr % 4 ≠ 0 then .trap (if lr then 4 else 6) adr s
    else
      let t := if f5 = 3 then (false, s) else s.lodgeClean x adr 4 par
      if t.1 then .trap (if lr then 5 else 7) adr t.2
      else (t.2.lodgeAmo x adr f5 b ext).finish x rd next (if lr then 5 else 7) adr id

/-- The arithmetic and control-flow instructions: the value for rd and the next pc; none where it is illegal. -/
def LodgeCore.arith (c : LodgeCore) (ins next : Nat) : Option (Option Word × Nat) :=
  let f3 := bitsOf ins 12 3
  let f7 := bitsOf ins 25 7
  let a := c.r (bitsOf ins 15 5)
  let b := c.r (bitsOf ins 20 5)
  let i12 : Word := BitVec.ofNat 32 (sext 12 (bitsOf ins 20 12))
  match ins % 128 with
  | 0x37 => some (some (BitVec.ofNat 32 (bitsOf ins 12 20 * 2 ^ 12)), next)
  | 0x17 => some (some (BitVec.ofNat 32 (c.pc + bitsOf ins 12 20 * 2 ^ 12)), next)
  | 0x6f =>
    let off := sext 21 (bitsOf ins 21 10 * 2 + bitsOf ins 20 1 * 2 ^ 11 + bitsOf ins 12 8 * 2 ^ 12 + bitsOf ins 31 1 * 2 ^ 20)
    some (some (BitVec.ofNat 32 next), (c.pc + off) % 2 ^ 32)
  | 0x67 => if f3 ≠ 0 then none else some (some (BitVec.ofNat 32 next), (a + i12).toNat / 2 * 2)
  | 0x63 =>
    let off := sext 13 (bitsOf ins 8 4 * 2 + bitsOf ins 25 6 * 2 ^ 5 + bitsOf ins 7 1 * 2 ^ 11 + bitsOf ins 31 1 * 2 ^ 12)
    (rvBranch f3 a b).map fun t => (none, if t then (c.pc + off) % 2 ^ 32 else next)
  | 0x13 =>
    if (f3 = 1 ∧ f7 ≠ 0) ∨ (f3 = 5 ∧ f7 ≠ 0 ∧ f7 ≠ 0x20) then none
    else some (some (rvAlu f3 (f3 == 5 && f7 == 0x20) a i12), next)
  | 0x33 =>
    if f7 = 1 then some (some (rvMul f3 a b), next)
    else if f7 = 0 ∨ (f7 = 0x20 ∧ (f3 = 0 ∨ f3 = 5)) then some (some (rvAlu f3 (f7 == 0x20) a b), next)
    else none
  | 0x0f => if f3 < 2 then some (none, next) else none
  | _ => none

/-- R398. One instruction word at the pc, of `len` bytes. -/
def State.lodgeExec (s : State) (x ins len : Nat) (fd : Word) (ext : Option Word) (par : Option Nat) : LodgeRes :=
  let c := s.lodge x
  let next := (c.pc + len) % 2 ^ 32
  match ins % 128 with
  | 0x73 => s.lodgeSystem x ins next
  | 0x03 => s.lodgeMem x ins next fd ext par
  | 0x23 => s.lodgeMem x ins next fd ext par
  | 0x2f => s.lodgeMem x ins next fd ext par
  | _ =>
    match c.arith ins next with
    | none => .trap 2 ins s
    | some (v, pc) =>
      let c := match v with
        | some v => c.setR (bitsOf ins 7 5) v
        | none => c
      .done (s.setLodge x { c with pc := pc })

/-- The cycle and instruction counters advance. -/
def LodgeCore.tick (c : LodgeCore) (cycles : Nat) : LodgeCore :=
  let add (c : LodgeCore) (lo hi n : Nat) :=
    let v := (c.c lo).toNat + (c.c hi).toNat * 2 ^ 32 + n
    c.setC lo (BitVec.ofNat 32 v) |>.setC hi (BitVec.ofNat 32 (v / 2 ^ 32))
  add (add c 0xb00 0xb80 cycles) 0xb02 0xb82 1

/-- R492. An enabled breakpoint names the pc of an attached lodge. -/
def State.lodgeBreak (s : State) (x : Nat) : Bool :=
  s.flag F.DBG_CORE_CTL_ATTACH x 8 &&
    (List.range 4).any fun i => s.flag F.DBG_CORE_BP_CTL_EN x 8 i && s.regN .DBG_CORE_BP_ADDR x 8 i == (s.lodge x).pc

/-- R398, R400, R491, R492. The instruction at the pc of a running lodge. -/
def State.lodgeRun (s : State) (x : Nat) (f0 f1 fd : Word) (ext : Option Word) (cycles : Nat) (par : Option Nat) :
    Host.Outcome State Fault Refusal :=
  if s.h .haltReq x 8 0 ≠ 2 ∧ s.lodgeBreak x then .next (s.lodgeHalt x 3)
  else
    let pc := (s.lodge x).pc
    let s := s.setLodge x ((s.lodge x).tick cycles)
    let r := match s.lodgeFetch x pc f0 f1 with
      | none => LodgeRes.trap 1 pc s
      | some (ins, len) =>
        let t := s.lodgeClean x pc len par
        if t.1 then .trap 1 pc t.2
        else if len ≠ 2 then t.2.lodgeExec x ins 4 fd ext par
        else match rvc ins with
          | some w => t.2.lodgeExec x w 2 fd ext par
          | none => .trap 2 ins t.2
    match r with
    | .done t => .next (t.lodgeHaltTake x)
    | .trap cause tval t => .next ((t.lodgeTrap x cause tval).lodgeHaltTake x)
    | .halt t => .next ((t.setH .haltReq 0 x 8 0).lodgeHalt x 4)
    | .undefined => .fault .undefinedFieldValue

/-- R398. A lodge executes one instruction. f0 and f1 are the flash words at and after the pc, fd the flash word at the
address it loads, `ext` what a fabric endpoint or annex answers, `cycles` the cycles it takes, `par` an
address of the SRAM or the flash window whose byte holds a parity error, if any (R381). A lodge that is asked to halt halts
instead (R490). -/
def execLodgeInstruction (x : Nat) (f0 f1 fd : Word) (ext : Option Word) (cycles : Nat) (par : Option Nat) (s : State) :
    Host.Outcome State Fault Refusal :=
  if !s.lodgeRuns x || s.lodgeHalted x || s.hb .lodgeWfi x then .next s
  else if s.h .haltReq x 8 0 = 1 then .next (s.lodgeHaltTake x)
  else s.lodgeRun x f0 f1 fd ext cycles par

/-! ### Steps (R491) -/

/-- R491. A write of DBG_CORE_CTL with STEP: a Spire's bundle takes `ipar` and `par` as BUNDLE_ISSUE does, and a lodge's
instruction takes f0, f1, fd, ext, cycles and par as LODGE_INSTRUCTION does. -/
def execDbgStep (w i : Nat) (v : Word) (ipar : Bool) (par : Option Nat) (f0 f1 fd : Word) (ext : Option Word)
    (cycles : Nat) (s : State) : Host.Outcome State Fault Refusal :=
  if !RegId.DBG_CORE_CTL.defined v.toNat then .fault .undefinedFieldValue
  else
    match s.coreCtl w i v.toNat ipar par with
    | .next t =>
      if i = 8 ∧ bitOf v.toNat 2 ∧ s.lodgeHalted w ∧ ¬ t.lodgeHalted w ∧ t.h .haltReq w 8 0 = 2 then
        t.lodgeRun w f0 f1 fd ext cycles par
      else .next t
    | o => o

end Sys2Proof.Machine
end

