-- ==== Sys2Proof/Machine/Dispatch.lean ====
section
/-!
DEFINITION. One arm per command: its meaning, or its rejection by name.
-/
namespace Sys2Proof.Machine

/-- The effect of a command on everything but the queue. -/
def exec (i : Instr) (s : State) : Host.Outcome State Fault Refusal :=
  match i with
  | .pairLoRead x => Sys2Proof.Machine.execPairLoRead x s
  | .pairLoWrite x v who => Sys2Proof.Machine.execPairLoWrite x v who s
  | .pairHiWrite x v who => Sys2Proof.Machine.execPairHiWrite x v who s
  | .registerWrite x v who => Sys2Proof.Machine.execRegisterWrite x v who s
  | .porNLow => Sys2Proof.Machine.execPorNLow s
  | .keepRailLow => Sys2Proof.Machine.execKeepRailLow s
  | .rstNLow => Sys2Proof.Machine.execRstNLow s
  | .wrstNLow => Sys2Proof.Machine.execWrstNLow s
  | .ldgRstWarm who => Sys2Proof.Machine.execLdgRstWarm who s
  | .ldgRstCold who => Sys2Proof.Machine.execLdgRstCold who s
  | .selfTestDone failed => Sys2Proof.Machine.execSelfTestDone failed s
  | .pmapApply v who => Sys2Proof.Machine.execPmapApply v who s
  | .pmapApplyDone => Sys2Proof.Machine.execPmapApplyDone s
  | .refGood b diff phase => Sys2Proof.Machine.execRefGood b diff phase s
  | .refLost lostA lostB goodA goodB diff phase => Sys2Proof.Machine.execRefLost lostA lostB goodA goodB diff phase s
  | .freqKhzWrite v => Sys2Proof.Machine.execFreqKhzWrite v s
  | .epochSampled => Sys2Proof.Machine.execEpochSampled s
  | .adjGo => Sys2Proof.Machine.execAdjGo s
  | .stepApply => Sys2Proof.Machine.execStepApply s
  | .slewDone => Sys2Proof.Machine.execSlewDone s
  | .userTrimWrite x v => Sys2Proof.Machine.execUserTrimWrite x v s
  | .trimSlewDone x => Sys2Proof.Machine.execTrimSlewDone x s
  | .lqPush h q w7 => Sys2Proof.Machine.execLqPush h q w7 s
  | .lqForward h q => Sys2Proof.Machine.execLqForward h q s
  | .launchNop h q => Sys2Proof.Machine.execLaunchNop h q s
  | .launchSpireStart p q => Sys2Proof.Machine.execLaunchSpireStart p q s
  | .launchTskPost p q => Sys2Proof.Machine.execLaunchTskPost p q s
  | .launchPrmSend h q => Sys2Proof.Machine.execLaunchPrmSend h q s
  | .launchXcvState t q => Sys2Proof.Machine.execLaunchXcvState t q s
  | .launchPinDrive t q => Sys2Proof.Machine.execLaunchPinDrive t q s
  | .launchPinSample t q pins => Sys2Proof.Machine.execLaunchPinSample t q pins s
  | .launchRegWrite h q => Sys2Proof.Machine.execLaunchRegWrite h q s
  | .lqFlush h q => Sys2Proof.Machine.execLqFlush h q s
  | .lqFlushDone h q => Sys2Proof.Machine.execLqFlushDone h q s
  | .lqEnWrite h q en => Sys2Proof.Machine.execLqEnWrite h q en s
  | .psampFifoRead t => Sys2Proof.Machine.execPsampFifoRead t s
  | .superframeRx t l before blocks corr uncorr => Sys2Proof.Machine.execSuperframeRx t l before blocks corr uncorr s
  | .superframeTx t l => Sys2Proof.Machine.execSuperframeTx t l s
  | .xflBlockLock t l hdrs uncorr => Sys2Proof.Machine.execXflBlockLock t l hdrs uncorr s
  | .xflBlockLockLost t l hdrs cdr => Sys2Proof.Machine.execXflBlockLockLost t l hdrs cdr s
  | .xflLaneEnWrite t l en => Sys2Proof.Machine.execXflLaneEnWrite t l en s
  | .xflRetrain t l => Sys2Proof.Machine.execXflRetrain t l s
  | .xflBackoffExpiry t l => Sys2Proof.Machine.execXflBackoffExpiry t l s
  | .laneFrameArrival p i1 => Sys2Proof.Machine.execLaneFrameArrival p i1 s
  | .streamEnable p i1 => Sys2Proof.Machine.execStreamEnable p i1 s
  | .streamDisable p i1 => Sys2Proof.Machine.execStreamDisable p i1 s
  | .streamPause p i1 => Sys2Proof.Machine.execStreamPause p i1 s
  | .streamResume p i1 => Sys2Proof.Machine.execStreamResume p i1 s
  | .streamUnregister p i1 => Sys2Proof.Machine.execStreamUnregister p i1 s
  | .streamAbort p i1 => Sys2Proof.Machine.execStreamAbort p i1 s
  | .gateSentWrite p i1 w v => Sys2Proof.Machine.execGateSentWrite p i1 w v s
  | .sampleRelease p i1 par => Sys2Proof.Machine.execSampleRelease p i1 par s
  | .primitivePresent p i1 => Sys2Proof.Machine.execPrimitivePresent p i1 s
  | .fragmentClose p i1 => Sys2Proof.Machine.execFragmentClose p i1 s
  | .commitAckRx p i1 twin => Sys2Proof.Machine.execCommitAckRx p i1 twin s
  | .commitTimeout p i1 => Sys2Proof.Machine.execCommitTimeout p i1 s
  | .commitErrorRx p i1 twin status => Sys2Proof.Machine.execCommitErrorRx p i1 twin status s
  | .gateCtlWrite p v => Sys2Proof.Machine.execGateCtlWrite p v s
  | .sslackRead p i1 => Sys2Proof.Machine.execSslackRead p i1 s
  | .codecCapture p i1 => Sys2Proof.Machine.execCodecCapture p i1 s
  | .domeCommitArrive p i1 twin par => Sys2Proof.Machine.execDomeCommitArrive p i1 twin par s
  | .domeCommitDone p i1 twin => Sys2Proof.Machine.execDomeCommitDone p i1 twin s
  | .domeRingRead p r pn => Sys2Proof.Machine.execDomeRingRead p r pn s
  | .ringEnable p r v => Sys2Proof.Machine.execRingEnable p r v s
  | .ringDisable p r v => Sys2Proof.Machine.execRingDisable p r v s
  | .ringInitDone p r => Sys2Proof.Machine.execRingInitDone p r s
  | .domeSchedIssue p c => Sys2Proof.Machine.execDomeSchedIssue p c s
  | .refreshInterval p c => Sys2Proof.Machine.execRefreshInterval p c s
  | .writeAgeExpiry p c => Sys2Proof.Machine.execWriteAgeExpiry p c s
  | .panicAgeExpiry p c => Sys2Proof.Machine.execPanicAgeExpiry p c s
  | .idleCloseExpiry p c bank => Sys2Proof.Machine.execIdleCloseExpiry p c bank s
  | .domeLineReadDone p c found tag => Sys2Proof.Machine.execDomeLineReadDone p c found tag s
  | .patrolRead p found => Sys2Proof.Machine.execPatrolRead p found s
  | .domeThermalSample p => Sys2Proof.Machine.execDomeThermalSample p s
  | .srReqWrite p v => Sys2Proof.Machine.execSrReqWrite p v s
  | .srEntryDone p => Sys2Proof.Machine.execSrEntryDone p s
  | .srExitDone p => Sys2Proof.Machine.execSrExitDone p s
  | .channelFault p c => Sys2Proof.Machine.execChannelFault p c s
  | .domeInitDone p => Sys2Proof.Machine.execDomeInitDone p s
  | .accPortWrite words whole => Sys2Proof.Machine.execAccPortWrite words whole s
  | .acceptJournaled => Sys2Proof.Machine.execAcceptJournaled s
  | .ssetWrite k w v => Sys2Proof.Machine.execSsetWrite k w v s
  | .eventBuildStart => Sys2Proof.Machine.execEventBuildStart s
  | .streamReadyTime num n => Sys2Proof.Machine.execStreamReadyTime num n s
  | .readoutHoldTimeout num n => Sys2Proof.Machine.execReadoutHoldTimeout num n s
  | .eventDeliver q => Sys2Proof.Machine.execEventDeliver q s
  | .farmSend d => Sys2Proof.Machine.execFarmSend d s
  | .doorbellFetch q tail head => Sys2Proof.Machine.execDoorbellFetch q tail head s
  | .descriptorFetch q descs => Sys2Proof.Machine.execDescriptorFetch q descs s
  | .rdoNudge q => Sys2Proof.Machine.execRdoNudge q s
  | .descAccepted q => Sys2Proof.Machine.execDescAccepted q s
  | .descNop q seq => Sys2Proof.Machine.execDescNop q seq s
  | .descAccept q seq => Sys2Proof.Machine.execDescAccept q seq s
  | .descPostBuf q seq => Sys2Proof.Machine.execDescPostBuf q seq s
  | .descStreamCtl q seq => Sys2Proof.Machine.execDescStreamCtl q seq s
  | .descDomeRead q seq => Sys2Proof.Machine.execDescDomeRead q seq s
  | .descDomeWrite q seq lines => Sys2Proof.Machine.execDescDomeWrite q seq lines s
  | .descHoldSet q seq => Sys2Proof.Machine.execDescHoldSet q seq s
  | .completionWrite q => Sys2Proof.Machine.execCompletionWrite q s
  | .qpEnable q db => Sys2Proof.Machine.execQpEnable q db s
  | .qpRecoverDone q slots => Sys2Proof.Machine.execQpRecoverDone q slots s
  | .qpDisable q => Sys2Proof.Machine.execQpDisable q s
  | .qpAbort q descs => Sys2Proof.Machine.execQpAbort q descs s
  | .rdoEnWrite en => Sys2Proof.Machine.execRdoEnWrite en s
  | .admCfgWrite v => Sys2Proof.Machine.execAdmCfgWrite v s
  | .admAdmit i1 => Sys2Proof.Machine.execAdmAdmit i1 s
  | .admQuery i1 => Sys2Proof.Machine.execAdmQuery i1 s
  | .admRelease i1 => Sys2Proof.Machine.execAdmRelease i1 s
  | .admitEffect => Sys2Proof.Machine.execAdmitEffect s
  | .releaseEffect => Sys2Proof.Machine.execReleaseEffect s
  | .reservationMove i1 => Sys2Proof.Machine.execReservationMove i1 s
  | .rtFlitSend d sk sid formed delivered => Sys2Proof.Machine.execRtFlitSend d sk sid formed delivered s
  | .admRestoreDone => Sys2Proof.Machine.execAdmRestoreDone s
  | .bundleIssue p k ipar par stall => Sys2Proof.Machine.execBundleIssue p k ipar par stall s
  | .waitConditionMet p k x => Sys2Proof.Machine.execWaitConditionMet p k x s
  | .waittTimeReached p k x => Sys2Proof.Machine.execWaittTimeReached p k x s
  | .amoResponse p k x status v => Sys2Proof.Machine.execAmoResponse p k x status v s
  | .spireReservationExpiry p k x => Sys2Proof.Machine.execSpireReservationExpiry p k x s
  | .normalEventTaken p k => Sys2Proof.Machine.execNormalEventTaken p k s
  | .sprLoad p k => Sys2Proof.Machine.execSprLoad p k s
  | .sprLoadDone p k => Sys2Proof.Machine.execSprLoadDone p k s
  | .irefetchDone p k x => Sys2Proof.Machine.execIrefetchDone p k x s
  | .sprStartWrite p k v => Sys2Proof.Machine.execSprStartWrite p k v s
  | .sprCrst p k => Sys2Proof.Machine.execSprCrst p k s
  | .sprClrf0 p k => Sys2Proof.Machine.execSprClrf0 p k s
  | .sprClrf1 p k => Sys2Proof.Machine.execSprClrf1 p k s
  | .sprEnWrite p k en => Sys2Proof.Machine.execSprEnWrite p k en s
  | .feedEnable p k f v => Sys2Proof.Machine.execFeedEnable p k f v s
  | .feedRidxWrite p k f v => Sys2Proof.Machine.execFeedRidxWrite p k f v s
  | .dmaGo p k c v => Sys2Proof.Machine.execDmaGo p k c v s
  | .dmaAbort p k c => Sys2Proof.Machine.execDmaAbort p k c s
  | .dmaPacketDone p k c n status poison data => Sys2Proof.Machine.execDmaPacketDone p k c n status poison data s
  | .tskRegCommit p v => Sys2Proof.Machine.execTskRegCommit p v s
  | .tskPortWrite p words whole => Sys2Proof.Machine.execTskPortWrite p words whole s
  | .tskPost p flow word arg => Sys2Proof.Machine.execTskPost p flow word arg s
  | .tskDelay p flow word arg time => Sys2Proof.Machine.execTskDelay p flow word arg time s
  | .tskCancel p flow tag pcancel => Sys2Proof.Machine.execTskCancel p flow tag pcancel s
  | .delayReady p => Sys2Proof.Machine.execDelayReady p s
  | .taskDispatch p => Sys2Proof.Machine.execTaskDispatch p s
  | .mailboxWriteDone p t => Sys2Proof.Machine.execMailboxWriteDone p t s
  | .ldgDoneWrite p => Sys2Proof.Machine.execLdgDoneWrite p s
  | .tskCancelAll p f => Sys2Proof.Machine.execTskCancelAll p f s
  | .cancelAllDone p => Sys2Proof.Machine.execCancelAllDone p s
  | .cplFifoRead p => Sys2Proof.Machine.execCplFifoRead p s
  | .tskCtlWrite p v => Sys2Proof.Machine.execTskCtlWrite p v s
  | .tskFlowWrite p f v => Sys2Proof.Machine.execTskFlowWrite p f v s
  | .coalTimerExpiry c g => Sys2Proof.Machine.execCoalTimerExpiry c g s
  | .evcArbitration c => Sys2Proof.Machine.execEvcArbitration c s
  | .evcAckRead c t cls => Sys2Proof.Machine.execEvcAckRead c t cls s
  | .evcEoi c t cls => Sys2Proof.Machine.execEvcEoi c t cls s
  | .stkClr c t => Sys2Proof.Machine.execStkClr c t s
  | .evcHoldSet c => Sys2Proof.Machine.execEvcHoldSet c s
  | .evcHoldRelease c => Sys2Proof.Machine.execEvcHoldRelease c s
  | .evcSwraise c v => Sys2Proof.Machine.execEvcSwraise c v s
  | .evcPendWrite c w v => Sys2Proof.Machine.execEvcPendWrite c w v s
  | .fallbackTimeout c g => Sys2Proof.Machine.execFallbackTimeout c g s
  | .pllApply p k => Sys2Proof.Machine.execPllApply p k s
  | .pllRelockDone p k => Sys2Proof.Machine.execPllRelockDone p k s
  | .pllAlignDone p k => Sys2Proof.Machine.execPllAlignDone p k s
  | .gclkSourceSwitch p n => Sys2Proof.Machine.execGclkSourceSwitch p n s
  | .resetNetDeassert p n => Sys2Proof.Machine.execResetNetDeassert p n s
  | .fabricEvent p i1 => Sys2Proof.Machine.execFabricEvent p i1 s
  | .crossingRepin p e g => Sys2Proof.Machine.execCrossingRepin p e g s
  | .tioInputWord t g ts word => Sys2Proof.Machine.execTioInputWord t g ts word s
  | .tioWordPresent t g arrived => Sys2Proof.Machine.execTioWordPresent t g arrived s
  | .tioWstb t g n word => Sys2Proof.Machine.execTioWstb t g n word s
  | .tioOutputWord t g arrived => Sys2Proof.Machine.execTioOutputWord t g arrived s
  | .tioEnable t g v => Sys2Proof.Machine.execTioEnable t g v s
  | .packetForward n i1 cls par => Sys2Proof.Machine.execPacketForward n i1 cls par s
  | .prmRead n pkt fabStatus fabData par => Sys2Proof.Machine.execPrmRead n pkt fabStatus fabData par s
  | .prmWrite n pkt fabStatus => Sys2Proof.Machine.execPrmWrite n pkt fabStatus s
  | .prmAtomic n pkt fabStatus fabData => Sys2Proof.Machine.execPrmAtomic n pkt fabStatus fabData s
  | .prmRdData pkt => Sys2Proof.Machine.execPrmRdData pkt s
  | .prmWrAck pkt => Sys2Proof.Machine.execPrmWrAck pkt s
  | .prmAtData pkt => Sys2Proof.Machine.execPrmAtData pkt s
  | .reqTimeout n port tag => Sys2Proof.Machine.execReqTimeout n port tag s
  | .linkStatePacket n p e up => Sys2Proof.Machine.execLinkStatePacket n p e up s
  | .retryReinject n e => Sys2Proof.Machine.execRetryReinject n e s
  | .linkArbitration n o => Sys2Proof.Machine.execLinkArbitration n o s
  | .fenceRequest p v => Sys2Proof.Machine.execFenceRequest p v s
  | .fenceDrained p plot => Sys2Proof.Machine.execFenceDrained p plot s
  | .fenceTmoExpiry p plot => Sys2Proof.Machine.execFenceTmoExpiry p plot s
  | .fenceRelease p v => Sys2Proof.Machine.execFenceRelease p v s
  | .isoMaskWrite p hi v who => Sys2Proof.Machine.execIsoMaskWrite p hi v who s
  | .lineReservationExpiry t node port => Sys2Proof.Machine.execLineReservationExpiry t node port s
  | .lrtDataFrameRx n l frame => Sys2Proof.Machine.execLrtDataFrameRx n l frame s
  | .lctlIdle n l ack => Sys2Proof.Machine.execLctlIdle n l ack s
  | .lctlNak n l seq par => Sys2Proof.Machine.execLctlNak n l seq par s
  | .lctlSwapReq n l f spare => Sys2Proof.Machine.execLctlSwapReq n l f spare s
  | .lctlSwapAck n l first => Sys2Proof.Machine.execLctlSwapAck n l first s
  | .lctlAdvertise n l lanes cap next => Sys2Proof.Machine.execLctlAdvertise n l lanes cap next s
  | .lctlCheck n l width lanes => Sys2Proof.Machine.execLctlCheck n l width lanes s
  | .lctlResendTimer n l => Sys2Proof.Machine.execLctlResendTimer n l s
  | .lrtDetectLock n l => Sys2Proof.Machine.execLrtDetectLock n l s
  | .laneTestDone n l pass => Sys2Proof.Machine.execLaneTestDone n l pass s
  | .frameLockLoss n l => Sys2Proof.Machine.execFrameLockLoss n l s
  | .lrtEnWrite n l en who => Sys2Proof.Machine.execLrtEnWrite n l en who s
  | .lrtRetrain n l who => Sys2Proof.Machine.execLrtRetrain n l who s
  | .lrtWiden n l who => Sys2Proof.Machine.execLrtWiden n l who s
  | .lrtPrst n l who => Sys2Proof.Machine.execLrtPrst n l who s
  | .lrtBackoffExpiry n l => Sys2Proof.Machine.execLrtBackoffExpiry n l s
  | .laneFailing n l lanes => Sys2Proof.Machine.execLaneFailing n l lanes s
  | .anxEnWrite a v => Sys2Proof.Machine.execAnxEnWrite a v s
  | .anxBackoffExpiry a => Sys2Proof.Machine.execAnxBackoffExpiry a s
  | .anxTrainingDone a rate => Sys2Proof.Machine.execAnxTrainingDone a rate s
  | .anxParamDone a => Sys2Proof.Machine.execAnxParamDone a s
  | .anxIdentResponse a w0 w1 w2 w3 => Sys2Proof.Machine.execAnxIdentResponse a w0 w1 w2 w3 s
  | .anxLinkLoss a => Sys2Proof.Machine.execAnxLinkLoss a s
  | .anxPacketIn a pkt => Sys2Proof.Machine.execAnxPacketIn a pkt s
  | .loadGoFull v who => Sys2Proof.Machine.execLoadGoFull v who s
  | .loadGoPavReload v who => Sys2Proof.Machine.execLoadGoPavReload v who s
  | .loadHeaderDone w1 nsect => Sys2Proof.Machine.execLoadHeaderDone w1 nsect s
  | .loadSectionsDone sects => Sys2Proof.Machine.execLoadSectionsDone sects s
  | .loadError code sect => Sys2Proof.Machine.execLoadError code sect s
  | .loadBackoffExpiry => Sys2Proof.Machine.execLoadBackoffExpiry s
  | .loadStartTime => Sys2Proof.Machine.execLoadStartTime s
  | .verifierPassStart p bad domeBad => Sys2Proof.Machine.execVerifierPassStart p bad domeBad s
  | .verifierFrameRead p found stuck => Sys2Proof.Machine.execVerifierFrameRead p found stuck s
  | .verEnWrite p v => Sys2Proof.Machine.execVerEnWrite p v s
  | .plotGo p q => Sys2Proof.Machine.execPlotGo p q s
  | .plotSectionDone p q sect => Sys2Proof.Machine.execPlotSectionDone p q sect s
  | .plotLoadError p q code => Sys2Proof.Machine.execPlotLoadError p q code s
  | .plotStartDone p q => Sys2Proof.Machine.execPlotStartDone p q s
  | .bucketLeak p b => Sys2Proof.Machine.execBucketLeak p b s
  | .remapEntryWrite p v who => Sys2Proof.Machine.execRemapEntryWrite p v who s
  | .remapCopyDone p => Sys2Proof.Machine.execRemapCopyDone p s
  | .keyW7Write p k v who => Sys2Proof.Machine.execKeyW7Write p k v who s
  | .keyStart p k who => Sys2Proof.Machine.execKeyStart p k who s
  | .keyInitDone p k => Sys2Proof.Machine.execKeyInitDone p k s
  | .keyRetire p k who => Sys2Proof.Machine.execKeyRetire p k who s
  | .keyRetireDone p k => Sys2Proof.Machine.execKeyRetireDone p k s
  | .majorCounterChangeDone p k => Sys2Proof.Machine.execMajorCounterChangeDone p k s
  | .lodgeBootDone x src => Sys2Proof.Machine.execLodgeBootDone x src s
  | .lodgeBootFail x err => Sys2Proof.Machine.execLodgeBootFail x err s
  | .lodgeBackoffExpiry x => Sys2Proof.Machine.execLodgeBackoffExpiry x s
  | .lodgeInstruction x f0 f1 fd ext cycles par => Sys2Proof.Machine.execLodgeInstruction x f0 f1 fd ext cycles par s
  | .lodgeFastEntry x => Sys2Proof.Machine.execLodgeFastEntry x s
  | .heartbeatSend => Sys2Proof.Machine.execHeartbeatSend s
  | .heartbeatRx x => Sys2Proof.Machine.execHeartbeatRx x s
  | .heartbeatTimeout x => Sys2Proof.Machine.execHeartbeatTimeout x s
  | .electionMsg x => Sys2Proof.Machine.execElectionMsg x s
  | .electionAnnounce => Sys2Proof.Machine.execElectionAnnounce s
  | .presideStart copies => Sys2Proof.Machine.execPresideStart copies s
  | .ringBypass x => Sys2Proof.Machine.execRingBypass x s
  | .journalEntryWrite term => Sys2Proof.Machine.execJournalEntryWrite term s
  | .journalEntryHeld y => Sys2Proof.Machine.execJournalEntryHeld y s
  | .deputyCopyDone y => Sys2Proof.Machine.execDeputyCopyDone y s
  | .safeHoldEnter => Sys2Proof.Machine.execSafeHoldEnter s
  | .subGo v who => Sys2Proof.Machine.execSubGo v who s
  | .subStepDone ok => Sys2Proof.Machine.execSubStepDone ok s
  | .subCancel v who => Sys2Proof.Machine.execSubCancel v who s
  | .towerFault t => Sys2Proof.Machine.execTowerFault t s
  | .spireResetTimeout p k => Sys2Proof.Machine.execSpireResetTimeout p k s
  | .lodgeRebootTimeout x => Sys2Proof.Machine.execLodgeRebootTimeout x s
  | .ldgCoreReset x => Sys2Proof.Machine.execLdgCoreReset x s
  | .watchdogKick x => Sys2Proof.Machine.execWatchdogKick x s
  | .watchdogExpiry x => Sys2Proof.Machine.execWatchdogExpiry x s
  | .alarmRetry n ty => Sys2Proof.Machine.execAlarmRetry n ty s
  | .alarmRecordRx n ty => Sys2Proof.Machine.execAlarmRecordRx n ty s
  | .alarmActClear w v => Sys2Proof.Machine.execAlarmActClear w v s
  | .telAlmRaise n v => Sys2Proof.Machine.execTelAlmRaise n v s
  | .logSubmit n port words whole => Sys2Proof.Machine.execLogSubmit n port words whole s
  | .traceSubmit n port words whole => Sys2Proof.Machine.execTraceSubmit n port words whole s
  | .telIntakeRecord node => Sys2Proof.Machine.execTelIntakeRecord node s
  | .telLogRdWrite trace v => Sys2Proof.Machine.execTelLogRdWrite trace v s
  | .telRingEnable v => Sys2Proof.Machine.execTelRingEnable v s
  | .sensorSample p readings => Sys2Proof.Machine.execSensorSample p readings s
  | .lifeMinute p => Sys2Proof.Machine.execLifeMinute p s
  | .pwrTargetWrite p v who => Sys2Proof.Machine.execPwrTargetWrite p v who s
  | .pwrChangeDone p => Sys2Proof.Machine.execPwrChangeDone p s
  | .xcvLaneCfgWrite t l v => Sys2Proof.Machine.execXcvLaneCfgWrite t l v s
  | .ppmWindow t q ppm => Sys2Proof.Machine.execPpmWindow t q ppm s
  | .bar0Access f x len write ep vs => Sys2Proof.Machine.execBar0Access f x len write ep vs s
  | .hostCompletionRx f q res => Sys2Proof.Machine.execHostCompletionRx f q res s
  | .pcieLinkChange e up width gen => Sys2Proof.Machine.execPcieLinkChange e up width gen s
  | .functionUsabilityChange f bme d3hot flr secure => Sys2Proof.Machine.execFunctionUsabilityChange f bme d3hot flr secure s
  | .flr f => Sys2Proof.Machine.execFlr f s
  | .ideFail e => Sys2Proof.Machine.execIdeFail e s
  | .ethCtlWrite t v => Sys2Proof.Machine.execEthCtlWrite t v s
  | .ethFrameRx t bytes fcs sec => Sys2Proof.Machine.execEthFrameRx t bytes fcs sec s
  | .pauseExpiry t => Sys2Proof.Machine.execPauseExpiry t s
  | .ethLinkDown t cdr => Sys2Proof.Machine.execEthLinkDown t cdr s
  | .gpioMaskedWrite k oe v => Sys2Proof.Machine.execGpioMaskedWrite k oe v s
  | .gpioFuncWrite w v => Sys2Proof.Machine.execGpioFuncWrite w v s
  | .gpioSwitchEnd w => Sys2Proof.Machine.execGpioSwitchEnd w s
  | .gpioEdgeSeen n rising => Sys2Proof.Machine.execGpioEdgeSeen n rising s
  | .unitCfgWrite e x v => Sys2Proof.Machine.execUnitCfgWrite e x v s
  | .unitTxPush e x v => Sys2Proof.Machine.execUnitTxPush e x v s
  | .unitRxPop e x => Sys2Proof.Machine.execUnitRxPop e x s
  | .unitWordDone e x rx => Sys2Proof.Machine.execUnitWordDone e x rx s
  | .uartRxByte e x byte bad => Sys2Proof.Machine.execUartRxByte e x byte bad s
  | .timerCapture e c => Sys2Proof.Machine.execTimerCapture e c s
  | .pwmPeriodEnd e c => Sys2Proof.Machine.execPwmPeriodEnd e c s
  | .jtagExtest dr => Sys2Proof.Machine.execJtagExtest dr s
  | .jtagSamplePreload dr => Sys2Proof.Machine.execJtagSamplePreload dr s
  | .jtagIdcode => Sys2Proof.Machine.execJtagIdcode s
  | .jtagHighz => Sys2Proof.Machine.execJtagHighz s
  | .jtagClamp => Sys2Proof.Machine.execJtagClamp s
  | .jtagExtestPulse dr => Sys2Proof.Machine.execJtagExtestPulse dr s
  | .jtagExtestTrain dr => Sys2Proof.Machine.execJtagExtestTrain dr s
  | .jtagDbgAccess => Sys2Proof.Machine.execJtagDbgAccess s
  | .jtagColdReset => Sys2Proof.Machine.execJtagColdReset s
  | .jtagUnlock => Sys2Proof.Machine.execJtagUnlock s
  | .jtagBypass => Sys2Proof.Machine.execJtagBypass s
  | .dbgAccessUpdateDr dr => Sys2Proof.Machine.execDbgAccessUpdateDr dr s
  | .dbgAccRead v => Sys2Proof.Machine.execDbgAccRead v s
  | .dbgAccWrite v => Sys2Proof.Machine.execDbgAccWrite v s
  | .dbgAccessDone status v => Sys2Proof.Machine.execDbgAccessDone status v s
  | .peekRead n pkt fabStatus fabData => Sys2Proof.Machine.execPeekRead n pkt fabStatus fabData s
  | .dbgUnlockGo => Sys2Proof.Machine.execDbgUnlockGo s
  | .unlockEraseDone => Sys2Proof.Machine.execUnlockEraseDone s
  | .dbgHalt w i1 v => Sys2Proof.Machine.execDbgHalt w i1 v s
  | .dbgHaltTaken w i1 x => Sys2Proof.Machine.execDbgHaltTaken w i1 x s
  | .dbgResume w i1 v => Sys2Proof.Machine.execDbgResume w i1 v s
  | .dbgStep w i1 v ipar par f0 f1 fd ext cycles => Sys2Proof.Machine.execDbgStep w i1 v ipar par f0 f1 fd ext cycles s
  | .dbgRegTransfer w i1 v => Sys2Proof.Machine.execDbgRegTransfer w i1 v s
  | .imemBundleRead p k => Sys2Proof.Machine.execImemBundleRead p k s
  | .imemBundleWrite p k v => Sys2Proof.Machine.execImemBundleWrite p k v s
  | .vtWrite w i1 out v => Sys2Proof.Machine.execVtWrite w i1 out v s
  | .vtRead w i1 out => Sys2Proof.Machine.execVtRead w i1 out s
  | .patchWrite x n data v who => Sys2Proof.Machine.execPatchWrite x n data v who s
  | .powerOnRelease bootMode => Sys2Proof.Machine.execPowerOnRelease bootMode s
  | .gateStrmCmdDone p => Sys2Proof.Machine.execGateStrmCmdDone p s
  | .fabricPllLockLoss p k => Sys2Proof.Machine.execFabricPllLockLoss p k s
  | .verifierVoteMismatch p => Sys2Proof.Machine.execVerifierVoteMismatch p s
  | .lodgeNormalInterrupt x => Sys2Proof.Machine.execLodgeNormalInterrupt x s
  | .prbsCheckerLock t l errs => Sys2Proof.Machine.execPrbsCheckerLock t l errs s
  | .msixVectorUnmask f entry => Sys2Proof.Machine.execMsixVectorUnmask f entry s
  | .ethLinkUp t => Sys2Proof.Machine.execEthLinkUp t s
  | .anxIdentTimeout a => Sys2Proof.Machine.execAnxIdentTimeout a s
  | .jtagTestLogicReset => Sys2Proof.Machine.execJtagTestLogicReset s
  | .perstNAssert e => Sys2Proof.Machine.execPerstNAssert e s
  | .hostCompletionTimeout f q => Sys2Proof.Machine.execHostCompletionTimeout f q s

end Sys2Proof.Machine
end

