-- ==== Sys2Proof/Machine/SpireEnc.lean ====
section
/-!
DEFINITION. The encoders of the Spires' slots (Tables 8.2..8.4), and which slots have an encoding.
-/
namespace Sys2Proof.Machine

/-- A signed immediate fits w bits. -/
def fitsS (w : Nat) (x : Int) : Bool := decide (-(2 ^ (w - 1) : Int) ≤ x) && decide (x < (2 ^ (w - 1) : Int))

/-- A number fits w bits. -/
def fits (w x : Nat) : Bool := decide (x < 2 ^ w)

/-- A scalar slot whose fields fit its format and name what Table 8.3 lists. -/
def SOp.wf : SOp → Bool
  | .nop => true
  | .alu fn rd a b => aluExists fn && fits 5 rd && fits 5 a && fits 5 b
  | .addi rd a imm => fits 5 rd && fits 5 a && fitsS 16 imm
  | .logi fn rd a imm => decide (fn ≤ 2) && fits 5 rd && fits 5 a && fits 16 imm
  | .lui rd imm => fits 5 rd && fits 16 imm
  | .shi kind rd a sh => decide (kind ≤ 2) && fits 5 rd && fits 5 a && fits 5 sh
  | .load size sx rd a imm =>
    (size == 1 || size == 2 || (size == 4 && !sx)) && fits 5 rd && fits 5 a && fitsS 16 imm
  | .store size b a imm => (size == 1 || size == 2 || size == 4) && fits 5 b && fits 5 a && fitsS 16 imm
  | .branch cond a b off => decide (cond ≤ 5) && fits 5 a && fits 5 b && fitsS 16 off
  | .jal rd off => fits 5 rd && fitsS 21 off
  | .jalr rd a imm => fits 5 rd && fits 5 a && fitsS 16 imm
  | .loopi count last => fits 16 count && fits 10 last && last != 0
  | .loop a last => fits 5 a && fits 10 last && last != 0
  | .agw g f a => fits 3 g && fits 2 f && fits 5 a
  | .agr rd g f => fits 5 rd && fits 3 g && fits 2 f
  | .lwa rd g => fits 5 rd && fits 3 g
  | .swa a g => fits 5 a && fits 3 g
  | .csrr rd csr => fits 5 rd && csrExists csr
  | .csrw csr a => fits 5 a && csrExists csr && csrWritable csr
  | .amo fn rd a b => decide (fn ≤ 8) && fits 5 rd && fits 5 a && fits 5 b
  | .waite mask => fits 9 mask && mask != 0
  | .waitt lo hi => fits 5 lo && fits 5 hi
  | .stop => true
  | .sig n => fits 2 n
  | .feedack f => fits 2 f
  | .eret => true
  | .ebreak => true

/-- Formats R, I and L of Table 8.2: the opcode, and the fields from bits 25, 20 and 15 down. -/
def sWord (op rd ra low : Nat) : Nat := op * 2 ^ 26 + rd * 2 ^ 21 + ra * 2 ^ 16 + low

/-- The load opcodes. -/
def loadOp (size : Nat) (sx : Bool) : Nat :=
  if size = 4 then 0x08 else if size = 2 then (if sx then 0x09 else 0x0a) else if sx then 0x0b else 0x0c

/-- The store opcodes. -/
def storeOp (size : Nat) : Nat := if size = 4 then 0x0d else if size = 2 then 0x0e else 0x0f

/-- The word of a scalar slot (Tables 8.2, 8.3). -/
def sEncode : SOp → Nat
  | .nop => 0
  | .alu fn rd a b => sWord 0x01 rd a (b * 2 ^ 11 + fn)
  | .addi rd a imm => sWord 0x02 rd a (unsign 16 imm)
  | .logi fn rd a imm => sWord (0x03 + fn) rd a imm
  | .lui rd imm => sWord 0x06 rd 0 imm
  | .shi kind rd a sh => sWord 0x07 rd a (kind * 2 ^ 5 + sh)
  | .load size sx rd a imm => sWord (loadOp size sx) rd a (unsign 16 imm)
  | .store size b a imm => sWord (storeOp size) b a (unsign 16 imm)
  | .branch cond a b off => sWord (0x10 + cond) a b (unsign 16 off)
  | .jal rd off => sWord 0x16 rd 0 (unsign 21 off)
  | .jalr rd a imm => sWord 0x17 rd a (unsign 16 imm)
  | .loopi count last => sWord 0x18 0 0 (count * 2 ^ 10 + last)
  | .loop a last => sWord 0x19 a 0 last
  | .agw g f a => sWord 0x1a a (g * 4 + f) 0
  | .agr rd g f => sWord 0x1b rd (g * 4 + f) 0
  | .lwa rd g => sWord 0x1c rd (g * 4) 0
  | .swa a g => sWord 0x1d a (g * 4) 0
  | .csrr rd csr => sWord 0x1e rd 0 csr
  | .csrw csr a => sWord 0x1f a 0 csr
  | .amo fn rd a b => sWord 0x20 rd a (b * 2 ^ 11 + fn)
  | .waite mask => sWord 0x21 0 0 mask
  | .waitt lo hi => sWord 0x22 0 lo (hi * 2 ^ 11)
  | .stop => sWord 0x23 0 0 0
  | .sig n => sWord 0x24 0 0 n
  | .feedack f => sWord 0x25 0 0 f
  | .eret => sWord 0x26 0 0 0
  | .ebreak => sWord 0x27 0 0 0

/-- A vector slot whose fields fit and name what Table 8.4 lists. -/
def VOp.wf : VOp → Bool
  | .nop => true
  | .vld d g => fits 4 d && fits 3 g
  | .vst a g => fits 4 a && fits 3 g
  | .vldc d g _ => fits 3 d && fits 3 g
  | .vbc d a => fits 4 d && fits 5 a
  | .valu fn d a b => fits 4 fn && fits 4 d && fits 4 a && fits 4 b
  | .vsh fn d a sh => decide (fn ≤ 2) && fits 4 d && fits 4 a && fits 4 sh
  | .vmac d a c _ _ _ => fits 2 d && fits 4 a && fits 3 c
  | .ftap d g _ => fits 2 d && fits 3 g
  | .ftapv d g h _ => fits 2 d && fits 3 g && fits 3 h && g != h
  | .vclr d => fits 2 d
  | .vrnd d a sh rm _ => fits 4 d && fits 2 a && decide (sh ≤ 47) && decide (rm ≤ 2)
  | .vhsum rd a _ => fits 5 rd && fits 4 a
  | .vext rd a lane _ => fits 5 rd && fits 4 a && fits 3 lane

/-- The word of a vector slot (Table 8.4). -/
def vEncode : VOp → Nat
  | .nop => 0
  | .vld d g => 0x01 * 2 ^ 26 + d * 2 ^ 22 + g * 2 ^ 19
  | .vst a g => 0x02 * 2 ^ 26 + a * 2 ^ 22 + g * 2 ^ 19
  | .vldc d g b => 0x03 * 2 ^ 26 + d * 2 ^ 23 + g * 2 ^ 20 + b2n b * 2 ^ 19
  | .vbc d a => 0x04 * 2 ^ 26 + d * 2 ^ 22 + a * 2 ^ 17
  | .valu fn d a b => 0x05 * 2 ^ 26 + d * 2 ^ 22 + a * 2 ^ 18 + b * 2 ^ 14 + fn
  | .vsh fn d a sh => 0x06 * 2 ^ 26 + d * 2 ^ 22 + a * 2 ^ 18 + sh * 2 ^ 14 + fn
  | .vmac d a c u sub clr =>
    0x07 * 2 ^ 26 + d * 2 ^ 24 + a * 2 ^ 20 + c * 2 ^ 17 + b2n u * 4 + b2n sub * 2 + b2n clr
  | .ftap d g u => 0x08 * 2 ^ 26 + d * 2 ^ 24 + g * 2 ^ 21 + b2n u * 2 ^ 20
  | .ftapv d g h u => 0x09 * 2 ^ 26 + d * 2 ^ 24 + g * 2 ^ 21 + h * 2 ^ 18 + b2n u * 2 ^ 17
  | .vclr d => 0x0a * 2 ^ 26 + d * 2 ^ 24
  | .vrnd d a sh rm u => 0x0b * 2 ^ 26 + d * 2 ^ 22 + a * 2 ^ 20 + sh * 2 ^ 14 + rm * 2 ^ 12 + b2n u * 2 ^ 11
  | .vhsum rd a u => 0x0c * 2 ^ 26 + rd * 2 ^ 21 + a * 2 ^ 17 + b2n u * 2 ^ 16
  | .vext rd a lane u => 0x0d * 2 ^ 26 + rd * 2 ^ 21 + a * 2 ^ 17 + lane * 2 ^ 14 + b2n u * 2 ^ 13

end Sys2Proof.Machine
end

