-- ==== Sys2Proof/Safety.lean ====
section
/-!
DEFINITION. What counts as a safe state and a safe step of the block.
-/
namespace Sys2Proof.Machine

/-- Memory is in its canonical form: addresses strictly rising, and no listed byte equal to what an unlisted one reads. -/
def State.Canonical (s : State) : Prop := Memory.wf s.mem = true

/-- A command completes from a state: it answers a next state. -/
def Completes (c : Instr) (s : State) : Prop := ∃ t, exec c s = .next t

/-- What no command of the block may change but by the queue itself: the commands that wait, and the fuses (R8, R17). -/
def State.Kept (s t : State) : Prop := t.pending = s.pending ∧ t.fuses = s.fuses

/-- Every step from the state is free of faults. -/
def State.Safe (s : State) : Prop := ∃ t, step s = .next t

/-- R9, R491, R494. The effect of giving a register a value is defined: its reserved bits are 0 and its fields hold listed
values; a register transfer names a class of the block, and a value that the register may take. A STEP of a Spire is
DBG_STEP's, which carries what its bundle meets. -/
def State.setDefined (s : State) (r : RegRef) (d : DWord) : Bool :=
  r.id.defined d.toNat &&
  match r.id with
  | .DBG_CORE_CTL => decide (8 ≤ r.i) || !bitOf d.toNat 2
  | .DBG_CORE_REGSEL =>
    regClass r.i (bitsOf d.toNat 12 4) &&
      (!bitOf d.toNat 16 ||
        pokeDefined r.i (bitsOf d.toNat 12 4) (bitsOf d.toNat 0 12) (s.regN .DBG_CORE_REGDATA r.w r.i))
  | _ => true

/-- R7, R9. The effect of a write of a word to a register that is there is defined: a _HI gives the pair the stage and the
word, and a _LO only fills the stage. -/
def State.refDefined (s : State) (r : RegRef) (v : Word) : Bool :=
  if r.hi then s.setDefined r (pairOf (s.stageOf r.key) v)
  else r.id == .PRM_ISO || r.id.row.pair || s.setDefined r (v.zeroExtend 64)

/-- R9, R53. The effect of a write of a word to a register offset is defined, with the launched writes of its cycle. -/
def State.writeDefined (s : State) (x : Nat) (v : Word) (who : Requester) : Bool :=
  match s.findReg x with
  | some (some r) => s.refDefined r (s.shotMask r v who)
  | _ => true

end Sys2Proof.Machine
end

