-- ==== Sys2Proof/WellFormed.lean ====
section
/-!
DEFINITION. Which commands are well formed: every index operand names something that the block has (Tables 1.6, 22.2,
22.3). The number of each kind is the count of its registers or units in the spec.
-/
namespace Sys2Proof

/-- An index below the number of things it names. -/
def below (n i : Nat) : Bool := decide (i < n)

/-- An aligned offset of the 64 MiB register space (R317). -/
def regOffset (x : Nat) : Bool := decide (x < 2 ^ 26) && x % 4 == 0

/-- The launch queues of a home (Table 2.2): a pavilion, a tower or the global block. -/
def queues (h : Nat) : Nat := if h < 32 then 16 else if h < 40 then 8 else 4

/-- The operands of a command are in range. -/
def Instr.wf : Instr → Bool
  | .pairLoRead x => regOffset x
  | .pairLoWrite x _ _ => regOffset x
  | .pairHiWrite x _ _ => regOffset x
  | .registerWrite x _ _ => regOffset x
  | .porNLow => true
  | .keepRailLow => true
  | .rstNLow => true
  | .wrstNLow => true
  | .ldgRstWarm _ => true
  | .ldgRstCold _ => true
  | .selfTestDone _ => true
  | .pmapApply _ _ => true
  | .pmapApplyDone => true
  | .refGood _ _ _ => true
  | .refLost _ _ _ _ _ _ => true
  | .freqKhzWrite _ => true
  | .epochSampled => true
  | .adjGo => true
  | .stepApply => true
  | .slewDone => true
  | .userTrimWrite x _ => below 36 x
  | .trimSlewDone x => below 36 x
  | .lqPush h q _ => below 41 h && below (queues h) q
  | .lqForward h q => below 41 h && below (queues h) q
  | .launchNop h q => below 41 h && below (queues h) q
  | .launchSpireStart p q => below 32 p && below 16 q
  | .launchTskPost p q => below 32 p && below 16 q
  | .launchPrmSend h q => below 41 h && below (queues h) q
  | .launchXcvState t q => below 8 t && below 8 q
  | .launchPinDrive t q => below 8 t && below 8 q
  | .launchPinSample t q _ => below 8 t && below 8 q
  | .launchRegWrite h q => below 41 h && below (queues h) q
  | .lqFlush h q => below 41 h && below (queues h) q
  | .lqFlushDone h q => below 41 h && below (queues h) q
  | .lqEnWrite h q _ => below 41 h && below (queues h) q
  | .psampFifoRead t => below 8 t
  | .superframeRx t l _ bs _ _ => below 8 t && below 20 l && bs.length == 32 && bs.all fun b => below 4 b.sync
  | .superframeTx t l => below 8 t && below 20 l
  | .xflBlockLock t l hs _ => below 8 t && below 20 l && hs.all (below 4)
  | .xflBlockLockLost t l hs _ => below 8 t && below 20 l && hs.all (below 4)
  | .xflLaneEnWrite t l _ => below 8 t && below 20 l
  | .xflRetrain t l => below 8 t && below 20 l
  | .xflBackoffExpiry t l => below 8 t && below 20 l
  | .laneFrameArrival p i => below 32 p && below 256 i
  | .streamEnable p i => below 32 p && below 256 i
  | .streamDisable p i => below 32 p && below 256 i
  | .streamPause p i => below 32 p && below 256 i
  | .streamResume p i => below 32 p && below 256 i
  | .streamUnregister p i => below 32 p && below 256 i
  | .streamAbort p i => below 32 p && below 256 i
  | .gateSentWrite p i w _ => below 32 p && below 256 i && below 8 w
  | .sampleRelease p i par => below 32 p && below 256 i && par.all (below 16384)
  | .primitivePresent p i => below 32 p && below 256 i
  | .fragmentClose p i => below 32 p && below 256 i
  | .commitAckRx p i _ => below 32 p && below 256 i
  | .commitTimeout p i => below 32 p && below 256 i
  | .commitErrorRx p i _ _ => below 32 p && below 256 i
  | .gateCtlWrite p _ => below 32 p
  | .sslackRead p i => below 32 p && below 256 i
  | .codecCapture p i => below 32 p && below 256 i
  | .domeCommitArrive p i _ par => below 32 p && below 256 i && par.all fun e => below 32768 e.2
  | .domeCommitDone p i _ => below 32 p && below 256 i
  | .domeRingRead p r _ => below 32 p && below 512 r
  | .ringEnable p r _ => below 32 p && below 512 r
  | .ringDisable p r _ => below 32 p && below 512 r
  | .ringInitDone p r => below 32 p && below 512 r
  | .domeSchedIssue p c => below 32 p && below 16 c
  | .refreshInterval p c => below 32 p && below 16 c
  | .writeAgeExpiry p c => below 32 p && below 16 c
  | .panicAgeExpiry p c => below 32 p && below 16 c
  | .idleCloseExpiry p c bank => below 32 p && below 16 c && below 16 bank
  | .domeLineReadDone p c _ _ => below 32 p && below 16 c
  | .patrolRead p _ => below 32 p
  | .domeThermalSample p => below 32 p
  | .srReqWrite p _ => below 32 p
  | .srEntryDone p => below 32 p
  | .srExitDone p => below 32 p
  | .channelFault p c => below 32 p && below 8 c
  | .domeInitDone p => below 32 p
  | .accPortWrite _ _ => true
  | .acceptJournaled => true
  | .ssetWrite k w _ => below 64 k && below 256 w
  | .eventBuildStart => true
  | .streamReadyTime _ n => below 8192 n
  | .readoutHoldTimeout _ n => below 8192 n
  | .eventDeliver q => below 4096 q
  | .farmSend d => below 64 d
  | .doorbellFetch q _ _ => below 4096 q
  | .descriptorFetch q _ => below 4096 q
  | .rdoNudge q => below 4096 q
  | .descAccepted q => below 4096 q
  | .descNop q _ => below 4096 q
  | .descAccept q _ => below 4096 q
  | .descPostBuf q _ => below 4096 q
  | .descStreamCtl q _ => below 4096 q
  | .descDomeRead q _ => below 4096 q
  | .descDomeWrite q _ _ => below 4096 q
  | .descHoldSet q _ => below 4096 q
  | .completionWrite q => below 4096 q
  | .qpEnable q _ => below 4096 q
  | .qpRecoverDone q _ => below 4096 q
  | .qpDisable q => below 4096 q
  | .qpAbort q _ => below 4096 q
  | .rdoEnWrite _ => true
  | .admCfgWrite _ => true
  | .admAdmit i => below 4096 i
  | .admQuery i => below 4096 i
  | .admRelease i => below 4096 i
  | .admitEffect => true
  | .releaseEffect => true
  | .reservationMove i => below 4096 i
  | .rtFlitSend d _ _ _ _ => below 4096 d
  | .admRestoreDone => true
  | .bundleIssue p k _ _ _ => below 32 p && below 8 k
  | .waitConditionMet p k x => below 32 p && below 8 k && below 2 x
  | .waittTimeReached p k x => below 32 p && below 8 k && below 2 x
  | .amoResponse p k x _ _ => below 32 p && below 8 k && below 2 x
  | .spireReservationExpiry p k x => below 32 p && below 8 k && below 2 x
  | .normalEventTaken p k => below 32 p && below 8 k
  | .sprLoad p k => below 32 p && below 8 k
  | .sprLoadDone p k => below 32 p && below 8 k
  | .irefetchDone p k x => below 32 p && below 8 k && below 2 x
  | .sprStartWrite p k _ => below 32 p && below 8 k
  | .sprCrst p k => below 32 p && below 8 k
  | .sprClrf0 p k => below 32 p && below 8 k
  | .sprClrf1 p k => below 32 p && below 8 k
  | .sprEnWrite p k _ => below 32 p && below 8 k
  | .feedEnable p k f _ => below 32 p && below 8 k && below 4 f
  | .feedRidxWrite p k f _ => below 32 p && below 8 k && below 4 f
  | .dmaGo p k c _ => below 32 p && below 8 k && below 4 c
  | .dmaAbort p k c => below 32 p && below 8 k && below 4 c
  | .dmaPacketDone p k c _ _ _ _ => below 32 p && below 8 k && below 4 c
  | .tskRegCommit p _ => below 32 p
  | .tskPortWrite p _ _ => below 32 p
  | .tskPost p flow _ _ => below 32 p && below 1024 flow
  | .tskDelay p flow _ _ _ => below 32 p && below 1024 flow
  | .tskCancel p flow _ _ => below 32 p && below 1024 flow
  | .delayReady p => below 32 p
  | .taskDispatch p => below 32 p
  | .mailboxWriteDone p t => below 32 p && below 9 t
  | .ldgDoneWrite p => below 32 p
  | .tskCancelAll p f => below 32 p && below 1024 f
  | .cancelAllDone p => below 32 p
  | .cplFifoRead p => below 32 p
  | .tskCtlWrite p _ => below 32 p
  | .tskFlowWrite p f _ => below 32 p && below 1024 f
  | .coalTimerExpiry c g => below 33 c && below 64 g
  | .evcArbitration c => below 33 c
  | .evcAckRead c t cls => below 33 c && below (if c < 32 then 9 else 36) t && below 2 cls
  | .evcEoi c t cls => below 33 c && below (if c < 32 then 9 else 36) t && below 2 cls
  | .stkClr c t => below 33 c && below (if c < 32 then 9 else 36) t
  | .evcHoldSet c => below 33 c
  | .evcHoldRelease c => below 33 c
  | .evcSwraise c _ => below 33 c
  | .evcPendWrite c w _ => below 33 c && below (if c < 32 then 16 else 64) w
  | .fallbackTimeout c g => below 33 c && below 64 g
  | .pllApply p k => below 32 p && below 4 k
  | .pllRelockDone p k => below 32 p && below 4 k
  | .pllAlignDone p k => below 32 p && below 4 k
  | .gclkSourceSwitch p n => below 32 p && below 32 n
  | .resetNetDeassert p n => below 32 p && below 8 n
  | .fabricEvent p i => below 32 p && below 128 i
  | .crossingRepin p e g => below 32 p && below 4 e && below 64 g
  | .tioInputWord t g _ _ => below 8 t && below 18 g
  | .tioWordPresent t g _ => below 8 t && below 18 g
  | .tioWstb t g _ _ => below 8 t && below 18 g
  | .tioOutputWord t g _ => below 8 t && below 18 g
  | .tioEnable t g _ => below 8 t && below 18 g
  | .packetForward n i cls par => below 44 n && below 17 i && below 5 cls && par.all (below 320)
  | .prmRead n _ _ _ _ => below 44 n
  | .prmWrite n _ _ => below 44 n
  | .prmAtomic n _ _ _ => below 44 n
  | .prmRdData _ => true
  | .prmWrAck _ => true
  | .prmAtData _ => true
  | .reqTimeout n port _ => below 44 n && below 128 port
  | .linkStatePacket n p e _ => below 44 n && below 32 p && below 4 e
  | .retryReinject n e => below 44 n && below 4 e
  | .linkArbitration n o => below 44 n && below 17 o
  | .fenceRequest p _ => below 32 p
  | .fenceDrained p _ => below 32 p
  | .fenceTmoExpiry p _ => below 32 p
  | .fenceRelease p _ => below 32 p
  | .isoMaskWrite p _ _ _ => below 32 p
  | .lineReservationExpiry t node port => below 436 t && below 64 node && below 128 port
  | .lrtDataFrameRx n l f => below 44 n && below (if n < 32 then 7 else 4) l && below 256 f.seq && below 256 f.ack && f.flit.length == 64
  | .lctlIdle n l _ => below 44 n && below (if n < 32 then 7 else 4) l
  | .lctlNak n l _ _ => below 44 n && below (if n < 32 then 7 else 4) l
  | .lctlSwapReq n l _ spare => below 44 n && below (if n < 32 then 7 else 4) l && below 34 spare
  | .lctlSwapAck n l _ => below 44 n && below (if n < 32 then 7 else 4) l
  | .lctlAdvertise n l _ _ _ => below 44 n && below (if n < 32 then 7 else 4) l
  | .lctlCheck n l _ _ => below 44 n && below (if n < 32 then 7 else 4) l
  | .lctlResendTimer n l => below 44 n && below (if n < 32 then 7 else 4) l
  | .lrtDetectLock n l => below 44 n && below (if n < 32 then 7 else 4) l
  | .laneTestDone n l _ => below 44 n && below (if n < 32 then 7 else 4) l
  | .frameLockLoss n l => below 44 n && below (if n < 32 then 7 else 4) l
  | .lrtEnWrite n l _ _ => below 44 n && below (if n < 32 then 7 else 4) l
  | .lrtRetrain n l _ => below 44 n && below (if n < 32 then 7 else 4) l
  | .lrtWiden n l _ => below 44 n && below (if n < 32 then 7 else 4) l
  | .lrtPrst n l _ => below 44 n && below (if n < 32 then 7 else 4) l
  | .lrtBackoffExpiry n l => below 44 n && below (if n < 32 then 7 else 4) l
  | .laneFailing n l _ => below 44 n && below (if n < 32 then 7 else 4) l
  | .anxEnWrite a _ => below 4 a
  | .anxBackoffExpiry a => below 4 a
  | .anxTrainingDone a _ => below 4 a
  | .anxParamDone a => below 4 a
  | .anxIdentResponse a _ _ _ _ => below 4 a
  | .anxLinkLoss a => below 4 a
  | .anxPacketIn a _ => below 4 a
  | .loadGoFull _ _ => true
  | .loadGoPavReload _ _ => true
  | .loadHeaderDone _ _ => true
  | .loadSectionsDone _ => true
  | .loadError _ _ => true
  | .loadBackoffExpiry => true
  | .loadStartTime => true
  | .verifierPassStart p _ _ => below 32 p
  | .verifierFrameRead p _ _ => below 32 p
  | .verEnWrite p _ => below 32 p
  | .plotGo p q => below 32 p && below 4 q
  | .plotSectionDone p q _ => below 32 p && below 4 q
  | .plotLoadError p q _ => below 32 p && below 4 q
  | .plotStartDone p q => below 32 p && below 4 q
  | .bucketLeak p b => below 32 p && below 2 b
  | .remapEntryWrite p _ _ => below 32 p
  | .remapCopyDone p => below 32 p
  | .keyW7Write p k _ _ => below 32 p && below 16 k
  | .keyStart p k _ => below 32 p && below 16 k
  | .keyInitDone p k => below 32 p && below 16 k
  | .keyRetire p k _ => below 32 p && below 16 k
  | .keyRetireDone p k => below 32 p && below 16 k
  | .majorCounterChangeDone p k => below 32 p && below 16 k
  | .lodgeBootDone x _ => below 36 x
  | .lodgeBootFail x _ => below 36 x
  | .lodgeBackoffExpiry x => below 36 x
  | .lodgeInstruction x _ _ _ _ _ _ => below 36 x
  | .lodgeFastEntry x => below 36 x
  | .heartbeatSend => true
  | .heartbeatRx x => below 36 x
  | .heartbeatTimeout x => below 36 x
  | .electionMsg x => below 36 x
  | .electionAnnounce => true
  | .presideStart l => l.all fun e => below 36 e.1 && below 64 e.2
  | .ringBypass x => below 36 x
  | .journalEntryWrite _ => true
  | .journalEntryHeld y => below 36 y
  | .deputyCopyDone y => below 36 y
  | .safeHoldEnter => true
  | .subGo _ _ => true
  | .subStepDone _ => true
  | .subCancel _ _ => true
  | .towerFault t => below 8 t
  | .spireResetTimeout p k => below 32 p && below 8 k
  | .lodgeRebootTimeout x => below 36 x
  | .ldgCoreReset x => below 36 x
  | .watchdogKick x => below 36 x
  | .watchdogExpiry x => below 36 x
  | .alarmRetry n ty => below 44 n && below 256 ty
  | .alarmRecordRx n ty => below 44 n && below 256 ty
  | .alarmActClear w _ => below 8 w
  | .telAlmRaise n _ => below 44 n
  | .logSubmit n port _ _ => below 44 n && below 128 port
  | .traceSubmit n port _ _ => below 44 n && below 128 port
  | .telIntakeRecord _ => true
  | .telLogRdWrite _ _ => true
  | .telRingEnable _ => true
  | .sensorSample p _ => below 68 p
  | .lifeMinute p => below 32 p
  | .pwrTargetWrite p _ _ => below 32 p
  | .pwrChangeDone p => below 32 p
  | .xcvLaneCfgWrite t l _ => below 8 t && below 20 l
  | .ppmWindow t q _ => below 8 t && below 5 q
  | .bar0Access f x _ _ _ _ => below 4 f && below (2 ^ 26) x
  | .hostCompletionRx f _ _ => below 4 f
  | .pcieLinkChange e _ _ _ => below 2 e
  | .functionUsabilityChange f _ _ _ _ => below 4 f
  | .flr f => below 4 f
  | .ideFail e => below 2 e
  | .ethCtlWrite t _ => below 8 t
  | .ethFrameRx t _ _ _ => below 8 t
  | .pauseExpiry t => below 8 t
  | .ethLinkDown t cdr => below 8 t && cdr.all (below 20)
  | .gpioMaskedWrite k _ _ => below 6 k
  | .gpioFuncWrite w _ => below 12 w
  | .gpioSwitchEnd w => below 12 w
  | .gpioEdgeSeen n _ => below 96 n
  | .unitCfgWrite e x _ => below 2 e && below 21 x
  | .unitTxPush e x _ => below 2 e && below 21 x
  | .unitRxPop e x => below 2 e && below 21 x
  | .unitWordDone e x _ => below 2 e && below 21 x
  | .uartRxByte e x _ _ => below 2 e && below 21 x
  | .timerCapture e c => below 2 e && below 8 c
  | .pwmPeriodEnd e c => below 2 e && below 8 c
  | .jtagExtest _ => true
  | .jtagSamplePreload _ => true
  | .jtagIdcode => true
  | .jtagHighz => true
  | .jtagClamp => true
  | .jtagExtestPulse _ => true
  | .jtagExtestTrain _ => true
  | .jtagDbgAccess => true
  | .jtagColdReset => true
  | .jtagUnlock => true
  | .jtagBypass => true
  | .dbgAccessUpdateDr _ => true
  | .dbgAccRead _ => true
  | .dbgAccWrite _ => true
  | .dbgAccessDone _ _ => true
  | .peekRead n _ _ _ => below 44 n
  | .dbgUnlockGo => true
  | .unlockEraseDone => true
  | .dbgHalt w i _ => below (if i < 8 then 32 else 36) w && below 9 i
  | .dbgHaltTaken w i x => below (if i < 8 then 32 else 36) w && below 9 i && below 2 x
  | .dbgResume w i _ => below (if i < 8 then 32 else 36) w && below 9 i
  | .dbgStep w i _ _ _ _ _ _ _ _ => below (if i < 8 then 32 else 36) w && below 9 i
  | .dbgRegTransfer w i _ => below (if i < 8 then 32 else 36) w && below 9 i
  | .imemBundleRead p k => below 32 p && below 8 k
  | .imemBundleWrite p k _ => below 32 p && below 8 k
  | .vtWrite w i _ _ => below (if i < 8 then 32 else 36) w && below 9 i
  | .vtRead w i _ => below (if i < 8 then 32 else 36) w && below 9 i
  | .patchWrite x n _ _ _ => below 36 x && below 16 n
  | .powerOnRelease _ => true
  | .gateStrmCmdDone p => below 32 p
  | .fabricPllLockLoss p k => below 32 p && below 4 k
  | .verifierVoteMismatch p => below 32 p
  | .lodgeNormalInterrupt x => below 36 x
  | .prbsCheckerLock t l _ => below 8 t && below 20 l
  | .msixVectorUnmask f _ => below 4 f
  | .ethLinkUp t => below 8 t
  | .anxIdentTimeout a => below 4 a
  | .jtagTestLogicReset => true
  | .perstNAssert e => below 2 e
  | .hostCompletionTimeout f _ => below 4 f

end Sys2Proof
end

