-- ==== Sys2Proof/Certificates/Slice0/Obligations.lean ====
section
/-!
DEFINITION. The statements for the provers: what the spec's rules say of the model, stated in the model's terms.
-/
set_option maxRecDepth 4096

open Sys2Proof Sys2Proof.Machine

/-- O1, R7 (00_scope.md), R524 (22_address_map.md). For every register offset that names a pair and can be reached, in a
cycle without a launched write of it: a write of _LO changes the write stage of that pair and nothing else, but where
the requester may not write (the isolation mask but for the presiding lodge, a queue pair's registers while it is not
DISABLED), when only WR_IGN changes; a write of _HI of CAMP_ADJ gives the pair the stage as bits 31:0 and the word as
bits 63:32 and changes nothing else, the stage included; a read of _LO of a pair whose read has no other effect
returns the low word and takes the high word as the snapshot; a read of _HI returns the snapshot and changes nothing.
-/
def Obligations.PairHalvesGoThroughStageAndSnapshot : Prop :=
  ∀ (x : Nat) (r : RegRef) (v : Word) (who : Requester) (s : State),
    s.findReg x = some (some r) → s.regReach x = .ok → r.id.row.pair = true → s.shotsAt r = [] →
    (r.hi = false → (r.id = .PRM_ISO → s.isPresiding who = true) → (qpPair r.id = true → s.qpState r.i = 0) →
      exec (.pairLoWrite x v who) s = .next { s with stage := tput s.stage r.key v }) ∧
    (r.hi = false → r.id = .PRM_ISO → s.isPresiding who = false →
      exec (.pairLoWrite x v who) s = .next (s.setFlag F.PRM_STAT_WR_IGN true r.w)) ∧
    (r.hi = false → qpPair r.id = true → s.qpState r.i ≠ 0 →
      exec (.pairLoWrite x v who) s = .next (s.setFlag F.RDO_QP_STAT_WR_IGN true 0 r.i)) ∧
    (r.hi = true → r.id = .CAMP_ADJ →
      exec (.pairHiWrite x v who) s = .next (s.setReg .CAMP_ADJ (v ++ s.stageOf r.key) r.w r.i r.j)) ∧
    (r.hi = false → r.id = .CAMP_SLEW_REM →
      (s.regRead x false).2.1 = (s.reg .CAMP_SLEW_REM r.w r.i r.j).truncate 32 ∧
      exec (.pairLoRead x) s =
        .next { s with snap := tput s.snap r.key ((s.reg .CAMP_SLEW_REM r.w r.i r.j >>> 32).truncate 32) }) ∧
    (r.hi = true → s.regRead x false = (.ok, s.snapOf r.key, s))

/-- O2, R8 (00_scope.md, Table 0.1), R520 (22_address_map.md). For SITE_ID and TWR_ID, which have only read-only bits: a
register write to an offset that names one of them and can be reached, of a value whose effect is defined, completes
and changes nothing. -/
def Obligations.ReadOnlyWriteIsIgnored : Prop :=
  ∀ (x : Nat) (r : RegRef) (v : Word) (who : Requester) (s : State),
    s.findReg x = some (some r) → s.regReach x = .ok → r.hi = false →
    r.id ∈ [RegId.SITE_ID, .TWR_ID] → r.id.defined (s.shotMask r v who).toNat = true →
    exec (.registerWrite x v who) s = .next s

/-- O3, R19. For every folly map word and every row r below 4 and column c below 8: the physical row of P(r,c) is 0, 2,
3, 1 for r = 0, 1, 2, 3; its position is 2c for c up to 3 and 15 - 2c above; its slot is the position if that is
less than the folly slot of the physical row and the position plus 1 otherwise; its site is 9 times the physical row
plus the slot. -/
def Obligations.PlacementFollowsTheFollySlots : Prop :=
  ∀ map r c : Nat, r < 4 → c < 8 →
    ∃ row pos : Nat,
      (r = 0 → row = 0) ∧ (r = 1 → row = 2) ∧ (r = 2 → row = 3) ∧ (r = 3 → row = 1) ∧
      (c ≤ 3 → pos = 2 * c) ∧ (4 ≤ c → pos = 15 - 2 * c) ∧
      (pos < map / 2 ^ (4 * row) % 16 → siteUnder map (8 * r + c) = 9 * row + pos) ∧
      (map / 2 ^ (4 * row) % 16 ≤ pos → siteUnder map (8 * r + c) = 9 * row + (pos + 1))

/-- O4, 01_panel.md (R19). For every folly map word whose four slots are at most 8: two logical pavilions have different
sites; no pavilion lies on the folly slot of its physical row; neighbours in a logical row are in one physical row
at most 3 slots apart; neighbours in a logical column are at most two physical rows apart and at most one slot to
either side. -/
def Obligations.PlacementIsInjectiveAndWithinReach : Prop :=
  ∀ map : Nat, (∀ row, row < 4 → follySlot map row ≤ 8) →
    (∀ p q, p < 32 → q < 32 → siteUnder map p = siteUnder map q → p = q) ∧
    (∀ p, p < 32 → siteUnder map p < 36 ∧ siteUnder map p % 9 ≠ follySlot map (siteUnder map p / 9)) ∧
    (∀ p, p < 32 →
      siteUnder map p / 9 = siteUnder map (neighbour p 1) / 9 ∧
      absDiff (siteUnder map p % 9) (siteUnder map (neighbour p 1) % 9) ≤ 3 ∧
      absDiff (siteUnder map p / 9) (siteUnder map (neighbour p 3) / 9) ≤ 2 ∧
      absDiff (siteUnder map p % 9) (siteUnder map (neighbour p 3) % 9) ≤ 1)

/-- O5, R20, R22 (01_panel.md). A write of CFG_PMAP_CTL by a requester that is not the presiding lodge, or while BUSY is
1, changes nothing. When the apply is done, the placement of every pavilion becomes that of the accepted map,
OVERRIDE reads 1 exactly when that map differs from the fuse map, and BUSY reads 0; with BUSY at 0 nothing happens. -/
def Obligations.FollyMapChangesWhenBusyClears : Prop :=
  ∀ (v : Word) (who : Requester) (s : State), RegId.defined .CFG_PMAP_CTL v.toNat = true →
    (s.isPresiding who = false → exec (.pmapApply v who) s = .next s) ∧
    (s.flag F.CFG_PMAP_CTL_BUSY = true → exec (.pmapApply v who) s = .next s) ∧
    (s.flag F.CFG_PMAP_CTL_BUSY = false → exec .pmapApplyDone s = .next s) ∧
    (s.flag F.CFG_PMAP_CTL_BUSY = true → s.hb .loadWait = false →
      ∃ t, exec .pmapApplyDone s = .next t ∧ t.flag F.CFG_PMAP_CTL_BUSY = false ∧
        (∀ p, t.siteOf p = siteUnder (s.h .pmapNext % 2 ^ 16) p) ∧
        (t.flag F.CFG_FOLLY_MAP_OVERRIDE = true ↔ s.h .pmapNext % 2 ^ 16 ≠ s.follyFuse))

/-- O6, R46, R48, R58 (02_campanile.md). For every home, queue, word and state: with 256 entries queued or a flush in
progress the write keeps the word and sets FULL_ERR with its error event; otherwise an entry whose kind the queue
does not permit or whose parameters are invalid sets KIND_ERR with its error event; otherwise the entry of the eight
words joins the end of the queue, late exactly when its target is less than the lead time ahead of the replica, and
FILL counts it. -/
def Obligations.LaunchQueueCommitQueuesOrRejects : Prop :=
  ∀ (h q : Nat) (w7 : Word) (s u : State) (e : LqEntry),
    u = s.setRegN .CAMP_LQ_PUSH w7.toNat h q 7 →
    e = ⟨(List.range 8).map fun n => BitVec.ofNat 32 (u.regN .CAMP_LQ_PUSH h q n), false⟩ →
    (256 ≤ (s.lqOf h q).length ∨ u.flag F.CAMP_LQ_STAT_FLUSH_BUSY h q = true →
      exec (.lqPush h q w7) s = .next (u.lqErr F.CAMP_LQ_STAT_FULL_ERR h q)) ∧
    ((s.lqOf h q).length < 256 → u.flag F.CAMP_LQ_STAT_FLUSH_BUSY h q = false →
      (kindPermitted h e.kind && lqParamsValid h e) = false →
      exec (.lqPush h q w7) s = .next (u.lqErr F.CAMP_LQ_STAT_KIND_ERR h q)) ∧
    ((s.lqOf h q).length < 256 → u.flag F.CAMP_LQ_STAT_FLUSH_BUSY h q = false →
      kindPermitted h e.kind = true → lqParamsValid h e = true →
      exec (.lqPush h q w7) s =
        .next (({ u with lq := tput u.lq (h, q) (s.lqOf h q ++ [⟨e.words,
            later (u.nodeTime h + BitVec.ofNat 64 (u.lqLead h)) e.time⟩]) } : State).setFld F.CAMP_LQ_STAT_FILL
          ((s.lqOf h q).length + 1) h q))

/-- O7, R57. For every tower, queue and state: a PIN_SAMPLE entry that may act and is not discarded as late adds one
word with the pins in bits 7:0, the group in bits 12:8 and the TAG in bits 31:16 at the end of that tower FIFO and
no other, unless 64 words are there, when nothing is added and PSAMP_OVF of the launching queue is set; a read of
the FIFO returns and removes its oldest word, or returns 0 and changes nothing when it is empty; a peek read of the
FIFO is denied and changes nothing. -/
def Obligations.PinSampleFifoHoldsSixtyFourResults : Prop :=
  (∀ (t q : Nat) (pins : Byte) (e : LqEntry) (s : State),
    s.lqHead (32 + t) q 6 = some e → (s.lqIsLate (32 + t) q e && bitOf e.w2 4) = false →
    ∃ u, exec (.launchPinSample t q pins) s = .next u ∧
      ((tget s.psamp t []).length < 64 → ∃ w : Word,
        w.extractLsb' 0 8 = pins ∧ (w.extractLsb' 8 5).toNat = bitsOf (e.param 0) 0 5 ∧
        (w.extractLsb' 16 16).toNat = bitsOf e.w2 16 16 ∧
        tget u.psamp t [] = tget s.psamp t [] ++ [w] ∧
        ∀ t', t' ≠ t → tget u.psamp t' [] = tget s.psamp t' []) ∧
      (64 ≤ (tget s.psamp t []).length →
        u.psamp = s.psamp ∧ u.flag F.CAMP_LQ_STAT_PSAMP_OVF (32 + t) q = true)) ∧
  (∀ (t : Nat) (w : Word) (l : List Word) (s : State), tget s.psamp t [] = w :: l →
    (s.psampPop t).1 = w ∧ exec (.psampFifoRead t) s = .next { s with psamp := tput s.psamp t l }) ∧
  (∀ (t : Nat) (s : State), tget s.psamp t [] = [] →
    (s.psampPop t).1 = 0 ∧ exec (.psampFifoRead t) s = .next s) ∧
  (∀ (r : RegRef) (s : State), r.id = .CAMP_PSAMP_FIFO → s.refPeek r = (.peekDenied, 0, s))

/-- O8, R36, R37, R38 (02_campanile.md). ADJ_GO adds CAMP_ADJ to CAMP_SLEW_REM modulo 2^64 and sets SLEWING exactly when
the sum is not 0, and changes nothing else. STEP_APPLY with STEP_EN at 1 and a non-zero accumulator moves device
time by the accumulator, empties it and clears SLEWING. SLEW_DONE with STEP_EN at 0 is the end of the slew: the units
that it still takes pass, in which device time takes the whole accumulator besides; the accumulator is then empty, and
SLEWING is clear. -/
def Obligations.SlewAccumulatorTakesEveryCorrection : Prop :=
  ∀ s : State,
    exec .adjGo s = .next ((s.setReg .CAMP_SLEW_REM (s.reg .CAMP_SLEW_REM + s.reg .CAMP_ADJ)).setFlag
      F.CAMP_STAT_SLEWING (s.reg .CAMP_SLEW_REM + s.reg .CAMP_ADJ != 0#64)) ∧
    (s.flag F.CAMP_CTL_STEP_EN = true → s.reg .CAMP_SLEW_REM ≠ 0#64 →
      ∃ t, exec .stepApply s = .next t ∧ t.time = s.time + s.reg .CAMP_SLEW_REM ∧ t.reg .CAMP_SLEW_REM = 0#64 ∧
        t.flag F.CAMP_STAT_SLEWING = false) ∧
    (s.flag F.CAMP_CTL_STEP_EN = false →
      ∃ t, exec .slewDone s = .next t ∧ t.time = s.time + BitVec.ofNat 64 s.slewLeft + s.reg .CAMP_SLEW_REM ∧
        t.reg .CAMP_SLEW_REM = 0#64 ∧ (s.reg .CAMP_SLEW_REM ≠ 0#64 → t.flag F.CAMP_STAT_SLEWING = false))

/-- O9, R78, R80 (03_gatehouse.md, Table 3.6). For every gatehouse and entry: a command written while BUSY is 1 changes
nothing but ERR, which becomes 0x1. With BUSY at 0: PAUSE takes RUNNING to PAUSED and RESUME takes PAUSED to RUNNING
with ERR 0 and BUSY 1; a command not listed for the state (ENABLE in ARMED, RUNNING, PAUSED or DRAINING; DISABLE in
FREE, DRAINING or IDLE; PAUSE outside RUNNING; RESUME outside PAUSED; UNREGISTER outside IDLE; ABORT outside
DRAINING) changes nothing but BUSY, which becomes 1, and ERR, which becomes 0x2. -/
def Obligations.StreamCommandsFollowTheStateTable : Prop :=
  ∀ (p i : Nat) (s : State),
    (s.flag F.GATE_STRM_CMD_STAT_BUSY p = true →
      exec (.streamEnable p i) s = .next (s.setFld F.GATE_STRM_CMD_STAT_ERR 1 p) ∧
      exec (.streamDisable p i) s = .next (s.setFld F.GATE_STRM_CMD_STAT_ERR 1 p) ∧
      exec (.streamPause p i) s = .next (s.setFld F.GATE_STRM_CMD_STAT_ERR 1 p) ∧
      exec (.streamResume p i) s = .next (s.setFld F.GATE_STRM_CMD_STAT_ERR 1 p) ∧
      exec (.streamUnregister p i) s = .next (s.setFld F.GATE_STRM_CMD_STAT_ERR 1 p) ∧
      exec (.streamAbort p i) s = .next (s.setFld F.GATE_STRM_CMD_STAT_ERR 1 p)) ∧
    (s.flag F.GATE_STRM_CMD_STAT_BUSY p = false →
      (s.sst p i = 2 → exec (.streamPause p i) s =
        .next (((s.setSst p i 3).setFlag F.GATE_STRM_CMD_STAT_BUSY true p).setFld F.GATE_STRM_CMD_STAT_ERR 0 p)) ∧
      (s.sst p i = 3 → exec (.streamResume p i) s =
        .next (((s.setSst p i 2).setFlag F.GATE_STRM_CMD_STAT_BUSY true p).setFld F.GATE_STRM_CMD_STAT_ERR 0 p)) ∧
      (s.sst p i ≠ 0 → s.sst p i ≠ 5 → exec (.streamEnable p i) s =
        .next ((s.setFlag F.GATE_STRM_CMD_STAT_BUSY true p).setFld F.GATE_STRM_CMD_STAT_ERR 2 p)) ∧
      (s.sst p i = 0 ∨ 4 ≤ s.sst p i → exec (.streamDisable p i) s =
        .next ((s.setFlag F.GATE_STRM_CMD_STAT_BUSY true p).setFld F.GATE_STRM_CMD_STAT_ERR 2 p)) ∧
      (s.sst p i ≠ 2 → exec (.streamPause p i) s =
        .next ((s.setFlag F.GATE_STRM_CMD_STAT_BUSY true p).setFld F.GATE_STRM_CMD_STAT_ERR 2 p)) ∧
      (s.sst p i ≠ 3 → exec (.streamResume p i) s =
        .next ((s.setFlag F.GATE_STRM_CMD_STAT_BUSY true p).setFld F.GATE_STRM_CMD_STAT_ERR 2 p)) ∧
      (s.sst p i ≠ 5 → exec (.streamUnregister p i) s =
        .next ((s.setFlag F.GATE_STRM_CMD_STAT_BUSY true p).setFld F.GATE_STRM_CMD_STAT_ERR 2 p)) ∧
      (s.sst p i ≠ 4 → exec (.streamAbort p i) s =
        .next ((s.setFlag F.GATE_STRM_CMD_STAT_BUSY true p).setFld F.GATE_STRM_CMD_STAT_ERR 2 p)))

/-- O10, R81 (03_gatehouse.md), R100 (04_codecs.md). For every entry word and value: in FREE and IDLE the word takes the
value; in ARMED, RUNNING and PAUSED word 7 takes it, and word 6 when its codec parameters are valid, and the block
notes the cycle of the write, on which the words that a new fragment opens with depend; for a stream
that is not DEGRADED, in ARMED, RUNNING and PAUSED a write of words 0..5, and in DRAINING a write of any word,
changes nothing but WR_IGN with its event. -/
def Obligations.StreamEntryWritesDependOnTheState : Prop :=
  ∀ (p i w : Nat) (v : Word) (s : State),
    (s.sst p i = 0 ∨ s.sst p i = 5 → exec (.gateSentWrite p i w v) s = .next (s.setRegN .GATE_SENT_W v.toNat p i w)) ∧
    (s.sst p i = 1 ∨ s.sst p i = 2 ∨ s.sst p i = 3 → w = 7 ∨ (w = 6 ∧ codecValid v.toNat = true) →
      exec (.gateSentWrite p i w v) s =
        .next ((s.setRegN .GATE_SENT_W v.toNat p i w).setH .codecWrote (s.pavTime p).toNat p i)) ∧
    (s.flag F.GATE_SST_DEGRADED p i = false →
      (s.sst p i = 1 ∨ s.sst p i = 2 ∨ s.sst p i = 3) ∧ w < 6 ∨ s.sst p i = 4 →
      exec (.gateSentWrite p i w v) s =
        .next (if s.flag F.GATE_STAT_WR_IGN p then s else (s.setFlag F.GATE_STAT_WR_IGN true p).local p 400))

/-- O11, R89, R90 (03_gatehouse.md, Table 3.10). For a stream with one commit in flight, nothing closed and nothing
refused that may still be answered, whose home answer arrives while its twin copy is unused or already received:
when both are acknowledgements GATE_SSEQ becomes the SEQ of the commit and the refused count stays; when the dome
refuses an unassured fragment with a reason of the table, GATE_SSEQ stays, GATE_SREFUSED goes up by one and
LAST_REASON shows the reason; when the home acknowledges and the twin was refused for any reason but THERMAL and
COMMIT_TMO, LAST_REASON shows TWIN_REFUSED. -/
def Obligations.FragmentIsAcceptedOnlyOnEveryAcknowledgement : Prop :=
  ∀ (p i : Nat) (c : Commit) (s : State),
    (s.stream p i).flight = [c] → (s.stream p i).closed = [] → (s.stream p i).orphans = [] → c.degraded = false →
    ∃ t, exec (.commitAckRx p i false) s = .next t ∧
      (c.home.st = .answered 0 → c.twin.st = .unused ∨ c.twin.st = .got 0 →
        t.regN .GATE_SSEQ p i = c.seq % 2 ^ 64 ∧ t.regN .GATE_SREFUSED p i = s.regN .GATE_SREFUSED p i) ∧
      (∀ r, c.home.st = .answered r → 1 ≤ r → r ≤ 8 → c.twin.st = .unused →
        t.regN .GATE_SSEQ p i = s.regN .GATE_SSEQ p i ∧
        t.regN .GATE_SREFUSED p i = (s.regN .GATE_SREFUSED p i + 1) % 2 ^ 32 ∧
        t.fld F.GATE_SST_LAST_REASON p i = r) ∧
      (∀ r, c.home.st = .answered 0 → c.twin.st = .got r → r ≠ 0 → r ≠ 3 → r ≠ 4 →
        t.regN .GATE_SSEQ p i = s.regN .GATE_SSEQ p i ∧ t.fld F.GATE_SST_LAST_REASON p i = 5)

/-- O12, R104, R106, R107, R108 (04_codecs.md, Table 4.5). For every CODEC word that names RAW or PACK, every pedestal
and every block of 1 to 64 samples below 65,536: decoding the payload words of the coded block, under its MODE and
PARAM, gives the samples back, and the payload fills at most half as many words as there are samples, rounded up. -/
def Obligations.RawAndPackLoseNothing : Prop :=
  ∀ (word ped : Nat) (xs : List Nat) (b : CodedBlock),
    1 ≤ xs.length → xs.length ≤ 64 → (∀ x ∈ xs, x < 65536) → bitsOf word 0 3 ≤ 1 → b = codeBlock word ped xs →
    decodeBlock word ped xs.length b.mode b.param (unpackWords (packWords (wordsFor b.bits) b.bits)) =
      xs.map Int.ofNat ∧
    wordsFor b.bits ≤ cdiv xs.length 2

/-- O13, R110, R111, R112, R114 (04_codecs.md, Table 4.5). For every block of 1 to 64 samples below 65,536 and every
pedestal below 65,536: a sample decoded from SUPP is the sample itself, or the pedestal for a sample that is not
kept, which differs from the pedestal by less than T; a sample decoded from a QNT block with SAT 0 is within half a
step of itself; a sample decoded from LOG is exact below 512, and otherwise lower by at most 2^(e-9) - 1, where e is
the integer part of its binary logarithm. -/
def Obligations.LossyCodecsLoseWhatTheirTableStates : Prop :=
  ∀ (word ped : Nat) (xs : List Nat) (b : CodedBlock) (i x : Nat),
    1 ≤ xs.length → xs.length ≤ 64 → (∀ x ∈ xs, x < 65536) → ped < 65536 → codecValid word = true →
    b = codeBlock word ped xs → xs[i]? = some x →
    ∃ y : Int,
      (decodeBlock word ped xs.length b.mode b.param (unpackWords (packWords (wordsFor b.bits) b.bits)))[i]? = some y ∧
      (bitsOf word 0 3 = 2 →
        y = x ∨ (y = ped ∧ suppKept xs ped (bitsOf word 16 16) (bitsOf word 4 4) i = false ∧
          absDiff x ped < bitsOf word 16 16)) ∧
      (bitsOf word 0 3 = 3 → b.sat = false →
        2 * (y - x) ≤ (2 ^ bitsOf word 8 4 : Nat) ∧ 2 * ((x : Int) - y) ≤ (2 ^ bitsOf word 8 4 : Nat)) ∧
      (bitsOf word 0 3 = 4 →
        (x < 512 → y = x) ∧ (512 ≤ x → y ≤ x ∧ (x : Int) - y ≤ (2 ^ (Nat.log2 x - 9) : Nat) - 1))

/-- O14, R117 (05_domes.md). For every dome and every line write that fits its line: once it is queued, reading a byte
it carries gives that byte, and reading any other dome byte gives what it gave before. -/
def Obligations.QueuedWritesAreSeenByReads : Prop :=
  ∀ (p a : Nat) (r : DomeReq) (s : State),
    r.write = true → r.line < 2 ^ 25 → r.off + r.bytes.length ≤ 64 → a < 2 ^ 31 →
    (64 * r.line + r.off ≤ a → a < 64 * r.line + r.off + r.bytes.length →
      (s.domeEnq p r).domeByte p a = r.bytes.getD (a - (64 * r.line + r.off)) 0) ∧
    (a < 64 * r.line + r.off ∨ 64 * r.line + r.off + r.bytes.length ≤ a →
      (s.domeEnq p r).domeByte p a = s.domeByte p a)

/-- O15, R117, R126 (05_domes.md). For every pseudo-channel whose queued writes belong to it and fit their lines: a
scheduler issue completes, and every byte of the dome, read through the queued writes, is what it was. -/
def Obligations.DomeSchedulerKeepsTheContents : Prop :=
  ∀ (p c : Nat) (s : State),
    (∀ r ∈ s.wqOf p c, r.write = true ∧ linePc r.line = c ∧ r.line < 2 ^ 25 ∧ r.off + r.bytes.length ≤ 64) →
    (∀ r ∈ s.rqOf p c, r.write = false) →
    ∃ t, exec (.domeSchedIssue p c) s = .next t ∧ ∀ a, a < 2 ^ 31 → t.domeByte p a = s.domeByte p a

/-- O16, R133, R137 (05_domes.md). When self-refresh entry is done, no read and no write of data waits in any
pseudo-channel, none waits at all unless a request of the dome still held metadata to write back, and no byte of
memory has changed; while the dome does not run (initialising, or entering, in or leaving self-refresh) a scheduler
issue issues nothing: only requests that are over are answered. -/
def Obligations.DomeHoldAnswersEveryQueuedRequest : Prop :=
  ∀ (p : Nat) (s : State),
    (s.h .domeSr p = 1 → ∃ t, exec (.srEntryDone p) s = .next t ∧
      (∀ c, c < 16 → t.rqOf p c = [] ∧ (∀ r ∈ t.wqOf p c, r.bytes = []) ∧
        ((∀ e ∈ s.domeTxns, e.2.metas = []) → t.wqOf p c = [])) ∧ t.mem = s.mem ∧ t.undef = s.undef) ∧
    (∀ c, s.domeRuns p = false → exec (.domeSchedIssue p c) s = .next (s.txnsAnswer p))

/-- O17, R141, R142, R143, R172 (06_accept_readout.md). For every write of the accept port: with RDO_CTL.EN at 0 it is
answered DISABLED and nothing changes; with EN at 1 outside safe hold, a write that is not whole, is not of eight
words, or whose record is not valid is answered BAD, is counted and raises source 1,024; a valid whole record is
answered RETRY and counted while 1,024 accepts wait to be built; otherwise, while the journal has room, it is
answered OK and joins the end of the intake. -/
def Obligations.AcceptPortAnswersByItsTable : Prop :=
  ∀ (ws : List Word) (whole : Bool) (s : State),
    (s.flag F.RDO_CTL_EN = false →
      (s.accPort ws whole none).1 = 3 ∧ exec (.accPortWrite ws whole) s = .next s) ∧
    (s.flag F.RDO_CTL_EN = true → s.safeHold = false →
      (whole = false ∨ ws.length ≠ 8 ∨ s.accValid ws = false →
        (s.accPort ws whole none).1 = 2 ∧
        exec (.accPortWrite ws whole) s = .next ((s.addFld F.RDO_ACC_BAD_COUNT 1).device 1024)) ∧
      (whole = true → ws.length = 8 → s.accValid ws = true →
        (1024 ≤ s.accIn.length + (s.events.filter fun e => !e.building).length →
          (s.accPort ws whole none).1 = 1 ∧
          exec (.accPortWrite ws whole) s = .next (s.addFld F.RDO_ACC_RETRY_COUNT 1)) ∧
        (s.accIn.length + (s.events.filter fun e => !e.building).length < 1024 → s.jrnlRoom = true →
          (s.accPort ws whole none).1 = 0 ∧
          exec (.accPortWrite ws whole) s =
            .next ({ s with accIn := s.accIn ++ [(⟨ws, none, none⟩ : AccIn)] } : State).rdoShow)))

/-- O18, R144 (06_accept_readout.md). A write of a word of a stream set whose REF count is not 0 changes nothing but
WR_IGN; with REF at 0 the word takes the value and nothing else changes. -/
def Obligations.StreamSetIsFrozenWhileReferenced : Prop :=
  ∀ (k w : Nat) (v : Word) (s : State),
    (s.fld F.RDO_SSET_REF_REF 0 k ≠ 0 → exec (.ssetWrite k w v) s = .next (s.setFlag F.RDO_STAT_WR_IGN true)) ∧
    (s.fld F.RDO_SSET_REF_REF 0 k = 0 → exec (.ssetWrite k w v) s = .next (s.setRegN .RDO_SSET_W v.toNat 0 k w))

/-- O19, R156, R159, R167 (06_accept_readout.md). For a queue pair in RUN that is not failing, whose function is usable
and whose oldest fetched descriptor is given: a SEQ that is not JSEQ + 1 records the expected SEQ with ERR 0x5 and
is not accepted; with the right SEQ and an opcode other than ACCEPT, nothing changes while the accepted and
uncollected descriptors fill the completion ring, or while the journal entry cannot be held. -/
def Obligations.DescriptorAcceptanceNeedsSequenceAndRoom : Prop :=
  ∀ (q : Nat) (d : QDesc) (ds : List QDesc) (s : State),
    (s.qp q).fetched = d :: ds → s.qpState q = 1 → (s.qp q).failing = false → s.fnUsable (s.qpFn q) = true →
    (d.seq.toNat ≠ (s.regN .RDO_QP_JSEQ 0 q + 1) % 2 ^ 32 →
      exec (.descAccepted q) s = .next (((s.setFld F.RDO_QP_STAT_ERR 5 0 q).setRegN .RDO_QP_ERR_SEQ
        ((s.regN .RDO_QP_JSEQ 0 q + 1) % 2 ^ 32) 0 q).qpFail q)) ∧
    (d.seq.toNat = (s.regN .RDO_QP_JSEQ 0 q + 1) % 2 ^ 32 → d.op ≠ 1 →
      (2 ^ s.fld F.RDO_QP_CFG_CQ_LOG2 0 q ≤
          (s.qp q).acc.length + (s.cqTail q + 2 ^ 16 - (s.qp q).head) % 2 ^ 16 ∨ s.jrnlOk = false →
        exec (.descAccepted q) s = .next s))

/-- O20, R182, R187, R188 (07_admission.md). While no command waits: with ADM_CFG.EN at 0 or in safe hold all three end
NOT_CONFIGURED; otherwise a staged declaration with a bad field ends ADMIT and QUERY with BAD_FIELD, one with a bad
endpoint with BAD_ENDPOINT, an ADMIT of a number that is not FREE with ID_IN_USE, and a QUERY of more flits than
slots with RATE; a RELEASE of a FREE number ends NOT_ADMITTED, and one of a declaration that a stream in ARMED,
RUNNING, PAUSED or DRAINING names ends IN_USE. Every one of them reports W and GAP 0. A command written while
another waits reports BUSY and changes no declaration. -/
def Obligations.AdmissionAnswersTheFirstFailingCheck : Prop :=
  ∀ (i : Nat) (s : State),
    (s.flag F.ADM_CMD_STAT_BUSY = true → exec (.admAdmit i) s = .next s.admBusy ∧ exec (.admQuery i) s = .next s.admBusy ∧
      exec (.admRelease i) s = .next s.admBusy ∧ s.admBusy.decls = s.decls) ∧
    (s.flag F.ADM_CMD_STAT_BUSY = false →
      ((s.flag F.ADM_CFG_EN = false ∨ s.flag F.LDG_HOLD_STAT_ACTIVE = true) →
        exec (.admAdmit i) s = .next (s.admEnd 8 0 0) ∧ exec (.admQuery i) s = .next (s.admEnd 8 0 0) ∧
        exec (.admRelease i) s = .next (s.admEnd 8 0 0)) ∧
      (s.flag F.ADM_CFG_EN = true → s.flag F.LDG_HOLD_STAT_ACTIVE = false →
        (declBadField s.admStaged = true →
          exec (.admAdmit i) s = .next (s.admEnd 1 0 0) ∧ exec (.admQuery i) s = .next (s.admEnd 1 0 0)) ∧
        (declBadField s.admStaged = false → s.declBadEnd s.admStaged = true →
          exec (.admAdmit i) s = .next (s.admEnd 2 0 0) ∧ exec (.admQuery i) s = .next (s.admEnd 2 0 0)) ∧
        (declBadField s.admStaged = false → s.declBadEnd s.admStaged = false →
          ((tfind s.decls i).isSome = true → exec (.admAdmit i) s = .next (s.admEnd 3 0 0)) ∧
          (s.admN < cdiv (dBytes s.admStaged) 64 → exec (.admQuery i) s = .next (s.admEnd 5 0 0))) ∧
        (tfind s.decls i = none → exec (.admRelease i) s = .next (s.admEnd 0xa 0 0)) ∧
        (∀ d, tfind s.decls i = some d → s.admInUse i = true →
          exec (.admRelease i) s = .next (s.admEnd 9 0 0))))

/-- O21, R180, R185 (07_admission.md). For a gap of at least 1 and a slot count that is not 0, the source slots (phase +
k GAP) mod NSLOT for k below the ceiling of NSLOT / GAP are pairwise different. Whenever the computation of a
declaration answers OK with a reservation, none of the slots it holds in a resource is held there by another
declaration. -/
def Obligations.DeclarationSlotsAreDistinctAndFree : Prop :=
  (∀ (n gap phase k l : Nat), 0 < n → 0 < gap → k < l → l < cdiv n gap →
    (phase + k * gap) % n ≠ (phase + l * gap) % n) ∧
  (∀ (self : Nat) (w : List Nat) (s : State) (p : Plan), s.admCompute self w = .ok p →
    ∀ r ∈ p.res, r.2 &&& s.taken self r.1 = 0)

/-- O22, R197, R202, R206, R211 (08_spire.md). When a Spire issues a bundle that runs SW, SH or SB beside VNOP, exec
answers a next state in which the bytes at the effective address hold the low bytes of rs2, every other byte of
memory reads as before, and the scalar, vector, coefficient, accumulator and generator registers of the context are
unchanged. When it runs NOP beside VST, the sixteen bytes at B + I hold the lanes of vs, every other byte reads as
before, and the same registers are unchanged but for the generator, which is post-modified. -/
def Obligations.SpireStoreBundleWritesItsBytesOnly : Prop :=
  ∀ (p k x stall : Nat) (s : State),
    s.issuer p k = some x → (s.addFld F.SPR_STALL_CNT_COUNT stall p k).haltBefore p k x = 0 →
    (∀ (n b a : Nat) (imm : Int),
      (s.addFld F.SPR_STALL_CNT_COUNT stall p k).issueOf p k x none = .run (.store n b a imm) .nop →
      ∃ t, exec (.bundleIssue p k false none stall) s = .next t ∧
        (∀ i, i < n → t.ldByte (dmemBase p k + (s.ctx p k x).addr a imm + i) =
          BitVec.ofNat 8 (((s.ctx p k x).s b).toNat / 2 ^ (8 * i))) ∧
        (∀ A, A < dmemBase p k + (s.ctx p k x).addr a imm ∨ dmemBase p k + (s.ctx p k x).addr a imm + n ≤ A →
          t.ldByte A = s.ldByte A) ∧
        (t.ctx p k x).x = (s.ctx p k x).x ∧ (t.ctx p k x).v = (s.ctx p k x).v ∧ (t.ctx p k x).c = (s.ctx p k x).c ∧
        (t.ctx p k x).a = (s.ctx p k x).a ∧ (t.ctx p k x).ag = (s.ctx p k x).ag) ∧
    (∀ (a g : Nat),
      (s.addFld F.SPR_STALL_CNT_COUNT stall p k).issueOf p k x none = .run .nop (.vst a g) →
      ∃ t, exec (.bundleIssue p k false none stall) s = .next t ∧
        (∀ i, i < 16 → t.ldByte (dmemBase p k + ((s.ctx p k x).gen g).ea + i) =
          BitVec.ofNat 8 (((s.ctx p k x).lane a (i / 2)).toNat / 2 ^ (8 * (i % 2)))) ∧
        (∀ A, A < dmemBase p k + ((s.ctx p k x).gen g).ea ∨ dmemBase p k + ((s.ctx p k x).gen g).ea + 16 ≤ A →
          t.ldByte A = s.ldByte A) ∧
        (t.ctx p k x).x = (s.ctx p k x).x ∧ (t.ctx p k x).v = (s.ctx p k x).v ∧ (t.ctx p k x).c = (s.ctx p k x).c ∧
        (t.ctx p k x).a = (s.ctx p k x).a ∧ (t.ctx p k x).gen g = ((s.ctx p k x).gen g).next)

/-- O23, R198, R230, R231 (08_spire.md). When the bundle a context issues faults with a cause of Table 8.8 other than a
parity error, exec answers a next state in which the context is in FAULT, its fault register holds the cause and the
address of the bundle, its scalar, vector, coefficient, accumulator and generator registers and every byte of memory
are unchanged, and the registers of the other context are unchanged. The context is not the one that a scheduler
task occupies (context 0 is meant). -/
def Obligations.SpireFaultStopsOnlyItsContext : Prop :=
  ∀ (p k e : Nat) (s : State),
    s.issuer p k = some 0 → (s.addFld F.SPR_STALL_CNT_COUNT 0 p k).haltBefore p k 0 = 0 → e < 16 → e ≠ 5 →
    (s.ctx p k 0).pc < 2 ^ 13 →
    (s.addFld F.SPR_STALL_CNT_COUNT 0 p k).issueOf p k 0 none = .fault e →
    ∃ t, exec (.bundleIssue p k false none 0) s = .next t ∧ t.ctxState p k 0 = 3 ∧
      t.fld F.SPR_FAULT0_CAUSE p k = e ∧ t.fld F.SPR_FAULT0_PC p k = (s.ctx p k 0).pc ∧
      (t.ctx p k 0).x = (s.ctx p k 0).x ∧ (t.ctx p k 0).v = (s.ctx p k 0).v ∧ (t.ctx p k 0).c = (s.ctx p k 0).c ∧
      (t.ctx p k 0).a = (s.ctx p k 0).a ∧ (t.ctx p k 0).ag = (s.ctx p k 0).ag ∧
      (t.ctx p k 1).x = (s.ctx p k 1).x ∧ ∀ A, t.ldByte A = s.ldByte A

/-- O24, R235, R237, R240 (09_task_scheduler.md). A command record is answered DISABLED while EN is 0, then BAD when its
fields are not valid; a POST is answered FLOW_OFF for a flow whose EN is 0, FULL when no slot is free, and is
otherwise answered OK with the lowest-numbered free slot, joins the end of the READY tasks with its flow, word and
argument, and is counted. A refused command changes no task. -/
def Obligations.TaskCommandIsAnsweredByItsFirstFailingCheck : Prop :=
  ∀ (p : Nat) (w : List Nat) (s : State),
    (s.flag F.TSK_CTL_EN p = false → (s.tskCommand p w).1 = 7 ∧ (s.tskCommand p w).2.2.tsk = s.tsk) ∧
    (s.flag F.TSK_CTL_EN p = true → s.tskBad p w = true →
      (s.tskCommand p w).1 = 4 ∧ (s.tskCommand p w).2.2.tsk = s.tsk) ∧
    (s.flag F.TSK_CTL_EN p = true → s.tskBad p w = false → bitsOf (w.getD 0 0) 0 4 = 1 →
      (s.flag F.TSK_FLOW_EN p (bitsOf (w.getD 0 0) 16 10) = false →
        (s.tskCommand p w).1 = 3 ∧ (s.tskCommand p w).2.2.tsk = s.tsk) ∧
      (s.flag F.TSK_FLOW_EN p (bitsOf (w.getD 0 0) 16 10) = true → s.flag F.TSK_FLOW_CMD_STAT_BUSY p = false →
        ((s.tu p).freeSlot = none → (s.tskCommand p w).1 = 1 ∧ (s.tskCommand p w).2.2.tsk = s.tsk) ∧
        (∀ n, (s.tu p).freeSlot = some n →
          (s.tskCommand p w).1 = 0 ∧ (s.tskCommand p w).2.1 = n ∧
          ((s.tskCommand p w).2.2.tu p).ready = (s.tu p).ready ++
            [⟨n, bitsOf (w.getD 0 0) 16 10, w.getD 1 0, w.getD 2 0, (s.tu p).seq, 0⟩] ∧
          (∀ m, m < n → ∃ t ∈ (s.tu p).all, t.slot = m) ∧ ∀ t ∈ (s.tu p).all, t.slot ≠ n))) ∧
    (∀ (flow : Nat) (word arg : Word), exec (.tskPost p flow word arg) s =
      .next (s.tskCommand p (tskRecord 1 0 (flow % 1024) word.toNat arg.toNat 0)).2.2)

/-- O25, R236, R244 (09_task_scheduler.md). When the running tasks of a scheduler lie on different targets and belong to
different flows, so do those after a dispatch; a dispatch takes its task from the READY tasks and puts at most one
task on at most one target. -/
def Obligations.DispatchKeepsFlowsSerial : Prop :=
  ∀ (p : Nat) (s : State),
    ((s.tu p).running.map Prod.fst).Nodup → ((s.tu p).running.map fun e => e.2.flow).Nodup →
    ∃ t, exec (.taskDispatch p) s = .next t ∧
      ((t.tu p).running.map Prod.fst).Nodup ∧ ((t.tu p).running.map fun e => e.2.flow).Nodup ∧
      ((t.tu p).running = (s.tu p).running ∨
        ∃ tgt k, k ∈ (s.tu p).ready ∧ (t.tu p).running = (s.tu p).running ++ [(tgt, k)] ∧
          s.tgtEligible p tgt = true)

/-- O26, R265, R268, R269, R275 (10_event_controller.md). When a source of the class is eligible for a core target, the
read returns its number, class and raise count with DELIVERED set; no lower source is eligible; its pending bit and
raise count then read 0 and the class lies on the stack of the target. When none is, while HOLD is in force, or
while the stack is frozen or holds the class, the read returns 0x0000_07FF and changes nothing. -/
def Obligations.AcknowledgeClaimsTheLowestEligibleSource : Prop :=
  ∀ (c t cls : Nat) (s : State),
    ((s.evHold c = true ∨ s.frozen c t = true ∨ stackTakes (s.h .evcStack c t) cls = false) → s.evNext c t cls = none) ∧
    (s.evNext c t cls = none → s.ackWord c t cls = 0x7ff ∧ exec (.evcAckRead c t cls) s = .next s) ∧
    (∀ q, s.evNext c t cls = some q → c < 33 → cls < 2 →
      (∀ r, r < q → s.evOffers c t cls r = false) ∧ s.evOffers c t cls q = true ∧ s.evMasked c q = false ∧
      s.ackWord c t cls = BitVec.ofNat 32 (q + cls * 2 ^ 11 + s.h .evcCount c q * 2 ^ 12 + 2 ^ 31) ∧
      ∃ u, exec (.evcAckRead c t cls) s = .next u ∧ u.evPend c q = false ∧ u.h .evcCount c q = 0 ∧
        u.h .evcStack c t = stackPush (s.h .evcStack c t) cls)

/-- O27, R270 (10_event_controller.md). An EOI of the class on top of a stack that is not frozen pops it. One that does
not match the top, or meets an empty stack, freezes the stack, records its class and sets STACK_FAULT, and leaves
the stack as it was. An EOI to a frozen stack changes nothing. -/
def Obligations.EndOfInterruptPopsOrFreezes : Prop :=
  ∀ (c t cls : Nat) (s : State), c < 33 → cls < 2 →
    (s.frozen c t = true → exec (.evcEoi c t cls) s = .next s) ∧
    (s.frozen c t = false → s.h .evcStack c t ≠ 0 → stackTop (s.h .evcStack c t) = cls →
      exec (.evcEoi c t cls) s = .next (s.setStack c t (stackPop (s.h .evcStack c t)))) ∧
    (s.frozen c t = false → (s.h .evcStack c t = 0 ∨ stackTop (s.h .evcStack c t) ≠ cls) →
      ∃ u, exec (.evcEoi c t cls) s = .next u ∧ u.frozen c t = true ∧ u.ev c .tstat t 4 1 = cls ∧
        u.ev c .stat 0 1 1 = 1 ∧ u.h .evcStack c t = s.h .evcStack c t)

/-- O28, R303, R304, R305 (11_fabric.md). A running input port keeps its oldest word until ts + LAT; from then on the
word is presented and leaves the port, and only one that arrived after ts + LAT is counted late. A running output
port discards as late a word that arrived later than 2.0 ns before its boundary, with the pins as they were, and
otherwise sets each pin to the last bit of its word. -/
def Obligations.TowerWordsKeepTheirTimes : Prop :=
  ∀ (t g : Nat) (ts arrived : Time) (w : Nat) (rest : List (Time × Nat)) (s : State),
    s.tioOf t g = (ts, w) :: rest →
    (s.tioRuns t g false = true →
      (atOrAfter (s.pavTime (s.fld F.TIO_GRP_CFG_PAV t g)) (ts + BitVec.ofNat 64 (s.regN .TIO_GRP_LAT t g)) = false →
        exec (.tioWordPresent t g arrived) s = .next s) ∧
      (atOrAfter (s.pavTime (s.fld F.TIO_GRP_CFG_PAV t g)) (ts + BitVec.ofNat 64 (s.regN .TIO_GRP_LAT t g)) = true →
        ∃ u, exec (.tioWordPresent t g arrived) s = .next u ∧ u.tioOf t g = rest ∧ u.h .tioVal t g = w ∧
          u.fld F.TIO_GRP_LATE_CNT_COUNT t g =
            (s.fld F.TIO_GRP_LATE_CNT_COUNT t g +
              b2n (later arrived (ts + BitVec.ofNat 64 (s.regN .TIO_GRP_LAT t g)))) % 2 ^ 32)) ∧
    (s.tioRuns t g true = true →
      ∃ u, exec (.tioOutputWord t g arrived) s = .next u ∧ u.tioOf t g = rest ∧
        (later arrived (ts - BitVec.ofNat 64 (s.nsUnits 2)) = true → u.h .pinOut t g = s.h .pinOut t g ∧
          u.fld F.TIO_GRP_LATE_CNT_COUNT t g = (s.fld F.TIO_GRP_LATE_CNT_COUNT t g + 1) % 2 ^ 32) ∧
        (later arrived (ts - BitVec.ofNat 64 (s.nsUnits 2)) = false → u.h .pinOut t g = s.tioPins t g w ∧
          u.fld F.TIO_GRP_LATE_CNT_COUNT t g = s.fld F.TIO_GRP_LATE_CNT_COUNT t g))

/-- O29, R327, R333 (12_promenade.md). A REQ of 1 written to an OPEN fence with SCOPE PORTS sets DRAINING; a REQ of 0
written while DRAINING is ignored with WR_IGN; the drain ends in FENCED once nothing of the scope is outstanding or
unanswered; a REQ of 0 written to a FENCED fence with SCOPE PORTS answers OPEN. While a port is closed, what it
tries to send is answered FENCED and enters no buffer. -/
def Obligations.FencesFollowTheirTable : Prop :=
  ∀ (p : Nat) (v : Word) (s : State), p < 32 → RegId.defined .PRM_FENCE_CTL v.toNat = true →
    (s.fld F.PRM_STAT_FENCE p = 0 → bitOf v.toNat 0 = true → bitOf v.toNat 1 = true →
      ∃ t, exec (.fenceRequest p v) s = .next t ∧ t.fld F.PRM_STAT_FENCE p = 1) ∧
    (s.fld F.PRM_STAT_FENCE p = 1 → bitOf v.toNat 0 = false →
      exec (.fenceRelease p v) s = .next (s.setFlag F.PRM_STAT_WR_IGN true p)) ∧
    (s.fld F.PRM_STAT_FENCE p = 1 → s.drained p (s.inScope p) = true → s.transitEmpty p = true →
      ∃ t, exec (.fenceDrained p none) s = .next t ∧ t.fld F.PRM_STAT_FENCE p = 2) ∧
    (s.fld F.PRM_STAT_FENCE p = 2 → s.fld F.PRM_FENCE_CTL_SCOPE p = 1 → bitOf v.toNat 0 = false →
      ∃ t, exec (.fenceRelease p v) s = .next t ∧ t.fld F.PRM_STAT_FENCE p = 0) ∧
    (∀ (port : Nat) (w : List Word), s.portClosed p port = true → s.prmSend p port w = (.fenced, s))

/-- O30, R329 (12_promenade.md). A pavilion router whose mask names the destination of the oldest packet of a class
takes it from its input and refuses it (and where it is a local DMA channel's, the channel presents its next): a
non-posted request is answered DEAD and counted, anything else is absorbed and counted. A write of the mask by any requester but the presiding lodge changes nothing but WR_IGN. -/
def Obligations.IsolatedTargetsAnswerDead : Prop :=
  (∀ (n i cls : Nat) (f : Flight) (s : State), n < 32 →
    (s.pIn n i).find? (fun f => f.cls == cls) = some f → s.isoAt n (pktDst f.words) = true →
    exec (.packetForward n i cls none) s =
      .next (if i = localPort ∧ pktClass f.words ≠ 1 ∧ 80 ≤ pktPort f.words ∧ pktPort f.words < 112 then
          ((s.setPIn n i ((s.pIn n i).erase f)).prmRefuse n f.words .dead).dmaNext n ((pktPort f.words - 80) / 4)
            (pktPort f.words % 4)
        else (s.setPIn n i ((s.pIn n i).erase f)).prmRefuse n f.words .dead)) ∧
  (∀ (n : Nat) (w : List Word) (s : State), n < 32 →
    (pktNonPosted w = true → s.prmRefuse n w .dead =
      (s.addFld F.PRM_ERR_RSP_CNT_COUNT 1 n).prmPut n (pktResponse w n 127 3 0 false [])) ∧
    (pktNonPosted w = false → s.prmRefuse n w .dead = s.addFld F.PRM_ABSORB_CNT_COUNT 1 n)) ∧
  (∀ (p : Nat) (hi : Bool) (v : Word) (who : Requester) (s : State), s.isPresiding who = false →
    (hi = true → RegId.defined .PRM_ISO (v.toNat * 2 ^ 32) = true) →
    exec (.isoMaskWrite p hi v who) s = .next (s.setFlag F.PRM_STAT_WR_IGN true p))

/-- O31, R330, R331 (12_promenade.md). After a load-reserve by a requester its reservation of the line is held; a write
or atomic of that line by another requester clears it. A store-conditional under a held reservation returns 0 and
stores its operand; without one it returns 1 and stores nothing. Afterwards no reservation of the requester on the
line is held. -/
def Obligations.StoreConditionalNeedsItsReservation : Prop :=
  ∀ (s : State) (rs off : Nat) (a b old : Word) (node port : Nat) (st : State → Word → State),
    (s.amoMem rs off 0 a b old node port st).2.resvHeld rs (off / 64) node port = true ∧
    (∀ (node' port' : Nat), (node', port') ≠ (node, port) →
      (s.resvHit rs (off / 64) node' port').resvHeld rs (off / 64) node port = false) ∧
    (s.resvHeld rs (off / 64) node port = false →
      (s.amoMem rs off 1 a b old node port st).1 = 1 ∧
      (s.amoMem rs off 1 a b old node port st).2 = s.resvDrop rs node port) ∧
    (s.resvHeld rs (off / 64) node port = true →
      (s.amoMem rs off 1 a b old node port st).1 = 0 ∧
      (s.amoMem rs off 1 a b old node port st).2 = ((st s a).resvHit rs (off / 64) node port).resvDrop rs node port) ∧
    (s.amoMem rs off 1 a b old node port (fun t _ => t)).2.resvHeld rs (off / 64) node port = false

/-- O32, R334, R335 (13_lartum_annex.md), R381 (15_memory_integrity.md). On a link that is UP and carries frames, a frame that fails its
CRC is counted and, like one out of sequence or one written with a parity error at the receiver, leaves the
expected SEQ and every input buffer as they were and leaves a NAK to send; a good frame with the expected SEQ
advances the expected SEQ by one, modulo 256, when no swap is under way. -/
def Obligations.LartumReceiverTakesFramesInOrder : Prop :=
  ∀ (n l : Nat) (f : LrtFrame) (s : State), s.lrtState n l = 5 → s.linkCarries n l = true →
    (f.par = true → ∃ t, exec (.lrtDataFrameRx n l f) s = .next t ∧ (t.side n l).expect = (s.side n l).expect ∧
      (t.side n l).ctl = 2 ∧ t.prmIn = s.prmIn) ∧
    (f.par = false → frameOk f = false → ∃ t, exec (.lrtDataFrameRx n l f) s = .next t ∧ (t.side n l).expect = (s.side n l).expect ∧
      (t.side n l).ctl = 2 ∧ t.prmIn = s.prmIn ∧
      t.fld F.LRT_LINK_CRC_CNT_COUNT n l = (s.fld F.LRT_LINK_CRC_CNT_COUNT n l + 1) % 2 ^ 32) ∧
    (f.par = false → frameOk f = true → f.seq ≠ (s.side n l).expect → ∃ t, exec (.lrtDataFrameRx n l f) s = .next t ∧
      (t.side n l).expect = (s.side n l).expect ∧ (t.side n l).ctl = 2 ∧ t.prmIn = s.prmIn ∧ t.regs = s.regs) ∧
    (f.par = false → frameOk f = true → f.seq = (s.side n l).expect → (s.side n l).swap = none →
      ∃ t, exec (.lrtDataFrameRx n l f) s = .next t ∧ (t.side n l).expect = ((s.side n l).expect + 1) % 256)

/-- O33, R349, R351 (13_lartum_annex.md). Training done takes TRAINING to PARAM at a rate no higher than MAX_RATE, the
parameters take PARAM to IDENT, an answer to the IDENT read in any other state changes nothing, and the loss of the
link takes TRAINING, PARAM and IDENT to DOWN. -/
def Obligations.AnnexRunsItsStates : Prop :=
  ∀ (a : Nat) (s : State), a < 4 →
    (∀ rate, rate < 6 → s.anxState a = 3 → ∃ t, exec (.anxTrainingDone a rate) s = .next t ∧ t.anxState a = 4 ∧
      t.fld F.ANX_STAT_RATE 0 a = min rate (s.fld F.ANX_CFG_MAX_RATE 0 a)) ∧
    (s.anxState a = 4 → ∃ t, exec (.anxParamDone a) s = .next t ∧ t.anxState a = 5) ∧
    (∀ w0 w1 w2 w3, s.anxState a ≠ 5 → exec (.anxIdentResponse a w0 w1 w2 w3) s = .next s) ∧
    (3 ≤ s.anxState a → s.anxState a < 6 → ∃ t, exec (.anxLinkLoss a) s = .next t ∧ t.anxState a = 2)

/-- O34, R361 (14_configuration.md). Whenever decoding a body of n frames succeeds it yields n frames of 1,024 words
each; a stream of one ZERO token of 1,024 makes one frame of zeros, a LIT token of N makes the N words that follow
it, and a token of an unlisted kind, of no words, or past the end of its frame fails. -/
def Obligations.TokenStreamMakesWholeFrames : Prop :=
  (∀ (n k : Nat) (ws : List Word) (fs : List (List Word)),
    decodeTokens n k [] [] ws = some fs → fs.length = n ∧ ∀ f ∈ fs, f.length = 1024) ∧
  (∀ (ws : List Word), ws.length = 1024 →
    decodeTokens 1 1 [] [] (BitVec.ofNat 32 1024 :: ws) = some [ws]) ∧
  decodeTokens 1 1 [] [] [BitVec.ofNat 32 (2 ^ 29 + 1024)] = some [List.replicate 1024 0] ∧
  (∀ (n k : Nat) (t : Word) (cur ws : List Word), 0 < n →
    (4 * 2 ^ 29 ≤ t.toNat ∨ (t.toNat / 2 ^ 29 < 3 ∧ (t.toNat % 2 ^ 11 = 0 ∨ 1024 < cur.length + t.toNat % 2 ^ 11))) →
    decodeTokens n (k + 1) [] cur (t :: ws) = none)

/-- O35, R354, R364, R365, R367 (14_configuration.md). An error while reading is recorded in ERR; under SRC 0b00 on the
T0 flash the load goes back to HEADER on the T4 flash, and otherwise it enters BACKOFF with a back-off of 1 ms that
doubles up to 8 s. Outside HEADER and LOAD an error changes nothing. A GO by any requester but the presiding lodge,
or in HEADER, LOAD or STARTING, starts nothing and sets WR_IGN. -/
def Obligations.LoadErrorsFallBackOrBackOff : Prop :=
  ∀ (code sect : Nat) (s : State), code < 256 →
    (s.loadState ≠ 1 → s.loadState ≠ 2 → exec (.loadError code sect) s = .next s) ∧
    (s.loadState = 1 ∨ s.loadState = 2 →
      (s.h .loadSrc = 0 → s.hb .loadPav = false → s.fld F.CFG_LOAD_CTL_SRC = 0 →
        ∃ t, exec (.loadError code sect) s = .next t ∧ t.loadState = 1 ∧ t.h .loadSrc = 1 ∧
          t.fld F.CFG_LOAD_STAT_ERR = code) ∧
      (s.h .loadSrc ≠ 0 →
        ∃ t, exec (.loadError code sect) s = .next t ∧ t.loadState = 5 ∧ t.fld F.CFG_LOAD_STAT_ERR = code ∧
          t.h .loadBackoff = (if s.h .loadBackoff = 0 then 1 else min 8000 (2 * s.h .loadBackoff)))) ∧
    (∀ (v : Word) (who : Requester), bitOf v.toNat 0 = true → RegId.defined .CFG_LOAD_CTL v.toNat = true →
      (s.isPresiding who = false →
        exec (.loadGoFull v who) s =
          .next ((s.setRegN .CFG_LOAD_CTL (v.toNat &&& 0x7e)).setFlag F.CFG_LOAD_STAT_WR_IGN true)) ∧
      (s.isPresiding who = true → (s.loadState = 1 ∨ s.loadState = 2 ∨ s.loadState = 3) →
        ∃ t, exec (.loadGoFull v who) s = .next t ∧ t.loadState = s.loadState ∧
          t.flag F.CFG_LOAD_STAT_WR_IGN = true))

/-- O36, R388, R391 (15_memory_integrity.md). Read a node counter as major counter times 128 plus minor counter. When a
write with a key is carried out in its protected range and no minor counter on its path is above 127, the counter of
every node of the path advances by exactly one; the counter of every other line or node whose minor counter is at
most 127 does not decrease; and minor counters at most 127 stay so. A nonce is therefore never used twice. -/
def Obligations.ProtectedCountersNeverReturn : Prop :=
  ∀ (p k a : Nat) (s t : State), s.keyAccess p k a = .guarded → s.keyWrite p k a = some t →
    ((∀ e ∈ s.keyPath p k a, s.h .keyMinor p k (e.1 * 64 + e.2) ≤ 127) →
      ∀ e ∈ s.keyPath p k a,
        t.h .keyMajor p k e.1 * 128 + t.h .keyMinor p k (e.1 * 64 + e.2) =
          s.h .keyMajor p k e.1 * 128 + s.h .keyMinor p k (e.1 * 64 + e.2) + 1) ∧
    (∀ n c, c < 64 → s.h .keyMinor p k (n * 64 + c) ≤ 127 →
      t.h .keyMinor p k (n * 64 + c) ≤ 127 ∧
      s.h .keyMajor p k n * 128 + s.h .keyMinor p k (n * 64 + c) ≤
        t.h .keyMajor p k n * 128 + t.h .keyMinor p k (n * 64 + c))

/-- O37, R399, R400 (16_lodge_recovery.md). At an instruction boundary with FIE at 1, outside a fast handler and with a
fast-class event offered, the entry goes to LFVEC with the pc in LFEPC and IN_FAST set; every other CSR, mstatus,
mepc and mcause among them, and both register banks are as before. MRET from there gives back the pc, the normal
bank and IN_FAST at 0. With FIE at 0, or inside a fast handler, no entry is taken. -/
def Obligations.LodgeFastHandlerRunsOnItsOwnBank : Prop :=
  ∀ (x : Nat) (s : State),
    (((s.lodge x).fie = false ∨ (s.lodge x).inFast = true) → exec (.lodgeFastEntry x) s = .next s) ∧
    (s.lodgeReady x = true → (s.lodge x).fie = true → (s.lodge x).inFast = false → s.lodgeOffered x 1 = true →
      ∃ t, exec (.lodgeFastEntry x) s = .next t ∧
        (t.lodge x).pc = ((s.lodge x).c 0x7c2).toNat ∧
        (t.lodge x).c 0x7c1 = BitVec.ofNat 32 (s.lodge x).pc ∧
        (t.lodge x).inFast = true ∧ (t.lodge x).fie = true ∧
        (∀ n, n ≠ 0x7c0 → n ≠ 0x7c1 → (t.lodge x).c n = (s.lodge x).c n) ∧
        (∀ r, (t.lodge x).r r = if r = 0 then 0 else tget (s.lodge x).f r 0) ∧
        (t.lodge x).mret.pc = (s.lodge x).pc % 2 ^ 32 ∧ (t.lodge x).mret.inFast = false ∧
        (∀ r, (t.lodge x).mret.r r = (s.lodge x).r r))

/-- O38, R404, R405 (16_lodge_recovery.md). When the message of a term, without a candidate yet, passes lodges that have
seen no higher term and at least one of them stands, then its candidate is a standing site of the list, no lower
site of the list stands, and the announcement makes that site the winner and counts one election. -/
def Obligations.ElectionNamesTheLowestStandingSite : Prop :=
  ∀ (l : List Nat) (s : State),
    s.h .elecTerm ≠ 0 → s.h .elecCand = 0 → (∀ x ∈ l, s.regN .LDG_TERM x ≤ s.h .elecTerm) →
    (∃ x ∈ l, s.standing x = true) →
    ∃ t w, l.foldl (fun (o : Host.Outcome State Fault Refusal) x =>
          match o with
          | .next u => exec (.electionMsg x) u
          | o => o) (.next s) = .next t ∧
      w ∈ l ∧ s.standing w = true ∧ (∀ y ∈ l, s.standing y = true → w ≤ y) ∧ t.h .elecCand = w + 1 ∧
      ∃ u, exec .electionAnnounce t = .next u ∧ u.h .elecWin = w + 1 ∧
        u.fld F.LDG_ELECT_CNT_COUNT = (t.fld F.LDG_ELECT_CNT_COUNT + 1) % 2 ^ 32

/-- O39, R432 (17_telemetry_thermal.md). The collector takes the oldest record of its intake. A log of class c that
finds fewer than 1 + (7 - c) x STEP free records, one more while a gap is pending, is dropped: its class count goes
up by one, LOG_DROP is set, and neither memory nor the ring index changes. With room, a log whose ring lies in
usable host memory is stored at the write index, after the gap record when one is due, and the index moves on by
what was written. -/
def Obligations.LogsKeepTheirClassReserve : Prop :=
  ∀ (r : TelRec) (l : List TelRec) (c : Nat) (s : State), s.telIntake = r :: l → r.trace = false →
    c = (r.words.getD 0 0).toNat % 8 →
    (s.telFree false < 1 + (7 - c) * s.fld F.TEL_LOG_CFG_STEP + b2n s.gapPending →
      ∃ t, exec (.telIntakeRecord none) s = .next t ∧ t.telIntake = l ∧ t.mem = s.mem ∧
        t.regN .TEL_LOG_WR = s.regN .TEL_LOG_WR ∧ t.flag F.TEL_STAT_LOG_DROP = true ∧
        t.fld F.TEL_LOG_DROP_COUNT 0 c = (s.fld F.TEL_LOG_DROP_COUNT 0 c + 1) % 2 ^ 32) ∧
    (1 + (7 - c) * s.fld F.TEL_LOG_CFG_STEP + b2n s.gapPending ≤ s.telFree false →
      s.flag F.TEL_CTL_LOG_MEM = true → s.fnUsable (s.fld F.TEL_CTL_FUNC) = true → s.regN .TEL_LOG_WR < 2 ^ 32 →
      ∃ t, exec (.telIntakeRecord none) s = .next t ∧ t.telIntake = l ∧
        t.regN .TEL_LOG_WR = (s.regN .TEL_LOG_WR + 1 + b2n s.gapPending) % 2 ^ 32 ∧
        (∀ c', c' < 8 → t.fld F.TEL_LOG_DROP_COUNT 0 c' = s.fld F.TEL_LOG_DROP_COUNT 0 c') ∧
        t.gapPending = false ∧
        (s.gapPending = false →
          t.mem = memSetList s.mem
            (hostBase (s.fld F.TEL_CTL_FUNC / 2) + s.regN .TEL_LOG_BASE +
              32 * (s.regN .TEL_LOG_WR % s.telSize false)) (r.words.flatMap wordBytes)))

/-- O40, R428, R429 (17_telemetry_thermal.md). An alarm write in flight that the collector has not taken makes its type
active and adds its count, saturating, to the count of an active type, and is the count of a type that was not; a
write already taken, or none in flight, changes nothing. -/
def Obligations.AlarmRecordsAreTakenOnce : Prop :=
  ∀ (n ty : Nat) (s : State), ty < 256 →
    ((s.h .almSent n ty = 0 ∨ s.hb .almTaken n ty = true) → exec (.alarmRecordRx n ty) s = .next s) ∧
    (s.h .almSent n ty ≠ 0 → s.hb .almTaken n ty = false → s.h .almSent n ty < 65536 →
      ∃ t, exec (.alarmRecordRx n ty) s = .next t ∧ t.hb .almTaken n ty = true ∧
        t.bit .TEL_ALM_ACT (ty % 32) 0 (ty / 32) = true ∧
        t.regN .TEL_ALM_CNT 0 ty =
          (if s.bit .TEL_ALM_ACT (ty % 32) 0 (ty / 32) then
            min (2 ^ 32 - 1) (s.fld F.TEL_ALM_CNT_COUNT 0 ty + s.h .almSent n ty)
           else s.h .almSent n ty) ∧
        exec (.alarmRecordRx n ty) t = .next t)

/-- O41, R451, R455, R457 (18_external_interfaces.md). After a link-down, PERST_N, an FLR, or an IDE failure of an
endpoint that requires IDE, the functions concerned are not usable. A change of a function leaves its USABLE flag
equal to the conjunction of link up, EN, Bus Master Enable, not in D3hot, no FLR in progress, and a Secure stream
where IDE is required. -/
def Obligations.FunctionIsUsableOnlyUnderItsConditions : Prop :=
  ∀ (e f : Nat) (s : State), e < 2 → f < 4 →
    (∀ w g, ∃ t, exec (.pcieLinkChange e false w g) s = .next t ∧ t.flag F.PCIE_EP_STAT_LINK_UP 0 e = false ∧
      t.flag F.PCIE_FN_STAT_USABLE 0 (2 * e) = false ∧ t.flag F.PCIE_FN_STAT_USABLE 0 (2 * e + 1) = false) ∧
    (∃ t, exec (.perstNAssert e) s = .next t ∧ t.flag F.PCIE_EP_STAT_LINK_UP 0 e = false ∧
      t.flag F.PCIE_FN_STAT_USABLE 0 (2 * e) = false ∧ t.flag F.PCIE_FN_STAT_USABLE 0 (2 * e + 1) = false) ∧
    (∃ t, exec (.flr f) s = .next t ∧ t.flag F.PCIE_FN_STAT_FLR 0 f = true ∧
      t.flag F.PCIE_FN_STAT_USABLE 0 f = false) ∧
    (∃ t, exec (.ideFail e) s = .next t ∧ t.flag F.PCIE_EP_STAT_IDE_FAIL 0 e = true ∧
      (s.flag F.PCIE_EP_CTL_IDE_REQ 0 e = true →
        t.flag F.PCIE_FN_STAT_USABLE 0 (2 * e) = false ∧ t.flag F.PCIE_FN_STAT_USABLE 0 (2 * e + 1) = false)) ∧
    (∀ bme d3 flr sec, ∃ t, exec (.functionUsabilityChange f bme d3 flr sec) s = .next t ∧
      t.flag F.PCIE_FN_STAT_USABLE 0 f =
        (t.flag F.PCIE_EP_STAT_LINK_UP 0 (f / 2) && t.flag F.PCIE_FN_CFG_EN 0 f && bme && !d3 &&
          !(flr && s.flag F.PCIE_FN_STAT_FLR 0 f) && (!t.flag F.PCIE_EP_CTL_IDE_REQ 0 (f / 2) || sec)))

/-- O42, R473 (19_gpio.md). After a masked write of GPIO_DOUT_k or GPIO_OE_k every bit whose mask bit is 1 holds the
written value and every other bit of the register is as before; bits 31:16 of the register stay 0; every other
register, and memory, is as before; two writes whose masks share no bit leave the same value whichever comes first. -/
def Obligations.MaskedPinWritesNeverRace : Prop :=
  ∀ (k : Nat) (oe : Bool) (v : Word) (s : State), k < 6 → s.regN (if oe then .GPIO_OE else .GPIO_DOUT) 0 k < 2 ^ 16 →
    ∃ t, exec (.gpioMaskedWrite k oe v) s = .next t ∧
      (∀ b, b < 16 → bitOf (t.regN (if oe then .GPIO_OE else .GPIO_DOUT) 0 k) b =
        if bitOf v.toNat (16 + b) then bitOf v.toNat b else bitOf (s.regN (if oe then .GPIO_OE else .GPIO_DOUT) 0 k) b) ∧
      t.regN (if oe then .GPIO_OE else .GPIO_DOUT) 0 k < 2 ^ 16 ∧
      (∀ id w i j, ¬ (id = (if oe then .GPIO_OE else .GPIO_DOUT) ∧ w = 0 ∧ i = k ∧ j = 0) →
        t.reg id w i j = s.reg id w i j) ∧
      t.mem = s.mem ∧
      (∀ v2 : Word, (∀ b, b < 16 → bitOf v.toNat (16 + b) = true → bitOf v2.toNat (16 + b) = false) →
        ∃ t2 u u2, exec (.gpioMaskedWrite k oe v2) t = .next t2 ∧ exec (.gpioMaskedWrite k oe v2) s = .next u ∧
          exec (.gpioMaskedWrite k oe v) u = .next u2 ∧
          t2.regN (if oe then .GPIO_OE else .GPIO_DOUT) 0 k = u2.regN (if oe then .GPIO_OE else .GPIO_DOUT) 0 k)

/-- O43, R481, R485, R486, R494, R495, R499 (20_debug.md). While a part is locked a scan of DBG_ACCESS issues no packet
and changes no register or memory; a DBG_ACC access only sets its status to 0x9; halt, resume, register transfer,
instruction-memory and patch writes (but the own lodge's patches) only set WR_IGN; an unlock request only starts the
erase, and the end of the erase leaves the part unlocked with no byte of its memories other than zero. -/
def Obligations.LockedPartStaysClosed : Prop :=
  ∀ (s : State), s.dbgLocked = true →
    (∀ dr, ∃ t, exec (.dbgAccessUpdateDr dr) s = .next t ∧ t.regs = s.regs ∧ t.mem = s.mem ∧ t.prmIn = s.prmIn ∧
      t.prmOut = s.prmOut ∧ t.dbgLocked = true) ∧
    (∀ v : Word, RegId.defined .DBG_ACC_CTL v.toNat = true → bitsOf v.toNat 0 2 ≠ 0 →
      exec (.dbgAccRead v) s = .next ((s.setFlag F.DBG_ACC_CTL_TOUCH (bitOf v.toNat 2)).setFld F.DBG_ACC_STAT_STATUS 9) ∧
      exec (.dbgAccWrite v) s = .next ((s.setFlag F.DBG_ACC_CTL_TOUCH (bitOf v.toNat 2)).setFld F.DBG_ACC_STAT_STATUS 9)) ∧
    (∀ (w i : Nat) (v : Word), RegId.defined .DBG_CORE_CTL v.toNat = true →
      exec (.dbgHalt w i v) s = .next (s.setFlag F.DBG_CORE_STAT_WR_IGN true w i) ∧
      exec (.dbgResume w i v) s = .next (s.setFlag F.DBG_CORE_STAT_WR_IGN true w i) ∧
      exec (.dbgRegTransfer w i v) s = .next (s.setFlag F.DBG_CORE_STAT_WR_IGN true w i) ∧
      exec (.imemBundleWrite w i v) s = .next (s.setFlag F.DBG_CORE_STAT_WR_IGN true w i)) ∧
    (∀ (x n : Nat) (v : Word) (who : Requester), who ≠ .lodge x → RegId.defined .DBG_PATCH_DATA v.toNat = true →
      exec (.patchWrite x n true v who) s = .next (s.setFlag F.DBG_CORE_STAT_WR_IGN true x 8)) ∧
    (s.flag F.DBG_STAT_ERASING = false → s.hb .porHeld = false →
      ∃ t, exec .dbgUnlockGo s = .next t ∧ t.flag F.DBG_STAT_ERASING = true ∧ t.dbgLocked = true ∧
        ∃ u, exec .unlockEraseDone t = .next u ∧ u.dbgLocked = false ∧
          u.flag F.DBG_STAT_ERASING = false ∧ ∀ a, a < 2 ^ 64 → u.ldByte a = 0)

/-- O44, 00_scope.md, 01_panel.md, 02_campanile.md, 12_promenade.md, 18_external_interfaces.md (R453),
22_address_map.md. Each of these commands answers a next state, from every state and operands that meet the
condition written before it, and the state is the one its rules give (a write of a register needs only that the value
it gives is one whose effect the spec defines, R9; a launched write needs that of the masked value): PRM_READ, PEEK_READ, PRM_WRITE, PRM_ATOMIC,
BAR0_ACCESS, LAUNCH_REG_WRITE, REF_GOOD, REF_LOST, FREQ_KHZ_WRITE, EPOCH_SAMPLED, ADJ_GO, STEP_APPLY, SLEW_DONE,
USER_TRIM_WRITE, TRIM_SLEW_DONE, LQ_PUSH, LQ_FORWARD, LAUNCH_NOP, LQ_FLUSH, LQ_FLUSH_DONE, LQ_EN_WRITE,
LAUNCH_PIN_SAMPLE, PSAMP_FIFO_READ, PMAP_APPLY, PMAP_APPLY_DONE, PAIR_LO_READ, PAIR_LO_WRITE, PAIR_HI_WRITE,
REGISTER_WRITE. -/
def Obligations.RegisterAndTimeCommandsComplete : Prop :=
    (∀ (n : Nat) (pkt : List Word) (fabStatus : Status) (fabData : List Word) (par : Option Nat) (s : State),
      ((s.pRx n).contains pkt ∧ pktClass pkt ≠ 1 ∧ pktOp pkt = 1 ∧ ¬ pktPeek pkt) →
      exec (.prmRead n pkt fabStatus fabData par) s = .next (s.prmRead n pkt fabStatus fabData par)) ∧
    (∀ (n : Nat) (pkt : List Word) (fabStatus : Status) (fabData : List Word) (s : State), ((s.pRx n).contains
      pkt ∧ pktOp pkt = 1 ∧ pktPeek pkt) → exec (.peekRead n pkt fabStatus fabData) s = .next (s.prmRead n pkt
      fabStatus fabData none)) ∧
    (∀ (n : Nat) (pkt : List Word) (fab : Status) (u s : State),
      (s.pRx n).contains pkt = true → pktClass pkt ≠ 1 → pktOp pkt = 2 → u = s.setPRx n ((s.pRx n).erase pkt) →
      (pktAddr pkt / 2 ^ 45 ≠ 1 ∨ u.nodeReach n pkt ≠ .ok ∨ addrOk (pktAddr pkt) = false ∨
        (∃ v, pktPayload pkt = [v] ∧ u.writeDefined (pktAddr pkt % 2 ^ 26) v (u.pktWho pkt) = true) ∨
        (∃ r, u.findReg (pktAddr pkt % 2 ^ 26) = some (some r) ∧ u.regReach (pktAddr pkt % 2 ^ 26) = .ok ∧
          (r.id = .TSK_CMD_PORT ∨ r.id = .RDO_ACC_PORT ∨
            (r.i = 0 ∧ (pktPayload pkt).length = 8 ∧ (r.id = .TEL_LOG_PORT ∨ r.id = .TEL_TRC_PORT)) ∨
            (r.i = 0 ∧ r.id = .TEL_INTAKE ∧ pktClass pkt = 3))) ∨
        ∀ (i : Nat) (r : RegRef) (t : State), i < (pktPayload pkt).length →
          t.findReg (pktAddr pkt % 2 ^ 26 + 4 * i) = some (some r) →
          r.id ≠ .DBG_CORE_CTL ∧ r.id ≠ .DBG_CORE_REGSEL ∧ ∀ d, r.id.defined d = true) →
      ∃ r, u.serveWrite n pkt fab = some r ∧ exec (.prmWrite n pkt fab) s = .next (r.finish n pkt 0)) ∧
    (∀ (n base rs off : Nat) (pkt : List Word) (fab : Status) (u s : State),
      (s.pRx n).contains pkt = true → pktClass pkt ≠ 1 → pktOp pkt = 2 → u = s.setPRx n ((s.pRx n).erase pkt) →
      u.nodeReach n pkt = .ok → pktAddr pkt / 2 ^ 45 = 2 → u.localAt n (pktAddr pkt) = .mem base rs off →
      exec (.prmWrite n pkt fab) s = .next ((served .ok
        (foldS (fun l s => s.resvHit rs l (pktSrc pkt) (pktPort pkt)) (linesOf off (4 * (pktPayload pkt).length))
          (u.stBytes (base + off) (wordsBytes (pktPayload pkt))))).finish n pkt 0)) ∧
    (∀ (n x : Nat) (pkt : List Word) (fab : Status) (data a b : Word) (u s : State),
      (s.pRx n).contains pkt = true → pktClass pkt ≠ 1 → pktOp pkt = 3 → u = s.setPRx n ((s.pRx n).erase pkt) →
      x = pktAddr pkt % 2 ^ 26 → a = (pktPayload pkt).getD 0 0 → b = (pktPayload pkt).getD 1 0 →
      (pktAddr pkt / 2 ^ 45 ≠ 1 ∨ u.nodeReach n pkt ≠ .ok ∨ addrOk (pktAddr pkt) = false ∨ pktAfn pkt < 2 ∨
        (u.regRead x false).1 ≠ .ok ∨ (pktAfn pkt = 8 ∧ (u.regRead x false).2.1 ≠ a) ∨
        (∃ r, u.findReg x = some (some r) ∧ amoReadOnly r.id = true) ∨
        (u.regRead x false).2.2.writeDefined x (amoNew (pktAfn pkt) (u.regRead x false).2.1 a b) (u.pktWho pkt) = true) →
      ∃ r, u.serveAtomic n pkt fab data = some r ∧ exec (.prmAtomic n pkt fab data) s = .next (r.finish n pkt 1)) ∧
    (∀ (n base rs off : Nat) (pkt : List Word) (fab : Status) (data a b : Word) (y : Word × State) (u s : State),
      (s.pRx n).contains pkt = true → pktClass pkt ≠ 1 → pktOp pkt = 3 → u = s.setPRx n ((s.pRx n).erase pkt) →
      a = (pktPayload pkt).getD 0 0 → b = (pktPayload pkt).getD 1 0 →
      u.nodeReach n pkt = .ok → pktAddr pkt / 2 ^ 45 = 2 → u.localAt n (pktAddr pkt) = .mem base rs off →
      y = u.amoMem rs off (pktAfn pkt) a b (BitVec.ofNat 32 (u.ldN (base + off) 4)) (pktSrc pkt) (pktPort pkt)
        (fun t v => t.stBytes (base + off) (wordBytes v)) →
      exec (.prmAtomic n pkt fab data) s = .next ((⟨.ok, false, 0, [y.1], y.2, false⟩ : Served).finish n pkt 1)) ∧
    ((∀ (f x : Nat) (ep : Bool) (vs : List Word) (s : State), x % 4 = 0 →
      exec (.bar0Access f x 4 false ep vs) s =
        .next (if (State.regReads false 1 x s).1 = .ok then (State.regReads false 1 x s).2.2
          else (State.regReads false 1 x s).2.2.barBad f)) ∧
    ∀ (f x : Nat) (v : Word) (s : State), x % 4 = 0 → s.writeDefined x v (.host f) = true →
      ∃ st t, s.regWrite x v (.host f) = some (st, t) ∧
        exec (.bar0Access f x 4 true false [v]) s = .next (if st = .ok then t else t.barBad f)) ∧
    (∀ (h q x : Nat) (e : LqEntry) (l : List LqEntry) (s : State), s.lqHead h q 7 = some e → s.lqOf h q = e :: l →
      x = (lqWindow h).1 + e.param 0 % 2 ^ 24 → (s.lqIsLate h q e && bitOf e.w2 4) = false →
      (∀ e' l', l = e' :: l' → e'.kind ≠ 7 ∨ e'.time ≠ e.time) →
      (((lqWindow h).2 ≤ e.param 0 % 2 ^ 24 ∨ s.regReach x ≠ .ok ∨ s.findReg x = none ∨ s.findReg x = some none ∨
          ∃ r, s.findReg x = some (some r) ∧ roReg r.id = true) →
        exec (.launchRegWrite h q) s = .next (s.lqLaunch h q 7 fun _ _ => (false, s))) ∧
      (∀ (r : RegRef) (d m : Word), e.param 0 % 2 ^ 24 < (lqWindow h).2 → s.regReach x = .ok →
        s.findReg x = some (some r) → r.hi = false →
        r.id ∈ [RegId.PRM_FENCE_TMO, .GATE_COMMIT_TMO, .MEM_BKT_CFG, .XFL_LOCAL_TAG, .ADM_DECL_W, .EVC_FB_TMO, .THM_CFG,
          .ETH_MAX_FRAME] →
        d = BitVec.ofNat 32 (e.param 1) → m = BitVec.ofNat 32 (e.param 2) →
        r.id.defined ((loWord (s.regVal r) &&& ~~~m) ||| (d &&& m)).toNat = true →
        exec (.launchRegWrite h q) s = .next (s.lqLaunch h q 7 fun _ _ =>
          (true, (s.shotAdd r (loWord (s.regVal r)) d m).rwWrite r
            (((loWord (s.regVal r) &&& ~~~m) ||| (d &&& m)).zeroExtend 64))))) ∧
    (∀ (h q x : Nat) (e : LqEntry) (s : State), s.lqHead h q 7 = some e →
      x = (lqWindow h).1 + e.param 0 % 2 ^ 24 →
      (∀ (r : RegRef) (old d m : Word), s.findReg x = some (some r) → roReg r.id = false →
        old = (if r.hi then hiWord (s.regVal r) else loWord (s.regVal r)) →
        d = BitVec.ofNat 32 (e.param 1) → m = BitVec.ofNat 32 (e.param 2) →
        (s.shotAdd r old d m).refDefined r ((old &&& ~~~m) ||| (d &&& m)) = true) →
      ∃ t, s.lqWriteHead h q e = some t ∧
        ((∀ e' l, t.lqOf h q = e' :: l →
            e'.kind ≠ 7 ∨ e'.time ≠ e.time ∨ t.flag F.CAMP_LQ_CTL_EN h q = false) →
          exec (.launchRegWrite h q) s = .next t)) ∧
    (∀ (b : Bool) (diff phase : Int) (s : State), exec (.refGood b diff phase) s = .next (s.refChange (!b ||
      s.flag F.CAMP_STAT_A_OK) (b || s.flag F.CAMP_STAT_B_OK) diff phase)) ∧
    (∀ (lostA lostB goodA goodB : Bool) (diff phase : Int) (s : State), exec (.refLost lostA lostB goodA goodB
      diff phase) s = .next (s.refChange ((s.flag F.CAMP_STAT_A_OK && !lostA) || goodA) ((s.flag F.CAMP_STAT_B_OK
      && !lostB) || goodB) diff phase)) ∧
    (∀ (v : Word) (s : State), RegId.defined .CAMP_REF_CFG v.toNat = true → exec (.freqKhzWrite v) s = .next
      (s.freqWrite v)) ∧
    (∀ (s : State), s.fld F.CAMP_STAT_SRC < 2 →
      (s.fld F.CAMP_CTL_EPOCH_MODE = 0 → exec .epochSampled s =
        .next (s.setFlag F.CAMP_STAT_EPOCH_SEEN true |>.setReg .CAMP_EPOCH_TIME s.time)) ∧
      (s.fld F.CAMP_CTL_EPOCH_MODE = 1 → exec .epochSampled s =
        .next ((((s.setFlag F.CAMP_STAT_EPOCH_SEEN true |>.setReg .CAMP_EPOCH_TIME s.time).pass 65536).stepTo
          (BitVec.ofNat 64 (s.regN .CAMP_EPOCH_VAL % 2 ^ 48 * 65536))).setFld F.CAMP_CTL_EPOCH_MODE 2))) ∧
    (∀ (s : State), exec .adjGo s = .next (s.adjGo)) ∧
    (∀ (s : State), s.flag F.CAMP_CTL_STEP_EN = true → s.reg .CAMP_SLEW_REM ≠ 0 →
      exec .stepApply s = .next ((s.stepTo (s.time + s.reg .CAMP_SLEW_REM)).setReg .CAMP_SLEW_REM 0
        |>.setFlag F.CAMP_STAT_SLEWING false)) ∧
    (∀ (s : State), s.flag F.CAMP_CTL_STEP_EN = false → exec .slewDone s = .next (s.pass s.slewLeft)) ∧
    (∀ (x : Nat) (v : Word) (s : State), exec (.userTrimWrite x v) s = .next (s.siteTrimWrite x v)) ∧
    (∀ (x : Nat) (s : State), exec (.trimSlewDone x) s =
      .next (((s.pass (s.trimLeft x)).setH .trimAt 0 x).setFlag F.CAMP_SITE_STAT_TRIM_SLEW false x)) ∧
    (∀ (h q : Nat) (w7 : Word) (s : State), exec (.lqPush h q w7) s = .next (s.lqPush h q w7)) ∧
    (∀ (h q : Nat) (s : State), s.lqOf h q ≠ [] → s.flag F.CAMP_LQ_CTL_EN h q = true →
      exec (.lqForward h q) s = .next (s.setH .lqForwarded 1 h q)) ∧
    (∀ (h q : Nat) (s : State), exec (.launchNop h q) s = .next (s.lqLaunch h q 0 fun _ s => (true, s))) ∧
    (∀ (h q : Nat) (s : State), exec (.lqFlush h q) s = .next (s.lqFlush h q)) ∧
    (∀ (h q : Nat) (s : State), exec (.lqFlushDone h q) s = .next (s.setFlag F.CAMP_LQ_STAT_FLUSH_BUSY false h q)) ∧
    (∀ (h q : Nat) (en : Bool) (s : State), exec (.lqEnWrite h q en) s = .next (s.lqEnable h q en)) ∧
    (∀ (t q : Nat) (pins : Byte) (s : State), exec (.launchPinSample t q pins) s = .next (s.lqLaunch (towerNode
      t) q 6 fun e s => (true, s.psampPush t (towerNode t) q (BitVec.ofNat 32 (pins.toNat + bitsOf (e.param 0) 0 5
      * 2 ^ 8 + bitsOf e.w2 16 16 * 2 ^ 16))))) ∧
    (∀ (t : Nat) (s : State), exec (.psampFifoRead t) s = .next ((s.psampPop t).2)) ∧
    (∀ (v : Word) (who : Requester) (s : State), RegId.defined .CFG_PMAP_CTL v.toNat = true → exec (.pmapApply v
      who) s = .next (s.pmapCtlWrite v.toNat who)) ∧
    (∀ (s : State), exec .pmapApplyDone s = .next (s.mapDone)) ∧
    (∀ (x : Nat) (s : State), exec (.pairLoRead x) s = .next ((s.regRead x false).2.2)) ∧
    (∀ (x : Nat) (v : Word) (who : Requester) (s : State), s.writeDefined x v who = true →
      ∃ st t, s.regWrite x v who = some (st, t) ∧ exec (.pairLoWrite x v who) s = .next t ∧
        exec (.pairHiWrite x v who) s = .next t ∧ exec (.registerWrite x v who) s = .next t) ∧
    (∀ (x : Nat) (v : Word) (who : Requester) (s : State),
      (s.regReach x ≠ .ok ∨ s.findReg x = none ∨ s.findReg x = some none) →
      exec (.registerWrite x v who) s = .next s) ∧
    (∀ (x : Nat) (r : RegRef) (v : Word) (who : Requester) (s : State), s.findReg x = some (some r) →
      s.regReach x = .ok → r.hi = false → s.shotsAt r = [] → r.id.defined v.toNat = true →
      r.id ∈ [RegId.PRM_FENCE_TMO, .GATE_COMMIT_TMO, .MEM_BKT_CFG, .XFL_LOCAL_TAG, .ADM_DECL_W, .EVC_FB_TMO, .THM_CFG,
        .ETH_MAX_FRAME] →
      exec (.registerWrite x v who) s = .next (s.rwWrite r (v.zeroExtend 64)))

/-- O45, 03_gatehouse.md. Each of these commands answers a next state, from every state and operands that meet the
condition written before it, and the state is the one its rules give: FEED_ENABLE, FEED_RIDX_WRITE,
DOME_COMMIT_ARRIVE, DOME_COMMIT_DONE, COMMIT_ACK_RX, COMMIT_ERROR_RX, COMMIT_TIMEOUT, FRAGMENT_CLOSE, STREAM_ENABLE,
STREAM_DISABLE, STREAM_PAUSE, STREAM_RESUME, STREAM_UNREGISTER, STREAM_ABORT, GATE_SENT_WRITE, CODEC_CAPTURE,
GATE_CTL_WRITE, SSLACK_READ, LANE_FRAME_ARRIVAL, XFL_LANE_EN_WRITE, XFL_RETRAIN, XFL_BACKOFF_EXPIRY, XFL_BLOCK_LOCK,
XFL_BLOCK_LOCK_LOST, SUPERFRAME_RX, SUPERFRAME_TX. -/
def Obligations.IngestCommandsComplete : Prop :=
    (∀ (p k f : Nat) (v : Word) (s : State), RegId.defined .SPR_FEED_CFG v.toNat = true → exec (.feedEnable p k f
      v) s = .next (s.feedCfgWrite p k f v.toNat)) ∧
    (∀ (p k f : Nat) (v : Word) (s : State), RegId.defined .SPR_FEED_RIDX v.toNat = true → exec (.feedRidxWrite p
      k f v) s = .next (s.feedRidxWrite p k f v.toNat)) ∧
    (∀ (p i : Nat) (twin : Bool) (par : List (Nat × Nat)) (c : Commit) (s : State),
      (s.stream p i).firstCommit twin (fun k => k.st == .flight) = some c →
      exec (.domeCommitArrive p i twin par) s =
        (match (s.stagingParity p par (s.commitIn p i c twin)).2.commitArrive (c.copy twin).pav
            (s.stagingParity p par (s.commitIn p i c twin)).1 with
        | (.waiting, t) => .next t
        | (.refused e, t) => .next (t.modStream p i fun x =>
            x.onCopy twin (fun k => k.st == .flight) fun k => { k with st := .answered e })
        | (.writing ring ofs lines txn, t) => .next (t.modStream p i fun x =>
            x.onCopy twin (fun k => k.st == .flight) fun k => ⟨k.pav, .writing, ring, ofs, lines, txn⟩))) ∧
    (∀ (p i : Nat) (twin : Bool) (c : Commit) (e : Option Nat) (t s : State),
      (s.stream p i).firstCommit twin (fun k => k.st == .writing && s.txnOver k.txn) = some c →
      s.commitFinish (c.copy twin).pav (c.copy twin).ring (s.commitIn p i c twin) (c.copy twin).ofs (c.copy twin).lines
        (c.copy twin).txn = some (e, t) →
      exec (.domeCommitDone p i twin) s =
        .next (t.modStream p i fun x =>
          x.onCopy twin (fun k => k.st == .writing && s.txnOver k.txn) fun k => { k with st := .answered (e.getD 0) })) ∧
    (∀ (p i : Nat) (twin : Bool) (s : State),
      exec (.commitAckRx p i twin) s =
        .next (s.answerRx p i twin (fun k => match k.st with | .answered _ => true | _ => false)
          (fun k => match k.st with | .answered e => e | _ => 0))) ∧
    (∀ (p i status : Nat) (twin : Bool) (s : State),
      exec (.commitErrorRx p i twin status) s =
        .next (if status = 6 then s.copyTimeout p i twin
          else s.answerRx p i twin (fun k => k.st == .flight) (fun _ => 8))) ∧
    (∀ (p i : Nat) (s : State), exec (.commitTimeout p i) s = .next (s.commitTimeout p i)) ∧
    (∀ (p i : Nat) (s : State), exec (.fragmentClose p i) s = .next (s.fragClose p i)) ∧
    (∀ (p i : Nat) (s : State), exec (.streamEnable p i) s = .next (s.strmCmd p i 1)) ∧
    (∀ (p i : Nat) (s : State), exec (.streamDisable p i) s = .next (s.strmCmd p i 2)) ∧
    (∀ (p i : Nat) (s : State), exec (.streamPause p i) s = .next (s.strmCmd p i 3)) ∧
    (∀ (p i : Nat) (s : State), exec (.streamResume p i) s = .next (s.strmCmd p i 4)) ∧
    (∀ (p i : Nat) (s : State), exec (.streamUnregister p i) s = .next (s.strmCmd p i 5)) ∧
    (∀ (p i : Nat) (s : State), exec (.streamAbort p i) s = .next (s.strmCmd p i 6)) ∧
    (∀ (p i w : Nat) (v : Word) (s : State), exec (.gateSentWrite p i w v) s = .next (s.sentWrite p i w v.toNat)) ∧
    (∀ (p i : Nat) (s : State), exec (.codecCapture p i) s = .next (s.codecCapture p i)) ∧
    (∀ (p : Nat) (v : Word) (s : State), RegId.defined .GATE_CTL v.toNat = true → exec (.gateCtlWrite p v) s =
      .next (s.gateCtlWrite p v)) ∧
    (∀ (p i : Nat) (s : State), exec (.sslackRead p i) s = .next (s.slackRead p i)) ∧
    (∀ (p i : Nat) (s : State), exec (.laneFrameArrival p i) s = .next (s.frameArrive p i)) ∧
    (∀ (t l : Nat) (en : Bool) (s : State), exec (.xflLaneEnWrite t l en) s = .next (s.laneEn t l en)) ∧
    (∀ (t l : Nat) (s : State), exec (.xflRetrain t l) s = .next (s.laneRetrain t l)) ∧
    (∀ (t l : Nat) (s : State), (s.flag F.XFL_LANE_CTL_EN t l ∧ s.laneState t l = 0 ∧ (s.lane t l).waiting) →
      exec (.xflBackoffExpiry t l) s = .next (s.laneTry t l)) ∧
    (∀ (t l : Nat) (hdrs : List Nat) (uncorr : List Bool) (s : State), s.laneState t l = 1 →
      s.fld F.XCV_LANE_CFG_USE t l = 1 → s.flag F.XCV_LANE_STAT_RATE_MISMATCH t l = false →
      s.flag F.XCV_LANE_CTL_RX_EN t l = true → s.scanning = false → lockGained hdrs = true →
      s.cwAligned t l uncorr = true → exec (.xflBlockLock t l hdrs uncorr) s = .next (s.setLaneState t l 2)) ∧
    (∀ (t l : Nat) (hdrs : List Nat) (s : State), 2 ≤ s.laneState t l →
      (lockLost hdrs = true → exec (.xflBlockLockLost t l hdrs false) s = .next (s.laneFail t l)) ∧
      exec (.xflBlockLockLost t l hdrs true) s = .next ((s.cdrLost t l).laneFail t l)) ∧
    (∀ (t l : Nat) (before : DWord) (blocks : List Blk) (corr uncorr : Nat) (s : State),
      exec (.superframeRx t l before blocks corr uncorr) s =
        .next (s.sfRx t l (descrambleAll (scrState before) blocks) corr uncorr)) ∧
    (∀ (t l : Nat) (s : State), exec (.superframeTx t l) s = .next (s.sfTx t l))

/-- O46, 11_fabric.md. Each of these commands answers a next state, from every state and operands that meet the
condition written before it, and the state is the one its rules give: PLL_APPLY, PLL_RELOCK_DONE, PLL_ALIGN_DONE,
FABRIC_PLL_LOCK_LOSS, GCLK_SOURCE_SWITCH, CROSSING_REPIN, RESET_NET_DEASSERT, FABRIC_EVENT, SAMPLE_RELEASE,
PRIMITIVE_PRESENT, TIO_ENABLE, TIO_INPUT_WORD, TIO_WORD_PRESENT, TIO_WSTB, TIO_OUTPUT_WORD. -/
def Obligations.FabricCommandsComplete : Prop :=
    (∀ (p k : Nat) (s : State), exec (.pllApply p k) s = .next (s.pllApply p k)) ∧
    (∀ (p k : Nat) (s : State), s.pllSeeks p k = true → exec (.pllRelockDone p k) s = .next
      ((s.setFlag F.CFG_PLL_STAT_RELOCKING false p k |>.setFlag F.CFG_PLL_STAT_LOCK true p k).clocksMoved p)) ∧
    (∀ (p k : Nat) (s : State), s.flag F.CFG_PLL_STAT_LOCK p k = true →
      (∃ j, j < 4 ∧ ratioWhole (bitsOf (s.h .pllCfg p k) 0 10,
        (bitsOf (s.h .pllCfg p k) 10 4 + 1) * bitsOf (s.h .pllDiv p k) (8 * j) 8) = true) →
      exec (.pllAlignDone p k) s = .next ((s.setFlag F.CFG_PLL_STAT_ALIGNED true p k).clocksMoved p)) ∧
    (∀ (p k : Nat) (s : State), s.flag F.CFG_PLL_STAT_LOSS p k = true →
      exec (.fabricPllLockLoss p k) s =
        .next (((s.setFlag F.CFG_PLL_STAT_LOSS true p k).setFlag F.CFG_PLL_STAT_LOCK false p k
          |>.setFlag F.CFG_PLL_STAT_ALIGNED false p k).clocksMoved p)) ∧
    (∀ (p n : Nat) (s : State), exec (.gclkSourceSwitch p n) s = .next ((s.setH .gclkSrc (s.fld F.CFG_GCLK_SRC p
      n) p n).clocksMoved p)) ∧
    (∀ (p e g : Nat) (s : State), (s.fld F.CFG_XSTAT_LAT p e g ≠ 0 ∧ s.flag F.CFG_XIN_PIN p e g ∧ s.netAligned p
      (s.fld F.CFG_XIN_CLK p e g) ∧ s.netAligned (neighbour p e) (s.fld F.CFG_XOUT_CLK (neighbour p e) (opposite
      e) g)) → exec (.crossingRepin p e g) s =
        .next ((if s.flag F.CFG_XSTAT_PINNED p e g then s else s.crossLost p e g).setFld F.CFG_XSTAT_LAT 6 p e g
          |>.setFlag F.CFG_XSTAT_PINNED true p e g)) ∧
    (∀ (p n : Nat) (s : State), s.flag F.CFG_RST_SW p n = false →
      (s.flag F.CFG_RST_WARM p n = true → s.loadingPav p = false) → s.fabricResets p n = false →
      exec (.resetNetDeassert p n) s = .next (s.setH .rstNet 0 p n)) ∧
    (∀ (p i : Nat) (s : State), i < 128 → exec (.fabricEvent p i) s = .next (s.local p i)) ∧
    (∀ (p i : Nat) (f) (t s : State), s.releasePop p i = some (f, t) →
      exec (.sampleRelease p i none) s =
        .next ((t.feedsFrame p i f.xs).sportFrame p i f (f.ts + BitVec.ofNat 64 (s.entRelease p i)))) ∧
    (∀ (p i : Nat) (w0 w1 x : Nat) (t s : State), s.primPop p i = some (w0, w1, x, t) →
      exec (.primitivePresent p i) s = .next ((t.feedsPrim p i w0 w1).sportPrim p i w0 w1)) ∧
    (∀ (t g : Nat) (v : Word) (s : State), RegId.defined .TIO_GRP_CFG v.toNat = true → exec (.tioEnable t g v) s
      = .next (s.tioCfgWrite t g v.toNat)) ∧
    (∀ (t g word : Nat) (ts : Time) (s : State), s.tioRuns t g false = true →
      exec (.tioInputWord t g ts word) s =
        .next (s.setTio t g (s.tioOf t g ++ [(ts, if s.flag F.TIO_GRP_CFG_LVDS t g then
          lvdsIn (s.tioR t g) (word % 2 ^ (8 * s.tioR t g)) else word % 2 ^ (8 * s.tioR t g))]))) ∧
    (∀ (t g w : Nat) (ts arrived : Time) (rest : List (Time × Nat)) (s : State), s.tioOf t g = (ts, w) :: rest →
      s.tioRuns t g false = true →
      atOrAfter (s.pavTime (s.fld F.TIO_GRP_CFG_PAV t g)) (ts + BitVec.ofNat 64 (s.regN .TIO_GRP_LAT t g)) = true →
      later arrived (ts + BitVec.ofNat 64 (s.regN .TIO_GRP_LAT t g)) = false →
      exec (.tioWordPresent t g arrived) s =
        .next (s.setTio t g rest |>.setH .tioVal w t g |>.setH .tioLateBit 0 t g)) ∧
    (∀ (t g n w : Nat) (s : State), s.tioRuns t g true = true →
      exec (.tioWstb t g n (some w)) s =
        .next (s.setTio t g (s.tioOf t g ++ [(s.tioBoundary t g n, w % 2 ^ (8 * s.tioR t g))]))) ∧
    (∀ (t g w : Nat) (b arrived : Time) (rest : List (Time × Nat)) (s : State), s.tioOf t g = (b, w) :: rest →
      s.tioRuns t g true = true → later arrived (b - BitVec.ofNat 64 (s.nsUnits 2)) = false →
      exec (.tioOutputWord t g arrived) s =
        .next ((s.setTio t g rest).setH .pinOut ((s.setTio t g rest).tioPins t g w) t g |>.setH .pinOe 255 t g))

/-- O47, 05_domes.md, 15_memory_integrity.md. Each of these commands answers a next state, from every state and operands
that meet the condition written before it, and the state is the one its rules give: DOME_SCHED_ISSUE,
REFRESH_INTERVAL, WRITE_AGE_EXPIRY, PANIC_AGE_EXPIRY, IDLE_CLOSE_EXPIRY, DOME_LINE_READ_DONE, PATROL_READ,
SR_REQ_WRITE, SR_ENTRY_DONE, SR_EXIT_DONE, DOME_INIT_DONE, RING_ENABLE, RING_DISABLE, RING_INIT_DONE, BUCKET_LEAK,
REMAP_ENTRY_WRITE, REMAP_COPY_DONE, KEY_W7_WRITE, KEY_START, KEY_INIT_DONE, KEY_RETIRE, KEY_RETIRE_DONE,
MAJOR_COUNTER_CHANGE_DONE. -/
def Obligations.DomeAndIntegrityCommandsComplete : Prop :=
    (∀ (p c : Nat) (s : State), exec (.domeSchedIssue p c) s = .next ((s.schedIssue p c).txnsAnswer p)) ∧
    (∀ (p c : Nat) (s : State), s.domeRuns p = true →
      (0 < s.h .domeRefAhead p c →
        exec (.refreshInterval p c) s = .next (s.setH .domeRefAhead (s.h .domeRefAhead p c - 1) p c)) ∧
      (s.h .domeRefAhead p c = 0 → s.h .domeRefDue p c < s.fld F.DOME_REF_CFG_POSTPONE_MAX p →
        exec (.refreshInterval p c) s = .next (s.setH .domeRefDue (s.h .domeRefDue p c + 1) p c)) ∧
      (s.h .domeRefAhead p c = 0 → s.fld F.DOME_REF_CFG_POSTPONE_MAX p ≤ s.h .domeRefDue p c →
        exec (.refreshInterval p c) s = .next (s.refreshOnce p c))) ∧
    (∀ (p c : Nat) (s : State), (¬ ((s.wqOf p c).isEmpty)) → exec (.writeAgeExpiry p c) s = .next (s.setH
      .domeBatch 1 p c)) ∧
    (∀ (p c : Nat) (s : State),
      exec (.panicAgeExpiry p c) s =
        .next (if (s.rqOf p c).any fun r => r.port == 2 then s.setRq p c (ageFirst (s.rqOf p c))
          else s.setWq p c (ageFirst (s.wqOf p c)))) ∧
    (∀ (p c bank : Nat) (s : State), exec (.idleCloseExpiry p c bank) s = .next (s.setH .domeRow 0 p c bank)) ∧
    (∀ (p c tag : Nat) (found : List Nat) (s : State), exec (.domeLineReadDone p c found tag) s =
      .next ((s.lineReadDone p c found tag).txnsAnswer p)) ∧
    (∀ (p line : Nat) (found : List Nat) (s : State), s.flag F.DOME_CTL_PATROL_EN p = true → line = s.h .domePatrol p →
      s.patrolTurn p (linePc line) = true →
      exec (.patrolRead p found) s =
        .next (((s.lineMove p line false).eccLine p line ((s.lineMove p line false).lineKnown p line) found 0 64).2.setH
          .domePatrol ((line + 1) % 2 ^ 25) p)) ∧
    (∀ (p : Nat) (v : Word) (s : State), RegId.defined .DOME_CTL v.toNat = true → exec (.srReqWrite p v) s =
      .next (s.domeCtlWrite p v)) ∧
    (∀ (p : Nat) (s : State), s.h .domeSr p = 1 → exec (.srEntryDone p) s =
      .next ((((s.domeDrop p).cacheClean p |>.setH .domeSr 2 p).srUpdate p).txnsAnswer p)) ∧
    (∀ (p : Nat) (s : State), s.h .domeSr p = 3 → exec (.srExitDone p) s = .next ((s.setH .domeSr 0 p).domeShow
      p)) ∧
    (∀ (p : Nat) (s : State), (¬ (s.hb .domeReady p)) → exec (.domeInitDone p) s = .next ((s.domeZero p |>.setH
      .domeReady 1 p).domeShow p)) ∧
    (∀ (p r : Nat) (v : Word) (s : State), RegId.defined .DOME_RING_CFG v.toNat = true → exec (.ringEnable p r v)
      s = .next (s.ringCfgWrite p r v)) ∧
    (∀ (p r : Nat) (v : Word) (s : State), RegId.defined .DOME_RING_CFG v.toNat = true → exec (.ringDisable p r
      v) s = .next (s.ringCfgWrite p r v)) ∧
    (∀ (p r : Nat) (s : State), s.flag F.DOME_RING_STAT_INIT p r → exec (.ringInitDone p r) s = .next
      ((s.ringZero p r).setFlag F.DOME_RING_STAT_INIT false p r)) ∧
    (∀ (p b : Nat) (s : State), exec (.bucketLeak p b) s = .next (s.setFld F.MEM_BKT_STAT_LEVEL (s.fld
      F.MEM_BKT_STAT_LEVEL p b - 1) p b)) ∧
    (∀ (p : Nat) (v : Word) (who : Requester) (s : State), RegId.defined .MEM_REMAP_ENTRY v.toNat = true → exec
      (.remapEntryWrite p v who) s = .next (s.remapWrite p v.toNat who)) ∧
    (∀ (p : Nat) (s : State), s.hb .remapPend p → exec (.remapCopyDone p) s = .next (s.setRegN .MEM_REMAP_ENTRY
      (s.h .remapPend p - 1) p (s.h .remapGroup p) (s.h .remapEntry p) |>.setH .remapPend 0 p |>.setFlag
      F.MEM_STAT_REMAP_BUSY false p |>.local p 475)) ∧
    (∀ (p k : Nat) (v : Word) (who : Requester) (s : State), exec (.keyW7Write p k v who) s = .next (s.keyW7 p k
      v who)) ∧
    (∀ (p k : Nat) (who : Requester) (s : State), exec (.keyStart p k who) s = .next (s.keyStart p k who)) ∧
    (∀ (p k : Nat) (s : State), s.keyState p k = 1 → exec (.keyInitDone p k) s = .next ((s.clearBytes (domeBase p
      + s.regN .MEM_KEY_BASE p k * 4096) (s.regN .MEM_KEY_PAGES p k * 4096) |>.setKeyState p k 2))) ∧
    (∀ (p k : Nat) (who : Requester) (s : State), exec (.keyRetire p k who) s = .next (s.keyRetire p k who)) ∧
    (∀ (p k : Nat) (s : State), (s.keyState p k = 4 ∧ s.h .keyChange p k = 0 ∧ ¬ s.keyBusy p k) → exec (.keyRetireDone p k) s =
      .next ((s.makeUndef (domeBase p + s.regN .MEM_KEY_BASE p k * 4096) (s.regN .MEM_KEY_PAGES p k * 4096)
      |>.makeUndef (domeBase p + s.regN .MEM_KEY_META p k * 64) (s.regN .MEM_KEY_MLINES p k * 64) |>.keyForget p k
      |>.setFlag F.MEM_KEY_STAT_KEY_SET false p k |>.setKeyState p k 0))) ∧
    (∀ (p k : Nat) (s : State), exec (.majorCounterChangeDone p k) s = .next (s.setH .keyChange (s.h .keyChange p
      k - 1) p k))

/-- O48, 06_accept_readout.md. Each of these commands answers a next state, from every state and operands that meet the
condition written before it, and the state is the one its rules give: COMPLETION_WRITE, DOORBELL_FETCH,
DESCRIPTOR_FETCH, RDO_NUDGE, DESC_ACCEPTED, DESC_NOP, DESC_ACCEPT, DESC_POST_BUF, DESC_STREAM_CTL,
GATE_STRM_CMD_DONE, DESC_DOME_READ, DESC_DOME_WRITE, DESC_HOLD_SET, EVENT_DELIVER, QP_ENABLE, QP_RECOVER_DONE,
QP_DISABLE, QP_ABORT, SSET_WRITE, RDO_EN_WRITE, ACC_PORT_WRITE, ACCEPT_JOURNALED, EVENT_BUILD_START,
STREAM_READY_TIME, READOUT_HOLD_TIMEOUT, DOME_RING_READ. -/
def Obligations.ReadoutAndQueueCommandsComplete : Prop :=
    (∀ (q : Nat) (s : State), exec (.completionWrite q) s = .next (s.cplNext q)) ∧
    (∀ (q : Nat) (tail head : Word) (s : State), exec (.doorbellFetch q tail head) s = .next (s.dbFetch q
      tail.toNat head.toNat)) ∧
    (∀ (q : Nat) (descs : List (List Word)) (s : State), s.qpState q = 1 → (s.qp q).failing = false →
      exec (.descriptorFetch q descs) s =
        .next (s.setQp q { s.qp q with
          fetched := (s.qp q).fetched ++ (descs.take (s.fetchRoom q)).map fun w => (⟨w, false, none, 0⟩ : QDesc) })) ∧
    (∀ (q : Nat) (s : State), exec (.rdoNudge q) s = .next (s.nudge q)) ∧
    (∀ (q : Nat) (s : State), exec (.descAccepted q) s = .next (s.descAccept q)) ∧
    (∀ (q : Nat) (seq : Word) (d : QDesc) (s : State), s.descReady q seq 0 = some d →
      exec (.descNop q seq) s = .next (s.descEnd q d 0 0 0)) ∧
    (∀ (q : Nat) (seq : Word) (d : QDesc) (s : State), s.descReady q seq 1 = some d →
      s.accIn.length + (s.events.filter fun e => !e.building).length < 1024 →
      exec (.descAccept q seq) s =
        .next (({ s with accIn := s.accIn ++ [(⟨(d.words.drop 4).take 8, some (q, seq), none⟩ : AccIn)] } : State).putDesc q
          { d with started := true })) ∧
    (∀ (q : Nat) (seq : Word) (d : QDesc) (s : State), s.descReady q seq 2 = some d →
      exec (.descPostBuf q seq) s = .next (s.putDesc q { d with started := true })) ∧
    (∀ (q : Nat) (seq : Word) (d : QDesc) (s : State), s.descReady q seq 3 = some d →
      exec (.descStreamCtl q seq) s = .next (s.descStream q d)) ∧
    (∀ (p : Nat) (s : State), exec (.gateStrmCmdDone p) s = .next (s.strmCmdDone p)) ∧
    (∀ (q : Nat) (seq : Word) (d : QDesc) (s : State), s.descReady q seq 4 = some d →
      exec (.descDomeRead q seq) s = .next (State.domeToHost q d (d.w 8 / 64) 0 s)) ∧
    (∀ (q : Nat) (seq : Word) (lines : List HostLine) (d : QDesc) (s : State), s.descReady q seq 5 = some d →
      lines.length = d.w 8 / 64 → exec (.descDomeWrite q seq lines) s = .next (State.hostToDome q d lines 0 s)) ∧
    (∀ (q : Nat) (seq : Word) (d : QDesc) (u s : State), s.descReady q seq 6 = some d →
      u = s.holdSetRing (d.w 4 / 256) (d.w 4) false (d.w 6 + d.w 7 * 2 ^ 32) →
      u.entAssured (d.w 4 / 256) (d.w 4 % 256) = false →
      exec (.descHoldSet q seq) s = .next (u.descEnd q d 0 0 0)) ∧
    (∀ (q : Nat) (s : State), exec (.eventDeliver q) s = .next (s.eventDeliver q)) ∧
    (∀ (q : Nat) (db : Option (List Word)) (s : State), exec (.qpEnable q db) s = .next ((s.qpEnable q db).setH .qpAsked 0 q)) ∧
    (∀ (q : Nat) (slots : List (List Word × List Word)) (s : State), exec (.qpRecoverDone q slots) s = .next
      (s.qpRecovered q slots)) ∧
    (∀ (q : Nat) (s : State), exec (.qpDisable q) s = .next (s.qpDisable q)) ∧
    (∀ (q : Nat) (descs : List (List Word)) (s : State), exec (.qpAbort q descs) s = .next ((s.qpAbort q descs).setH .qpAsked 0 q)) ∧
    (∀ (k w : Nat) (v : Word) (s : State), exec (.ssetWrite k w v) s = .next (s.ssetWrite k w v)) ∧
    (∀ (en : Bool) (s : State), exec (.rdoEnWrite en) s = .next (s.rdoEn en)) ∧
    (∀ (words : List Word) (whole : Bool) (s : State), exec (.accPortWrite words whole) s = .next ((s.accPort
      words whole none).2)) ∧
    (∀ (a : AccIn) (l : List AccIn) (u s : State), s.accIn = a :: l → s.jrnlOk = true →
      (s.events.filter fun e => !e.building).length < 1024 →
      u = (({ s with accIn := l } : State).accJournal a).rdoShow.jrnlWritten →
      exec .acceptJournaled s = .next (match a.req with | some (n, w) => u.prmAnswer n 120 w 0 0 false [] | none => u)) ∧
    (∀ (e : Event) (s : State), s.events.find? (fun e => !e.building) = some e →
      (s.events.filter fun e => e.building).length < 64 →
      exec .eventBuildStart s =
        .next (((s.onEvent e.num fun e => { e with building := true }).eventBuilt e.num).rdoShow)) ∧
    (∀ (num n : Nat) (s : State), exec (.streamReadyTime num n) s = .next (s.sectGather num n false)) ∧
    (∀ (num n : Nat) (s : State), exec (.readoutHoldTimeout num n) s = .next (s.sectGather num n true)) ∧
    (∀ (p r pn : Nat) (s : State), exec (.domeRingRead p r pn) s = .next (s.ringReadDone p r pn))

/-- O49, 07_admission.md, 17_telemetry_thermal.md. Each of these commands answers a next state, from every state and
operands that meet the condition written before it, and the state is the one its rules give: ADM_ADMIT, ADM_QUERY,
ADM_RELEASE, ADMIT_EFFECT, RELEASE_EFFECT, ADM_CFG_WRITE, RT_FLIT_SEND, RESERVATION_MOVE, ADM_RESTORE_DONE,
ALARM_RETRY, ALARM_RECORD_RX, ALARM_ACT_CLEAR, TEL_ALM_RAISE, LOG_SUBMIT, TRACE_SUBMIT, TEL_INTAKE_RECORD,
TEL_LOG_RD_WRITE, TEL_RING_ENABLE, PWR_TARGET_WRITE, PWR_CHANGE_DONE, SENSOR_SAMPLE, LIFE_MINUTE,
DOME_THERMAL_SAMPLE, CHANNEL_FAULT. -/
def Obligations.AdmissionTelemetryAndThermalCommandsComplete : Prop :=
    (∀ (i : Nat) (s : State), exec (.admAdmit i) s = .next (s.admAdmit i)) ∧
    (∀ (i : Nat) (s : State), exec (.admQuery i) s = .next (s.admQuery i)) ∧
    (∀ (i : Nat) (s : State), exec (.admRelease i) s = .next (s.admRelease i)) ∧
    (∀ (u s : State), u = s.keptEffect → u.hb .admPending = true → u.admDue = true →
      exec .admitEffect s = .next ((u.setH .admPending 0 |>.setRegN .ADM_CMD_EFF (u.h .admEffect)).admEnd 0
        (u.admFigures (u.h .admPending - 1)).1 (u.admFigures (u.h .admPending - 1)).2)) ∧
    (∀ (s : State), s.hb .admReleasing = true → s.admDue = true →
      exec .releaseEffect s = .next (((s.admFree (s.h .admReleasing - 1)).setH .admReleasing 0).admEnd 0
        (s.admFigures (s.h .admReleasing - 1)).1 (s.admFigures (s.h .admReleasing - 1)).2)) ∧
    (∀ (v : Word) (s : State), RegId.defined .ADM_CFG v.toNat = true → exec (.admCfgWrite v) s = .next
      (s.admCfgWrite v)) ∧
    (∀ (d sk sid : Nat) (formed delivered : Time) (s : State),
      (s.declFrom d sk sid = false → exec (.rtFlitSend d sk sid formed delivered) s = .next (s.addFld F.ADM_STRAY_COUNT 1)) ∧
      (∀ n o, s.declFrom d sk sid = true → s.flag F.ADM_STAT_RESTORE = false → s.ownSlot d formed = some (n, o) →
        later delivered (formed + BitVec.ofNat 64 ((s.useSlot n o).regN .ADM_D_W 0 d)) = false →
        exec (.rtFlitSend d sk sid formed delivered) s = .next (s.useSlot n o)) ∧
      (∀ n o, s.declFrom d sk sid = true → s.flag F.ADM_STAT_RESTORE = false → s.ownSlot d formed = some (n, o) →
        later delivered (formed + BitVec.ofNat 64 ((s.useSlot n o).regN .ADM_D_W 0 d)) = true →
        (s.useSlot n o).wasHeld formed = false →
        exec (.rtFlitSend d sk sid formed delivered) s = .next ((s.useSlot n o).addFld F.ADM_D_LATE_COUNT 1 0 d))) ∧
    (∀ (i : Nat) (d : Decl) (p : Plan) (s : State), tfind s.decls i = some d → d.next = some p →
      atOrAfter s.time (s.hTime .admMoveAt 0 i) = true →
      exec (.reservationMove i) s =
        .next ((({ s with decls := tput s.decls i (⟨d.words, { p with w := d.plan.w }, none⟩ : Decl) } : State).domeRate d.words
          d.plan.lines p.lines).setRegN .ADM_D_GAP p.gapWord 0 i).jrnlWritten) ∧
    (∀ (s : State), s.flag F.ADM_STAT_RESTORE = true →
      exec .admRestoreDone s = .next ((s.setFlag F.ADM_STAT_RESTORE false).setH .admRestored (s.time.toNat + 1)
        |>.setH .admKeptAt (s.admBoundary (s.inUnits (s.nsUnits 1000))))) ∧
    (∀ (n ty : Nat) (s : State), (s.bit .TEL_ALM_PEND (ty % 32) n (ty / 32) ∧ ¬ s.hb .almTaken n ty) → exec
      (.alarmRetry n ty) s = .next (s.alarmSend n ty)) ∧
    (∀ (n ty : Nat) (s : State), (¬ (s.h .almSent n ty = 0 ∨ s.hb .almTaken n ty)) → exec (.alarmRecordRx n ty) s
      = .next (((s.alarmRecord ty (s.h .almSent n ty) n (s.hTime .almTime n ty)).dropsRx (s.h .almDrops n
      ty)).setH .almTaken 1 n ty)) ∧
    (∀ (w : Nat) (v : Word) (s : State), exec (.alarmActClear w v) s = .next (s.alarmClear w v.toNat)) ∧
    (∀ (n : Nat) (v : Word) (s : State), RegId.defined .TEL_ALM_RAISE v.toNat = true → exec (.telAlmRaise n v) s
      = .next (s.almRaise n v.toNat)) ∧
    (∀ (n port : Nat) (words : List Word) (whole : Bool) (s : State), exec (.logSubmit n port words whole) s =
      .next (s.telSubmit n port false words whole)) ∧
    (∀ (n port : Nat) (words : List Word) (whole : Bool) (s : State), exec (.traceSubmit n port words whole) s =
      .next (s.telSubmit n port true words whole)) ∧
    (∀ (n : Nat) (s : State), exec (.telIntakeRecord (some n)) s = .next (s.telSend n) ∧
      exec (.telIntakeRecord none) s = .next s.telTake) ∧
    (∀ (trace : Bool) (v : Word) (s : State), exec (.telLogRdWrite trace v) s = .next (s.telRdWrite trace
      v.toNat)) ∧
    (∀ (v : Word) (s : State), RegId.defined .TEL_CTL v.toNat = true → exec (.telRingEnable v) s = .next
      (s.telCtlWrite v.toNat)) ∧
    (∀ (p : Nat) (v : Word) (who : Requester) (s : State), RegId.defined .THM_PWR_CTL v.toNat = true → exec
      (.pwrTargetWrite p v who) s = .next (s.pwrWrite p v.toNat who)) ∧
    (∀ (p : Nat) (s : State), exec (.pwrChangeDone p) s = .next (s.pwrDone p)) ∧
    (∀ (p : Nat) (readings : List Int) (s : State), exec (.sensorSample p readings) s =
      .next (if p < 32 then s.sensorSample p readings else s.follySample (p - 32) readings)) ∧
    (∀ (p : Nat) (s : State),
      (signed 32 (s.h .thmCtl p) ≤ 340 → exec (.lifeMinute p) s = .next s) ∧
      (340 < signed 32 (s.h .thmCtl p) → signed 32 (s.h .thmCtl p) ≤ 400 →
        exec (.lifeMinute p) s = .next (s.satFld F.THM_LIFE_85_MIN 1 p)) ∧
      (400 < signed 32 (s.h .thmCtl p) →
        exec (.lifeMinute p) s = .next ((s.satFld F.THM_LIFE_85_MIN 1 p).satFld F.THM_LIFE_100_MIN 1 p))) ∧
    (∀ (p : Nat) (s : State), exec (.domeThermalSample p) s = .next (s.domeThermal p)) ∧
    (∀ (p c : Nat) (s : State), c < 8 → exec (.channelFault p c) s = .next (s.channelFault p c))

/-- O50, 08_spire.md, 09_task_scheduler.md. Each of these commands answers a next state, from every state and operands
that meet the condition written before it, and the state is the one its rules give: SPR_START_WRITE, SPR_CLRF0,
SPR_CLRF1, SPR_EN_WRITE, DMA_GO, DMA_ABORT, BUNDLE_ISSUE, AMO_RESPONSE, SPR_LOAD_DONE, IREFETCH_DONE,
DMA_PACKET_DONE, LAUNCH_SPIRE_START, LAUNCH_TSK_POST, WAIT_CONDITION_MET, WAITT_TIME_REACHED,
SPIRE_RESERVATION_EXPIRY, NORMAL_EVENT_TAKEN, SPR_LOAD, CPL_FIFO_READ, TSK_REG_COMMIT, TSK_PORT_WRITE, TSK_POST,
TSK_DELAY, TSK_CANCEL, DELAY_READY, TSK_CTL_WRITE, TSK_FLOW_WRITE, TSK_CANCEL_ALL, CANCEL_ALL_DONE, LDG_DONE_WRITE,
TASK_DISPATCH, MAILBOX_WRITE_DONE, SPR_CRST. -/
def Obligations.SpireAndTaskCommandsComplete : Prop :=
    (∀ (p k : Nat) (v : Word) (s : State), RegId.defined .SPR_START v.toNat = true → exec (.sprStartWrite p k v)
      s = .next (s.sprStartWrite p k v.toNat)) ∧
    (∀ (p k : Nat) (s : State), exec (.sprClrf0 p k) s = .next (s.sprClrf p k 0)) ∧
    (∀ (p k : Nat) (s : State), exec (.sprClrf1 p k) s = .next (s.sprClrf p k 1)) ∧
    (∀ (p k : Nat) (en : Bool) (s : State), exec (.sprEnWrite p k en) s = .next (s.sprEn p k en)) ∧
    (∀ (p k c : Nat) (v : Word) (s : State), RegId.defined .SPR_DMA_CTL v.toNat = true → exec (.dmaGo p k c v) s
      = .next (s.dmaCtlWrite p k c (setBit v.toNat 0 true))) ∧
    (∀ (p k c : Nat) (s : State), exec (.dmaAbort p k c) s = .next (s.dmaStop p k c)) ∧
    (∀ (p k x stall : Nat) (par : Option Nat) (a : SOp) (b : VOp) (u s : State), s.issuer p k = some x →
      u = s.addFld F.SPR_STALL_CNT_COUNT stall p k → u.haltBefore p k x = 0 → u.issueOf p k x par = .run a b →
      a.undefinedCsr (u.ctx p k x) = false → (∀ fn rd ra rb, a ≠ .amo fn rd ra rb) →
      exec (.bundleIssue p k false par stall) s = .next (u.bundleRun p k x a b 0)) ∧
    (∀ (p k x status : Nat) (v : Word) (s : State), exec (.amoResponse p k x status v) s = .next (s.amoResponse p
      k x status v)) ∧
    (∀ (p k : Nat) (s : State), exec (.sprLoadDone p k) s = .next (s.sprLoadDone p k)) ∧
    (∀ (p k x n : Nat) (bs : List Byte) (u s : State), (s.ctx p k x).refetch = true → n = (s.ctx p k x).pc / 8 →
      (s.imgLine p k n).1 = some bs →
      u = (((s.imgLine p k n).2.addFld F.SPR_IREFETCH_CNT_COUNT 1 p k |>.setCtx p k x
        { s.ctx p k x with refetch := false })) →
      (crc32c bs).toNat = u.h .imemCrc p k n →
      ((u.stBytes (imemBase p k + 64 * n) bs).sramCorrected p).issuer p k ≠ some x →
      exec (.irefetchDone p k x) s = .next ((u.stBytes (imemBase p k + 64 * n) bs).sramCorrected p)) ∧
    (∀ (p k c n status : Nat) (poison : Bool) (data : List Byte) (s : State), exec (.dmaPacketDone p k c n status
      poison data) s = .next (s.dmaPacket p k c n status poison data)) ∧
    (∀ (p q : Nat) (s : State), ∃ f : LqEntry → State → Bool × State,
      (∀ (e : LqEntry) (u : State), (f e u).1 = true →
        (f e u).2 = u.sprStart p (bitsOf (e.param 0) 0 3) (bitsOf (e.param 0) 3 1) (bitsOf (e.param 1) 0 16)
          [BitVec.ofNat 32 (e.param 2)]) ∧
      (∀ (e : LqEntry) (u : State), (f e u).1 = false → (f e u).2 = u) ∧
      exec (.launchSpireStart p q) s = .next (s.lqLaunch p q 1 f)) ∧
    (∀ (p q : Nat) (s : State), ∃ f : LqEntry → State → Bool × State,
      (∀ (e : LqEntry) (u : State), (u.portClosed p 115 = true ∨ 2 ≤ u.power p) → f e u = (false, u)) ∧
      (∀ (e : LqEntry) (u : State), u.portClosed p 115 = false → u.power p < 2 →
        f e u = ((u.tskCommand p (tskRecord 1 0 (bitsOf (e.param 0) 0 10) (e.param 1) (e.param 2) 0)).1 == 0,
          (u.tskCommand p (tskRecord 1 0 (bitsOf (e.param 0) 0 10) (e.param 1) (e.param 2) 0)).2.2)) ∧
      exec (.launchTskPost p q) s = .next (s.lqLaunch p q 2 f)) ∧
    (∀ (p k x : Nat) (s : State), s.ctxState p k x = 2 → (s.ctx p k x).waitMask ≠ 0 →
      s.waitHolds p k (s.ctx p k x).waitMask = true → exec (.waitConditionMet p k x) s = .next (s.waitEnd p k x)) ∧
    (∀ (p k x : Nat) (s : State), s.ctxState p k x = 2 → (s.ctx p k x).waitMask = 0 →
      atOrAfter (s.pavTime p) (s.ctx p k x).waitTime = true →
      exec (.waittTimeReached p k x) s = .next (s.waitEnd p k x)) ∧
    (∀ (p k x : Nat) (s : State), exec (.spireReservationExpiry p k x) s = .next (s.setCtx p k x { s.ctx p k x
      with rsv := none })) ∧
    (∀ (p k : Nat) (s : State), (s.ctxState p k 0 = 1 ∨ s.ctxState p k 0 = 2) → (s.ctx p k 0).eie = true →
      (s.ctx p k 0).amo = false → (s.evNext p k 0).isSome = true →
      exec (.normalEventTaken p k) s =
        .next ((s.setCtx p k 0 { s.ctx p k 0 with
          epc := (s.ctx p k 0).pc, eie := false, inEvt := true, pc := s.fld F.SPR_VEC_NORMAL p k, refetch := false,
          waitMask := 0 }).setCtxState p k 0 1)) ∧
    (∀ (p k : Nat) (s : State), exec (.sprLoad p k) s = .next (s.sprLoad p k)) ∧
    (∀ (p : Nat) (s : State), exec (.cplFifoRead p) s = .next ((s.cplPop p).2)) ∧
    (∀ (p : Nat) (v : Word) (s : State), exec (.tskRegCommit p v) s = .next (s.tskRegCommit p v)) ∧
    (∀ (p : Nat) (words : List Word) (whole : Bool) (s : State), exec (.tskPortWrite p words whole) s = .next
      ((s.tskPort p words whole).2)) ∧
    (∀ (p flow : Nat) (word arg : Word) (s : State), exec (.tskPost p flow word arg) s = .next ((s.tskCommand p
      (tskRecord 1 0 (flow % 1024) word.toNat arg.toNat 0)).2.2)) ∧
    (∀ (p flow : Nat) (word arg : Word) (time : Time) (s : State), exec (.tskDelay p flow word arg time) s =
      .next ((s.tskCommand p (tskRecord 2 0 (flow % 1024) word.toNat arg.toNat time)).2.2)) ∧
    (∀ (p flow tag : Nat) (pcancel : Bool) (s : State), exec (.tskCancel p flow tag pcancel) s = .next
      ((s.tskCommand p (tskRecord 3 (b2n pcancel) (flow % 1024) (tag % 65536) 0 0)).2.2)) ∧
    (∀ (p : Nat) (s : State),
      ((s.tu p).delayed.filter fun t => atOrAfter (s.pavTime p) t.due) ≠ [] →
      ∃ t, exec (.delayReady p) s = .next t ∧
        (t.tu p).delayed.length < (s.tu p).delayed.length ∧ (s.tu p).ready.length < (t.tu p).ready.length) ∧
    (∀ (p : Nat) (v : Word) (s : State), RegId.defined .TSK_CTL v.toNat = true → exec (.tskCtlWrite p v) s =
      .next (s.tskCtlWrite p v.toNat)) ∧
    (∀ (p f : Nat) (v : Word) (s : State), RegId.defined .TSK_FLOW v.toNat = true → exec (.tskFlowWrite p f v) s
      = .next (s.tskFlowWrite p f v.toNat)) ∧
    (∀ (p f : Nat) (s : State), exec (.tskCancelAll p f) s = .next (s.tskCancelAll p (f % 1024))) ∧
    (∀ (p : Nat) (s : State), exec (.cancelAllDone p) s = .next (s.setFlag F.TSK_FLOW_CMD_STAT_BUSY false p)) ∧
    (∀ (p : Nat) (s : State), exec (.ldgDoneWrite p) s = .next (s.ldgDone p)) ∧
    (∀ (p : Nat) (s : State), exec (.taskDispatch p) s = .next (s.tskDispatch p)) ∧
    (∀ (p t a : Nat) (bs : List Byte) (s : State), (s.tu p).mbox.find? (fun m => m.1 == t) = some (t, a, bs) →
      ∃ u, exec (.mailboxWriteDone p t) s = .next u ∧ (u.tu p).mbox = (s.tu p).mbox.erase (t, a, bs) ∧
        u.mem = memSetList s.mem a bs) ∧
    (∀ (p k : Nat) (s : State), exec (.sprCrst p k) s = .next (s.sprCrst p k))

/-- O51, 10_event_controller.md. Each of these commands answers a next state, from every state and operands that meet
the condition written before it, and the state is the one its rules give: EVC_ARBITRATION, COAL_TIMER_EXPIRY,
EVC_ACK_READ, EVC_EOI, STK_CLR, EVC_HOLD_SET, EVC_HOLD_RELEASE, EVC_SWRAISE, EVC_PEND_WRITE, FALLBACK_TIMEOUT,
MSIX_VECTOR_UNMASK. -/
def Obligations.EventCommandsComplete : Prop :=
    (∀ (c : Nat) (s : State), exec (.evcArbitration c) s = .next (s.evArbitrate c)) ∧
    (∀ (c g : Nat) (s : State), atOrAfter s.time (s.hTime .evcExpiry c g) → exec (.coalTimerExpiry c g) s = .next
      (s.timerExpire c g)) ∧
    (∀ (c t cls : Nat) (s : State), exec (.evcAckRead c t cls) s = .next (s.ackTake c t cls)) ∧
    (∀ (c t cls : Nat) (s : State), exec (.evcEoi c t cls) s = .next (s.eoi c t cls)) ∧
    (∀ (c t : Nat) (s : State), exec (.stkClr c t) s = .next (s.stkClear c t)) ∧
    (∀ (c : Nat) (s : State), exec (.evcHoldSet c) s = .next (s.holdSet c)) ∧
    (∀ (c : Nat) (s : State), exec (.evcHoldRelease c) s = .next (s.holdRelease c)) ∧
    (∀ (c : Nat) (v : Word) (s : State), RegId.defined (if c < 32 then .EVC_SWRAISE else .HEVC_SWRAISE) v.toNat = true →
      exec (.evcSwraise c v) s = .next (s.raise c (v.toNat % evSources c))) ∧
    (∀ (c w : Nat) (v : Word) (s : State), exec (.evcPendWrite c w v) s = .next (s.pendWrite c w v)) ∧
    (∀ (c g : Nat) (s : State), exec (.fallbackTimeout c g) s = .next (s.fallback c g)) ∧
    (∀ (f : Nat) (entry : Option (Nat × DWord × Word)) (s : State), exec (.msixVectorUnmask f entry) s = .next
      (s.msixUnmask f entry))

/-- O52, 12_promenade.md, 13_lartum_annex.md. Each of these commands answers a next state, from every state and operands
that meet the condition written before it, and the state is the one its rules give: ANX_EN_WRITE,
ANX_BACKOFF_EXPIRY, ANX_TRAINING_DONE, ANX_PARAM_DONE, ANX_IDENT_RESPONSE, ANX_IDENT_TIMEOUT, ANX_LINK_LOSS,
ANX_PACKET_IN, LRT_BACKOFF_EXPIRY, LRT_DETECT_LOCK, LANE_TEST_DONE, FRAME_LOCK_LOSS, LCTL_ADVERTISE, LCTL_CHECK,
LANE_FAILING, LCTL_SWAP_REQ, LCTL_SWAP_ACK, LRT_DATA_FRAME_RX, LCTL_IDLE, LCTL_NAK, LCTL_RESEND_TIMER, LRT_EN_WRITE,
LRT_RETRAIN, LRT_WIDEN, LRT_PRST, LINK_ARBITRATION, RETRY_REINJECT, PACKET_FORWARD, LINK_STATE_PACKET, PRM_RD_DATA,
PRM_WR_ACK, PRM_AT_DATA, REQ_TIMEOUT, FENCE_REQUEST, FENCE_RELEASE, FENCE_DRAINED, FENCE_TMO_EXPIRY, ISO_MASK_WRITE,
LAUNCH_PRM_SEND, LINE_RESERVATION_EXPIRY. -/
def Obligations.NetworkAndLinkCommandsComplete : Prop :=
    (∀ (a : Nat) (v : Word) (s : State), RegId.defined .ANX_CFG v.toNat = true → exec (.anxEnWrite a v) s = .next
      (s.anxCfgWrite a v)) ∧
    (∀ (a : Nat) (s : State), (s.anxFollow a).anxState a = 2 → (s.anxFollow a).flag F.ANX_CFG_EN 0 a = true →
      exec (.anxBackoffExpiry a) s = .next (((s.anxFollow a).satFld F.ANX_STAT_ATTEMPTS 1 0 a).setAnx a 3)) ∧
    (∀ (a rate : Nat) (s : State), s.anxState a = 3 → exec (.anxTrainingDone a rate) s = .next ((s.setFld
      F.ANX_STAT_RATE (min rate (s.fld F.ANX_CFG_MAX_RATE 0 a)) 0 a).setAnx a 4)) ∧
    (∀ (a : Nat) (s : State), s.anxState a = 4 → exec (.anxParamDone a) s = .next (s.setAnx a 5)) ∧
    (∀ (a : Nat) (w0 w1 w2 w3 : Word) (s : State), s.anxState a = 5 →
      exec (.anxIdentResponse a w0 w1 w2 w3) s =
        .next (((((s.setRegN .ANX_ID_W w0.toNat 0 a 0 |>.setRegN .ANX_ID_W w1.toNat 0 a 1
          |>.setRegN .ANX_ID_W w2.toNat 0 a 2 |>.setRegN .ANX_ID_W w3.toNat 0 a 3).setFld F.ANX_STAT_ATTEMPTS 0 0 a).setAnx a
            6).isolate (annexNode a) false).capacityBack)) ∧
    (∀ (a : Nat) (s : State), s.anxState a = 5 → exec (.anxIdentTimeout a) s = .next (s.setAnx a 2)) ∧
    (∀ (a : Nat) (s : State), exec (.anxLinkLoss a) s = .next (s.anxDown a)) ∧
    (∀ (a : Nat) (pkt : List Word) (s : State), exec (.anxPacketIn a pkt) s = .next (s.anxPacket a pkt)) ∧
    (∀ (n l : Nat) (s : State), exec (.lrtBackoffExpiry n l) s = .next (s.lrtDetect n l)) ∧
    (∀ (n l : Nat) (s : State), s.lrtState n l = 1 → exec (.lrtDetectLock n l) s = .next (s.setLrt n l 2)) ∧
    (∀ (n l pass : Nat) (s : State), exec (.laneTestDone n l pass) s = .next (s.laneTest n l pass)) ∧
    (∀ (n l : Nat) (s : State), (¬ (s.lrtState n l = 0)) → exec (.frameLockLoss n l) s = .next (s.lrtDown n l)) ∧
    (∀ (n l lanes cap next : Nat) (s : State), exec (.lctlAdvertise n l lanes cap next) s = .next (s.advertise n
      l lanes cap next)) ∧
    (∀ (n l width lanes : Nat) (s : State), exec (.lctlCheck n l width lanes) s = .next (s.lrtCheck n l width
      lanes)) ∧
    (∀ (n l : Nat) (lanes : List Nat) (s : State), exec (.laneFailing n l lanes) s = .next (s.lanesFail n l
      lanes)) ∧
    (∀ (n l f spare : Nat) (s : State), exec (.lctlSwapReq n l f spare) s = .next (s.swapReq n l f spare)) ∧
    (∀ (n l first : Nat) (w : LrtSwap) (s : State), (s.side n l).swap = some w →
      exec (.lctlSwapAck n l first) s =
        .next (s.setSide n l { s.side n l with swap := some { w with first := some (first % 256) }, ctl := 0 })) ∧
    (∀ (n l : Nat) (frame : LrtFrame) (s : State), exec (.lrtDataFrameRx n l frame) s = .next (s.frameRx n l
      frame)) ∧
    (∀ (n l ack : Nat) (s : State), exec (.lctlIdle n l ack) s = .next (s.setSide n l ((s.side n l).ackTo (ack +
      1)))) ∧
    (∀ (n l seq : Nat) (par : Bool) (s : State), exec (.lctlNak n l seq par) s =
      .next (if par ∧ n < 32 ∧ s.lrtState n l = 5 then (s.sramCorrected n).nak n l seq else s.nak n l seq)) ∧
    (∀ (n l : Nat) (s : State), exec (.lctlResendTimer n l) s = .next (s.ctlResend n l)) ∧
    (∀ (n l : Nat) (en : Bool) (who : Requester) (s : State), exec (.lrtEnWrite n l en who) s = .next
      (s.lrtCtlWrite n l (b2n en) who)) ∧
    (∀ (n l : Nat) (who : Requester) (s : State), exec (.lrtRetrain n l who) s = .next (s.lrtCtlWrite n l (b2n
      (s.flag F.LRT_LINK_CTL_EN n l) + 2) who)) ∧
    (∀ (n l : Nat) (who : Requester) (s : State), exec (.lrtWiden n l who) s = .next (s.lrtCtlWrite n l (b2n
      (s.flag F.LRT_LINK_CTL_EN n l) + 4) who)) ∧
    (∀ (n l : Nat) (who : Requester) (s : State), exec (.lrtPrst n l who) s = .next (s.lrtCtlWrite n l (b2n
      (s.flag F.LRT_LINK_CTL_EN n l) + 8) who)) ∧
    (∀ (n o : Nat) (s : State), exec (.linkArbitration n o) s = .next (s.arbitrate n o)) ∧
    (∀ (n e : Nat) (s : State), exec (.retryReinject n e) s = .next (s.reinject n e)) ∧
    (∀ (n i cls row : Nat) (s : State), exec (.packetForward n i cls none) s = .next (s.forwardOn n i cls) ∧
      exec (.packetForward n i cls (some row)) s = .next ((s.bufParity n i cls row).forwardOn n i cls)) ∧
    (∀ (n p e : Nat) (up : Bool) (s : State), exec (.linkStatePacket n p e up) s = .next (s.setH .linkDown (b2n
      !up) n p e |>.setH .linkDown (b2n !up) n (neighbour p e) (opposite e))) ∧
    (∀ (pkt : List Word) (s : State), exec (.prmRdData pkt) s = .next (s.prmResponse pkt)) ∧
    (∀ (pkt : List Word) (s : State), exec (.prmWrAck pkt) s = .next (s.prmResponse pkt)) ∧
    (∀ (pkt : List Word) (s : State), exec (.prmAtData pkt) s = .next (s.prmResponse pkt)) ∧
    (∀ (n port tag : Nat) (s : State), (s.pReq n).contains (port, tag) → exec (.reqTimeout n port tag) s = .next
      (((s.setPReq n ((s.pReq n).erase (port, tag))).prmCount F.PRM_TMO_CNT_COUNT n).prmCount
      F.PRM_ERR_RSP_CNT_COUNT n)) ∧
    (∀ (p : Nat) (v : Word) (s : State), RegId.defined .PRM_FENCE_CTL v.toNat = true → exec (.fenceRequest p v) s
      = .next (s.fenceWrite p v.toNat)) ∧
    (∀ (p : Nat) (v : Word) (s : State), RegId.defined .PRM_FENCE_CTL v.toNat = true → exec (.fenceRelease p v) s
      = .next (s.fenceWrite p v.toNat)) ∧
    (∀ (p q : Nat) (s : State),
      (s.fld F.PRM_STAT_FENCE p = 1 → s.drained p (s.inScope p) = true → s.transitEmpty p = true →
        exec (.fenceDrained p none) s = .next (s.setFence p 2)) ∧
      (s.h .plotFence p q = 1 → s.drained p (plotPort q) = true →
        exec (.fenceDrained p (some q)) s = .next (s.plotFenced p q))) ∧
    (∀ (p q : Nat) (s : State),
      (s.fld F.PRM_STAT_FENCE p = 1 →
        exec (.fenceTmoExpiry p none) s = .next ((s.fenceTmo p (s.inScope p)).setFence p 2)) ∧
      (s.h .plotFence p q = 1 →
        exec (.fenceTmoExpiry p (some q)) s = .next ((s.fenceTmo p (plotPort q)).plotFenced p q))) ∧
    (∀ (p : Nat) (hi : Bool) (v : Word) (who : Requester) (s : State),
      (hi = true → RegId.defined .PRM_ISO (v.toNat * 2 ^ 32) = true) →
      exec (.isoMaskWrite p hi v who) s = .next (s.isoWrite p hi v who)) ∧
    (∀ (h q : Nat) (s : State), exec (.launchPrmSend h q) s = .next (s.launchPrmSend h q)) ∧
    (∀ (t node port : Nat) (s : State), exec (.lineReservationExpiry t node port) s = .next (s.resvDrop t node
      port))

/-- O53, 14_configuration.md. Each of these commands answers a next state, from every state and operands that meet the
condition written before it, and the state is the one its rules give: LOAD_GO_FULL, LOAD_GO_PAV_RELOAD, LOAD_ERROR,
LOAD_BACKOFF_EXPIRY, LOAD_HEADER_DONE, LOAD_SECTIONS_DONE, LOAD_START_TIME, VERIFIER_PASS_START,
VERIFIER_FRAME_READ, VER_EN_WRITE, VERIFIER_VOTE_MISMATCH, PLOT_GO, PLOT_LOAD_ERROR, PLOT_SECTION_DONE,
PLOT_START_DONE. -/
def Obligations.ConfigurationCommandsComplete : Prop :=
    (∀ (v : Word) (who : Requester) (s : State), RegId.defined .CFG_LOAD_CTL v.toNat = true → exec (.loadGoFull v
      who) s = .next (s.loadCtlWrite v.toNat who)) ∧
    (∀ (v : Word) (who : Requester) (s : State), RegId.defined .CFG_LOAD_CTL v.toNat = true → exec
      (.loadGoPavReload v who) s = .next (s.loadCtlWrite v.toNat who)) ∧
    (∀ (code sect : Nat) (s : State), (s.loadState = 1 ∨ s.loadState = 2) → exec (.loadError code sect) s = .next
      (s.loadFail code sect)) ∧
    (∀ (s : State), s.loadState = 5 → exec .loadBackoffExpiry s = .next s.loadAttempt) ∧
    (∀ (w1 : Word) (nsect : Nat) (u s : State), s.loadState = 1 →
      u = s.setRegN .CFG_IMG_INFO (w1.toNat % 2 ^ 13 + nsect % 512 * 2 ^ 16) → u.headerError w1.toNat nsect = 0 →
      exec (.loadHeaderDone w1 nsect) s =
        .next ((foldS (fun (e : Nat × Nat) s => if s.hb .plotFence e.1 e.2 then s.plotFenced e.1 e.2 else s) u.loadPlots
          u).setLoad 2)) ∧
    (∀ (sects : List ImgSect) (u v s : State), s.loadState = 2 → s.firstBad (s.h .loadMask) 0 sects = none →
      coverage (s.h .loadMask) sects = true →
      u = (foldS (fun x t => t.writeSect (s.h .loadMask) x) sects s).storedBytes sects →
      v = (foldS (fun (e : Nat × Nat) t => (t.frameTable e.1 e.2).setPlot e.1 e.2 3) u.loadPlots u).initApply →
      exec (.loadSectionsDone sects) s = .next ((v.setH .loadTs v.startTime).setLoad 3)) ∧
    (∀ (s : State), s.loadState = 3 → atOrAfter s.time (s.hTime .loadTs) = true →
      ∃ t, exec .loadStartTime s = .next t ∧ t.loadState = 4 ∧ t.regN .CFG_LOAD_START_TIME = s.h .loadTs % 2 ^ 64) ∧
    (∀ (p n : Nat) (s : State), s.verState p = 2 → s.flag F.CFG_VER_CTL_EN p = true →
      exec (.verifierPassStart p false n) s = .next ((s.setFld F.CFG_VER_STAT_STATE 1 p).verGoto p 0)) ∧
    (∀ (p n : Nat) (stuck : Bool) (s : State), s.verState p = 1 → s.verFrom p (s.h .verNext p) = some n →
      exec (.verifierFrameRead p none stuck) s = .next (s.verGoto p (n + 1))) ∧
    (∀ (p : Nat) (v : Word) (s : State), RegId.defined .CFG_VER_CTL v.toNat = true → exec (.verEnWrite p v) s =
      .next (s.verCtlWrite p v.toNat)) ∧
    (∀ (p : Nat) (s : State), exec (.verifierVoteMismatch p) s = .next (s.addFld F.CFG_VER_VOTE_CNT_COUNT 1 p)) ∧
    (∀ (p q : Nat) (s : State), exec (.plotGo p q) s = .next (s.plotGo p q)) ∧
    (∀ (p q code : Nat) (s : State), s.fld F.CFG_PLOT_STAT_STATE p q = 2 → exec (.plotLoadError p q code) s =
      .next (s.plotFail p q code)) ∧
    (∀ (p q : Nat) (x : ImgSect) (fs) (s : State), s.fld F.CFG_PLOT_STAT_STATE p q = 2 → s.plotSrcError p q = false →
      (s.cfgGet p (64 * s.fld F.CFG_PLOT_SRC_BASE p q) (s.regN .CFG_PLOT_LEN p q)).1.isSome = true →
      sectFrames x = some fs → x.kind = 1 → x.plots % 16 = 2 ^ q → bitOf x.targets p = true →
      exec (.plotSectionDone p q x) s =
        .next ((((s.cfgGet p (64 * s.fld F.CFG_PLOT_SRC_BASE p q) (s.regN .CFG_PLOT_LEN p q)).2.writePlot p q fs).frameTable
          p q).setPlot p q 3)) ∧
    (∀ (p q : Nat) (s : State), (s.fld F.CFG_PLOT_STAT_STATE p q = 3 ∧ ¬ s.loadingPav p) → exec (.plotStartDone p
      q) s = .next ((s.plotStart p q).capacityBack))

/-- O54, 16_lodge_recovery.md, 20_debug.md (R486). Each of these commands answers a next state, from every state and
operands that meet the condition written before it, and the state is the one its rules give: LODGE_FAST_ENTRY,
LODGE_NORMAL_INTERRUPT, LODGE_INSTRUCTION, DBG_STEP, WATCHDOG_KICK, LDG_CORE_RESET, WATCHDOG_EXPIRY,
LODGE_BOOT_DONE, LODGE_BOOT_FAIL, LODGE_BACKOFF_EXPIRY, LODGE_REBOOT_TIMEOUT, RING_BYPASS, HEARTBEAT_SEND,
HEARTBEAT_RX, HEARTBEAT_TIMEOUT, ELECTION_MSG, ELECTION_ANNOUNCE, PRESIDE_START, JOURNAL_ENTRY_WRITE,
JOURNAL_ENTRY_HELD, DEPUTY_COPY_DONE, SAFE_HOLD_ENTER, SELF_TEST_DONE, TOWER_FAULT, SPIRE_RESET_TIMEOUT, POR_N_LOW,
KEEP_RAIL_LOW, POWER_ON_RELEASE, RST_N_LOW, JTAG_COLD_RESET, UNLOCK_ERASE_DONE, WRST_N_LOW, LDG_RST_WARM,
LDG_RST_COLD, SUB_GO, SUB_CANCEL, SUB_STEP_DONE. -/
def Obligations.LodgeAndResetCommandsComplete : Prop :=
    (∀ (x : Nat) (s : State), s.lodgeReady x = true → (s.lodge x).fie = true → (s.lodge x).inFast = false →
      s.lodgeOffered x 1 = true →
      ∃ t, exec (.lodgeFastEntry x) s = .next t ∧ (t.lodge x).pc = ((s.lodge x).c 0x7c2).toNat ∧
        (t.lodge x).inFast = true) ∧
    (∀ (x : Nat) (s : State), s.lodgeReady x = true → (s.lodge x).inFast = false → s.lodgeOffered x 0 = true →
      bitOf ((s.lodge x).c 0x304).toNat 11 = true → bitOf ((s.lodge x).c 0x300).toNat 3 = true →
      exec (.lodgeNormalInterrupt x) s = .next ((s.setH .lodgeWfi 0 x).lodgeTrap x (2 ^ 31 + 11) 0)) ∧
    (∀ (x pc ins next cycles : Nat) (f0 f1 fd : Word) (ext : Option Word) (v : Option Word) (s : State),
      s.lodgeRuns x = true → s.lodgeHalted x = false → s.hb .lodgeWfi x = false → s.h .haltReq x 8 0 = 0 →
      s.lodgeBreak x = false →
      (s.setLodge x ((s.lodge x).tick cycles)).lodgeFetch x (s.lodge x).pc f0 f1 = some (ins, 4) →
      ins % 128 ∉ [0x73, 0x03, 0x23, 0x2f] →
      (((s.lodge x).tick cycles)).arith ins (((s.lodge x).pc + 4) % 2 ^ 32) = some (v, next) → pc = next →
      ∃ t, exec (.lodgeInstruction x f0 f1 fd ext cycles none) s = .next t ∧ (t.lodge x).pc = pc ∧
        (∀ w, v = some w → bitsOf ins 7 5 ≠ 0 → (t.lodge x).r (bitsOf ins 7 5) = w) ∧ t.mem = s.mem) ∧
    (∀ (w i x : Nat) (v : Word) (par : Option Nat) (f0 f1 fd : Word) (ext : Option Word) (cycles : Nat) (a : SOp) (b : VOp)
      (o u s : State), i < 8 → RegId.defined .DBG_CORE_CTL v.toNat = true → s.dbgLocked = false → v.toNat % 8 = 4 →
      x = bitsOf v.toNat 3 1 → o = s.setRegN .DBG_CORE_CTL (v.toNat &&& 0x38) w i → o.ctxState w i x = 4 →
      u = o.ctxUnhalt w i x → u.ctxState w i x ≠ 0 →
      ((o.ctx w i x).haltFrom ≠ 2 → u.issueOf w i x par = .run a b → a.undefinedCsr (u.ctx w i x) = false →
        (∀ fn rd ra rb, a ≠ .amo fn rd ra rb) →
        exec (.dbgStep w i v false par f0 f1 fd ext cycles) s = .next ((u.bundleRun w i x a b 0).stepEnd w i x)) ∧
      ((o.ctx w i x).haltFrom = 2 → (o.ctx w i x).waitMask ≠ 0 →
        exec (.dbgStep w i v false par f0 f1 fd ext cycles) s =
          .next ((if u.waitHolds w i (o.ctx w i x).waitMask then u.waitEnd w i x else u).stepEnd w i x))) ∧
    (∀ (x pc ins next cycles : Nat) (v f0 f1 fd : Word) (ext : Option Word) (d : Option Word) (u s : State),
      RegId.defined .DBG_CORE_CTL v.toNat = true → s.dbgLocked = false → v.toNat % 8 = 4 → s.lodgeHalted x = true →
      u = (s.setRegN .DBG_CORE_CTL (v.toNat &&& 0x38) x 8).lodgeStep x → u.lodgeRuns x = true →
      (u.setLodge x ((u.lodge x).tick cycles)).lodgeFetch x (u.lodge x).pc f0 f1 = some (ins, 4) →
      ins % 128 ∉ [0x73, 0x03, 0x23, 0x2f] →
      (((u.lodge x).tick cycles)).arith ins (((u.lodge x).pc + 4) % 2 ^ 32) = some (d, next) → pc = next →
      ∃ t, exec (.dbgStep x 8 v false none f0 f1 fd ext cycles) s = .next t ∧ (t.lodge x).pc = pc ∧
        t.lodgeHalted x = true ∧ (∀ w, d = some w → bitsOf ins 7 5 ≠ 0 → (t.lodge x).r (bitsOf ins 7 5) = w) ∧
        t.mem = s.mem) ∧
    (∀ (w i : Nat) (v : Word) (ipar : Bool) (par : Option Nat) (f0 f1 fd : Word) (ext : Option Word) (cycles : Nat)
      (s : State), RegId.defined .DBG_CORE_CTL v.toNat = true → s.dbgLocked = true →
      exec (.dbgStep w i v ipar par f0 f1 fd ext cycles) s = .next (s.setFlag F.DBG_CORE_STAT_WR_IGN true w i)) ∧
    (∀ (x : Nat) (s : State), exec (.watchdogKick x) s = .next (s.wdogReload x)) ∧
    (∀ (x : Nat) (s : State), exec (.ldgCoreReset x) s = .next (s.lodgeReset x)) ∧
    (∀ (x : Nat) (s : State), (s.wdogRuns x ∧ s.wdogLeft x = 0) → exec (.watchdogExpiry x) s = .next (s.lodgeCrash
      x 1)) ∧
    (∀ (x src : Nat) (s : State), exec (.lodgeBootDone x src) s = .next (s.lodgeBoot x src)) ∧
    (∀ (x err : Nat) (s : State), s.fld F.LDG_BOOT_STAT_STATE x = 0 →
      exec (.lodgeBootFail x err) s =
        .next ((s.setFld F.LDG_BOOT_STAT_STATE 2 x |>.setFld F.LDG_BOOT_STAT_ERR err x
          |>.satFld F.LDG_BOOT_STAT_ATTEMPTS 1 x).setH .lodgeBackoff
            (if s.h .lodgeBackoff x = 0 then 1 else min 8000 (2 * s.h .lodgeBackoff x)) x)) ∧
    (∀ (x : Nat) (s : State), s.fld F.LDG_BOOT_STAT_STATE x = 2 → exec (.lodgeBackoffExpiry x) s = .next
      (s.setFld F.LDG_BOOT_STAT_STATE 0 x)) ∧
    (∀ (x : Nat) (s : State), s.lodgeRuns x = false → s.hb .faultOpen 3 x = true →
      ∃ t, exec (.lodgeRebootTimeout x) s = .next t ∧ t.hb .lodgeDead x = true) ∧
    (∀ (x : Nat) (s : State),
      exec (.ringBypass x) s =
        .next (foldS (fun d s => s.setFlag F.LDG_RING_STAT_BYPASS true ((x + d) % 36)) [1, 2, 34, 35] s)) ∧
    (∀ (s : State), exec .heartbeatSend s = .next (s.heartbeat)) ∧
    (∀ (x : Nat) (s : State), s.h .presiding ≠ 0 → s.regN .LDG_TERM x ≤ s.h .hbTerm →
      exec (.heartbeatRx x) s =
        .next ((s.setRegN .LDG_TERM (s.h .hbTerm) x).setView x (s.h .presiding - 1) (s.h .hbDep % 64) (s.h .hbDep / 64))) ∧
    (∀ (x : Nat) (s : State), s.lodgeRuns x = true → s.presSite = none → s.h .elecTerm ≠ s.regN .LDG_TERM x + 1 →
      ∃ t, exec (.heartbeatTimeout x) s = .next t ∧ t.h .elecTerm = s.regN .LDG_TERM x + 1 ∧ t.h .elecStart = x + 1 ∧
        t.h .elecCand = if s.standing x then x + 1 else 0) ∧
    (∀ (x : Nat) (s : State), s.h .elecTerm ≠ 0 → s.regN .LDG_TERM x ≤ s.h .elecTerm → s.standing x = true →
      ∃ t, exec (.electionMsg x) s = .next t ∧
        t.h .elecCand = if s.h .elecCand = 0 ∨ x + 1 < s.h .elecCand then x + 1 else s.h .elecCand) ∧
    (∀ (s : State), s.h .elecTerm ≠ 0 → s.h .elecCand ≠ 0 →
      exec .electionAnnounce s =
        .next (((s.setRegN .LDG_TERM (s.h .elecTerm) (s.h .elecCand - 1)).setH .elecWin (s.h .elecCand)
          |>.setH .elecTerm 0 |>.setH .presides 0 |>.addFld F.LDG_ELECT_CNT_COUNT 1).device 1033)) ∧
    (∀ (copies : List (Nat × Nat)) (s : State), exec (.presideStart copies) s = .next (s.preside copies)) ∧
    (∀ (x term : Nat) (s : State), s.jrnlHead = some x → s.jrnlHolder x = true → term = s.regN .LDG_TERM x →
      s.safeHold = false →
      exec (.journalEntryWrite term) s = .next ((s.setH .jrnlCount (s.h .jrnlCount x + 1) x).jrnlBytes x)) ∧
    (∀ (x y : Nat) (s : State), s.jrnlHead = some x → s.jrnlHolder y = true → y ≠ x →
      exec (.journalEntryHeld y) s = .next ((s.setH .jrnlCount (s.h .jrnlCount x) y).jrnlBytes y)) ∧
    (∀ (x y : Nat) (s : State), s.jrnlHead = some x → s.flag F.LDG_JRNL_STAT_FILLING y = true → s.jrnlHolder x = true →
      exec (.deputyCopyDone y) s =
        .next ((s.setFlag F.LDG_JRNL_STAT_FILLING false y |>.setFlag F.LDG_JRNL_STAT_HOLDER true y |>.setH .jrnlCopy 1 y
          |>.setH .jrnlCount (s.h .jrnlCount x) y).jrnlWritten)) ∧
    (∀ (s : State), exec .safeHoldEnter s = .next (s.safeHoldEnter)) ∧
    (∀ (failed : List (Nat × Nat)) (s : State),
      ∃ t, exec (.selfTestDone failed) s = .next t ∧
        ∀ x, x < 36 → t.fld F.LDG_SITE_STAT_SELFTEST x = if failed.any (fun e => e.1 == x) then 2 else 1) ∧
    (∀ (t : Nat) (s : State), (¬ (8 ≤ t ∨ s.presSite.isNone)) → exec (.towerFault t) s = .next ((((s.faultStart 2
      t).devAlarm 0x42)).isolate (towerNode t) true)) ∧
    (∀ (p k : Nat) (s : State), exec (.spireResetTimeout p k) s = .next (s.spireFail p k)) ∧
    (∀ (s : State), exec .porNLow s = .next (s.powerOn)) ∧
    (∀ (s : State), exec .keepRailLow s = .next (s.powerOn)) ∧
    (∀ (mode : Nat) (s : State), s.hb .porHeld = true →
      ∃ t, exec (.powerOnRelease mode) s = .next t ∧ t.hb .porHeld = false ∧ t.mem = s.mem ∧ t.time = 0) ∧
    (∀ (s : State), exec .rstNLow s = .next (s.coldReset 1)) ∧
    (∀ (s : State), exec .jtagColdReset s = .next ((s.tapUpdate 0x30).coldReset 5)) ∧
    (∀ (s : State), exec .unlockEraseDone s = .next (s.unlockDone)) ∧
    (∀ (s : State), exec .wrstNLow s = .next (s.warmReset 2)) ∧
    (∀ (who : Requester) (s : State), exec (.ldgRstWarm who) s = .next (s.rstCtlWrite 1 who)) ∧
    (∀ (who : Requester) (s : State), exec (.ldgRstCold who) s = .next (s.rstCtlWrite 2 who)) ∧
    (∀ (v : Word) (who : Requester) (s : State), RegId.defined .LDG_SUB_CTL v.toNat = true → exec (.subGo v who)
      s = .next (s.subCtlWrite v.toNat who)) ∧
    (∀ (v : Word) (who : Requester) (s : State), RegId.defined .LDG_SUB_CTL v.toNat = true → exec (.subCancel v
      who) s = .next (s.subCtlWrite v.toNat who)) ∧
    (∀ (ok : Bool) (s : State), exec (.subStepDone ok) s = .next (s.subDone ok))

/-- O55, 18_external_interfaces.md, 19_gpio.md, 20_debug.md. Each of these commands answers a next state, from every
state and operands that meet the condition written before it, and the state is the one its rules give: JTAG_EXTEST,
JTAG_EXTEST_PULSE, JTAG_EXTEST_TRAIN, JTAG_SAMPLE_PRELOAD, JTAG_HIGHZ, JTAG_CLAMP, JTAG_IDCODE, JTAG_BYPASS,
JTAG_TEST_LOGIC_RESET, JTAG_DBG_ACCESS, DBG_ACCESS_UPDATE_DR, DBG_ACC_READ, DBG_ACC_WRITE, DBG_ACCESS_DONE,
JTAG_UNLOCK, DBG_UNLOCK_GO, DBG_HALT, DBG_RESUME, DBG_HALT_TAKEN, DBG_REG_TRANSFER, IMEM_BUNDLE_READ,
IMEM_BUNDLE_WRITE, VT_WRITE, VT_READ, PATCH_WRITE, XCV_LANE_CFG_WRITE, PPM_WINDOW, PRBS_CHECKER_LOCK,
LAUNCH_XCV_STATE, PCIE_LINK_CHANGE, PERST_N_ASSERT, FUNCTION_USABILITY_CHANGE, FLR, IDE_FAIL, HOST_COMPLETION_RX,
HOST_COMPLETION_TIMEOUT, ETH_CTL_WRITE, ETH_LINK_UP, ETH_LINK_DOWN, PAUSE_EXPIRY, ETH_FRAME_RX, FARM_SEND,
GPIO_MASKED_WRITE, GPIO_FUNC_WRITE, GPIO_SWITCH_END, GPIO_EDGE_SEEN, LAUNCH_PIN_DRIVE, UNIT_CFG_WRITE, UNIT_TX_PUSH,
UNIT_RX_POP, UNIT_WORD_DONE, UART_RX_BYTE, TIMER_CAPTURE, PWM_PERIOD_END. -/
def Obligations.OuterInterfaceCommandsComplete : Prop :=
    (∀ (dr : Option Nat) (s : State), exec (.jtagExtest dr) s = .next (s.tapBoundary 0x00 dr)) ∧
    (∀ (dr : Option Nat) (s : State), exec (.jtagExtestPulse dr) s = .next (s.tapBoundary 0x0c dr)) ∧
    (∀ (dr : Option Nat) (s : State), exec (.jtagExtestTrain dr) s = .next (s.tapBoundary 0x0d dr)) ∧
    (∀ (dr : Option Nat) (s : State), exec (.jtagSamplePreload dr) s = .next (s.tapBoundary 0x01 dr)) ∧
    (∀ (s : State), exec .jtagHighz s = .next (s.tapUpdate 0x08)) ∧
    (∀ (s : State), exec .jtagClamp s = .next (s.tapUpdate 0x09)) ∧
    (∀ (s : State), exec .jtagIdcode s = .next ((s.tapUpdate 0x02).setH .jtagTdo idcode)) ∧
    (∀ (s : State), exec .jtagBypass s = .next ((s.tapUpdate 0xff).setH .jtagTdo 0)) ∧
    (∀ (s : State), exec .jtagTestLogicReset s = .next (s.setH .jtagIr 0)) ∧
    (∀ (s : State), exec .jtagDbgAccess s = .next (s.tapUpdate 0x20)) ∧
    (∀ (dr : Nat) (s : State), s.tapIr = 0x20 → exec (.dbgAccessUpdateDr dr) s = .next (s.dbgScan dr)) ∧
    (∀ (v : Word) (s : State), RegId.defined .DBG_ACC_CTL v.toNat = true → exec (.dbgAccRead v) s = .next
      (s.dbgAccWrite v.toNat)) ∧
    (∀ (v : Word) (s : State), RegId.defined .DBG_ACC_CTL v.toNat = true → exec (.dbgAccWrite v) s = .next
      (s.dbgAccWrite v.toNat)) ∧
    (∀ (status : Nat) (v : Word) (s : State), exec (.dbgAccessDone status v) s = .next (s.dbgDone status v)) ∧
    (∀ (s : State), exec .jtagUnlock s = .next ((s.tapUpdate 0x31).unlockGo)) ∧
    (∀ (s : State), exec .dbgUnlockGo s = .next (s.unlockGo)) ∧
    (∀ (w : Nat) (v : Word) (s : State), RegId.defined .DBG_CORE_CTL v.toNat = true → s.dbgLocked = false →
      v.toNat % 8 = 1 →
      ∀ i, exec (.dbgHalt w i v) s =
        .next ((s.setRegN .DBG_CORE_CTL (v.toNat &&& 0x38) w i).coreHalt w i (if i < 8 then bitsOf v.toNat 3 1 else 0))) ∧
    (∀ (w i : Nat) (v : Word) (s : State), RegId.defined .DBG_CORE_CTL v.toNat = true → s.dbgLocked = false →
      v.toNat % 8 = 2 →
      (s.setRegN .DBG_CORE_CTL (v.toNat &&& 0x38) w i).coreHalted w i (if i < 8 then bitsOf v.toNat 3 1 else 0) = true →
      exec (.dbgResume w i v) s =
        .next ((s.setRegN .DBG_CORE_CTL (v.toNat &&& 0x38) w i).coreResume w i (if i < 8 then bitsOf v.toNat 3 1 else 0))) ∧
    (∀ (w i x : Nat) (s : State),
      exec (.dbgHaltTaken w i x) s = .next (if i < 8 then s.haltTake w i x else s.lodgeHaltTake w)) ∧
    (∀ (w i d : Nat) (v : Word) (s : State), s.dbgLocked = false →
      RegId.defined .DBG_CORE_REGSEL v.toNat = true → regClass i (bitsOf v.toNat 12 4) = true → bitOf v.toNat 16 = false →
      i < 8 →
      [0, 3, 4].contains ((s.setRegN .DBG_CORE_REGSEL v.toNat w i).ctxState w i (s.fld F.DBG_CORE_CTL_CTX w i)) = true →
      (s.setRegN .DBG_CORE_REGSEL v.toNat w i).sprPeek w i (s.fld F.DBG_CORE_CTL_CTX w i) (bitsOf v.toNat 12 4)
        (bitsOf v.toNat 0 12) = some d →
      exec (.dbgRegTransfer w i v) s =
        .next ((s.setRegN .DBG_CORE_REGSEL v.toNat w i).setRegN .DBG_CORE_REGDATA d w i)) ∧
    (∀ (p k : Nat) (s : State), exec (.imemBundleRead p k) s = .next (s.imemRead p k)) ∧
    (∀ (p k : Nat) (v : Word) (s : State), exec (.imemBundleWrite p k v) s = .next (s.imemWrite p k ((s.stageOf
      ⟨.DBG_CORE_IMEM_DATA, p, k, 0⟩).toNat + v.toNat * 2 ^ 32))) ∧
    (∀ (w i : Nat) (out : Bool) (v : Word) (s : State), exec (.vtWrite w i out v) s = .next (s.vtWrite w i out v)) ∧
    (∀ (w i : Nat) (out : Bool) (s : State), exec (.vtRead w i out) s = .next (s.vtRead w i out)) ∧
    (∀ (x n : Nat) (data : Bool) (v : Word) (who : Requester) (s : State),
      RegId.defined (if data then .DBG_PATCH_DATA else .DBG_PATCH_ADDR) v.toNat = true →
      exec (.patchWrite x n data v who) s = .next (s.patchWrite x n data v.toNat who)) ∧
    (∀ (t l : Nat) (v : Word) (s : State), RegId.defined .XCV_LANE_CFG v.toNat = true → exec (.xcvLaneCfgWrite t
      l v) s = .next (s.xcvCfgWrite t l v.toNat)) ∧
    (∀ (t q : Nat) (ppm : Int) (s : State), exec (.ppmWindow t q ppm) s = .next (s.ppmWindow t q ppm)) ∧
    (∀ (t l errs : Nat) (s : State), s.fld F.XCV_LANE_CFG_USE t l = 0 → s.flag F.XCV_LANE_CTL_PRBS_EN t l = true →
      s.flag F.XCV_LANE_CTL_RX_EN t l = true →
      exec (.prbsCheckerLock t l errs) s = .next ((s.setFlag F.XCV_LANE_STAT_PRBS_LOCK true t l).satFld
      F.XCV_LANE_PRBS_ERR_COUNT errs t l)) ∧
    (∀ (t q : Nat) (s : State), ∃ f : LqEntry → State → Bool × State,
      (∀ (e : LqEntry) (u : State),
        ((f e u).1 = true ↔ u.fld F.XCV_LANE_CFG_USE t (bitsOf (e.param 0) 0 5) ≠ 2 ∧
          u.fld F.XCV_LANE_CFG_USE t (bitsOf (e.param 0) 0 5) ≠ 3 ∧
          (u.fld F.XCV_LANE_CFG_USE t (bitsOf (e.param 0) 0 5) = 1 → bitsOf (e.param 1) 0 4 < 4))) ∧
      (∀ (e : LqEntry) (u : State), (f e u).1 = false → (f e u).2 = u) ∧
      exec (.launchXcvState t q) s = .next (s.lqLaunch (towerNode t) q 4 f)) ∧
    (∀ (e width gen : Nat) (s : State), s.flag F.PCIE_EP_CTL_EN 0 e = true →
      width ≤ s.fld F.PCIE_EP_CTL_MAXW 0 e → gen ≤ s.fld F.PCIE_EP_CTL_MAXGEN 0 e → s.pcieLanes e width = true →
      s.flag F.PCIE_EP_STAT_LINK_UP 0 e = false → s.scanning = false →
      exec (.pcieLinkChange e true width gen) s =
        .next ((s.setFld F.PCIE_EP_STAT_WIDTH width 0 e |>.setFld F.PCIE_EP_STAT_GEN gen 0 e
          |>.setFlag F.PCIE_EP_STAT_LINK_UP true 0 e |>.device (1948 + e)).endpointFollow e)) ∧
    (∀ (e : Nat) (s : State), exec (.perstNAssert e) s = .next (s.endpointReset e)) ∧
    (∀ (f : Nat) (bme d3hot flr secure : Bool) (s : State), exec (.functionUsabilityChange f bme d3hot flr
      secure) s = .next ((s.setFlag F.PCIE_FN_STAT_BME bme 0 f |>.setFlag F.PCIE_FN_STAT_D3HOT d3hot 0 f
      |>.setFlag F.PCIE_FN_STAT_FLR (flr && s.flag F.PCIE_FN_STAT_FLR 0 f) 0 f |>.setFlag
      F.PCIE_EP_STAT_IDE_SECURE secure 0 (f / 2)).endpointFollow (f / 2))) ∧
    (∀ (f : Nat) (s : State), exec (.flr f) s = .next ((s.fnReset f true).usableFollow f)) ∧
    (∀ (e : Nat) (s : State), s.flag F.PCIE_EP_STAT_IDE_FAIL 0 e = true →
      exec (.ideFail e) s =
        .next ((s.setFlag F.PCIE_EP_STAT_IDE_SECURE false 0 e |>.setFlag F.PCIE_EP_STAT_IDE_FAIL true 0 e).endpointFollow e)) ∧
    (∀ (f : Nat) (q : Option Nat) (s : State),
      exec (.hostCompletionRx f q .good) s = .next s ∧
      exec (.hostCompletionRx f q .poison) s = .next ((s.addFld F.PCIE_FN_POISON_CNT_COUNT 1 0 f).hostFail q) ∧
      exec (.hostCompletionRx f q .failed) s = .next (s.hostFail q)) ∧
    (∀ (f : Nat) (q : Option Nat) (s : State), exec (.hostCompletionTimeout f q) s = .next ((s.addFld
      F.PCIE_FN_CTO_CNT_COUNT 1 0 f).hostFail q)) ∧
    (∀ (t : Nat) (v : Word) (s : State), RegId.defined .ETH_CTL v.toNat = true → exec (.ethCtlWrite t v) s =
      .next (s.ethCtlWrite t v.toNat)) ∧
    (∀ (t : Nat) (s : State), (s.flag F.ETH_CTL_EN t ∧ ¬ s.flag F.ETH_STAT_LINK_UP t ∧ ¬ s.scanning) → exec
      (.ethLinkUp t) s = .next ((s.setFlag F.ETH_STAT_LINK_UP true t |>.setFlag F.ETH_STAT_PCS_ALIGN true t
      |>.device (1936 + t)).sourceFollow t 0 true)) ∧
    (∀ (t l : Nat) (s : State), exec (.ethLinkDown t none) s = .next (s.ethDown t) ∧
      exec (.ethLinkDown t (some l)) s = .next ((s.cdrLost t l).ethDown t)) ∧
    (∀ (t : Nat) (s : State), exec (.pauseExpiry t) s = .next (s.setFlag F.ETH_STAT_PAUSED false t)) ∧
    (∀ (t : Nat) (bytes : List Byte) (fcs : Bool) (sec : Option EthSec) (s : State), exec (.ethFrameRx t bytes
      fcs sec) s = .next (s.ethRx t bytes fcs sec)) ∧
    (∀ (d : Nat) (s : State), exec (.farmSend d) s = .next (s.farmSend d)) ∧
    (∀ (k : Nat) (oe : Bool) (v : Word) (s : State),
      exec (.gpioMaskedWrite k oe v) s = .next (s.gpioMasked (if oe then .GPIO_OE else .GPIO_DOUT) k v.toNat)) ∧
    (∀ (w : Nat) (v : Word) (s : State), exec (.gpioFuncWrite w v) s = .next (s.gpioFuncWrite w v.toNat)) ∧
    (∀ (w : Nat) (s : State), exec (.gpioSwitchEnd w) s = .next (s.gpioSwitchEnd w)) ∧
    (∀ (n : Nat) (rising : Bool) (s : State), exec (.gpioEdgeSeen n rising) s = .next (s.gpioEdge n rising)) ∧
    (∀ (t q : Nat) (s : State), ∃ f : LqEntry → State → Bool × State,
      (∀ (e : LqEntry) (u : State),
        ((f e u).1 = true ↔ ¬ (bitsOf (e.param 0) 0 5 < 18 ∧
          u.flag F.TIO_GRP_CFG_OWNER t (bitsOf (e.param 0) 0 5) = true))) ∧
      exec (.launchPinDrive t q) s = .next (s.lqLaunch (towerNode t) q 5 f)) ∧
    (∀ (e x : Nat) (v : Word) (s : State), RegId.defined .GPIO_U_CFG v.toNat = true → exec (.unitCfgWrite e x v)
      s = .next (s.unitCfgWrite e x v.toNat)) ∧
    (∀ (e x : Nat) (v : Word) (s : State), exec (.unitTxPush e x v) s = .next (s.unitTxPush e x v)) ∧
    (∀ (e x : Nat) (s : State), exec (.unitRxPop e x) s = .next ((s.unitRxPop e x).2)) ∧
    (∀ (e x : Nat) (rx : Word) (s : State), exec (.unitWordDone e x rx) s = .next (s.unitWordDone e x rx)) ∧
    (∀ (e x : Nat) (byte : Byte) (s : State), s.flag F.GPIO_U_CFG_EN e x = true → x < 4 →
      exec (.uartRxByte e x byte false) s = .next (s.unitRxPush e x (BitVec.ofNat 32 (byte.toNat + 256 * b2n false))) ∧
      exec (.uartRxByte e x byte true) s =
        .next ((s.unitRxPush e x (BitVec.ofNat 32 (byte.toNat + 256 * b2n true))).unitErr e x 2)) ∧
    (∀ (e c : Nat) (s : State), (s.flag F.GPIO_U_CFG_EN e (12 + c) ∧ bitsOf (s.fld F.GPIO_U_CFG_MODE e (12 + c))
      0 2 = 1) → ∃ late, late ≤ s.nsUnits 8 ∧
      exec (.timerCapture e c) s = .next (({ s with free := s.free + 1 } : State).unitRxPush e (12 + c)
        (loWord (s.towerTime (4 * e) - BitVec.ofNat 64 (s.nsUnits 16) - BitVec.ofNat 64 late)))) ∧
    (∀ (e c : Nat) (w : Word) (l : List Word) (s : State),
      bitsOf (s.fld F.GPIO_U_CFG_MODE e (12 + c)) 0 2 = 2 → s.unitTx e (12 + c) = w :: l →
      exec (.pwmPeriodEnd e c) s = .next ((s.setUnitTx e (12 + c) l).setH .unitWord (1 + w.toNat) e (12 + c)))

/-- O56, 95_what_each_step_holds.md, R2 (00_scope.md). For every command, queue and state: where the command stands at
the front of the queue, a step answers what the command answers on the state with the rest of the queue. With an
empty queue a step answers the state with one unit of time passed, which is the choice of this model (assumption 5);
while nothing slews, one unit advances device time by one. -/
def Obligations.StepRunsTheFrontCommand : Prop :=
  (∀ (c : Instr) (rest : List Instr) (s : State), s.pending = c :: rest → step s = exec c { s with pending := rest }) ∧
  ∀ s : State, s.pending = [] →
    step s = .next s.idle ∧ (s.reg .CAMP_SLEW_REM = 0#64 → (s.pass 1).time = s.time + 1)

/-- O57, R11 (00_scope.md), R137, Table 5.8 (05_domes.md), 17_telemetry_thermal.md, 09_task_scheduler.md,
10_event_controller.md, 12_promenade.md, 15_memory_integrity.md. At reset no command waits and memory has its
canonical form and lists nothing. Every byte of every dome reads 0. In every pavilion the dome is in INIT with WM_HI
0x30, WM_LO 0x10, WR_AGE 0x14 and IDLE_CLOSE 0x40; the scheduler holds 0x600 in TSK_CTL; every mask word of the
event controller is all ones; fences time out at 1,000; MEM_BKT_CFG and THM_CFG hold their reset values; every
launch queue is enabled; every lodge watchdog has its reset period; and every stream entry is FREE. -/
def Obligations.ResetStateHoldsTheResetColumns : Prop :=
  State.reset.pending = [] ∧ State.reset.Canonical ∧ State.reset.mem = [] ∧
  (∀ p a, p < 32 → a < 2 ^ 35 → State.reset.ldByte (domeBase p + a) = 0) ∧
  (∀ p, State.reset.fld F.DOME_STAT_STATE p = 0 ∧ State.reset.fld F.DOME_SCHED_WM_HI p = 0x30 ∧
    State.reset.fld F.DOME_SCHED_WM_LO p = 0x10 ∧ State.reset.fld F.DOME_SCHED_WR_AGE p = 0x14 ∧
    State.reset.fld F.DOME_SCHED_IDLE_CLOSE p = 0x40 ∧ State.reset.regN .TSK_CTL p = 0x600 ∧
    State.reset.regN .PRM_FENCE_TMO p = 1000 ∧ State.reset.regN .MEM_BKT_CFG p = 0x03e80010 ∧
    State.reset.regN .THM_CFG p = 0x17364) ∧
  (∀ p w, State.reset.regN .EVC_MASK p w = 0xffffffff) ∧
  (∀ h q, State.reset.flag F.CAMP_LQ_CTL_EN h q = true ∧ State.reset.lqOf h q = []) ∧
  (∀ x, State.reset.regN .LDG_WDOG_CTL x = 0x0003e803) ∧
  ∀ p i, State.reset.sst p i = 0

/-- O58, R10, R11 (00_scope.md), R17 (01_panel.md), R418 (16_lodge_recovery.md). For every state: POWER-ON leaves every
register at its POWER-ON value, keeps the fuses and the commands that wait, and leaves zeros in every dome. Outside
a POWER-ON reset and with a fuse map that passes its check, a RST_N reset leaves in every register but the reset-
cause record and CFG_LOAD_STAT the bits the Reset column keeps and the reset value in the others; the record says
COLD with source 1 and counts one more, saturating; and every byte of every dome reads 0. While POWER-ON is held a
RST_N reset changes nothing. -/
def Obligations.ColdResetLeavesTheResetColumn : Prop :=
  ∀ s : State,
    (∃ t, exec .porNLow s = .next t ∧ (∀ id w i j, t.reg id w i j = s.initial ⟨id, w, i, j⟩) ∧ t.fuses = s.fuses ∧
      t.pending = s.pending ∧ ∀ p a, p < 32 → a < 2 ^ 35 → t.ldByte (domeBase p + a) = 0) ∧
    (s.hb .porHeld = true → exec .rstNLow s = .next s) ∧
    (s.hb .porHeld = false → s.fuseBad = false →
      ∃ t, exec .rstNLow s = .next t ∧
        (∀ id w i j, id ≠ .LDG_RST_CAUSE → id ≠ .CFG_LOAD_STAT →
          t.reg id w i j = (s.reg id w i j &&& id.row.coldKeep) ||| (s.initial ⟨id, w, i, j⟩ &&& ~~~id.row.coldKeep)) ∧
        t.fld F.LDG_RST_CAUSE_TYPE = 1 ∧ t.fld F.LDG_RST_CAUSE_SRC = 1 ∧
        t.fld F.LDG_RST_CAUSE_COUNT = satAdd 65535 (s.fld F.LDG_RST_CAUSE_COUNT) 1 ∧
        t.fuses = s.fuses ∧ t.pending = s.pending ∧
        ∀ p a, p < 32 → a < 2 ^ 35 → t.ldByte (domeBase p + a) = 0)

/-- O59, R197, R200, R201, R207, Tables 8.2, 8.3, 8.4, 8.5 (08_spire.md). For every scalar slot whose fields fit their
places and name what Tables 8.3 and 8.5 list, and every vector slot whose fields fit and name what Table 8.4 lists:
its word has 32 bits, and the decoder reads the slot back from it, with every operand at every value the encoding
admits. So two different slots never share a word, and no well-formed slot raises ILLEGAL. -/
def Obligations.SpireSlotsRoundTrip : Prop :=
  (∀ op : SOp, op.wf = true → sEncode op < 2 ^ 32 ∧ sDecode (sEncode op) = some op) ∧
  (∀ op : VOp, op.wf = true → vEncode op < 2 ^ 32 ∧ vDecode (vEncode op) = some op)

/-- O60, R6 (00_scope.md), 95_what_each_step_holds.md. From every state whose memory is in canonical form (addresses
strictly rising, no entry at the value that an unlisted byte reads), each step that answers a next state answers one
whose memory is in canonical form and whose queue is the old one without its front. So equal memories stay equal
data, and no command of the table adds, drops or reorders a command that waits. -/
def Obligations.EveryStepKeepsTheMemoryForm : Prop :=
  ∀ s t : State, s.Canonical → step s = .next t → t.Canonical ∧ t.pending = s.pending.tail
end

