-- ==== Sys2Proof/Laws/State.lean ====
section
/-!
SUPPORT. What the named updates of State leave alone: one lemma per update and field, so that no proof unfolds a record
update.
-/
namespace Sys2Proof.Machine

/-! ### State.setReg -/

@[simp] theorem State.setReg_time (s : State) (id : RegId) (v : DWord) (w i j : Nat) :
    (s.setReg id v w i j).time = s.time := rfl
@[simp] theorem State.setReg_free (s : State) (id : RegId) (v : DWord) (w i j : Nat) :
    (s.setReg id v w i j).free = s.free := rfl
@[simp] theorem State.setReg_fuses (s : State) (id : RegId) (v : DWord) (w i j : Nat) :
    (s.setReg id v w i j).fuses = s.fuses := rfl
@[simp] theorem State.setReg_stage (s : State) (id : RegId) (v : DWord) (w i j : Nat) :
    (s.setReg id v w i j).stage = s.stage := rfl
@[simp] theorem State.setReg_snap (s : State) (id : RegId) (v : DWord) (w i j : Nat) :
    (s.setReg id v w i j).snap = s.snap := rfl
@[simp] theorem State.setReg_hid (s : State) (id : RegId) (v : DWord) (w i j : Nat) :
    (s.setReg id v w i j).hid = s.hid := rfl
@[simp] theorem State.setReg_mem (s : State) (id : RegId) (v : DWord) (w i j : Nat) :
    (s.setReg id v w i j).mem = s.mem := rfl
@[simp] theorem State.setReg_undef (s : State) (id : RegId) (v : DWord) (w i j : Nat) :
    (s.setReg id v w i j).undef = s.undef := rfl
@[simp] theorem State.setReg_lq (s : State) (id : RegId) (v : DWord) (w i j : Nat) :
    (s.setReg id v w i j).lq = s.lq := rfl
@[simp] theorem State.setReg_psamp (s : State) (id : RegId) (v : DWord) (w i j : Nat) :
    (s.setReg id v w i j).psamp = s.psamp := rfl
@[simp] theorem State.setReg_domeRq (s : State) (id : RegId) (v : DWord) (w i j : Nat) :
    (s.setReg id v w i j).domeRq = s.domeRq := rfl
@[simp] theorem State.setReg_domeWq (s : State) (id : RegId) (v : DWord) (w i j : Nat) :
    (s.setReg id v w i j).domeWq = s.domeWq := rfl
@[simp] theorem State.setReg_domeIssued (s : State) (id : RegId) (v : DWord) (w i j : Nat) :
    (s.setReg id v w i j).domeIssued = s.domeIssued := rfl
@[simp] theorem State.setReg_domeNrf (s : State) (id : RegId) (v : DWord) (w i j : Nat) :
    (s.setReg id v w i j).domeNrf = s.domeNrf := rfl
@[simp] theorem State.setReg_domeTxns (s : State) (id : RegId) (v : DWord) (w i j : Nat) :
    (s.setReg id v w i j).domeTxns = s.domeTxns := rfl
@[simp] theorem State.setReg_shots (s : State) (id : RegId) (v : DWord) (w i j : Nat) :
    (s.setReg id v w i j).shots = s.shots := rfl
@[simp] theorem State.setReg_pinSeen (s : State) (id : RegId) (v : DWord) (w i j : Nat) :
    (s.setReg id v w i j).pinSeen = s.pinSeen := rfl
@[simp] theorem State.setReg_keyCache (s : State) (id : RegId) (v : DWord) (w i j : Nat) :
    (s.setReg id v w i j).keyCache = s.keyCache := rfl
@[simp] theorem State.setReg_strmWait (s : State) (id : RegId) (v : DWord) (w i j : Nat) :
    (s.setReg id v w i j).strmWait = s.strmWait := rfl
@[simp] theorem State.setReg_plots (s : State) (id : RegId) (v : DWord) (w i j : Nat) :
    (s.setReg id v w i j).plots = s.plots := rfl
@[simp] theorem State.setReg_cross (s : State) (id : RegId) (v : DWord) (w i j : Nat) :
    (s.setReg id v w i j).cross = s.cross := rfl
@[simp] theorem State.setReg_decls (s : State) (id : RegId) (v : DWord) (w i j : Nat) :
    (s.setReg id v w i j).decls = s.decls := rfl
@[simp] theorem State.setReg_xfl (s : State) (id : RegId) (v : DWord) (w i j : Nat) :
    (s.setReg id v w i j).xfl = s.xfl := rfl
@[simp] theorem State.setReg_streams (s : State) (id : RegId) (v : DWord) (w i j : Nat) :
    (s.setReg id v w i j).streams = s.streams := rfl
@[simp] theorem State.setReg_spr (s : State) (id : RegId) (v : DWord) (w i j : Nat) :
    (s.setReg id v w i j).spr = s.spr := rfl
@[simp] theorem State.setReg_tsk (s : State) (id : RegId) (v : DWord) (w i j : Nat) :
    (s.setReg id v w i j).tsk = s.tsk := rfl
@[simp] theorem State.setReg_resv (s : State) (id : RegId) (v : DWord) (w i j : Nat) :
    (s.setReg id v w i j).resv = s.resv := rfl
@[simp] theorem State.setReg_accIn (s : State) (id : RegId) (v : DWord) (w i j : Nat) :
    (s.setReg id v w i j).accIn = s.accIn := rfl
@[simp] theorem State.setReg_events (s : State) (id : RegId) (v : DWord) (w i j : Nat) :
    (s.setReg id v w i j).events = s.events := rfl
@[simp] theorem State.setReg_qps (s : State) (id : RegId) (v : DWord) (w i j : Nat) :
    (s.setReg id v w i j).qps = s.qps := rfl
@[simp] theorem State.setReg_ethTx (s : State) (id : RegId) (v : DWord) (w i j : Nat) :
    (s.setReg id v w i j).ethTx = s.ethTx := rfl
@[simp] theorem State.setReg_prmIn (s : State) (id : RegId) (v : DWord) (w i j : Nat) :
    (s.setReg id v w i j).prmIn = s.prmIn := rfl
@[simp] theorem State.setReg_prmOut (s : State) (id : RegId) (v : DWord) (w i j : Nat) :
    (s.setReg id v w i j).prmOut = s.prmOut := rfl
@[simp] theorem State.setReg_prmRx (s : State) (id : RegId) (v : DWord) (w i j : Nat) :
    (s.setReg id v w i j).prmRx = s.prmRx := rfl
@[simp] theorem State.setReg_prmReq (s : State) (id : RegId) (v : DWord) (w i j : Nat) :
    (s.setReg id v w i j).prmReq = s.prmReq := rfl
@[simp] theorem State.setReg_annexOut (s : State) (id : RegId) (v : DWord) (w i j : Nat) :
    (s.setReg id v w i j).annexOut = s.annexOut := rfl
@[simp] theorem State.setReg_lrt (s : State) (id : RegId) (v : DWord) (w i j : Nat) :
    (s.setReg id v w i j).lrt = s.lrt := rfl
@[simp] theorem State.setReg_tio (s : State) (id : RegId) (v : DWord) (w i j : Nat) :
    (s.setReg id v w i j).tio = s.tio := rfl
@[simp] theorem State.setReg_telQ (s : State) (id : RegId) (v : DWord) (w i j : Nat) :
    (s.setReg id v w i j).telQ = s.telQ := rfl
@[simp] theorem State.setReg_telIntake (s : State) (id : RegId) (v : DWord) (w i j : Nat) :
    (s.setReg id v w i j).telIntake = s.telIntake := rfl
@[simp] theorem State.setReg_loadInit (s : State) (id : RegId) (v : DWord) (w i j : Nat) :
    (s.setReg id v w i j).loadInit = s.loadInit := rfl
@[simp] theorem State.setReg_lodges (s : State) (id : RegId) (v : DWord) (w i j : Nat) :
    (s.setReg id v w i j).lodges = s.lodges := rfl
@[simp] theorem State.setReg_gpioTx (s : State) (id : RegId) (v : DWord) (w i j : Nat) :
    (s.setReg id v w i j).gpioTx = s.gpioTx := rfl
@[simp] theorem State.setReg_gpioRx (s : State) (id : RegId) (v : DWord) (w i j : Nat) :
    (s.setReg id v w i j).gpioRx = s.gpioRx := rfl
@[simp] theorem State.setReg_sport (s : State) (id : RegId) (v : DWord) (w i j : Nat) :
    (s.setReg id v w i j).sport = s.sport := rfl
@[simp] theorem State.setReg_peekSnap (s : State) (id : RegId) (v : DWord) (w i j : Nat) :
    (s.setReg id v w i j).peekSnap = s.peekSnap := rfl
@[simp] theorem State.setReg_pending (s : State) (id : RegId) (v : DWord) (w i j : Nat) :
    (s.setReg id v w i j).pending = s.pending := rfl

/-! ### State.setRegN -/

@[simp] theorem State.setRegN_time (s : State) (id : RegId) (v w i j : Nat) :
    (s.setRegN id v w i j).time = s.time := rfl
@[simp] theorem State.setRegN_free (s : State) (id : RegId) (v w i j : Nat) :
    (s.setRegN id v w i j).free = s.free := rfl
@[simp] theorem State.setRegN_fuses (s : State) (id : RegId) (v w i j : Nat) :
    (s.setRegN id v w i j).fuses = s.fuses := rfl
@[simp] theorem State.setRegN_stage (s : State) (id : RegId) (v w i j : Nat) :
    (s.setRegN id v w i j).stage = s.stage := rfl
@[simp] theorem State.setRegN_snap (s : State) (id : RegId) (v w i j : Nat) :
    (s.setRegN id v w i j).snap = s.snap := rfl
@[simp] theorem State.setRegN_hid (s : State) (id : RegId) (v w i j : Nat) :
    (s.setRegN id v w i j).hid = s.hid := rfl
@[simp] theorem State.setRegN_mem (s : State) (id : RegId) (v w i j : Nat) :
    (s.setRegN id v w i j).mem = s.mem := rfl
@[simp] theorem State.setRegN_undef (s : State) (id : RegId) (v w i j : Nat) :
    (s.setRegN id v w i j).undef = s.undef := rfl
@[simp] theorem State.setRegN_lq (s : State) (id : RegId) (v w i j : Nat) :
    (s.setRegN id v w i j).lq = s.lq := rfl
@[simp] theorem State.setRegN_psamp (s : State) (id : RegId) (v w i j : Nat) :
    (s.setRegN id v w i j).psamp = s.psamp := rfl
@[simp] theorem State.setRegN_domeRq (s : State) (id : RegId) (v w i j : Nat) :
    (s.setRegN id v w i j).domeRq = s.domeRq := rfl
@[simp] theorem State.setRegN_domeWq (s : State) (id : RegId) (v w i j : Nat) :
    (s.setRegN id v w i j).domeWq = s.domeWq := rfl
@[simp] theorem State.setRegN_domeIssued (s : State) (id : RegId) (v w i j : Nat) :
    (s.setRegN id v w i j).domeIssued = s.domeIssued := rfl
@[simp] theorem State.setRegN_domeNrf (s : State) (id : RegId) (v w i j : Nat) :
    (s.setRegN id v w i j).domeNrf = s.domeNrf := rfl
@[simp] theorem State.setRegN_domeTxns (s : State) (id : RegId) (v w i j : Nat) :
    (s.setRegN id v w i j).domeTxns = s.domeTxns := rfl
@[simp] theorem State.setRegN_shots (s : State) (id : RegId) (v w i j : Nat) :
    (s.setRegN id v w i j).shots = s.shots := rfl
@[simp] theorem State.setRegN_pinSeen (s : State) (id : RegId) (v w i j : Nat) :
    (s.setRegN id v w i j).pinSeen = s.pinSeen := rfl
@[simp] theorem State.setRegN_keyCache (s : State) (id : RegId) (v w i j : Nat) :
    (s.setRegN id v w i j).keyCache = s.keyCache := rfl
@[simp] theorem State.setRegN_strmWait (s : State) (id : RegId) (v w i j : Nat) :
    (s.setRegN id v w i j).strmWait = s.strmWait := rfl
@[simp] theorem State.setRegN_plots (s : State) (id : RegId) (v w i j : Nat) :
    (s.setRegN id v w i j).plots = s.plots := rfl
@[simp] theorem State.setRegN_cross (s : State) (id : RegId) (v w i j : Nat) :
    (s.setRegN id v w i j).cross = s.cross := rfl
@[simp] theorem State.setRegN_decls (s : State) (id : RegId) (v w i j : Nat) :
    (s.setRegN id v w i j).decls = s.decls := rfl
@[simp] theorem State.setRegN_xfl (s : State) (id : RegId) (v w i j : Nat) :
    (s.setRegN id v w i j).xfl = s.xfl := rfl
@[simp] theorem State.setRegN_streams (s : State) (id : RegId) (v w i j : Nat) :
    (s.setRegN id v w i j).streams = s.streams := rfl
@[simp] theorem State.setRegN_spr (s : State) (id : RegId) (v w i j : Nat) :
    (s.setRegN id v w i j).spr = s.spr := rfl
@[simp] theorem State.setRegN_tsk (s : State) (id : RegId) (v w i j : Nat) :
    (s.setRegN id v w i j).tsk = s.tsk := rfl
@[simp] theorem State.setRegN_resv (s : State) (id : RegId) (v w i j : Nat) :
    (s.setRegN id v w i j).resv = s.resv := rfl
@[simp] theorem State.setRegN_accIn (s : State) (id : RegId) (v w i j : Nat) :
    (s.setRegN id v w i j).accIn = s.accIn := rfl
@[simp] theorem State.setRegN_events (s : State) (id : RegId) (v w i j : Nat) :
    (s.setRegN id v w i j).events = s.events := rfl
@[simp] theorem State.setRegN_qps (s : State) (id : RegId) (v w i j : Nat) :
    (s.setRegN id v w i j).qps = s.qps := rfl
@[simp] theorem State.setRegN_ethTx (s : State) (id : RegId) (v w i j : Nat) :
    (s.setRegN id v w i j).ethTx = s.ethTx := rfl
@[simp] theorem State.setRegN_prmIn (s : State) (id : RegId) (v w i j : Nat) :
    (s.setRegN id v w i j).prmIn = s.prmIn := rfl
@[simp] theorem State.setRegN_prmOut (s : State) (id : RegId) (v w i j : Nat) :
    (s.setRegN id v w i j).prmOut = s.prmOut := rfl
@[simp] theorem State.setRegN_prmRx (s : State) (id : RegId) (v w i j : Nat) :
    (s.setRegN id v w i j).prmRx = s.prmRx := rfl
@[simp] theorem State.setRegN_prmReq (s : State) (id : RegId) (v w i j : Nat) :
    (s.setRegN id v w i j).prmReq = s.prmReq := rfl
@[simp] theorem State.setRegN_annexOut (s : State) (id : RegId) (v w i j : Nat) :
    (s.setRegN id v w i j).annexOut = s.annexOut := rfl
@[simp] theorem State.setRegN_lrt (s : State) (id : RegId) (v w i j : Nat) :
    (s.setRegN id v w i j).lrt = s.lrt := rfl
@[simp] theorem State.setRegN_tio (s : State) (id : RegId) (v w i j : Nat) :
    (s.setRegN id v w i j).tio = s.tio := rfl
@[simp] theorem State.setRegN_telQ (s : State) (id : RegId) (v w i j : Nat) :
    (s.setRegN id v w i j).telQ = s.telQ := rfl
@[simp] theorem State.setRegN_telIntake (s : State) (id : RegId) (v w i j : Nat) :
    (s.setRegN id v w i j).telIntake = s.telIntake := rfl
@[simp] theorem State.setRegN_loadInit (s : State) (id : RegId) (v w i j : Nat) :
    (s.setRegN id v w i j).loadInit = s.loadInit := rfl
@[simp] theorem State.setRegN_lodges (s : State) (id : RegId) (v w i j : Nat) :
    (s.setRegN id v w i j).lodges = s.lodges := rfl
@[simp] theorem State.setRegN_gpioTx (s : State) (id : RegId) (v w i j : Nat) :
    (s.setRegN id v w i j).gpioTx = s.gpioTx := rfl
@[simp] theorem State.setRegN_gpioRx (s : State) (id : RegId) (v w i j : Nat) :
    (s.setRegN id v w i j).gpioRx = s.gpioRx := rfl
@[simp] theorem State.setRegN_sport (s : State) (id : RegId) (v w i j : Nat) :
    (s.setRegN id v w i j).sport = s.sport := rfl
@[simp] theorem State.setRegN_peekSnap (s : State) (id : RegId) (v w i j : Nat) :
    (s.setRegN id v w i j).peekSnap = s.peekSnap := rfl
@[simp] theorem State.setRegN_pending (s : State) (id : RegId) (v w i j : Nat) :
    (s.setRegN id v w i j).pending = s.pending := rfl

/-! ### State.setFld -/

@[simp] theorem State.setFld_time (s : State) (f : Fld) (v w i j : Nat) :
    (s.setFld f v w i j).time = s.time := rfl
@[simp] theorem State.setFld_free (s : State) (f : Fld) (v w i j : Nat) :
    (s.setFld f v w i j).free = s.free := rfl
@[simp] theorem State.setFld_fuses (s : State) (f : Fld) (v w i j : Nat) :
    (s.setFld f v w i j).fuses = s.fuses := rfl
@[simp] theorem State.setFld_stage (s : State) (f : Fld) (v w i j : Nat) :
    (s.setFld f v w i j).stage = s.stage := rfl
@[simp] theorem State.setFld_snap (s : State) (f : Fld) (v w i j : Nat) :
    (s.setFld f v w i j).snap = s.snap := rfl
@[simp] theorem State.setFld_hid (s : State) (f : Fld) (v w i j : Nat) :
    (s.setFld f v w i j).hid = s.hid := rfl
@[simp] theorem State.setFld_mem (s : State) (f : Fld) (v w i j : Nat) :
    (s.setFld f v w i j).mem = s.mem := rfl
@[simp] theorem State.setFld_undef (s : State) (f : Fld) (v w i j : Nat) :
    (s.setFld f v w i j).undef = s.undef := rfl
@[simp] theorem State.setFld_lq (s : State) (f : Fld) (v w i j : Nat) :
    (s.setFld f v w i j).lq = s.lq := rfl
@[simp] theorem State.setFld_psamp (s : State) (f : Fld) (v w i j : Nat) :
    (s.setFld f v w i j).psamp = s.psamp := rfl
@[simp] theorem State.setFld_domeRq (s : State) (f : Fld) (v w i j : Nat) :
    (s.setFld f v w i j).domeRq = s.domeRq := rfl
@[simp] theorem State.setFld_domeWq (s : State) (f : Fld) (v w i j : Nat) :
    (s.setFld f v w i j).domeWq = s.domeWq := rfl
@[simp] theorem State.setFld_domeIssued (s : State) (f : Fld) (v w i j : Nat) :
    (s.setFld f v w i j).domeIssued = s.domeIssued := rfl
@[simp] theorem State.setFld_domeNrf (s : State) (f : Fld) (v w i j : Nat) :
    (s.setFld f v w i j).domeNrf = s.domeNrf := rfl
@[simp] theorem State.setFld_domeTxns (s : State) (f : Fld) (v w i j : Nat) :
    (s.setFld f v w i j).domeTxns = s.domeTxns := rfl
@[simp] theorem State.setFld_shots (s : State) (f : Fld) (v w i j : Nat) :
    (s.setFld f v w i j).shots = s.shots := rfl
@[simp] theorem State.setFld_pinSeen (s : State) (f : Fld) (v w i j : Nat) :
    (s.setFld f v w i j).pinSeen = s.pinSeen := rfl
@[simp] theorem State.setFld_keyCache (s : State) (f : Fld) (v w i j : Nat) :
    (s.setFld f v w i j).keyCache = s.keyCache := rfl
@[simp] theorem State.setFld_strmWait (s : State) (f : Fld) (v w i j : Nat) :
    (s.setFld f v w i j).strmWait = s.strmWait := rfl
@[simp] theorem State.setFld_plots (s : State) (f : Fld) (v w i j : Nat) :
    (s.setFld f v w i j).plots = s.plots := rfl
@[simp] theorem State.setFld_cross (s : State) (f : Fld) (v w i j : Nat) :
    (s.setFld f v w i j).cross = s.cross := rfl
@[simp] theorem State.setFld_decls (s : State) (f : Fld) (v w i j : Nat) :
    (s.setFld f v w i j).decls = s.decls := rfl
@[simp] theorem State.setFld_xfl (s : State) (f : Fld) (v w i j : Nat) :
    (s.setFld f v w i j).xfl = s.xfl := rfl
@[simp] theorem State.setFld_streams (s : State) (f : Fld) (v w i j : Nat) :
    (s.setFld f v w i j).streams = s.streams := rfl
@[simp] theorem State.setFld_spr (s : State) (f : Fld) (v w i j : Nat) :
    (s.setFld f v w i j).spr = s.spr := rfl
@[simp] theorem State.setFld_tsk (s : State) (f : Fld) (v w i j : Nat) :
    (s.setFld f v w i j).tsk = s.tsk := rfl
@[simp] theorem State.setFld_resv (s : State) (f : Fld) (v w i j : Nat) :
    (s.setFld f v w i j).resv = s.resv := rfl
@[simp] theorem State.setFld_accIn (s : State) (f : Fld) (v w i j : Nat) :
    (s.setFld f v w i j).accIn = s.accIn := rfl
@[simp] theorem State.setFld_events (s : State) (f : Fld) (v w i j : Nat) :
    (s.setFld f v w i j).events = s.events := rfl
@[simp] theorem State.setFld_qps (s : State) (f : Fld) (v w i j : Nat) :
    (s.setFld f v w i j).qps = s.qps := rfl
@[simp] theorem State.setFld_ethTx (s : State) (f : Fld) (v w i j : Nat) :
    (s.setFld f v w i j).ethTx = s.ethTx := rfl
@[simp] theorem State.setFld_prmIn (s : State) (f : Fld) (v w i j : Nat) :
    (s.setFld f v w i j).prmIn = s.prmIn := rfl
@[simp] theorem State.setFld_prmOut (s : State) (f : Fld) (v w i j : Nat) :
    (s.setFld f v w i j).prmOut = s.prmOut := rfl
@[simp] theorem State.setFld_prmRx (s : State) (f : Fld) (v w i j : Nat) :
    (s.setFld f v w i j).prmRx = s.prmRx := rfl
@[simp] theorem State.setFld_prmReq (s : State) (f : Fld) (v w i j : Nat) :
    (s.setFld f v w i j).prmReq = s.prmReq := rfl
@[simp] theorem State.setFld_annexOut (s : State) (f : Fld) (v w i j : Nat) :
    (s.setFld f v w i j).annexOut = s.annexOut := rfl
@[simp] theorem State.setFld_lrt (s : State) (f : Fld) (v w i j : Nat) :
    (s.setFld f v w i j).lrt = s.lrt := rfl
@[simp] theorem State.setFld_tio (s : State) (f : Fld) (v w i j : Nat) :
    (s.setFld f v w i j).tio = s.tio := rfl
@[simp] theorem State.setFld_telQ (s : State) (f : Fld) (v w i j : Nat) :
    (s.setFld f v w i j).telQ = s.telQ := rfl
@[simp] theorem State.setFld_telIntake (s : State) (f : Fld) (v w i j : Nat) :
    (s.setFld f v w i j).telIntake = s.telIntake := rfl
@[simp] theorem State.setFld_loadInit (s : State) (f : Fld) (v w i j : Nat) :
    (s.setFld f v w i j).loadInit = s.loadInit := rfl
@[simp] theorem State.setFld_lodges (s : State) (f : Fld) (v w i j : Nat) :
    (s.setFld f v w i j).lodges = s.lodges := rfl
@[simp] theorem State.setFld_gpioTx (s : State) (f : Fld) (v w i j : Nat) :
    (s.setFld f v w i j).gpioTx = s.gpioTx := rfl
@[simp] theorem State.setFld_gpioRx (s : State) (f : Fld) (v w i j : Nat) :
    (s.setFld f v w i j).gpioRx = s.gpioRx := rfl
@[simp] theorem State.setFld_sport (s : State) (f : Fld) (v w i j : Nat) :
    (s.setFld f v w i j).sport = s.sport := rfl
@[simp] theorem State.setFld_peekSnap (s : State) (f : Fld) (v w i j : Nat) :
    (s.setFld f v w i j).peekSnap = s.peekSnap := rfl
@[simp] theorem State.setFld_pending (s : State) (f : Fld) (v w i j : Nat) :
    (s.setFld f v w i j).pending = s.pending := rfl

/-! ### State.setFlag -/

@[simp] theorem State.setFlag_time (s : State) (f : Fld) (b : Bool) (w i j : Nat) :
    (s.setFlag f b w i j).time = s.time := rfl
@[simp] theorem State.setFlag_free (s : State) (f : Fld) (b : Bool) (w i j : Nat) :
    (s.setFlag f b w i j).free = s.free := rfl
@[simp] theorem State.setFlag_fuses (s : State) (f : Fld) (b : Bool) (w i j : Nat) :
    (s.setFlag f b w i j).fuses = s.fuses := rfl
@[simp] theorem State.setFlag_stage (s : State) (f : Fld) (b : Bool) (w i j : Nat) :
    (s.setFlag f b w i j).stage = s.stage := rfl
@[simp] theorem State.setFlag_snap (s : State) (f : Fld) (b : Bool) (w i j : Nat) :
    (s.setFlag f b w i j).snap = s.snap := rfl
@[simp] theorem State.setFlag_hid (s : State) (f : Fld) (b : Bool) (w i j : Nat) :
    (s.setFlag f b w i j).hid = s.hid := rfl
@[simp] theorem State.setFlag_mem (s : State) (f : Fld) (b : Bool) (w i j : Nat) :
    (s.setFlag f b w i j).mem = s.mem := rfl
@[simp] theorem State.setFlag_undef (s : State) (f : Fld) (b : Bool) (w i j : Nat) :
    (s.setFlag f b w i j).undef = s.undef := rfl
@[simp] theorem State.setFlag_lq (s : State) (f : Fld) (b : Bool) (w i j : Nat) :
    (s.setFlag f b w i j).lq = s.lq := rfl
@[simp] theorem State.setFlag_psamp (s : State) (f : Fld) (b : Bool) (w i j : Nat) :
    (s.setFlag f b w i j).psamp = s.psamp := rfl
@[simp] theorem State.setFlag_domeRq (s : State) (f : Fld) (b : Bool) (w i j : Nat) :
    (s.setFlag f b w i j).domeRq = s.domeRq := rfl
@[simp] theorem State.setFlag_domeWq (s : State) (f : Fld) (b : Bool) (w i j : Nat) :
    (s.setFlag f b w i j).domeWq = s.domeWq := rfl
@[simp] theorem State.setFlag_domeIssued (s : State) (f : Fld) (b : Bool) (w i j : Nat) :
    (s.setFlag f b w i j).domeIssued = s.domeIssued := rfl
@[simp] theorem State.setFlag_domeNrf (s : State) (f : Fld) (b : Bool) (w i j : Nat) :
    (s.setFlag f b w i j).domeNrf = s.domeNrf := rfl
@[simp] theorem State.setFlag_domeTxns (s : State) (f : Fld) (b : Bool) (w i j : Nat) :
    (s.setFlag f b w i j).domeTxns = s.domeTxns := rfl
@[simp] theorem State.setFlag_shots (s : State) (f : Fld) (b : Bool) (w i j : Nat) :
    (s.setFlag f b w i j).shots = s.shots := rfl
@[simp] theorem State.setFlag_pinSeen (s : State) (f : Fld) (b : Bool) (w i j : Nat) :
    (s.setFlag f b w i j).pinSeen = s.pinSeen := rfl
@[simp] theorem State.setFlag_keyCache (s : State) (f : Fld) (b : Bool) (w i j : Nat) :
    (s.setFlag f b w i j).keyCache = s.keyCache := rfl
@[simp] theorem State.setFlag_strmWait (s : State) (f : Fld) (b : Bool) (w i j : Nat) :
    (s.setFlag f b w i j).strmWait = s.strmWait := rfl
@[simp] theorem State.setFlag_plots (s : State) (f : Fld) (b : Bool) (w i j : Nat) :
    (s.setFlag f b w i j).plots = s.plots := rfl
@[simp] theorem State.setFlag_cross (s : State) (f : Fld) (b : Bool) (w i j : Nat) :
    (s.setFlag f b w i j).cross = s.cross := rfl
@[simp] theorem State.setFlag_decls (s : State) (f : Fld) (b : Bool) (w i j : Nat) :
    (s.setFlag f b w i j).decls = s.decls := rfl
@[simp] theorem State.setFlag_xfl (s : State) (f : Fld) (b : Bool) (w i j : Nat) :
    (s.setFlag f b w i j).xfl = s.xfl := rfl
@[simp] theorem State.setFlag_streams (s : State) (f : Fld) (b : Bool) (w i j : Nat) :
    (s.setFlag f b w i j).streams = s.streams := rfl
@[simp] theorem State.setFlag_spr (s : State) (f : Fld) (b : Bool) (w i j : Nat) :
    (s.setFlag f b w i j).spr = s.spr := rfl
@[simp] theorem State.setFlag_tsk (s : State) (f : Fld) (b : Bool) (w i j : Nat) :
    (s.setFlag f b w i j).tsk = s.tsk := rfl
@[simp] theorem State.setFlag_resv (s : State) (f : Fld) (b : Bool) (w i j : Nat) :
    (s.setFlag f b w i j).resv = s.resv := rfl
@[simp] theorem State.setFlag_accIn (s : State) (f : Fld) (b : Bool) (w i j : Nat) :
    (s.setFlag f b w i j).accIn = s.accIn := rfl
@[simp] theorem State.setFlag_events (s : State) (f : Fld) (b : Bool) (w i j : Nat) :
    (s.setFlag f b w i j).events = s.events := rfl
@[simp] theorem State.setFlag_qps (s : State) (f : Fld) (b : Bool) (w i j : Nat) :
    (s.setFlag f b w i j).qps = s.qps := rfl
@[simp] theorem State.setFlag_ethTx (s : State) (f : Fld) (b : Bool) (w i j : Nat) :
    (s.setFlag f b w i j).ethTx = s.ethTx := rfl
@[simp] theorem State.setFlag_prmIn (s : State) (f : Fld) (b : Bool) (w i j : Nat) :
    (s.setFlag f b w i j).prmIn = s.prmIn := rfl
@[simp] theorem State.setFlag_prmOut (s : State) (f : Fld) (b : Bool) (w i j : Nat) :
    (s.setFlag f b w i j).prmOut = s.prmOut := rfl
@[simp] theorem State.setFlag_prmRx (s : State) (f : Fld) (b : Bool) (w i j : Nat) :
    (s.setFlag f b w i j).prmRx = s.prmRx := rfl
@[simp] theorem State.setFlag_prmReq (s : State) (f : Fld) (b : Bool) (w i j : Nat) :
    (s.setFlag f b w i j).prmReq = s.prmReq := rfl
@[simp] theorem State.setFlag_annexOut (s : State) (f : Fld) (b : Bool) (w i j : Nat) :
    (s.setFlag f b w i j).annexOut = s.annexOut := rfl
@[simp] theorem State.setFlag_lrt (s : State) (f : Fld) (b : Bool) (w i j : Nat) :
    (s.setFlag f b w i j).lrt = s.lrt := rfl
@[simp] theorem State.setFlag_tio (s : State) (f : Fld) (b : Bool) (w i j : Nat) :
    (s.setFlag f b w i j).tio = s.tio := rfl
@[simp] theorem State.setFlag_telQ (s : State) (f : Fld) (b : Bool) (w i j : Nat) :
    (s.setFlag f b w i j).telQ = s.telQ := rfl
@[simp] theorem State.setFlag_telIntake (s : State) (f : Fld) (b : Bool) (w i j : Nat) :
    (s.setFlag f b w i j).telIntake = s.telIntake := rfl
@[simp] theorem State.setFlag_loadInit (s : State) (f : Fld) (b : Bool) (w i j : Nat) :
    (s.setFlag f b w i j).loadInit = s.loadInit := rfl
@[simp] theorem State.setFlag_lodges (s : State) (f : Fld) (b : Bool) (w i j : Nat) :
    (s.setFlag f b w i j).lodges = s.lodges := rfl
@[simp] theorem State.setFlag_gpioTx (s : State) (f : Fld) (b : Bool) (w i j : Nat) :
    (s.setFlag f b w i j).gpioTx = s.gpioTx := rfl
@[simp] theorem State.setFlag_gpioRx (s : State) (f : Fld) (b : Bool) (w i j : Nat) :
    (s.setFlag f b w i j).gpioRx = s.gpioRx := rfl
@[simp] theorem State.setFlag_sport (s : State) (f : Fld) (b : Bool) (w i j : Nat) :
    (s.setFlag f b w i j).sport = s.sport := rfl
@[simp] theorem State.setFlag_peekSnap (s : State) (f : Fld) (b : Bool) (w i j : Nat) :
    (s.setFlag f b w i j).peekSnap = s.peekSnap := rfl
@[simp] theorem State.setFlag_pending (s : State) (f : Fld) (b : Bool) (w i j : Nat) :
    (s.setFlag f b w i j).pending = s.pending := rfl

/-! ### State.addFld -/

@[simp] theorem State.addFld_time (s : State) (f : Fld) (n w i j : Nat) :
    (s.addFld f n w i j).time = s.time := rfl
@[simp] theorem State.addFld_free (s : State) (f : Fld) (n w i j : Nat) :
    (s.addFld f n w i j).free = s.free := rfl
@[simp] theorem State.addFld_fuses (s : State) (f : Fld) (n w i j : Nat) :
    (s.addFld f n w i j).fuses = s.fuses := rfl
@[simp] theorem State.addFld_stage (s : State) (f : Fld) (n w i j : Nat) :
    (s.addFld f n w i j).stage = s.stage := rfl
@[simp] theorem State.addFld_snap (s : State) (f : Fld) (n w i j : Nat) :
    (s.addFld f n w i j).snap = s.snap := rfl
@[simp] theorem State.addFld_hid (s : State) (f : Fld) (n w i j : Nat) :
    (s.addFld f n w i j).hid = s.hid := rfl
@[simp] theorem State.addFld_mem (s : State) (f : Fld) (n w i j : Nat) :
    (s.addFld f n w i j).mem = s.mem := rfl
@[simp] theorem State.addFld_undef (s : State) (f : Fld) (n w i j : Nat) :
    (s.addFld f n w i j).undef = s.undef := rfl
@[simp] theorem State.addFld_lq (s : State) (f : Fld) (n w i j : Nat) :
    (s.addFld f n w i j).lq = s.lq := rfl
@[simp] theorem State.addFld_psamp (s : State) (f : Fld) (n w i j : Nat) :
    (s.addFld f n w i j).psamp = s.psamp := rfl
@[simp] theorem State.addFld_domeRq (s : State) (f : Fld) (n w i j : Nat) :
    (s.addFld f n w i j).domeRq = s.domeRq := rfl
@[simp] theorem State.addFld_domeWq (s : State) (f : Fld) (n w i j : Nat) :
    (s.addFld f n w i j).domeWq = s.domeWq := rfl
@[simp] theorem State.addFld_domeIssued (s : State) (f : Fld) (n w i j : Nat) :
    (s.addFld f n w i j).domeIssued = s.domeIssued := rfl
@[simp] theorem State.addFld_domeNrf (s : State) (f : Fld) (n w i j : Nat) :
    (s.addFld f n w i j).domeNrf = s.domeNrf := rfl
@[simp] theorem State.addFld_domeTxns (s : State) (f : Fld) (n w i j : Nat) :
    (s.addFld f n w i j).domeTxns = s.domeTxns := rfl
@[simp] theorem State.addFld_shots (s : State) (f : Fld) (n w i j : Nat) :
    (s.addFld f n w i j).shots = s.shots := rfl
@[simp] theorem State.addFld_pinSeen (s : State) (f : Fld) (n w i j : Nat) :
    (s.addFld f n w i j).pinSeen = s.pinSeen := rfl
@[simp] theorem State.addFld_keyCache (s : State) (f : Fld) (n w i j : Nat) :
    (s.addFld f n w i j).keyCache = s.keyCache := rfl
@[simp] theorem State.addFld_strmWait (s : State) (f : Fld) (n w i j : Nat) :
    (s.addFld f n w i j).strmWait = s.strmWait := rfl
@[simp] theorem State.addFld_plots (s : State) (f : Fld) (n w i j : Nat) :
    (s.addFld f n w i j).plots = s.plots := rfl
@[simp] theorem State.addFld_cross (s : State) (f : Fld) (n w i j : Nat) :
    (s.addFld f n w i j).cross = s.cross := rfl
@[simp] theorem State.addFld_decls (s : State) (f : Fld) (n w i j : Nat) :
    (s.addFld f n w i j).decls = s.decls := rfl
@[simp] theorem State.addFld_xfl (s : State) (f : Fld) (n w i j : Nat) :
    (s.addFld f n w i j).xfl = s.xfl := rfl
@[simp] theorem State.addFld_streams (s : State) (f : Fld) (n w i j : Nat) :
    (s.addFld f n w i j).streams = s.streams := rfl
@[simp] theorem State.addFld_spr (s : State) (f : Fld) (n w i j : Nat) :
    (s.addFld f n w i j).spr = s.spr := rfl
@[simp] theorem State.addFld_tsk (s : State) (f : Fld) (n w i j : Nat) :
    (s.addFld f n w i j).tsk = s.tsk := rfl
@[simp] theorem State.addFld_resv (s : State) (f : Fld) (n w i j : Nat) :
    (s.addFld f n w i j).resv = s.resv := rfl
@[simp] theorem State.addFld_accIn (s : State) (f : Fld) (n w i j : Nat) :
    (s.addFld f n w i j).accIn = s.accIn := rfl
@[simp] theorem State.addFld_events (s : State) (f : Fld) (n w i j : Nat) :
    (s.addFld f n w i j).events = s.events := rfl
@[simp] theorem State.addFld_qps (s : State) (f : Fld) (n w i j : Nat) :
    (s.addFld f n w i j).qps = s.qps := rfl
@[simp] theorem State.addFld_ethTx (s : State) (f : Fld) (n w i j : Nat) :
    (s.addFld f n w i j).ethTx = s.ethTx := rfl
@[simp] theorem State.addFld_prmIn (s : State) (f : Fld) (n w i j : Nat) :
    (s.addFld f n w i j).prmIn = s.prmIn := rfl
@[simp] theorem State.addFld_prmOut (s : State) (f : Fld) (n w i j : Nat) :
    (s.addFld f n w i j).prmOut = s.prmOut := rfl
@[simp] theorem State.addFld_prmRx (s : State) (f : Fld) (n w i j : Nat) :
    (s.addFld f n w i j).prmRx = s.prmRx := rfl
@[simp] theorem State.addFld_prmReq (s : State) (f : Fld) (n w i j : Nat) :
    (s.addFld f n w i j).prmReq = s.prmReq := rfl
@[simp] theorem State.addFld_annexOut (s : State) (f : Fld) (n w i j : Nat) :
    (s.addFld f n w i j).annexOut = s.annexOut := rfl
@[simp] theorem State.addFld_lrt (s : State) (f : Fld) (n w i j : Nat) :
    (s.addFld f n w i j).lrt = s.lrt := rfl
@[simp] theorem State.addFld_tio (s : State) (f : Fld) (n w i j : Nat) :
    (s.addFld f n w i j).tio = s.tio := rfl
@[simp] theorem State.addFld_telQ (s : State) (f : Fld) (n w i j : Nat) :
    (s.addFld f n w i j).telQ = s.telQ := rfl
@[simp] theorem State.addFld_telIntake (s : State) (f : Fld) (n w i j : Nat) :
    (s.addFld f n w i j).telIntake = s.telIntake := rfl
@[simp] theorem State.addFld_loadInit (s : State) (f : Fld) (n w i j : Nat) :
    (s.addFld f n w i j).loadInit = s.loadInit := rfl
@[simp] theorem State.addFld_lodges (s : State) (f : Fld) (n w i j : Nat) :
    (s.addFld f n w i j).lodges = s.lodges := rfl
@[simp] theorem State.addFld_gpioTx (s : State) (f : Fld) (n w i j : Nat) :
    (s.addFld f n w i j).gpioTx = s.gpioTx := rfl
@[simp] theorem State.addFld_gpioRx (s : State) (f : Fld) (n w i j : Nat) :
    (s.addFld f n w i j).gpioRx = s.gpioRx := rfl
@[simp] theorem State.addFld_sport (s : State) (f : Fld) (n w i j : Nat) :
    (s.addFld f n w i j).sport = s.sport := rfl
@[simp] theorem State.addFld_peekSnap (s : State) (f : Fld) (n w i j : Nat) :
    (s.addFld f n w i j).peekSnap = s.peekSnap := rfl
@[simp] theorem State.addFld_pending (s : State) (f : Fld) (n w i j : Nat) :
    (s.addFld f n w i j).pending = s.pending := rfl

/-! ### State.satFld -/

@[simp] theorem State.satFld_time (s : State) (f : Fld) (n w i j : Nat) :
    (s.satFld f n w i j).time = s.time := rfl
@[simp] theorem State.satFld_free (s : State) (f : Fld) (n w i j : Nat) :
    (s.satFld f n w i j).free = s.free := rfl
@[simp] theorem State.satFld_fuses (s : State) (f : Fld) (n w i j : Nat) :
    (s.satFld f n w i j).fuses = s.fuses := rfl
@[simp] theorem State.satFld_stage (s : State) (f : Fld) (n w i j : Nat) :
    (s.satFld f n w i j).stage = s.stage := rfl
@[simp] theorem State.satFld_snap (s : State) (f : Fld) (n w i j : Nat) :
    (s.satFld f n w i j).snap = s.snap := rfl
@[simp] theorem State.satFld_hid (s : State) (f : Fld) (n w i j : Nat) :
    (s.satFld f n w i j).hid = s.hid := rfl
@[simp] theorem State.satFld_mem (s : State) (f : Fld) (n w i j : Nat) :
    (s.satFld f n w i j).mem = s.mem := rfl
@[simp] theorem State.satFld_undef (s : State) (f : Fld) (n w i j : Nat) :
    (s.satFld f n w i j).undef = s.undef := rfl
@[simp] theorem State.satFld_lq (s : State) (f : Fld) (n w i j : Nat) :
    (s.satFld f n w i j).lq = s.lq := rfl
@[simp] theorem State.satFld_psamp (s : State) (f : Fld) (n w i j : Nat) :
    (s.satFld f n w i j).psamp = s.psamp := rfl
@[simp] theorem State.satFld_domeRq (s : State) (f : Fld) (n w i j : Nat) :
    (s.satFld f n w i j).domeRq = s.domeRq := rfl
@[simp] theorem State.satFld_domeWq (s : State) (f : Fld) (n w i j : Nat) :
    (s.satFld f n w i j).domeWq = s.domeWq := rfl
@[simp] theorem State.satFld_domeIssued (s : State) (f : Fld) (n w i j : Nat) :
    (s.satFld f n w i j).domeIssued = s.domeIssued := rfl
@[simp] theorem State.satFld_domeNrf (s : State) (f : Fld) (n w i j : Nat) :
    (s.satFld f n w i j).domeNrf = s.domeNrf := rfl
@[simp] theorem State.satFld_domeTxns (s : State) (f : Fld) (n w i j : Nat) :
    (s.satFld f n w i j).domeTxns = s.domeTxns := rfl
@[simp] theorem State.satFld_shots (s : State) (f : Fld) (n w i j : Nat) :
    (s.satFld f n w i j).shots = s.shots := rfl
@[simp] theorem State.satFld_pinSeen (s : State) (f : Fld) (n w i j : Nat) :
    (s.satFld f n w i j).pinSeen = s.pinSeen := rfl
@[simp] theorem State.satFld_keyCache (s : State) (f : Fld) (n w i j : Nat) :
    (s.satFld f n w i j).keyCache = s.keyCache := rfl
@[simp] theorem State.satFld_strmWait (s : State) (f : Fld) (n w i j : Nat) :
    (s.satFld f n w i j).strmWait = s.strmWait := rfl
@[simp] theorem State.satFld_plots (s : State) (f : Fld) (n w i j : Nat) :
    (s.satFld f n w i j).plots = s.plots := rfl
@[simp] theorem State.satFld_cross (s : State) (f : Fld) (n w i j : Nat) :
    (s.satFld f n w i j).cross = s.cross := rfl
@[simp] theorem State.satFld_decls (s : State) (f : Fld) (n w i j : Nat) :
    (s.satFld f n w i j).decls = s.decls := rfl
@[simp] theorem State.satFld_xfl (s : State) (f : Fld) (n w i j : Nat) :
    (s.satFld f n w i j).xfl = s.xfl := rfl
@[simp] theorem State.satFld_streams (s : State) (f : Fld) (n w i j : Nat) :
    (s.satFld f n w i j).streams = s.streams := rfl
@[simp] theorem State.satFld_spr (s : State) (f : Fld) (n w i j : Nat) :
    (s.satFld f n w i j).spr = s.spr := rfl
@[simp] theorem State.satFld_tsk (s : State) (f : Fld) (n w i j : Nat) :
    (s.satFld f n w i j).tsk = s.tsk := rfl
@[simp] theorem State.satFld_resv (s : State) (f : Fld) (n w i j : Nat) :
    (s.satFld f n w i j).resv = s.resv := rfl
@[simp] theorem State.satFld_accIn (s : State) (f : Fld) (n w i j : Nat) :
    (s.satFld f n w i j).accIn = s.accIn := rfl
@[simp] theorem State.satFld_events (s : State) (f : Fld) (n w i j : Nat) :
    (s.satFld f n w i j).events = s.events := rfl
@[simp] theorem State.satFld_qps (s : State) (f : Fld) (n w i j : Nat) :
    (s.satFld f n w i j).qps = s.qps := rfl
@[simp] theorem State.satFld_ethTx (s : State) (f : Fld) (n w i j : Nat) :
    (s.satFld f n w i j).ethTx = s.ethTx := rfl
@[simp] theorem State.satFld_prmIn (s : State) (f : Fld) (n w i j : Nat) :
    (s.satFld f n w i j).prmIn = s.prmIn := rfl
@[simp] theorem State.satFld_prmOut (s : State) (f : Fld) (n w i j : Nat) :
    (s.satFld f n w i j).prmOut = s.prmOut := rfl
@[simp] theorem State.satFld_prmRx (s : State) (f : Fld) (n w i j : Nat) :
    (s.satFld f n w i j).prmRx = s.prmRx := rfl
@[simp] theorem State.satFld_prmReq (s : State) (f : Fld) (n w i j : Nat) :
    (s.satFld f n w i j).prmReq = s.prmReq := rfl
@[simp] theorem State.satFld_annexOut (s : State) (f : Fld) (n w i j : Nat) :
    (s.satFld f n w i j).annexOut = s.annexOut := rfl
@[simp] theorem State.satFld_lrt (s : State) (f : Fld) (n w i j : Nat) :
    (s.satFld f n w i j).lrt = s.lrt := rfl
@[simp] theorem State.satFld_tio (s : State) (f : Fld) (n w i j : Nat) :
    (s.satFld f n w i j).tio = s.tio := rfl
@[simp] theorem State.satFld_telQ (s : State) (f : Fld) (n w i j : Nat) :
    (s.satFld f n w i j).telQ = s.telQ := rfl
@[simp] theorem State.satFld_telIntake (s : State) (f : Fld) (n w i j : Nat) :
    (s.satFld f n w i j).telIntake = s.telIntake := rfl
@[simp] theorem State.satFld_loadInit (s : State) (f : Fld) (n w i j : Nat) :
    (s.satFld f n w i j).loadInit = s.loadInit := rfl
@[simp] theorem State.satFld_lodges (s : State) (f : Fld) (n w i j : Nat) :
    (s.satFld f n w i j).lodges = s.lodges := rfl
@[simp] theorem State.satFld_gpioTx (s : State) (f : Fld) (n w i j : Nat) :
    (s.satFld f n w i j).gpioTx = s.gpioTx := rfl
@[simp] theorem State.satFld_gpioRx (s : State) (f : Fld) (n w i j : Nat) :
    (s.satFld f n w i j).gpioRx = s.gpioRx := rfl
@[simp] theorem State.satFld_sport (s : State) (f : Fld) (n w i j : Nat) :
    (s.satFld f n w i j).sport = s.sport := rfl
@[simp] theorem State.satFld_peekSnap (s : State) (f : Fld) (n w i j : Nat) :
    (s.satFld f n w i j).peekSnap = s.peekSnap := rfl
@[simp] theorem State.satFld_pending (s : State) (f : Fld) (n w i j : Nat) :
    (s.satFld f n w i j).pending = s.pending := rfl

/-! ### State.setBit -/

@[simp] theorem State.setBit_time (s : State) (id : RegId) (b : Nat) (v : Bool) (w i j : Nat) :
    (s.setBit id b v w i j).time = s.time := rfl
@[simp] theorem State.setBit_free (s : State) (id : RegId) (b : Nat) (v : Bool) (w i j : Nat) :
    (s.setBit id b v w i j).free = s.free := rfl
@[simp] theorem State.setBit_fuses (s : State) (id : RegId) (b : Nat) (v : Bool) (w i j : Nat) :
    (s.setBit id b v w i j).fuses = s.fuses := rfl
@[simp] theorem State.setBit_stage (s : State) (id : RegId) (b : Nat) (v : Bool) (w i j : Nat) :
    (s.setBit id b v w i j).stage = s.stage := rfl
@[simp] theorem State.setBit_snap (s : State) (id : RegId) (b : Nat) (v : Bool) (w i j : Nat) :
    (s.setBit id b v w i j).snap = s.snap := rfl
@[simp] theorem State.setBit_hid (s : State) (id : RegId) (b : Nat) (v : Bool) (w i j : Nat) :
    (s.setBit id b v w i j).hid = s.hid := rfl
@[simp] theorem State.setBit_mem (s : State) (id : RegId) (b : Nat) (v : Bool) (w i j : Nat) :
    (s.setBit id b v w i j).mem = s.mem := rfl
@[simp] theorem State.setBit_undef (s : State) (id : RegId) (b : Nat) (v : Bool) (w i j : Nat) :
    (s.setBit id b v w i j).undef = s.undef := rfl
@[simp] theorem State.setBit_lq (s : State) (id : RegId) (b : Nat) (v : Bool) (w i j : Nat) :
    (s.setBit id b v w i j).lq = s.lq := rfl
@[simp] theorem State.setBit_psamp (s : State) (id : RegId) (b : Nat) (v : Bool) (w i j : Nat) :
    (s.setBit id b v w i j).psamp = s.psamp := rfl
@[simp] theorem State.setBit_domeRq (s : State) (id : RegId) (b : Nat) (v : Bool) (w i j : Nat) :
    (s.setBit id b v w i j).domeRq = s.domeRq := rfl
@[simp] theorem State.setBit_domeWq (s : State) (id : RegId) (b : Nat) (v : Bool) (w i j : Nat) :
    (s.setBit id b v w i j).domeWq = s.domeWq := rfl
@[simp] theorem State.setBit_domeIssued (s : State) (id : RegId) (b : Nat) (v : Bool) (w i j : Nat) :
    (s.setBit id b v w i j).domeIssued = s.domeIssued := rfl
@[simp] theorem State.setBit_domeNrf (s : State) (id : RegId) (b : Nat) (v : Bool) (w i j : Nat) :
    (s.setBit id b v w i j).domeNrf = s.domeNrf := rfl
@[simp] theorem State.setBit_domeTxns (s : State) (id : RegId) (b : Nat) (v : Bool) (w i j : Nat) :
    (s.setBit id b v w i j).domeTxns = s.domeTxns := rfl
@[simp] theorem State.setBit_shots (s : State) (id : RegId) (b : Nat) (v : Bool) (w i j : Nat) :
    (s.setBit id b v w i j).shots = s.shots := rfl
@[simp] theorem State.setBit_pinSeen (s : State) (id : RegId) (b : Nat) (v : Bool) (w i j : Nat) :
    (s.setBit id b v w i j).pinSeen = s.pinSeen := rfl
@[simp] theorem State.setBit_keyCache (s : State) (id : RegId) (b : Nat) (v : Bool) (w i j : Nat) :
    (s.setBit id b v w i j).keyCache = s.keyCache := rfl
@[simp] theorem State.setBit_strmWait (s : State) (id : RegId) (b : Nat) (v : Bool) (w i j : Nat) :
    (s.setBit id b v w i j).strmWait = s.strmWait := rfl
@[simp] theorem State.setBit_plots (s : State) (id : RegId) (b : Nat) (v : Bool) (w i j : Nat) :
    (s.setBit id b v w i j).plots = s.plots := rfl
@[simp] theorem State.setBit_cross (s : State) (id : RegId) (b : Nat) (v : Bool) (w i j : Nat) :
    (s.setBit id b v w i j).cross = s.cross := rfl
@[simp] theorem State.setBit_decls (s : State) (id : RegId) (b : Nat) (v : Bool) (w i j : Nat) :
    (s.setBit id b v w i j).decls = s.decls := rfl
@[simp] theorem State.setBit_xfl (s : State) (id : RegId) (b : Nat) (v : Bool) (w i j : Nat) :
    (s.setBit id b v w i j).xfl = s.xfl := rfl
@[simp] theorem State.setBit_streams (s : State) (id : RegId) (b : Nat) (v : Bool) (w i j : Nat) :
    (s.setBit id b v w i j).streams = s.streams := rfl
@[simp] theorem State.setBit_spr (s : State) (id : RegId) (b : Nat) (v : Bool) (w i j : Nat) :
    (s.setBit id b v w i j).spr = s.spr := rfl
@[simp] theorem State.setBit_tsk (s : State) (id : RegId) (b : Nat) (v : Bool) (w i j : Nat) :
    (s.setBit id b v w i j).tsk = s.tsk := rfl
@[simp] theorem State.setBit_resv (s : State) (id : RegId) (b : Nat) (v : Bool) (w i j : Nat) :
    (s.setBit id b v w i j).resv = s.resv := rfl
@[simp] theorem State.setBit_accIn (s : State) (id : RegId) (b : Nat) (v : Bool) (w i j : Nat) :
    (s.setBit id b v w i j).accIn = s.accIn := rfl
@[simp] theorem State.setBit_events (s : State) (id : RegId) (b : Nat) (v : Bool) (w i j : Nat) :
    (s.setBit id b v w i j).events = s.events := rfl
@[simp] theorem State.setBit_qps (s : State) (id : RegId) (b : Nat) (v : Bool) (w i j : Nat) :
    (s.setBit id b v w i j).qps = s.qps := rfl
@[simp] theorem State.setBit_ethTx (s : State) (id : RegId) (b : Nat) (v : Bool) (w i j : Nat) :
    (s.setBit id b v w i j).ethTx = s.ethTx := rfl
@[simp] theorem State.setBit_prmIn (s : State) (id : RegId) (b : Nat) (v : Bool) (w i j : Nat) :
    (s.setBit id b v w i j).prmIn = s.prmIn := rfl
@[simp] theorem State.setBit_prmOut (s : State) (id : RegId) (b : Nat) (v : Bool) (w i j : Nat) :
    (s.setBit id b v w i j).prmOut = s.prmOut := rfl
@[simp] theorem State.setBit_prmRx (s : State) (id : RegId) (b : Nat) (v : Bool) (w i j : Nat) :
    (s.setBit id b v w i j).prmRx = s.prmRx := rfl
@[simp] theorem State.setBit_prmReq (s : State) (id : RegId) (b : Nat) (v : Bool) (w i j : Nat) :
    (s.setBit id b v w i j).prmReq = s.prmReq := rfl
@[simp] theorem State.setBit_annexOut (s : State) (id : RegId) (b : Nat) (v : Bool) (w i j : Nat) :
    (s.setBit id b v w i j).annexOut = s.annexOut := rfl
@[simp] theorem State.setBit_lrt (s : State) (id : RegId) (b : Nat) (v : Bool) (w i j : Nat) :
    (s.setBit id b v w i j).lrt = s.lrt := rfl
@[simp] theorem State.setBit_tio (s : State) (id : RegId) (b : Nat) (v : Bool) (w i j : Nat) :
    (s.setBit id b v w i j).tio = s.tio := rfl
@[simp] theorem State.setBit_telQ (s : State) (id : RegId) (b : Nat) (v : Bool) (w i j : Nat) :
    (s.setBit id b v w i j).telQ = s.telQ := rfl
@[simp] theorem State.setBit_telIntake (s : State) (id : RegId) (b : Nat) (v : Bool) (w i j : Nat) :
    (s.setBit id b v w i j).telIntake = s.telIntake := rfl
@[simp] theorem State.setBit_loadInit (s : State) (id : RegId) (b : Nat) (v : Bool) (w i j : Nat) :
    (s.setBit id b v w i j).loadInit = s.loadInit := rfl
@[simp] theorem State.setBit_lodges (s : State) (id : RegId) (b : Nat) (v : Bool) (w i j : Nat) :
    (s.setBit id b v w i j).lodges = s.lodges := rfl
@[simp] theorem State.setBit_gpioTx (s : State) (id : RegId) (b : Nat) (v : Bool) (w i j : Nat) :
    (s.setBit id b v w i j).gpioTx = s.gpioTx := rfl
@[simp] theorem State.setBit_gpioRx (s : State) (id : RegId) (b : Nat) (v : Bool) (w i j : Nat) :
    (s.setBit id b v w i j).gpioRx = s.gpioRx := rfl
@[simp] theorem State.setBit_sport (s : State) (id : RegId) (b : Nat) (v : Bool) (w i j : Nat) :
    (s.setBit id b v w i j).sport = s.sport := rfl
@[simp] theorem State.setBit_peekSnap (s : State) (id : RegId) (b : Nat) (v : Bool) (w i j : Nat) :
    (s.setBit id b v w i j).peekSnap = s.peekSnap := rfl
@[simp] theorem State.setBit_pending (s : State) (id : RegId) (b : Nat) (v : Bool) (w i j : Nat) :
    (s.setBit id b v w i j).pending = s.pending := rfl

/-! ### State.setH -/

@[simp] theorem State.setH_time (s : State) (k : Hid) (v w i j : Nat) :
    (s.setH k v w i j).time = s.time := rfl
@[simp] theorem State.setH_free (s : State) (k : Hid) (v w i j : Nat) :
    (s.setH k v w i j).free = s.free := rfl
@[simp] theorem State.setH_fuses (s : State) (k : Hid) (v w i j : Nat) :
    (s.setH k v w i j).fuses = s.fuses := rfl
@[simp] theorem State.setH_regs (s : State) (k : Hid) (v w i j : Nat) :
    (s.setH k v w i j).regs = s.regs := rfl
@[simp] theorem State.setH_stage (s : State) (k : Hid) (v w i j : Nat) :
    (s.setH k v w i j).stage = s.stage := rfl
@[simp] theorem State.setH_snap (s : State) (k : Hid) (v w i j : Nat) :
    (s.setH k v w i j).snap = s.snap := rfl
@[simp] theorem State.setH_mem (s : State) (k : Hid) (v w i j : Nat) :
    (s.setH k v w i j).mem = s.mem := rfl
@[simp] theorem State.setH_undef (s : State) (k : Hid) (v w i j : Nat) :
    (s.setH k v w i j).undef = s.undef := rfl
@[simp] theorem State.setH_lq (s : State) (k : Hid) (v w i j : Nat) :
    (s.setH k v w i j).lq = s.lq := rfl
@[simp] theorem State.setH_psamp (s : State) (k : Hid) (v w i j : Nat) :
    (s.setH k v w i j).psamp = s.psamp := rfl
@[simp] theorem State.setH_domeRq (s : State) (k : Hid) (v w i j : Nat) :
    (s.setH k v w i j).domeRq = s.domeRq := rfl
@[simp] theorem State.setH_domeWq (s : State) (k : Hid) (v w i j : Nat) :
    (s.setH k v w i j).domeWq = s.domeWq := rfl
@[simp] theorem State.setH_domeIssued (s : State) (k : Hid) (v w i j : Nat) :
    (s.setH k v w i j).domeIssued = s.domeIssued := rfl
@[simp] theorem State.setH_domeNrf (s : State) (k : Hid) (v w i j : Nat) :
    (s.setH k v w i j).domeNrf = s.domeNrf := rfl
@[simp] theorem State.setH_domeTxns (s : State) (k : Hid) (v w i j : Nat) :
    (s.setH k v w i j).domeTxns = s.domeTxns := rfl
@[simp] theorem State.setH_shots (s : State) (k : Hid) (v w i j : Nat) :
    (s.setH k v w i j).shots = s.shots := rfl
@[simp] theorem State.setH_pinSeen (s : State) (k : Hid) (v w i j : Nat) :
    (s.setH k v w i j).pinSeen = s.pinSeen := rfl
@[simp] theorem State.setH_keyCache (s : State) (k : Hid) (v w i j : Nat) :
    (s.setH k v w i j).keyCache = s.keyCache := rfl
@[simp] theorem State.setH_strmWait (s : State) (k : Hid) (v w i j : Nat) :
    (s.setH k v w i j).strmWait = s.strmWait := rfl
@[simp] theorem State.setH_plots (s : State) (k : Hid) (v w i j : Nat) :
    (s.setH k v w i j).plots = s.plots := rfl
@[simp] theorem State.setH_cross (s : State) (k : Hid) (v w i j : Nat) :
    (s.setH k v w i j).cross = s.cross := rfl
@[simp] theorem State.setH_decls (s : State) (k : Hid) (v w i j : Nat) :
    (s.setH k v w i j).decls = s.decls := rfl
@[simp] theorem State.setH_xfl (s : State) (k : Hid) (v w i j : Nat) :
    (s.setH k v w i j).xfl = s.xfl := rfl
@[simp] theorem State.setH_streams (s : State) (k : Hid) (v w i j : Nat) :
    (s.setH k v w i j).streams = s.streams := rfl
@[simp] theorem State.setH_spr (s : State) (k : Hid) (v w i j : Nat) :
    (s.setH k v w i j).spr = s.spr := rfl
@[simp] theorem State.setH_tsk (s : State) (k : Hid) (v w i j : Nat) :
    (s.setH k v w i j).tsk = s.tsk := rfl
@[simp] theorem State.setH_resv (s : State) (k : Hid) (v w i j : Nat) :
    (s.setH k v w i j).resv = s.resv := rfl
@[simp] theorem State.setH_accIn (s : State) (k : Hid) (v w i j : Nat) :
    (s.setH k v w i j).accIn = s.accIn := rfl
@[simp] theorem State.setH_events (s : State) (k : Hid) (v w i j : Nat) :
    (s.setH k v w i j).events = s.events := rfl
@[simp] theorem State.setH_qps (s : State) (k : Hid) (v w i j : Nat) :
    (s.setH k v w i j).qps = s.qps := rfl
@[simp] theorem State.setH_ethTx (s : State) (k : Hid) (v w i j : Nat) :
    (s.setH k v w i j).ethTx = s.ethTx := rfl
@[simp] theorem State.setH_prmIn (s : State) (k : Hid) (v w i j : Nat) :
    (s.setH k v w i j).prmIn = s.prmIn := rfl
@[simp] theorem State.setH_prmOut (s : State) (k : Hid) (v w i j : Nat) :
    (s.setH k v w i j).prmOut = s.prmOut := rfl
@[simp] theorem State.setH_prmRx (s : State) (k : Hid) (v w i j : Nat) :
    (s.setH k v w i j).prmRx = s.prmRx := rfl
@[simp] theorem State.setH_prmReq (s : State) (k : Hid) (v w i j : Nat) :
    (s.setH k v w i j).prmReq = s.prmReq := rfl
@[simp] theorem State.setH_annexOut (s : State) (k : Hid) (v w i j : Nat) :
    (s.setH k v w i j).annexOut = s.annexOut := rfl
@[simp] theorem State.setH_lrt (s : State) (k : Hid) (v w i j : Nat) :
    (s.setH k v w i j).lrt = s.lrt := rfl
@[simp] theorem State.setH_tio (s : State) (k : Hid) (v w i j : Nat) :
    (s.setH k v w i j).tio = s.tio := rfl
@[simp] theorem State.setH_telQ (s : State) (k : Hid) (v w i j : Nat) :
    (s.setH k v w i j).telQ = s.telQ := rfl
@[simp] theorem State.setH_telIntake (s : State) (k : Hid) (v w i j : Nat) :
    (s.setH k v w i j).telIntake = s.telIntake := rfl
@[simp] theorem State.setH_loadInit (s : State) (k : Hid) (v w i j : Nat) :
    (s.setH k v w i j).loadInit = s.loadInit := rfl
@[simp] theorem State.setH_lodges (s : State) (k : Hid) (v w i j : Nat) :
    (s.setH k v w i j).lodges = s.lodges := rfl
@[simp] theorem State.setH_gpioTx (s : State) (k : Hid) (v w i j : Nat) :
    (s.setH k v w i j).gpioTx = s.gpioTx := rfl
@[simp] theorem State.setH_gpioRx (s : State) (k : Hid) (v w i j : Nat) :
    (s.setH k v w i j).gpioRx = s.gpioRx := rfl
@[simp] theorem State.setH_sport (s : State) (k : Hid) (v w i j : Nat) :
    (s.setH k v w i j).sport = s.sport := rfl
@[simp] theorem State.setH_peekSnap (s : State) (k : Hid) (v w i j : Nat) :
    (s.setH k v w i j).peekSnap = s.peekSnap := rfl
@[simp] theorem State.setH_pending (s : State) (k : Hid) (v w i j : Nat) :
    (s.setH k v w i j).pending = s.pending := rfl

/-! ### State.stBytes -/

@[simp] theorem State.stBytes_time (s : State) (a : Nat) (vs : List Byte) :
    (s.stBytes a vs).time = s.time := rfl
@[simp] theorem State.stBytes_free (s : State) (a : Nat) (vs : List Byte) :
    (s.stBytes a vs).free = s.free := rfl
@[simp] theorem State.stBytes_fuses (s : State) (a : Nat) (vs : List Byte) :
    (s.stBytes a vs).fuses = s.fuses := rfl
@[simp] theorem State.stBytes_regs (s : State) (a : Nat) (vs : List Byte) :
    (s.stBytes a vs).regs = s.regs := rfl
@[simp] theorem State.stBytes_stage (s : State) (a : Nat) (vs : List Byte) :
    (s.stBytes a vs).stage = s.stage := rfl
@[simp] theorem State.stBytes_snap (s : State) (a : Nat) (vs : List Byte) :
    (s.stBytes a vs).snap = s.snap := rfl
@[simp] theorem State.stBytes_hid (s : State) (a : Nat) (vs : List Byte) :
    (s.stBytes a vs).hid = s.hid := rfl
@[simp] theorem State.stBytes_lq (s : State) (a : Nat) (vs : List Byte) :
    (s.stBytes a vs).lq = s.lq := rfl
@[simp] theorem State.stBytes_psamp (s : State) (a : Nat) (vs : List Byte) :
    (s.stBytes a vs).psamp = s.psamp := rfl
@[simp] theorem State.stBytes_domeRq (s : State) (a : Nat) (vs : List Byte) :
    (s.stBytes a vs).domeRq = s.domeRq := rfl
@[simp] theorem State.stBytes_domeWq (s : State) (a : Nat) (vs : List Byte) :
    (s.stBytes a vs).domeWq = s.domeWq := rfl
@[simp] theorem State.stBytes_domeIssued (s : State) (a : Nat) (vs : List Byte) :
    (s.stBytes a vs).domeIssued = s.domeIssued := rfl
@[simp] theorem State.stBytes_domeNrf (s : State) (a : Nat) (vs : List Byte) :
    (s.stBytes a vs).domeNrf = s.domeNrf := rfl
@[simp] theorem State.stBytes_domeTxns (s : State) (a : Nat) (vs : List Byte) :
    (s.stBytes a vs).domeTxns = s.domeTxns := rfl
@[simp] theorem State.stBytes_shots (s : State) (a : Nat) (vs : List Byte) :
    (s.stBytes a vs).shots = s.shots := rfl
@[simp] theorem State.stBytes_pinSeen (s : State) (a : Nat) (vs : List Byte) :
    (s.stBytes a vs).pinSeen = s.pinSeen := rfl
@[simp] theorem State.stBytes_keyCache (s : State) (a : Nat) (vs : List Byte) :
    (s.stBytes a vs).keyCache = s.keyCache := rfl
@[simp] theorem State.stBytes_strmWait (s : State) (a : Nat) (vs : List Byte) :
    (s.stBytes a vs).strmWait = s.strmWait := rfl
@[simp] theorem State.stBytes_plots (s : State) (a : Nat) (vs : List Byte) :
    (s.stBytes a vs).plots = s.plots := rfl
@[simp] theorem State.stBytes_cross (s : State) (a : Nat) (vs : List Byte) :
    (s.stBytes a vs).cross = s.cross := rfl
@[simp] theorem State.stBytes_decls (s : State) (a : Nat) (vs : List Byte) :
    (s.stBytes a vs).decls = s.decls := rfl
@[simp] theorem State.stBytes_xfl (s : State) (a : Nat) (vs : List Byte) :
    (s.stBytes a vs).xfl = s.xfl := rfl
@[simp] theorem State.stBytes_streams (s : State) (a : Nat) (vs : List Byte) :
    (s.stBytes a vs).streams = s.streams := rfl
@[simp] theorem State.stBytes_spr (s : State) (a : Nat) (vs : List Byte) :
    (s.stBytes a vs).spr = s.spr := rfl
@[simp] theorem State.stBytes_tsk (s : State) (a : Nat) (vs : List Byte) :
    (s.stBytes a vs).tsk = s.tsk := rfl
@[simp] theorem State.stBytes_resv (s : State) (a : Nat) (vs : List Byte) :
    (s.stBytes a vs).resv = s.resv := rfl
@[simp] theorem State.stBytes_accIn (s : State) (a : Nat) (vs : List Byte) :
    (s.stBytes a vs).accIn = s.accIn := rfl
@[simp] theorem State.stBytes_events (s : State) (a : Nat) (vs : List Byte) :
    (s.stBytes a vs).events = s.events := rfl
@[simp] theorem State.stBytes_qps (s : State) (a : Nat) (vs : List Byte) :
    (s.stBytes a vs).qps = s.qps := rfl
@[simp] theorem State.stBytes_ethTx (s : State) (a : Nat) (vs : List Byte) :
    (s.stBytes a vs).ethTx = s.ethTx := rfl
@[simp] theorem State.stBytes_prmIn (s : State) (a : Nat) (vs : List Byte) :
    (s.stBytes a vs).prmIn = s.prmIn := rfl
@[simp] theorem State.stBytes_prmOut (s : State) (a : Nat) (vs : List Byte) :
    (s.stBytes a vs).prmOut = s.prmOut := rfl
@[simp] theorem State.stBytes_prmRx (s : State) (a : Nat) (vs : List Byte) :
    (s.stBytes a vs).prmRx = s.prmRx := rfl
@[simp] theorem State.stBytes_prmReq (s : State) (a : Nat) (vs : List Byte) :
    (s.stBytes a vs).prmReq = s.prmReq := rfl
@[simp] theorem State.stBytes_annexOut (s : State) (a : Nat) (vs : List Byte) :
    (s.stBytes a vs).annexOut = s.annexOut := rfl
@[simp] theorem State.stBytes_lrt (s : State) (a : Nat) (vs : List Byte) :
    (s.stBytes a vs).lrt = s.lrt := rfl
@[simp] theorem State.stBytes_tio (s : State) (a : Nat) (vs : List Byte) :
    (s.stBytes a vs).tio = s.tio := rfl
@[simp] theorem State.stBytes_telQ (s : State) (a : Nat) (vs : List Byte) :
    (s.stBytes a vs).telQ = s.telQ := rfl
@[simp] theorem State.stBytes_telIntake (s : State) (a : Nat) (vs : List Byte) :
    (s.stBytes a vs).telIntake = s.telIntake := rfl
@[simp] theorem State.stBytes_loadInit (s : State) (a : Nat) (vs : List Byte) :
    (s.stBytes a vs).loadInit = s.loadInit := rfl
@[simp] theorem State.stBytes_lodges (s : State) (a : Nat) (vs : List Byte) :
    (s.stBytes a vs).lodges = s.lodges := rfl
@[simp] theorem State.stBytes_gpioTx (s : State) (a : Nat) (vs : List Byte) :
    (s.stBytes a vs).gpioTx = s.gpioTx := rfl
@[simp] theorem State.stBytes_gpioRx (s : State) (a : Nat) (vs : List Byte) :
    (s.stBytes a vs).gpioRx = s.gpioRx := rfl
@[simp] theorem State.stBytes_sport (s : State) (a : Nat) (vs : List Byte) :
    (s.stBytes a vs).sport = s.sport := rfl
@[simp] theorem State.stBytes_peekSnap (s : State) (a : Nat) (vs : List Byte) :
    (s.stBytes a vs).peekSnap = s.peekSnap := rfl
@[simp] theorem State.stBytes_pending (s : State) (a : Nat) (vs : List Byte) :
    (s.stBytes a vs).pending = s.pending := rfl

/-! ### State.stByte -/

@[simp] theorem State.stByte_time (s : State) (a : Nat) (v : Byte) :
    (s.stByte a v).time = s.time := rfl
@[simp] theorem State.stByte_free (s : State) (a : Nat) (v : Byte) :
    (s.stByte a v).free = s.free := rfl
@[simp] theorem State.stByte_fuses (s : State) (a : Nat) (v : Byte) :
    (s.stByte a v).fuses = s.fuses := rfl
@[simp] theorem State.stByte_regs (s : State) (a : Nat) (v : Byte) :
    (s.stByte a v).regs = s.regs := rfl
@[simp] theorem State.stByte_stage (s : State) (a : Nat) (v : Byte) :
    (s.stByte a v).stage = s.stage := rfl
@[simp] theorem State.stByte_snap (s : State) (a : Nat) (v : Byte) :
    (s.stByte a v).snap = s.snap := rfl
@[simp] theorem State.stByte_hid (s : State) (a : Nat) (v : Byte) :
    (s.stByte a v).hid = s.hid := rfl
@[simp] theorem State.stByte_lq (s : State) (a : Nat) (v : Byte) :
    (s.stByte a v).lq = s.lq := rfl
@[simp] theorem State.stByte_psamp (s : State) (a : Nat) (v : Byte) :
    (s.stByte a v).psamp = s.psamp := rfl
@[simp] theorem State.stByte_domeRq (s : State) (a : Nat) (v : Byte) :
    (s.stByte a v).domeRq = s.domeRq := rfl
@[simp] theorem State.stByte_domeWq (s : State) (a : Nat) (v : Byte) :
    (s.stByte a v).domeWq = s.domeWq := rfl
@[simp] theorem State.stByte_domeIssued (s : State) (a : Nat) (v : Byte) :
    (s.stByte a v).domeIssued = s.domeIssued := rfl
@[simp] theorem State.stByte_domeNrf (s : State) (a : Nat) (v : Byte) :
    (s.stByte a v).domeNrf = s.domeNrf := rfl
@[simp] theorem State.stByte_domeTxns (s : State) (a : Nat) (v : Byte) :
    (s.stByte a v).domeTxns = s.domeTxns := rfl
@[simp] theorem State.stByte_shots (s : State) (a : Nat) (v : Byte) :
    (s.stByte a v).shots = s.shots := rfl
@[simp] theorem State.stByte_pinSeen (s : State) (a : Nat) (v : Byte) :
    (s.stByte a v).pinSeen = s.pinSeen := rfl
@[simp] theorem State.stByte_keyCache (s : State) (a : Nat) (v : Byte) :
    (s.stByte a v).keyCache = s.keyCache := rfl
@[simp] theorem State.stByte_strmWait (s : State) (a : Nat) (v : Byte) :
    (s.stByte a v).strmWait = s.strmWait := rfl
@[simp] theorem State.stByte_plots (s : State) (a : Nat) (v : Byte) :
    (s.stByte a v).plots = s.plots := rfl
@[simp] theorem State.stByte_cross (s : State) (a : Nat) (v : Byte) :
    (s.stByte a v).cross = s.cross := rfl
@[simp] theorem State.stByte_decls (s : State) (a : Nat) (v : Byte) :
    (s.stByte a v).decls = s.decls := rfl
@[simp] theorem State.stByte_xfl (s : State) (a : Nat) (v : Byte) :
    (s.stByte a v).xfl = s.xfl := rfl
@[simp] theorem State.stByte_streams (s : State) (a : Nat) (v : Byte) :
    (s.stByte a v).streams = s.streams := rfl
@[simp] theorem State.stByte_spr (s : State) (a : Nat) (v : Byte) :
    (s.stByte a v).spr = s.spr := rfl
@[simp] theorem State.stByte_tsk (s : State) (a : Nat) (v : Byte) :
    (s.stByte a v).tsk = s.tsk := rfl
@[simp] theorem State.stByte_resv (s : State) (a : Nat) (v : Byte) :
    (s.stByte a v).resv = s.resv := rfl
@[simp] theorem State.stByte_accIn (s : State) (a : Nat) (v : Byte) :
    (s.stByte a v).accIn = s.accIn := rfl
@[simp] theorem State.stByte_events (s : State) (a : Nat) (v : Byte) :
    (s.stByte a v).events = s.events := rfl
@[simp] theorem State.stByte_qps (s : State) (a : Nat) (v : Byte) :
    (s.stByte a v).qps = s.qps := rfl
@[simp] theorem State.stByte_ethTx (s : State) (a : Nat) (v : Byte) :
    (s.stByte a v).ethTx = s.ethTx := rfl
@[simp] theorem State.stByte_prmIn (s : State) (a : Nat) (v : Byte) :
    (s.stByte a v).prmIn = s.prmIn := rfl
@[simp] theorem State.stByte_prmOut (s : State) (a : Nat) (v : Byte) :
    (s.stByte a v).prmOut = s.prmOut := rfl
@[simp] theorem State.stByte_prmRx (s : State) (a : Nat) (v : Byte) :
    (s.stByte a v).prmRx = s.prmRx := rfl
@[simp] theorem State.stByte_prmReq (s : State) (a : Nat) (v : Byte) :
    (s.stByte a v).prmReq = s.prmReq := rfl
@[simp] theorem State.stByte_annexOut (s : State) (a : Nat) (v : Byte) :
    (s.stByte a v).annexOut = s.annexOut := rfl
@[simp] theorem State.stByte_lrt (s : State) (a : Nat) (v : Byte) :
    (s.stByte a v).lrt = s.lrt := rfl
@[simp] theorem State.stByte_tio (s : State) (a : Nat) (v : Byte) :
    (s.stByte a v).tio = s.tio := rfl
@[simp] theorem State.stByte_telQ (s : State) (a : Nat) (v : Byte) :
    (s.stByte a v).telQ = s.telQ := rfl
@[simp] theorem State.stByte_telIntake (s : State) (a : Nat) (v : Byte) :
    (s.stByte a v).telIntake = s.telIntake := rfl
@[simp] theorem State.stByte_loadInit (s : State) (a : Nat) (v : Byte) :
    (s.stByte a v).loadInit = s.loadInit := rfl
@[simp] theorem State.stByte_lodges (s : State) (a : Nat) (v : Byte) :
    (s.stByte a v).lodges = s.lodges := rfl
@[simp] theorem State.stByte_gpioTx (s : State) (a : Nat) (v : Byte) :
    (s.stByte a v).gpioTx = s.gpioTx := rfl
@[simp] theorem State.stByte_gpioRx (s : State) (a : Nat) (v : Byte) :
    (s.stByte a v).gpioRx = s.gpioRx := rfl
@[simp] theorem State.stByte_sport (s : State) (a : Nat) (v : Byte) :
    (s.stByte a v).sport = s.sport := rfl
@[simp] theorem State.stByte_peekSnap (s : State) (a : Nat) (v : Byte) :
    (s.stByte a v).peekSnap = s.peekSnap := rfl
@[simp] theorem State.stByte_pending (s : State) (a : Nat) (v : Byte) :
    (s.stByte a v).pending = s.pending := rfl

/-! ### State.stN -/

@[simp] theorem State.stN_time (s : State) (a n v : Nat) :
    (s.stN a n v).time = s.time := rfl
@[simp] theorem State.stN_free (s : State) (a n v : Nat) :
    (s.stN a n v).free = s.free := rfl
@[simp] theorem State.stN_fuses (s : State) (a n v : Nat) :
    (s.stN a n v).fuses = s.fuses := rfl
@[simp] theorem State.stN_regs (s : State) (a n v : Nat) :
    (s.stN a n v).regs = s.regs := rfl
@[simp] theorem State.stN_stage (s : State) (a n v : Nat) :
    (s.stN a n v).stage = s.stage := rfl
@[simp] theorem State.stN_snap (s : State) (a n v : Nat) :
    (s.stN a n v).snap = s.snap := rfl
@[simp] theorem State.stN_hid (s : State) (a n v : Nat) :
    (s.stN a n v).hid = s.hid := rfl
@[simp] theorem State.stN_lq (s : State) (a n v : Nat) :
    (s.stN a n v).lq = s.lq := rfl
@[simp] theorem State.stN_psamp (s : State) (a n v : Nat) :
    (s.stN a n v).psamp = s.psamp := rfl
@[simp] theorem State.stN_domeRq (s : State) (a n v : Nat) :
    (s.stN a n v).domeRq = s.domeRq := rfl
@[simp] theorem State.stN_domeWq (s : State) (a n v : Nat) :
    (s.stN a n v).domeWq = s.domeWq := rfl
@[simp] theorem State.stN_domeIssued (s : State) (a n v : Nat) :
    (s.stN a n v).domeIssued = s.domeIssued := rfl
@[simp] theorem State.stN_domeNrf (s : State) (a n v : Nat) :
    (s.stN a n v).domeNrf = s.domeNrf := rfl
@[simp] theorem State.stN_domeTxns (s : State) (a n v : Nat) :
    (s.stN a n v).domeTxns = s.domeTxns := rfl
@[simp] theorem State.stN_shots (s : State) (a n v : Nat) :
    (s.stN a n v).shots = s.shots := rfl
@[simp] theorem State.stN_pinSeen (s : State) (a n v : Nat) :
    (s.stN a n v).pinSeen = s.pinSeen := rfl
@[simp] theorem State.stN_keyCache (s : State) (a n v : Nat) :
    (s.stN a n v).keyCache = s.keyCache := rfl
@[simp] theorem State.stN_strmWait (s : State) (a n v : Nat) :
    (s.stN a n v).strmWait = s.strmWait := rfl
@[simp] theorem State.stN_plots (s : State) (a n v : Nat) :
    (s.stN a n v).plots = s.plots := rfl
@[simp] theorem State.stN_cross (s : State) (a n v : Nat) :
    (s.stN a n v).cross = s.cross := rfl
@[simp] theorem State.stN_decls (s : State) (a n v : Nat) :
    (s.stN a n v).decls = s.decls := rfl
@[simp] theorem State.stN_xfl (s : State) (a n v : Nat) :
    (s.stN a n v).xfl = s.xfl := rfl
@[simp] theorem State.stN_streams (s : State) (a n v : Nat) :
    (s.stN a n v).streams = s.streams := rfl
@[simp] theorem State.stN_spr (s : State) (a n v : Nat) :
    (s.stN a n v).spr = s.spr := rfl
@[simp] theorem State.stN_tsk (s : State) (a n v : Nat) :
    (s.stN a n v).tsk = s.tsk := rfl
@[simp] theorem State.stN_resv (s : State) (a n v : Nat) :
    (s.stN a n v).resv = s.resv := rfl
@[simp] theorem State.stN_accIn (s : State) (a n v : Nat) :
    (s.stN a n v).accIn = s.accIn := rfl
@[simp] theorem State.stN_events (s : State) (a n v : Nat) :
    (s.stN a n v).events = s.events := rfl
@[simp] theorem State.stN_qps (s : State) (a n v : Nat) :
    (s.stN a n v).qps = s.qps := rfl
@[simp] theorem State.stN_ethTx (s : State) (a n v : Nat) :
    (s.stN a n v).ethTx = s.ethTx := rfl
@[simp] theorem State.stN_prmIn (s : State) (a n v : Nat) :
    (s.stN a n v).prmIn = s.prmIn := rfl
@[simp] theorem State.stN_prmOut (s : State) (a n v : Nat) :
    (s.stN a n v).prmOut = s.prmOut := rfl
@[simp] theorem State.stN_prmRx (s : State) (a n v : Nat) :
    (s.stN a n v).prmRx = s.prmRx := rfl
@[simp] theorem State.stN_prmReq (s : State) (a n v : Nat) :
    (s.stN a n v).prmReq = s.prmReq := rfl
@[simp] theorem State.stN_annexOut (s : State) (a n v : Nat) :
    (s.stN a n v).annexOut = s.annexOut := rfl
@[simp] theorem State.stN_lrt (s : State) (a n v : Nat) :
    (s.stN a n v).lrt = s.lrt := rfl
@[simp] theorem State.stN_tio (s : State) (a n v : Nat) :
    (s.stN a n v).tio = s.tio := rfl
@[simp] theorem State.stN_telQ (s : State) (a n v : Nat) :
    (s.stN a n v).telQ = s.telQ := rfl
@[simp] theorem State.stN_telIntake (s : State) (a n v : Nat) :
    (s.stN a n v).telIntake = s.telIntake := rfl
@[simp] theorem State.stN_loadInit (s : State) (a n v : Nat) :
    (s.stN a n v).loadInit = s.loadInit := rfl
@[simp] theorem State.stN_lodges (s : State) (a n v : Nat) :
    (s.stN a n v).lodges = s.lodges := rfl
@[simp] theorem State.stN_gpioTx (s : State) (a n v : Nat) :
    (s.stN a n v).gpioTx = s.gpioTx := rfl
@[simp] theorem State.stN_gpioRx (s : State) (a n v : Nat) :
    (s.stN a n v).gpioRx = s.gpioRx := rfl
@[simp] theorem State.stN_sport (s : State) (a n v : Nat) :
    (s.stN a n v).sport = s.sport := rfl
@[simp] theorem State.stN_peekSnap (s : State) (a n v : Nat) :
    (s.stN a n v).peekSnap = s.peekSnap := rfl
@[simp] theorem State.stN_pending (s : State) (a n v : Nat) :
    (s.stN a n v).pending = s.pending := rfl

/-! ### State.clearBytes -/

@[simp] theorem State.clearBytes_time (s : State) (a n : Nat) :
    (s.clearBytes a n).time = s.time := rfl
@[simp] theorem State.clearBytes_free (s : State) (a n : Nat) :
    (s.clearBytes a n).free = s.free := rfl
@[simp] theorem State.clearBytes_fuses (s : State) (a n : Nat) :
    (s.clearBytes a n).fuses = s.fuses := rfl
@[simp] theorem State.clearBytes_regs (s : State) (a n : Nat) :
    (s.clearBytes a n).regs = s.regs := rfl
@[simp] theorem State.clearBytes_stage (s : State) (a n : Nat) :
    (s.clearBytes a n).stage = s.stage := rfl
@[simp] theorem State.clearBytes_snap (s : State) (a n : Nat) :
    (s.clearBytes a n).snap = s.snap := rfl
@[simp] theorem State.clearBytes_hid (s : State) (a n : Nat) :
    (s.clearBytes a n).hid = s.hid := rfl
@[simp] theorem State.clearBytes_lq (s : State) (a n : Nat) :
    (s.clearBytes a n).lq = s.lq := rfl
@[simp] theorem State.clearBytes_psamp (s : State) (a n : Nat) :
    (s.clearBytes a n).psamp = s.psamp := rfl
@[simp] theorem State.clearBytes_domeRq (s : State) (a n : Nat) :
    (s.clearBytes a n).domeRq = s.domeRq := rfl
@[simp] theorem State.clearBytes_domeWq (s : State) (a n : Nat) :
    (s.clearBytes a n).domeWq = s.domeWq := rfl
@[simp] theorem State.clearBytes_domeIssued (s : State) (a n : Nat) :
    (s.clearBytes a n).domeIssued = s.domeIssued := rfl
@[simp] theorem State.clearBytes_domeNrf (s : State) (a n : Nat) :
    (s.clearBytes a n).domeNrf = s.domeNrf := rfl
@[simp] theorem State.clearBytes_domeTxns (s : State) (a n : Nat) :
    (s.clearBytes a n).domeTxns = s.domeTxns := rfl
@[simp] theorem State.clearBytes_shots (s : State) (a n : Nat) :
    (s.clearBytes a n).shots = s.shots := rfl
@[simp] theorem State.clearBytes_pinSeen (s : State) (a n : Nat) :
    (s.clearBytes a n).pinSeen = s.pinSeen := rfl
@[simp] theorem State.clearBytes_keyCache (s : State) (a n : Nat) :
    (s.clearBytes a n).keyCache = s.keyCache := rfl
@[simp] theorem State.clearBytes_strmWait (s : State) (a n : Nat) :
    (s.clearBytes a n).strmWait = s.strmWait := rfl
@[simp] theorem State.clearBytes_plots (s : State) (a n : Nat) :
    (s.clearBytes a n).plots = s.plots := rfl
@[simp] theorem State.clearBytes_cross (s : State) (a n : Nat) :
    (s.clearBytes a n).cross = s.cross := rfl
@[simp] theorem State.clearBytes_decls (s : State) (a n : Nat) :
    (s.clearBytes a n).decls = s.decls := rfl
@[simp] theorem State.clearBytes_xfl (s : State) (a n : Nat) :
    (s.clearBytes a n).xfl = s.xfl := rfl
@[simp] theorem State.clearBytes_streams (s : State) (a n : Nat) :
    (s.clearBytes a n).streams = s.streams := rfl
@[simp] theorem State.clearBytes_spr (s : State) (a n : Nat) :
    (s.clearBytes a n).spr = s.spr := rfl
@[simp] theorem State.clearBytes_tsk (s : State) (a n : Nat) :
    (s.clearBytes a n).tsk = s.tsk := rfl
@[simp] theorem State.clearBytes_resv (s : State) (a n : Nat) :
    (s.clearBytes a n).resv = s.resv := rfl
@[simp] theorem State.clearBytes_accIn (s : State) (a n : Nat) :
    (s.clearBytes a n).accIn = s.accIn := rfl
@[simp] theorem State.clearBytes_events (s : State) (a n : Nat) :
    (s.clearBytes a n).events = s.events := rfl
@[simp] theorem State.clearBytes_qps (s : State) (a n : Nat) :
    (s.clearBytes a n).qps = s.qps := rfl
@[simp] theorem State.clearBytes_ethTx (s : State) (a n : Nat) :
    (s.clearBytes a n).ethTx = s.ethTx := rfl
@[simp] theorem State.clearBytes_prmIn (s : State) (a n : Nat) :
    (s.clearBytes a n).prmIn = s.prmIn := rfl
@[simp] theorem State.clearBytes_prmOut (s : State) (a n : Nat) :
    (s.clearBytes a n).prmOut = s.prmOut := rfl
@[simp] theorem State.clearBytes_prmRx (s : State) (a n : Nat) :
    (s.clearBytes a n).prmRx = s.prmRx := rfl
@[simp] theorem State.clearBytes_prmReq (s : State) (a n : Nat) :
    (s.clearBytes a n).prmReq = s.prmReq := rfl
@[simp] theorem State.clearBytes_annexOut (s : State) (a n : Nat) :
    (s.clearBytes a n).annexOut = s.annexOut := rfl
@[simp] theorem State.clearBytes_lrt (s : State) (a n : Nat) :
    (s.clearBytes a n).lrt = s.lrt := rfl
@[simp] theorem State.clearBytes_tio (s : State) (a n : Nat) :
    (s.clearBytes a n).tio = s.tio := rfl
@[simp] theorem State.clearBytes_telQ (s : State) (a n : Nat) :
    (s.clearBytes a n).telQ = s.telQ := rfl
@[simp] theorem State.clearBytes_telIntake (s : State) (a n : Nat) :
    (s.clearBytes a n).telIntake = s.telIntake := rfl
@[simp] theorem State.clearBytes_loadInit (s : State) (a n : Nat) :
    (s.clearBytes a n).loadInit = s.loadInit := rfl
@[simp] theorem State.clearBytes_lodges (s : State) (a n : Nat) :
    (s.clearBytes a n).lodges = s.lodges := rfl
@[simp] theorem State.clearBytes_gpioTx (s : State) (a n : Nat) :
    (s.clearBytes a n).gpioTx = s.gpioTx := rfl
@[simp] theorem State.clearBytes_gpioRx (s : State) (a n : Nat) :
    (s.clearBytes a n).gpioRx = s.gpioRx := rfl
@[simp] theorem State.clearBytes_sport (s : State) (a n : Nat) :
    (s.clearBytes a n).sport = s.sport := rfl
@[simp] theorem State.clearBytes_peekSnap (s : State) (a n : Nat) :
    (s.clearBytes a n).peekSnap = s.peekSnap := rfl
@[simp] theorem State.clearBytes_pending (s : State) (a n : Nat) :
    (s.clearBytes a n).pending = s.pending := rfl

/-! ### State.makeUndef -/

@[simp] theorem State.makeUndef_time (s : State) (a n : Nat) :
    (s.makeUndef a n).time = s.time := rfl
@[simp] theorem State.makeUndef_fuses (s : State) (a n : Nat) :
    (s.makeUndef a n).fuses = s.fuses := rfl
@[simp] theorem State.makeUndef_regs (s : State) (a n : Nat) :
    (s.makeUndef a n).regs = s.regs := rfl
@[simp] theorem State.makeUndef_stage (s : State) (a n : Nat) :
    (s.makeUndef a n).stage = s.stage := rfl
@[simp] theorem State.makeUndef_snap (s : State) (a n : Nat) :
    (s.makeUndef a n).snap = s.snap := rfl
@[simp] theorem State.makeUndef_hid (s : State) (a n : Nat) :
    (s.makeUndef a n).hid = s.hid := rfl
@[simp] theorem State.makeUndef_lq (s : State) (a n : Nat) :
    (s.makeUndef a n).lq = s.lq := rfl
@[simp] theorem State.makeUndef_psamp (s : State) (a n : Nat) :
    (s.makeUndef a n).psamp = s.psamp := rfl
@[simp] theorem State.makeUndef_domeRq (s : State) (a n : Nat) :
    (s.makeUndef a n).domeRq = s.domeRq := rfl
@[simp] theorem State.makeUndef_domeWq (s : State) (a n : Nat) :
    (s.makeUndef a n).domeWq = s.domeWq := rfl
@[simp] theorem State.makeUndef_domeIssued (s : State) (a n : Nat) :
    (s.makeUndef a n).domeIssued = s.domeIssued := rfl
@[simp] theorem State.makeUndef_domeNrf (s : State) (a n : Nat) :
    (s.makeUndef a n).domeNrf = s.domeNrf := rfl
@[simp] theorem State.makeUndef_domeTxns (s : State) (a n : Nat) :
    (s.makeUndef a n).domeTxns = s.domeTxns := rfl
@[simp] theorem State.makeUndef_shots (s : State) (a n : Nat) :
    (s.makeUndef a n).shots = s.shots := rfl
@[simp] theorem State.makeUndef_pinSeen (s : State) (a n : Nat) :
    (s.makeUndef a n).pinSeen = s.pinSeen := rfl
@[simp] theorem State.makeUndef_keyCache (s : State) (a n : Nat) :
    (s.makeUndef a n).keyCache = s.keyCache := rfl
@[simp] theorem State.makeUndef_strmWait (s : State) (a n : Nat) :
    (s.makeUndef a n).strmWait = s.strmWait := rfl
@[simp] theorem State.makeUndef_plots (s : State) (a n : Nat) :
    (s.makeUndef a n).plots = s.plots := rfl
@[simp] theorem State.makeUndef_cross (s : State) (a n : Nat) :
    (s.makeUndef a n).cross = s.cross := rfl
@[simp] theorem State.makeUndef_decls (s : State) (a n : Nat) :
    (s.makeUndef a n).decls = s.decls := rfl
@[simp] theorem State.makeUndef_xfl (s : State) (a n : Nat) :
    (s.makeUndef a n).xfl = s.xfl := rfl
@[simp] theorem State.makeUndef_streams (s : State) (a n : Nat) :
    (s.makeUndef a n).streams = s.streams := rfl
@[simp] theorem State.makeUndef_spr (s : State) (a n : Nat) :
    (s.makeUndef a n).spr = s.spr := rfl
@[simp] theorem State.makeUndef_tsk (s : State) (a n : Nat) :
    (s.makeUndef a n).tsk = s.tsk := rfl
@[simp] theorem State.makeUndef_resv (s : State) (a n : Nat) :
    (s.makeUndef a n).resv = s.resv := rfl
@[simp] theorem State.makeUndef_accIn (s : State) (a n : Nat) :
    (s.makeUndef a n).accIn = s.accIn := rfl
@[simp] theorem State.makeUndef_events (s : State) (a n : Nat) :
    (s.makeUndef a n).events = s.events := rfl
@[simp] theorem State.makeUndef_qps (s : State) (a n : Nat) :
    (s.makeUndef a n).qps = s.qps := rfl
@[simp] theorem State.makeUndef_ethTx (s : State) (a n : Nat) :
    (s.makeUndef a n).ethTx = s.ethTx := rfl
@[simp] theorem State.makeUndef_prmIn (s : State) (a n : Nat) :
    (s.makeUndef a n).prmIn = s.prmIn := rfl
@[simp] theorem State.makeUndef_prmOut (s : State) (a n : Nat) :
    (s.makeUndef a n).prmOut = s.prmOut := rfl
@[simp] theorem State.makeUndef_prmRx (s : State) (a n : Nat) :
    (s.makeUndef a n).prmRx = s.prmRx := rfl
@[simp] theorem State.makeUndef_prmReq (s : State) (a n : Nat) :
    (s.makeUndef a n).prmReq = s.prmReq := rfl
@[simp] theorem State.makeUndef_annexOut (s : State) (a n : Nat) :
    (s.makeUndef a n).annexOut = s.annexOut := rfl
@[simp] theorem State.makeUndef_lrt (s : State) (a n : Nat) :
    (s.makeUndef a n).lrt = s.lrt := rfl
@[simp] theorem State.makeUndef_tio (s : State) (a n : Nat) :
    (s.makeUndef a n).tio = s.tio := rfl
@[simp] theorem State.makeUndef_telQ (s : State) (a n : Nat) :
    (s.makeUndef a n).telQ = s.telQ := rfl
@[simp] theorem State.makeUndef_telIntake (s : State) (a n : Nat) :
    (s.makeUndef a n).telIntake = s.telIntake := rfl
@[simp] theorem State.makeUndef_loadInit (s : State) (a n : Nat) :
    (s.makeUndef a n).loadInit = s.loadInit := rfl
@[simp] theorem State.makeUndef_lodges (s : State) (a n : Nat) :
    (s.makeUndef a n).lodges = s.lodges := rfl
@[simp] theorem State.makeUndef_gpioTx (s : State) (a n : Nat) :
    (s.makeUndef a n).gpioTx = s.gpioTx := rfl
@[simp] theorem State.makeUndef_gpioRx (s : State) (a n : Nat) :
    (s.makeUndef a n).gpioRx = s.gpioRx := rfl
@[simp] theorem State.makeUndef_sport (s : State) (a n : Nat) :
    (s.makeUndef a n).sport = s.sport := rfl
@[simp] theorem State.makeUndef_peekSnap (s : State) (a n : Nat) :
    (s.makeUndef a n).peekSnap = s.peekSnap := rfl
@[simp] theorem State.makeUndef_pending (s : State) (a n : Nat) :
    (s.makeUndef a n).pending = s.pending := rfl

@[simp] theorem State.takeFree_time (s : State) : s.takeFree.2.time = s.time := rfl
@[simp] theorem State.takeFree_fuses (s : State) : s.takeFree.2.fuses = s.fuses := rfl
@[simp] theorem State.takeFree_regs (s : State) : s.takeFree.2.regs = s.regs := rfl
@[simp] theorem State.takeFree_stage (s : State) : s.takeFree.2.stage = s.stage := rfl
@[simp] theorem State.takeFree_snap (s : State) : s.takeFree.2.snap = s.snap := rfl
@[simp] theorem State.takeFree_hid (s : State) : s.takeFree.2.hid = s.hid := rfl
@[simp] theorem State.takeFree_mem (s : State) : s.takeFree.2.mem = s.mem := rfl
@[simp] theorem State.takeFree_undef (s : State) : s.takeFree.2.undef = s.undef := rfl
@[simp] theorem State.takeFree_lq (s : State) : s.takeFree.2.lq = s.lq := rfl
@[simp] theorem State.takeFree_psamp (s : State) : s.takeFree.2.psamp = s.psamp := rfl
@[simp] theorem State.takeFree_domeRq (s : State) : s.takeFree.2.domeRq = s.domeRq := rfl
@[simp] theorem State.takeFree_domeWq (s : State) : s.takeFree.2.domeWq = s.domeWq := rfl
@[simp] theorem State.takeFree_domeIssued (s : State) : s.takeFree.2.domeIssued = s.domeIssued := rfl
@[simp] theorem State.takeFree_domeNrf (s : State) : s.takeFree.2.domeNrf = s.domeNrf := rfl
@[simp] theorem State.takeFree_domeTxns (s : State) : s.takeFree.2.domeTxns = s.domeTxns := rfl
@[simp] theorem State.takeFree_shots (s : State) : s.takeFree.2.shots = s.shots := rfl
@[simp] theorem State.takeFree_pinSeen (s : State) : s.takeFree.2.pinSeen = s.pinSeen := rfl
@[simp] theorem State.takeFree_keyCache (s : State) : s.takeFree.2.keyCache = s.keyCache := rfl
@[simp] theorem State.takeFree_strmWait (s : State) : s.takeFree.2.strmWait = s.strmWait := rfl
@[simp] theorem State.takeFree_plots (s : State) : s.takeFree.2.plots = s.plots := rfl
@[simp] theorem State.takeFree_cross (s : State) : s.takeFree.2.cross = s.cross := rfl
@[simp] theorem State.takeFree_decls (s : State) : s.takeFree.2.decls = s.decls := rfl
@[simp] theorem State.takeFree_xfl (s : State) : s.takeFree.2.xfl = s.xfl := rfl
@[simp] theorem State.takeFree_streams (s : State) : s.takeFree.2.streams = s.streams := rfl
@[simp] theorem State.takeFree_spr (s : State) : s.takeFree.2.spr = s.spr := rfl
@[simp] theorem State.takeFree_tsk (s : State) : s.takeFree.2.tsk = s.tsk := rfl
@[simp] theorem State.takeFree_resv (s : State) : s.takeFree.2.resv = s.resv := rfl
@[simp] theorem State.takeFree_accIn (s : State) : s.takeFree.2.accIn = s.accIn := rfl
@[simp] theorem State.takeFree_events (s : State) : s.takeFree.2.events = s.events := rfl
@[simp] theorem State.takeFree_qps (s : State) : s.takeFree.2.qps = s.qps := rfl
@[simp] theorem State.takeFree_ethTx (s : State) : s.takeFree.2.ethTx = s.ethTx := rfl
@[simp] theorem State.takeFree_prmIn (s : State) : s.takeFree.2.prmIn = s.prmIn := rfl
@[simp] theorem State.takeFree_prmOut (s : State) : s.takeFree.2.prmOut = s.prmOut := rfl
@[simp] theorem State.takeFree_prmRx (s : State) : s.takeFree.2.prmRx = s.prmRx := rfl
@[simp] theorem State.takeFree_prmReq (s : State) : s.takeFree.2.prmReq = s.prmReq := rfl
@[simp] theorem State.takeFree_annexOut (s : State) : s.takeFree.2.annexOut = s.annexOut := rfl
@[simp] theorem State.takeFree_lrt (s : State) : s.takeFree.2.lrt = s.lrt := rfl
@[simp] theorem State.takeFree_tio (s : State) : s.takeFree.2.tio = s.tio := rfl
@[simp] theorem State.takeFree_telQ (s : State) : s.takeFree.2.telQ = s.telQ := rfl
@[simp] theorem State.takeFree_telIntake (s : State) : s.takeFree.2.telIntake = s.telIntake := rfl
@[simp] theorem State.takeFree_loadInit (s : State) : s.takeFree.2.loadInit = s.loadInit := rfl
@[simp] theorem State.takeFree_lodges (s : State) : s.takeFree.2.lodges = s.lodges := rfl
@[simp] theorem State.takeFree_gpioTx (s : State) : s.takeFree.2.gpioTx = s.gpioTx := rfl
@[simp] theorem State.takeFree_gpioRx (s : State) : s.takeFree.2.gpioRx = s.gpioRx := rfl
@[simp] theorem State.takeFree_sport (s : State) : s.takeFree.2.sport = s.sport := rfl
@[simp] theorem State.takeFree_peekSnap (s : State) : s.takeFree.2.peekSnap = s.peekSnap := rfl
@[simp] theorem State.takeFree_pending (s : State) : s.takeFree.2.pending = s.pending := rfl

end Sys2Proof.Machine
end

