-- ==== Sys2Proof/Laws/Memory.lean ====
section
/-!
SUPPORT. The canonical form of memory, and reads after writes of it.
-/
namespace Sys2Proof.Machine

theorem memWfFrom_le {m : List Host.Cell} {lo lo' : Nat} (h : lo' ≤ lo) (hm : memWfFrom lo m = true) :
    memWfFrom lo' m = true := by
  cases m with
  | nil => rfl
  | cons e m =>
    obtain ⟨a, v⟩ := e
    simp only [memWfFrom, Bool.and_eq_true, decide_eq_true_eq, ne_eq, BitVec.ofNat_eq_ofNat] at hm ⊢
    exact ⟨⟨Nat.le_trans h hm.1.1, hm.1.2⟩, hm.2⟩

/-- One byte written keeps the canonical form above any bound that the address meets. -/
theorem memSet_wfFrom (m : List Host.Cell) (lo a : Nat) (v : Byte) (ha : lo ≤ a) (hm : memWfFrom lo m = true) :
    memWfFrom lo (memSet m a v) = true := by
  induction m generalizing lo with
  | nil =>
    by_cases hv : v = 0#8 <;> simp [memSet, memWfFrom, hv, ha]
  | cons e m ih =>
    obtain ⟨b, w⟩ := e
    have hm' := hm
    simp only [memWfFrom, Bool.and_eq_true, decide_eq_true_eq, ne_eq, BitVec.ofNat_eq_ofNat] at hm
    by_cases hab : a < b
    · by_cases hv : v = 0#8
      · simp [memSet, hab, hv, hm']
      · have hb : memWfFrom (a + 1) ((b, w) :: m) = true := by
          simp only [memWfFrom, Bool.and_eq_true, decide_eq_true_eq, ne_eq, BitVec.ofNat_eq_ofNat]
          exact ⟨⟨hab, hm.1.2⟩, hm.2⟩
        simpa [memSet, hab, hv, memWfFrom, ha] using hb
    · by_cases he : a = b
      · subst he
        by_cases hv : v = 0#8
        · simpa [memSet, hv] using memWfFrom_le (Nat.le_succ_of_le ha) hm.2
        · simp [memSet, memWfFrom, hv, hm.1.1, hm.2]
      · have : b + 1 ≤ a := by omega
        simp [memSet, hab, he, memWfFrom, hm.1.1, hm.1.2, ih (b + 1) this hm.2]

/-- One byte written keeps the canonical form. -/
theorem memSet_wf (m : List Host.Cell) (a : Nat) (v : Byte) (hm : Memory.wf m = true) : Memory.wf (memSet m a v) = true :=
  memSet_wfFrom m 0 a v (Nat.zero_le a) hm

/-- Bytes written keep the canonical form. -/
theorem memSetList_wf (vs : List Byte) (m : List Host.Cell) (a : Nat) (hm : Memory.wf m = true) :
    Memory.wf (memSetList m a vs) = true := by
  induction vs generalizing m a with
  | nil => exact hm
  | cons v vs ih => exact ih _ _ (memSet_wf m a v hm)

/-- Entries taken away leave the canonical form. -/
theorem memFilter_wfFrom (p : Host.Cell → Bool) (m : List Host.Cell) (lo : Nat) (hm : memWfFrom lo m = true) :
    memWfFrom lo (m.filter p) = true := by
  induction m generalizing lo with
  | nil => rfl
  | cons e m ih =>
    obtain ⟨a, v⟩ := e
    simp only [memWfFrom, Bool.and_eq_true, decide_eq_true_eq, ne_eq, BitVec.ofNat_eq_ofNat] at hm
    by_cases hp : p (a, v) = true
    · simp [hp, memWfFrom, hm.1.1, hm.1.2, ih (a + 1) hm.2]
    · simpa [List.filter_cons, hp] using memWfFrom_le (Nat.le_succ_of_le hm.1.1) (ih (a + 1) hm.2)

/-- Entries taken away leave the canonical form. -/
theorem memFilter_wf (p : Host.Cell → Bool) (m : List Host.Cell) (hm : Memory.wf m = true) :
    Memory.wf (m.filter p) = true := memFilter_wfFrom p m 0 hm

/-- Every named memory operation keeps the canonical form. -/
theorem State.stBytes_wf (s : State) (a : Nat) (vs : List Byte) (h : Memory.wf s.mem = true) :
    Memory.wf (s.stBytes a vs).mem = true := memSetList_wf vs s.mem a h

theorem State.stN_wf (s : State) (a n v : Nat) (h : Memory.wf s.mem = true) : Memory.wf (s.stN a n v).mem = true :=
  s.stBytes_wf a _ h

theorem State.clearBytes_wf (s : State) (a n : Nat) (h : Memory.wf s.mem = true) :
    Memory.wf (s.clearBytes a n).mem = true := memFilter_wf _ s.mem h

theorem State.makeUndef_wf (s : State) (a n : Nat) (h : Memory.wf s.mem = true) :
    Memory.wf (s.makeUndef a n).mem = true := s.clearBytes_wf a n h

/-- A byte below every listed address reads 0. -/
theorem memGet_of_wfFrom (m : List Host.Cell) (lo a : Nat) (h : a < lo) (hm : memWfFrom lo m = true) : memGet m a = 0 := by
  induction m generalizing lo with
  | nil => rfl
  | cons e m ih =>
    obtain ⟨b, w⟩ := e
    simp only [memWfFrom, Bool.and_eq_true, decide_eq_true_eq, ne_eq, BitVec.ofNat_eq_ofNat] at hm
    have hb : a ≠ b := by omega
    simpa [memGet, hb] using ih (b + 1) (by omega) hm.2

/-- A byte read after its own write. -/
theorem memGet_memSet_same (m : List Host.Cell) (lo a : Nat) (v : Byte) (hm : memWfFrom lo m = true) :
    memGet (memSet m a v) a = v := by
  induction m generalizing lo with
  | nil => by_cases hv : v = 0#8 <;> simp [memSet, memGet, hv]
  | cons e m ih =>
    obtain ⟨b, w⟩ := e
    simp only [memWfFrom, Bool.and_eq_true, decide_eq_true_eq, ne_eq, BitVec.ofNat_eq_ofNat] at hm
    by_cases hab : a < b
    · by_cases hv : v = 0#8
      · have hne : a ≠ b := by omega
        simp [memSet, hab, hv, memGet, hne, memGet_of_wfFrom m (b + 1) a (by omega) hm.2]
      · simp [memSet, hab, hv, memGet]
    · by_cases he : a = b
      · subst he
        by_cases hv : v = 0#8
        · simp [memSet, hv, memGet_of_wfFrom m (a + 1) a (Nat.lt_succ_self a) hm.2]
        · simp [memSet, hv, memGet]
      · simpa [memSet, hab, he, memGet] using ih (b + 1) hm.2

/-- A write of one byte leaves every other one. -/
theorem memGet_memSet_ne (m : List Host.Cell) (a c : Nat) (v : Byte) (h : c ≠ a) :
    memGet (memSet m a v) c = memGet m c := by
  induction m with
  | nil => by_cases hv : v = 0#8 <;> simp [memSet, memGet, hv, h]
  | cons e m ih =>
    obtain ⟨b, w⟩ := e
    by_cases hab : a < b
    · by_cases hv : v = 0#8 <;> simp [memSet, hab, hv, memGet, h]
    · by_cases he : a = b
      · subst he
        by_cases hv : v = 0#8 <;> simp [memSet, hv, memGet, h]
      · by_cases hc : c = b <;> simp [memSet, hab, he, memGet, hc, ih]

/-- Bytes written leave every other byte. -/
theorem memGet_memSetList_out (vs : List Byte) (m : List Host.Cell) (a c : Nat) (h : c < a ∨ a + vs.length ≤ c) :
    memGet (memSetList m a vs) c = memGet m c := by
  induction vs generalizing m a with
  | nil => rfl
  | cons v vs ih =>
    simp only [List.length_cons] at h
    rw [memSetList, ih (memSet m a v) (a + 1) (by omega), memGet_memSet_ne m a c v (by omega)]

/-- Bytes written read back. -/
theorem memGet_memSetList_in (vs : List Byte) (m : List Host.Cell) (a k : Nat) (hk : k < vs.length)
    (hm : Memory.wf m = true) : memGet (memSetList m a vs) (a + k) = vs.getD k 0 := by
  induction vs generalizing m a k with
  | nil => simp at hk
  | cons v vs ih =>
    cases k with
    | zero =>
      rw [memSetList, memGet_memSetList_out vs _ _ _ (by omega)]
      simpa using memGet_memSet_same m 0 a v hm
    | succ k =>
      have hk' : k < vs.length := by simpa using hk
      have := ih (memSet m a v) (a + 1) k hk' (memSet_wf m a v hm)
      rw [memSetList, show a + (k + 1) = a + 1 + k by omega, this]
      simp

end Sys2Proof.Machine
end

