-- ==== Sys2Proof/Laws/Pairs.lean ====
section
/-!
SUPPORT. The halves of a pair of words: what each half reads, and that the two make the pair again.
-/
namespace Sys2Proof.Machine

theorem pairOf_toNat (lo hi : Word) : (pairOf lo hi).toNat = lo.toNat + hi.toNat * 2 ^ 32 := by
  have h : (pairOf lo hi).toNat = hi.toNat <<< 32 ||| lo.toNat := BitVec.toNat_append hi lo
  rw [h, Nat.shiftLeft_eq, Nat.mul_comm, ← Nat.two_pow_add_eq_or_of_lt lo.isLt]
  omega

theorem hiWord_toNat (d : DWord) : (hiWord d).toNat = d.toNat / 2 ^ 32 := by
  have := d.isLt
  simp only [hiWord, BitVec.truncate_eq_setWidth, BitVec.toNat_setWidth, BitVec.toNat_ushiftRight, Nat.shiftRight_eq_div_pow]
  omega

theorem loWord_toNat (d : DWord) : (loWord d).toNat = d.toNat % 2 ^ 32 := by
  simp [loWord]

@[simp] theorem loWord_pairOf (lo hi : Word) : loWord (pairOf lo hi) = lo := by
  apply BitVec.eq_of_toNat_eq
  have := lo.isLt
  rw [loWord_toNat, pairOf_toNat]
  omega

@[simp] theorem hiWord_pairOf (lo hi : Word) : hiWord (pairOf lo hi) = hi := by
  apply BitVec.eq_of_toNat_eq
  have := lo.isLt
  rw [hiWord_toNat, pairOf_toNat]
  omega

@[simp] theorem pairOf_halves (d : DWord) : pairOf (loWord d) (hiWord d) = d := by
  apply BitVec.eq_of_toNat_eq
  rw [pairOf_toNat, loWord_toNat, hiWord_toNat]
  omega

end Sys2Proof.Machine
end

