-- ==== Sys2Proof/Laws/Scrambler.lean ====
section
/-!
SUPPORT. The descrambler of an XFL lane undoes its scrambler (R62).
-/
namespace Sys2Proof.Machine

/-- R62. The descrambler undoes the scrambler on 32 bits, and runs on from the same bits. -/
theorem descramble32_scramble32 (h d : Nat) (hd : d < 2 ^ 32) :
    descramble32 h (scramble32 h d).1 = (d, (scramble32 h d).2) := by
  simp only [descramble32, scramble32, Prod.mk.injEq, and_true]
  apply Nat.eq_of_testBit_eq
  intro i
  simp only [Nat.testBit_mod_two_pow, Nat.testBit_xor]
  by_cases hi : i < 32
  · simp only [hi, decide_true, Bool.true_and]
    cases d.testBit i <;> cases h.testBit i <;> cases (h / 2 ^ 19).testBit i <;> rfl
  · have : d.testBit i = false := Nat.testBit_lt_two_pow (Nat.lt_of_lt_of_le hd (Nat.pow_le_pow_right (by omega) (by omega)))
    simp [hi, this]

theorem scramble32_lt (h d : Nat) : (scramble32 h d).1 < 2 ^ 32 := Nat.mod_lt _ (by omega)

/-- R62. The descrambler undoes the scrambler on a payload, and runs on from the same bits. -/
theorem descramble64_scramble64 (h : Nat) (d : DWord) :
    descramble64 h (scramble64 h d).1 = (d, (scramble64 h d).2) := by
  simp only [descramble64, scramble64, loWord_pairOf, hiWord_pairOf, BitVec.toNat_ofNat,
    Nat.mod_eq_of_lt (scramble32_lt _ _), descramble32_scramble32 _ _ (BitVec.isLt _), BitVec.ofNat_toNat,
    BitVec.setWidth_eq, pairOf_halves]

/-- R62. The descrambler undoes the scrambler on payloads one after the other. -/
theorem descrambleAll_scrambleAll (h : Nat) (ds : List DWord) :
    (descrambleAll h ((scrambleAll h ds).1.map fun d => ⟨1, d⟩)).map (fun b => b.data) = ds := by
  induction ds generalizing h with
  | nil => rfl
  | cons d ds ih => simp [scrambleAll, descrambleAll, descramble64_scramble64, ih]

end Sys2Proof.Machine
end

