-- ==== Sys2Proof/Laws/Tables.lean ====
section
/-!
SUPPORT. Reads after writes of tables, registers and hidden state.
-/
namespace Sys2Proof.Machine

section
variable {κ α : Type} [DecidableEq κ]

@[simp] theorem tfind_tput_same (t : Table κ α) (x : κ) (v : α) : tfind (tput t x v) x = some v := by
  simp [tput, tfind]

theorem tfind_tdel_ne (t : Table κ α) (x y : κ) (h : x ≠ y) : tfind (tdel t x) y = tfind t y := by
  induction t with
  | nil => rfl
  | cons e t ih =>
    obtain ⟨k, v⟩ := e
    by_cases hk : k = x
    · have hy : k ≠ y := fun e => h (hk ▸ e)
      simp [tdel, tfind, hk, ih, h]
    · by_cases hy : k = y
      · subst hy
        simp [tdel, tfind, hk]
      · simp [tdel, tfind, hk, hy, ih]

theorem tfind_tput_ne (t : Table κ α) (x y : κ) (v : α) (h : x ≠ y) : tfind (tput t x v) y = tfind t y := by
  simp [tput, tfind, h, tfind_tdel_ne t x y h]

@[simp] theorem tget_tput_same (t : Table κ α) (x : κ) (v d : α) : tget (tput t x v) x d = v := by
  simp [tget]

theorem tget_tput_ne (t : Table κ α) (x y : κ) (v d : α) (h : x ≠ y) : tget (tput t x v) y d = tget t y d := by
  simp [tget, tfind_tput_ne t x y v h]

end

/-- A register read after its own write. -/
@[simp] theorem State.reg_setReg_same (s : State) (id : RegId) (v : DWord) (w i j : Nat) :
    (s.setReg id v w i j).reg id w i j = v := by
  simp [State.reg, State.setReg]

/-- A write of one register leaves every other one. -/
theorem State.reg_setReg_ne (s : State) (id id' : RegId) (v : DWord) (w i j w' i' j' : Nat)
    (h : (⟨id, w, i, j⟩ : RegKey) ≠ ⟨id', w', i', j'⟩) :
    (s.setReg id v w i j).reg id' w' i' j' = s.reg id' w' i' j' := by
  simp only [State.reg, State.setReg, tfind_tput_ne _ _ _ _ h]
  rfl

/-- A write of another name leaves a register. -/
theorem State.reg_setReg_id_ne (s : State) (id id' : RegId) (v : DWord) (w i j w' i' j' : Nat) (h : id ≠ id') :
    (s.setReg id v w i j).reg id' w' i' j' = s.reg id' w' i' j' :=
  s.reg_setReg_ne id id' v w i j w' i' j' (by intro e; exact h (congrArg RegKey.id e))

/-- A hidden entry read after its own write. -/
@[simp] theorem State.h_setH_same (s : State) (k : Hid) (v w i j : Nat) : (s.setH k v w i j).h k w i j = v := by
  simp [State.h, State.setH]

/-- A write of one hidden entry leaves every other one. -/
theorem State.h_setH_ne (s : State) (k k' : Hid) (v w i j w' i' j' : Nat)
    (h : (⟨k, w, i, j⟩ : HidKey) ≠ ⟨k', w', i', j'⟩) : (s.setH k v w i j).h k' w' i' j' = s.h k' w' i' j' := by
  simp [State.h, State.setH, tget_tput_ne _ _ _ _ _ h]

/-- Registers do not depend on hidden state. -/
@[simp] theorem State.reg_setH (s : State) (k : Hid) (v w i j : Nat) (id : RegId) (w' i' j' : Nat) :
    (s.setH k v w i j).reg id w' i' j' = s.reg id w' i' j' := rfl

/-- Hidden state does not depend on registers. -/
@[simp] theorem State.h_setReg (s : State) (id : RegId) (v : DWord) (w i j : Nat) (k : Hid) (w' i' j' : Nat) :
    (s.setReg id v w i j).h k w' i' j' = s.h k w' i' j' := rfl

/-- Registers do not depend on memory. -/
@[simp] theorem State.reg_stBytes (s : State) (a : Nat) (vs : List Byte) (id : RegId) (w i j : Nat) :
    (s.stBytes a vs).reg id w i j = s.reg id w i j := rfl

/-- Memory does not depend on registers. -/
@[simp] theorem State.ldByte_setReg (s : State) (id : RegId) (v : DWord) (w i j a : Nat) :
    (s.setReg id v w i j).ldByte a = s.ldByte a := rfl

/-- Memory does not depend on hidden state. -/
@[simp] theorem State.ldByte_setH (s : State) (k : Hid) (v w i j a : Nat) : (s.setH k v w i j).ldByte a = s.ldByte a := rfl

end Sys2Proof.Machine
end

