-- ==== Sys2Proof/Tests/Slice0.lean ====
section
/-!
SUPPORT. Tests: ill-formed commands that the check refuses, and the worked examples of the spec, one step or one
computation each.
-/
namespace Sys2Proof.Tests

open Sys2Proof Sys2Proof.Machine

set_option Elab.async false

/-! ### Ill-formed commands: one for each kind of bound -/

theorem test_wf_reads_of_aligned_offsets : (Instr.pairLoRead 0x200010).wf = true := by decide
theorem test_wf_misaligned_offset : (Instr.pairLoRead 2).wf = false := by decide
theorem test_wf_offset_beyond_the_register_space : (Instr.registerWrite (2 ^ 26) 0 (.host 0)).wf = false := by decide
theorem test_wf_home : (Instr.lqPush 41 0 0).wf = false := by decide
theorem test_wf_queue_of_a_tower : (Instr.lqPush 32 8 0).wf = false := by decide
theorem test_wf_queue_of_the_global_block : (Instr.lqPush 40 4 0).wf = false := by decide
theorem test_wf_tower : (Instr.psampFifoRead 8).wf = false := by decide
theorem test_wf_lane : (Instr.xflRetrain 0 20).wf = false := by decide
theorem test_wf_pavilion : (Instr.streamEnable 32 0).wf = false := by decide
theorem test_wf_entry : (Instr.streamEnable 0 256).wf = false := by decide
theorem test_wf_entry_word : (Instr.gateSentWrite 0 0 8 0).wf = false := by decide
theorem test_wf_ring : (Instr.ringInitDone 0 512).wf = false := by decide
theorem test_wf_pseudo_channel : (Instr.domeSchedIssue 0 16).wf = false := by decide
theorem test_wf_channel : (Instr.channelFault 0 8).wf = false := by decide
theorem test_wf_bank : (Instr.idleCloseExpiry 0 0 16).wf = false := by decide
theorem test_wf_stream_set : (Instr.ssetWrite 64 0 0).wf = false := by decide
theorem test_wf_stream_set_word : (Instr.ssetWrite 0 256 0).wf = false := by decide
theorem test_wf_section : (Instr.streamReadyTime 0 8192).wf = false := by decide
theorem test_wf_farm : (Instr.farmSend 64).wf = false := by decide
theorem test_wf_queue_pair : (Instr.rdoNudge 4096).wf = false := by decide
theorem test_wf_last_queue_pair : (Instr.descAccepted 4095).wf = true := by decide
theorem test_wf_declaration : (Instr.admAdmit 4096).wf = false := by decide
theorem test_wf_spire : (Instr.sprLoad 0 8).wf = false := by decide
theorem test_wf_context : (Instr.irefetchDone 0 0 2).wf = false := by decide
theorem test_wf_feed : (Instr.feedRidxWrite 0 0 4 0).wf = false := by decide
theorem test_wf_dma_channel : (Instr.dmaAbort 0 0 4).wf = false := by decide
theorem test_wf_flow : (Instr.tskPost 0 1024 0 0).wf = false := by decide
theorem test_wf_task_target : (Instr.mailboxWriteDone 0 9).wf = false := by decide
theorem test_wf_controller : (Instr.evcArbitration 33).wf = false := by decide
theorem test_wf_target_of_a_pavilion : (Instr.stkClr 31 9).wf = false := by decide
theorem test_wf_target_of_the_host_controller : (Instr.stkClr 32 36).wf = false := by decide
theorem test_wf_class : (Instr.evcEoi 0 0 2).wf = false := by decide
theorem test_wf_group : (Instr.fallbackTimeout 0 64).wf = false := by decide
theorem test_wf_pending_word : (Instr.evcPendWrite 0 16 0).wf = false := by decide
theorem test_wf_pll : (Instr.pllApply 0 4).wf = false := by decide
theorem test_wf_clock_net : (Instr.gclkSourceSwitch 0 32).wf = false := by decide
theorem test_wf_reset_net : (Instr.resetNetDeassert 0 8).wf = false := by decide
theorem test_wf_fabric_event : (Instr.fabricEvent 0 128).wf = false := by decide
theorem test_wf_crossing_edge : (Instr.crossingRepin 0 4 0).wf = false := by decide
theorem test_wf_tower_group : (Instr.tioEnable 0 18 0).wf = false := by decide
theorem test_wf_node : (Instr.prmRead 44 [] .ok [] none).wf = false := by decide
theorem test_wf_input : (Instr.packetForward 0 17 0 none).wf = false := by decide
theorem test_wf_traffic_class : (Instr.packetForward 0 0 5 none).wf = false := by decide
theorem test_wf_port : (Instr.reqTimeout 0 128 0).wf = false := by decide
theorem test_wf_reservation_unit : (Instr.lineReservationExpiry 436 0 0).wf = false := by decide
theorem test_wf_link_of_a_pavilion : (Instr.lrtDetectLock 31 7).wf = false := by decide
theorem test_wf_link_of_a_tower : (Instr.lrtDetectLock 32 4).wf = false := by decide
theorem test_wf_spare_lane : (Instr.lctlSwapReq 0 0 0 34).wf = false := by decide
theorem test_wf_annex : (Instr.anxParamDone 4).wf = false := by decide
theorem test_wf_plot : (Instr.plotGo 0 4).wf = false := by decide
theorem test_wf_bucket : (Instr.bucketLeak 0 2).wf = false := by decide
theorem test_wf_key : (Instr.keyInitDone 0 16).wf = false := by decide
theorem test_wf_site : (Instr.lodgeFastEntry 36).wf = false := by decide
theorem test_wf_alarm_type : (Instr.alarmRetry 0 256).wf = false := by decide
theorem test_wf_alarm_word : (Instr.alarmActClear 8 0).wf = false := by decide
theorem test_wf_transceiver_quad : (Instr.ppmWindow 0 5 0).wf = false := by decide
theorem test_wf_function : (Instr.flr 4).wf = false := by decide
theorem test_wf_endpoint : (Instr.perstNAssert 2).wf = false := by decide
theorem test_wf_pin_bank : (Instr.gpioMaskedWrite 6 false 0).wf = false := by decide
theorem test_wf_function_word : (Instr.gpioFuncWrite 12 0).wf = false := by decide
theorem test_wf_pin : (Instr.gpioEdgeSeen 96 true).wf = false := by decide
theorem test_wf_unit : (Instr.unitRxPop 0 21).wf = false := by decide
theorem test_wf_timer : (Instr.timerCapture 0 8).wf = false := by decide
theorem test_wf_debug_core_of_a_site : (Instr.dbgHalt 36 8 0).wf = false := by decide
theorem test_wf_debug_core_of_a_pavilion : (Instr.dbgHalt 32 7 0).wf = false := by decide
theorem test_wf_patch : (Instr.patchWrite 0 16 false 0 (.host 0)).wf = false := by decide

/-! ### Placement and addresses (R19, R518..R520, Tables 1.3, 1.5, 22.4) -/

theorem test_site_of_p35 : siteUnder 0x8114 29 = 15 := by decide
theorem test_site_id_of_site_15 : State.reset.siteIdVal 15 = 0x003d064f := by decide
theorem test_placement_word_3 : State.reset.pmapVal 3 = 0x24687530 := by decide
theorem test_address_of_gate_sseq_5 : State.reset.findReg 0x1a430a4 = some (some ⟨.GATE_SSEQ, 10, 5, 0, false⟩) := by
  decide
theorem test_address_of_xfl_lane_stat : State.reset.findReg 0x828b08 = some (some ⟨.XFL_LANE_STAT, 2, 11, 0, false⟩) := by
  decide
theorem test_address_of_rdo_nudge_37 : State.reset.findReg 0x280094 = some (some ⟨.RDO_NUDGE, 0, 37, 0, false⟩) := by
  decide

/-! ### Codecs (the examples of chapter 4) -/

/-- The samples of the PACK example. -/
def packSamples : List Nat := List.replicate 48 400 ++ [460, 520, 490, 450, 420] ++ List.replicate 11 400
/-- The samples of the QNT example. -/
def qntSamples : List Nat := [1003, 1004, 1012, 997, 1500, 400, 2200] ++ List.replicate 57 1001

theorem test_pack_header_and_words :
    ((blockWords 1 0 64 (codeBlock 1 0 packSamples)).take 5).map BitVec.toNat =
      [0x04c00440, 0x01900000, 0, 0, 0x001fffe0] := by decide +kernel
theorem test_pack_takes_245_bits : (codeBlock 1 0 packSamples).bits.length = 245 := by decide +kernel
theorem test_qnt_block :
    blockWords 0x7303 0 64 (codeBlock 0x7303 1000 qntSamples) =
      [0x0c200840, 0x00000200, 0x3eb57f00] ++ List.replicate 14 0 := by decide +kernel
theorem test_log_code : logCode 40037 = 0xe71 ∧ logCode 300 = 0x12c := by decide +kernel
theorem test_log_decodes : decodeBlock 4 0 2 0 0 (bitsMsb 12 0xe71 ++ bitsMsb 12 0x12c) = [40000, 300] := by decide +kernel

/-! ### Release, admission, tower I/O (the examples of chapters 3, 7 and 11) -/

/-- Stream entry 5 of P(1,2) of the release example: lane 2.11, channels 0..31, declaration 17 with its W. -/
def releaseState : State :=
  ((State.reset.setRegN .ADM_D_W 0x0001c6a8 0 17).setRegN .GATE_SENT_W (2 * 2 ^ 16 + 11 * 2 ^ 19) 10 5 0
    |>.setRegN .GATE_SENT_W 0x1f00 10 5 1 |>.setRegN .GATE_SENT_W 17 10 5 2)

theorem test_release_min : releaseState.releaseMin 10 5 = 0x000a6667 := by decide +kernel

/-- The port example: T1 reaches P(0,1) by its link 0, and endpoint 3 of P(0,1) is active. -/
def admState : State :=
  ((State.reset.setRegN .ADM_CFG 0x8003c006).setFld F.LRT_LINK_STAT_STATE 5 33 0
    |>.setFlag F.CFG_FEP_STAT_ACTIVE true 1 3 |>.setFld F.CFG_PLOT_STAT_STATE 0 1 0)

/-- W and GAP of an answer. -/
def answerFigures : AdmAnswer → Option (Nat × Nat)
  | .ok p => some (p.w, p.gapWord)
  | .no _ _ => none

theorem test_admission_figures :
    admState.declBadEnd [0x06140011, 0x1400, 0x26667, 0x1f4, 0, 0, 0, 0] = false ∧
      answerFigures (admState.admCompute 17 [0x06140011, 0x1400, 0x26667, 0x1f4, 0, 0, 0, 0]) =
        some (0x00026042, 0x00f00004) := by decide +kernel

/-- Group 5 of T1 at 16:1 and BITMUL 20, with the declaration of the example. -/
def tioState : State :=
  ({ admState with decls := [(17, ⟨[], ⟨0x26042, 4, 240, 0, [], 0, [], []⟩, none⟩)] } : State).setFld
    F.TIO_GRP_CFG_BITMUL 20 1 5 |>.setFld F.TIO_GRP_CFG_SER 2 1 5 |>.setFld F.TIO_GRP_DECL_DECL 17 1 5

theorem test_tio_lat_min : tioState.tioLatMin 1 5 = 0x0003d0e7 := by decide +kernel

/-! ### Dome addresses (R116) and rings -/

theorem test_line_of_a_dome_address :
    (linePc (0x10012340 / 64), lineBank (0x10012340 / 64), lineRow (0x10012340 / 64)) = (13, 1, 1024) := by decide +kernel

/-! ### Spires: the loop of Table 8.10 -/

theorem test_loop_bundle_0 :
    sDecode 0x84000010 = some (.waite 0x10) ∧ vDecode 0x28000000 = some (.vclr 0) := by decide +kernel
theorem test_loop_bundle_1 : sDecode 0x78c00044 = some (.csrr 6 0x44) ∧ vDecode 0 = some .nop := by decide +kernel
theorem test_loop_bundle_2 : sDecode 0x68c20000 = some (.agw 0 2 6) := by decide +kernel
theorem test_loop_bundle_3 : sDecode 0x60001001 = some (.loopi 4 1) := by decide +kernel
theorem test_loop_bundle_4 : vDecode 0x20100000 = some (.ftap 0 0 true) := by decide +kernel
theorem test_loop_bundle_5 :
    sDecode 0x94000000 = some (.feedack 0) ∧ vDecode 0x2c442800 = some (.vrnd 1 0 16 2 true) := by decide +kernel
theorem test_loop_bundle_6 :
    sDecode 0x581ffffa = some (.jal 0 (-6)) ∧ vDecode 0x08480000 = some (.vst 1 1) := by decide +kernel
theorem test_loop_encodes : sEncode (.jal 0 (-6)) = 0x581ffffa ∧ vEncode (.vrnd 1 0 16 2 true) = 0x2c442800 := by decide +kernel
theorem test_rounding_of_lane_3 :
    vround 2 16 65961984 = 1006 ∧ vround 1 16 65961984 = 1007 ∧ vround 0 16 65961984 = 1006 := by decide +kernel

/-! ### Tasks, events, packets, telemetry, integrity, debug (the examples of their chapters) -/

theorem test_completion_record :
    (cplRecord ⟨0x123, 40, 0x00070011, 0x1000, 0, 0⟩ 3 1 0).headD 0 = 0x048c4c28 ∧
      (cplRecord ⟨0x123, 40, 0x00070011, 0x1000, 0, 0⟩ 15 2 0).headD 0 = 0x048cbc28 := by decide +kernel

/-- Source 400 in group 50, ripe, with three raises, for target 2. -/
def ackState : State :=
  (((State.reset.setRegN .EVC_MASK 0 10 12).setRegN .EVC_GRP_ROUTE 2 10 50 |>.setBit .EVC_PEND 16 true 10 12).setH
    .evcCount 3 10 400).setEv 10 .gstat 50 16 1 1

theorem test_acknowledge_word : ackState.ackWord 10 2 0 = 0x80003190 := by decide +kernel

theorem test_dma_request_header :
    let w : List Word := [0x05c29d08, 0x10000000, 0x02901d00, 0]
    (pktOp w, pktDst w, pktSrc w, pktPort w, pktTag w, pktLen w) = (1, 29, 10, 92, 5, 16) ∧
      pktAddr w = 0x1d0010000000 := by decide +kernel

theorem test_gap_record :
    let s := (State.reset.setH .telGap 1 0 2).setH .telGap 1 0 3
    s.gapRecord.map BitVec.toNat = [0x0000200f, 0, 0, 0, 0x00010001, 0, 0, 0] := by decide +kernel

theorem test_metadata_lines : mlinesMin 4096 = 37448 := by decide +kernel

theorem test_ethernet_rejects_lanes_that_are_not_its_own : State.reset.ethCheck 0 0x215 = 1 := by decide +kernel

/-- The lane plan of chapter 18: quad 4 on REFCLK4 at 156.25 MHz, lanes 16..19 for Ethernet. -/
def ethState : State :=
  (List.range 4).foldl (fun s k => s.setRegN .XCV_LANE_CFG 6 0 (16 + k))
    ((State.reset.setRegN .XCV_QUAD_REF 0x2625a 0 4).setRegN .XCV_QUAD_CFG 0x15404 0 4)

theorem test_ethernet_lane_plan : ethState.ethCheck 0 0x215 = 0 := by decide +kernel

/-! ### Steps -/

theorem test_a_step_takes_the_front_command :
    step { State.reset with pending := [.psampFifoRead 0, .adjGo] } =
      .next { State.reset with pending := [.adjGo] } := by rfl
theorem test_an_idle_step_advances_time : (State.reset.pass 1).time = 1 := by decide +kernel
theorem test_no_word_spells_a_command : decodeTableWord 32 0 = none ∧ State.reset.withFetchWord 32 0 = State.reset := by
  decide +kernel

end Sys2Proof.Tests
end

