-- ==== Sys2Proof/Tests/Witnesses.lean ====
section
/-!
SUPPORT. For each statement with hypotheses, and each clause of one, a state and operands that meet them all.
-/
namespace Sys2Proof.Tests

open Sys2Proof Sys2Proof.Machine

set_option Elab.async false

/-! ### O1..O8: registers, placement, time, launch queues -/

theorem witness_pair_lo :
    State.reset.findReg 48 = some (some ⟨.CAMP_ADJ, 0, 0, 0, false⟩) ∧ State.reset.regReach 48 = .ok ∧
    RegId.CAMP_ADJ.row.pair = true := by decide +kernel

theorem witness_pair_hi :
    State.reset.findReg 52 = some (some ⟨.CAMP_ADJ, 0, 0, 0, true⟩) ∧ State.reset.regReach 52 = .ok := by decide +kernel

theorem witness_pair_lo_read :
    State.reset.findReg 24 = some (some ⟨.CAMP_SLEW_REM, 0, 0, 0, false⟩) ∧ State.reset.regReach 24 = .ok ∧
    RegId.CAMP_SLEW_REM.row.pair = true := by decide +kernel

theorem witness_read_only :
    State.reset.findReg 0x3000000 = some (some ⟨.SITE_ID, 0, 0, 0, false⟩) ∧
    State.reset.findReg 0x800000 = some (some ⟨.TWR_ID, 0, 0, 0, false⟩) ∧
    State.reset.regReach 0x3000000 = .ok ∧ State.reset.regReach 0x800000 = .ok ∧
    RegId.defined .SITE_ID 0 = true ∧ RegId.defined .TWR_ID 0 = true := by decide +kernel

theorem witness_folly_slots :
    follySlot 0x8114 0 = 4 ∧ follySlot 0x8114 1 = 1 ∧ follySlot 0x8114 2 = 1 ∧ follySlot 0x8114 3 = 8 := by decide +kernel

theorem witness_placement_sides :
    2 * 1 < 0x8114 / 2 ^ (4 * 0) % 16 ∧ 0x8114 / 2 ^ (4 * 0) % 16 ≤ 2 * 2 := by decide +kernel

/-- An APPLY in progress. -/
def applyState : State :=
  ((State.reset.setFlag F.CFG_PMAP_CTL_BUSY true).setH .pmapNext 0x8104).setH .presiding 1

theorem witness_pmap_apply_refused :
    RegId.defined .CFG_PMAP_CTL 1 = true ∧ State.reset.isPresiding (.host 0) = false ∧
    State.reset.flag F.CFG_PMAP_CTL_BUSY = false := by decide +kernel

theorem witness_pmap_apply_busy :
    applyState.flag F.CFG_PMAP_CTL_BUSY = true ∧ applyState.hb .loadWait = false := by decide +kernel

/-- A launch queue of 256 entries. -/
def lqFullState : State :=
  { State.reset with lq := [((0, 0), List.replicate 256 ⟨[], false⟩)] }

theorem witness_launch_queue_full :
    256 ≤ (lqFullState.lqOf 0 0).length := by decide +kernel

/-- A launch entry of an unlisted kind. -/
def lqPushState : State :=
  State.reset.setRegN .CAMP_LQ_PUSH (2 ^ 32 - 1) 0 0 2

theorem witness_launch_queue_bad_kind :
    (lqPushState.lqOf 0 0).length < 256 ∧ lqPushState.flag F.CAMP_LQ_STAT_FLUSH_BUSY 0 0 = false ∧
    kindPermitted 0 (⟨(List.range 8).map fun n => BitVec.ofNat 32 (lqPushState.regN .CAMP_LQ_PUSH 0 0 n), false⟩ : LqEntry).kind = false := by decide +kernel

theorem witness_launch_queue_accepts :
    (State.reset.lqOf 0 0).length < 256 ∧ State.reset.flag F.CAMP_LQ_STAT_FLUSH_BUSY 0 0 = false ∧
    kindPermitted 0 (⟨List.replicate 8 0, false⟩ : LqEntry).kind = true ∧
    lqParamsValid 0 ⟨List.replicate 8 0, false⟩ = true := by decide +kernel

/-- A PIN_SAMPLE entry of group 3 with TAG 0x1234 that may act. -/
def pinSampleState : State :=
  { (State.reset.setH .lqForwarded 1 33 2) with
    lq := [((33, 2), [⟨[0, 0, 0x12340006, 3, 0, 0, 0, 0], false⟩])] }

theorem witness_pin_sample_room :
    pinSampleState.lqHead (32 + 1) 2 6 = some ⟨[0, 0, 0x12340006, 3, 0, 0, 0, 0], false⟩ ∧
    (pinSampleState.lqIsLate (32 + 1) 2 ⟨[0, 0, 0x12340006, 3, 0, 0, 0, 0], false⟩ && bitOf 0x12340006 4) = false ∧
    (tget { pinSampleState with psamp := [(1, List.replicate 63 0)] }.psamp 1 []).length < 64 := by decide +kernel

theorem witness_pin_sample_full :
    64 ≤ (tget { pinSampleState with psamp := [(1, List.replicate 64 0)] }.psamp 1 []).length := by decide +kernel

theorem witness_pin_sample_read :
    tget { State.reset with psamp := [(1, [7, 8])] }.psamp 1 [] = 7 :: [8] ∧ tget State.reset.psamp 1 [] = [] := by decide +kernel

/-- A correction of 5 units that remains. -/
def slewState : State :=
  State.reset.setReg .CAMP_SLEW_REM 5

theorem witness_step_apply :
    (slewState.setFlag F.CAMP_CTL_STEP_EN true).flag F.CAMP_CTL_STEP_EN = true ∧
    (slewState.setFlag F.CAMP_CTL_STEP_EN true).reg .CAMP_SLEW_REM ≠ 0#64 := by decide +kernel

theorem witness_slew_done :
    slewState.flag F.CAMP_CTL_STEP_EN = false := by decide +kernel

/-! ### O9..O13: gatehouses and codecs -/

theorem witness_stream_command_busy :
    (State.reset.setFlag F.GATE_STRM_CMD_STAT_BUSY true 3).flag F.GATE_STRM_CMD_STAT_BUSY 3 = true := by decide +kernel

theorem witness_stream_command_states :
    State.reset.flag F.GATE_STRM_CMD_STAT_BUSY 3 = false ∧
    (List.range 6).all (fun n => (State.reset.setFld F.GATE_SST_STATE n 3 1).sst 3 1 == n) = true := by decide +kernel

theorem witness_stream_entry_states :
    State.reset.sst 0 0 = 0 ∧ (State.reset.setFld F.GATE_SST_STATE 5 0 0).sst 0 0 = 5 ∧
    (State.reset.setFld F.GATE_SST_STATE 1 0 0).sst 0 0 = 1 ∧ (State.reset.setFld F.GATE_SST_STATE 3 0 0).sst 0 0 = 3 ∧
    (State.reset.setFld F.GATE_SST_STATE 4 0 0).sst 0 0 = 4 ∧ codecValid 1 = true ∧
    (State.reset.setFld F.GATE_SST_STATE 3 0 0).flag F.GATE_SST_DEGRADED 0 0 = false := by decide +kernel

/-- A closed fragment of one frame. -/
def fragOf : Frag :=
  ⟨0, 0, 0, 1, [0, 0], false, false, false, false, false, false⟩

/-- A stream with one commit in flight whose copies are as given. -/
def commitState : CopyState → CopyState → State :=
  fun home twin => State.reset.setStream 2 5 { Stream.empty with
    flight := [⟨fragOf, 41, ⟨2, home, 0, 0, 1, 0⟩, ⟨3, twin, 0, 0, 1, 0⟩, false, false, 0, 0⟩] }

theorem witness_commit_both_acknowledged :
    ((commitState (.answered 0) (.got 0)).stream 2 5).flight =
      [⟨fragOf, 41, ⟨2, .answered 0, 0, 0, 1, 0⟩, ⟨3, .got 0, 0, 0, 1, 0⟩, false, false, 0, 0⟩] ∧
    ((commitState (.answered 0) .unused).stream 2 5).closed = [] ∧
    ((commitState (.answered 8) .unused).stream 2 5).orphans = [] := by decide +kernel

theorem witness_codec_block :
    1 ≤ [65535, 0].length ∧ [65535, 0].length ≤ 64 ∧ (∀ x ∈ [65535, 0], x < 65536) ∧ bitsOf 1 0 3 ≤ 1 ∧
    codecValid 2 = true ∧ codecValid 0x7303 = true ∧ codecValid 4 = true := by decide +kernel

/-! ### O14..O16: domes -/

/-- A write of the last four bytes of line 0. -/
def lineWrite : DomeReq :=
  ⟨2, 0, true, 60, 4, [1, 2, 3, 4], false, 0, 0, 0, false, [], none⟩

theorem witness_line_write :
    lineWrite.write = true ∧ lineWrite.line < 2 ^ 25 ∧ lineWrite.off + lineWrite.bytes.length ≤ 64 ∧
    64 * lineWrite.line + lineWrite.off ≤ 63 ∧ 63 < 64 * lineWrite.line + lineWrite.off + lineWrite.bytes.length ∧
    64 * lineWrite.line + lineWrite.off + lineWrite.bytes.length ≤ 64 := by decide +kernel

/-- A dome that runs, with one write queued. -/
def domeState : State :=
  ((State.reset.setH .domeReady 1 1).domeShow 1).domeEnq 1 lineWrite

theorem witness_scheduler_issue :
    (∀ r ∈ domeState.wqOf 1 0, r.write = true ∧ linePc r.line = 0 ∧ r.line < 2 ^ 25 ∧ r.off + r.bytes.length ≤ 64) ∧
    (∀ r ∈ domeState.rqOf 1 0, r.write = false) ∧ domeState.wqOf 1 0 ≠ [] ∧ domeState.domeRuns 1 = true := by decide +kernel

theorem witness_self_refresh_entry :
    ((domeState.setH .domeSr 1 1).h .domeSr 1) = 1 := by decide +kernel

theorem witness_dome_initialising :
    State.reset.domeRuns 1 = false ∧ (∀ e ∈ domeState.domeTxns, e.2.metas = []) := by decide +kernel

/-! ### O17..O21: readout, queue pairs, admission -/

/-- An accept of one beat for farm destination 0. -/
def accRecord : List Word :=
  [0, 0, 1, 0, 0x1000, 0, 0, 0]

/-- The engine enabled, with farm destination 0. -/
def accState : State :=
  (State.reset.setFlag F.RDO_CTL_EN true).setFlag F.FARM_CFG_EN true 0 0

theorem witness_accept_disabled :
    State.reset.flag F.RDO_CTL_EN = false := by decide +kernel

theorem witness_accept_bad :
    accState.flag F.RDO_CTL_EN = true ∧ accState.safeHold = false ∧ accState.accValid (List.replicate 8 0) = false := by decide +kernel

theorem witness_accept_ok :
    accRecord.length = 8 ∧ accState.accValid accRecord = true ∧
    accState.accIn.length + (accState.events.filter fun e => !e.building).length < 1024 ∧ accState.jrnlRoom = true := by decide +kernel

theorem witness_accept_retry :
    1024 ≤ { accState with accIn := List.replicate 1024 ⟨accRecord, none, none⟩ }.accIn.length +
      (accState.events.filter fun e => !e.building).length := by decide +kernel

theorem witness_stream_set :
    State.reset.fld F.RDO_SSET_REF_REF 0 63 = 0 ∧ (State.reset.setFld F.RDO_SSET_REF_REF 1 0 63).fld F.RDO_SSET_REF_REF 0 63 ≠ 0 := by decide +kernel

/-- A NOP descriptor of SEQ 1. -/
def nopDesc : QDesc :=
  ⟨[0, 1, 0, 0, 0, 0, 0, 0, 0, 0, 0, 0, 0, 0, 0, 0], false, none, 0⟩

/-- A queue pair in RUN with one descriptor fetched. -/
def qpState : QDesc → State :=
  fun d => (((State.reset.setFld F.RDO_QP_STAT_STATE 1 0 7).setFlag F.PCIE_FN_STAT_USABLE true 0 0).setQp 7 { QPair.empty with
    fetched := [d] }).setFld F.RDO_QP_CFG_CQ_LOG2 6 0 7

theorem witness_descriptor_sequence :
    ((qpState { nopDesc with words := [0, 2] }).qp 7).fetched = [{ nopDesc with words := [0, 2] }] ∧
    (qpState nopDesc).qpState 7 = 1 ∧ ((qpState nopDesc).qp 7).failing = false ∧
    (qpState nopDesc).fnUsable ((qpState nopDesc).qpFn 7) = true ∧
    QDesc.seq { nopDesc with words := [0, 2] } ≠ 1 ∧ (qpState nopDesc).regN .RDO_QP_JSEQ 0 7 = 0 := by decide +kernel

theorem witness_descriptor_room :
    nopDesc.seq.toNat = ((qpState nopDesc).regN .RDO_QP_JSEQ 0 7 + 1) % 2 ^ 32 ∧ nopDesc.op ≠ 1 ∧
    (qpState nopDesc).jrnlOk = false := by decide +kernel

/-- An admission command that waits. -/
def admBusyState : State :=
  State.reset.setFlag F.ADM_CMD_STAT_BUSY true

theorem witness_admission_busy :
    admBusyState.flag F.ADM_CMD_STAT_BUSY = true := by decide +kernel

theorem witness_admission_not_configured :
    State.reset.flag F.ADM_CMD_STAT_BUSY = false ∧ State.reset.flag F.ADM_CFG_EN = false := by decide +kernel

/-- Admission enabled, with a declaration staged. -/
def admEnState : List Nat → State :=
  fun w => foldS (fun (e : Nat × Nat) s => s.setRegN .ADM_DECL_W e.2 0 e.1 0) ((List.range 8).zip w)
    ((State.reset.setRegN .ADM_CFG 0x8003c006).setFld F.LRT_LINK_STAT_STATE 5 33 0
      |>.setFlag F.CFG_FEP_STAT_ACTIVE true 1 3 |>.setFld F.CFG_PLOT_STAT_STATE 0 1 0)

theorem witness_admission_bad_field :
    (admEnState []).flag F.ADM_CFG_EN = true ∧ (admEnState []).flag F.LDG_HOLD_STAT_ACTIVE = false ∧
    declBadField (admEnState []).admStaged = true := by decide +kernel

theorem witness_admission_bad_endpoint :
    declBadField (admEnState [0x08140011, 0x1400, 0x26667, 0x1f4]).admStaged = false ∧
    (admEnState [0x08140011, 0x1400, 0x26667, 0x1f4]).declBadEnd
      (admEnState [0x08140011, 0x1400, 0x26667, 0x1f4]).admStaged = true := by decide +kernel

/-- Declaration 17 is taken, and a larger one is staged. -/
def admDeclState : State :=
  { admEnState [0x06140011, 0x1400 * 1024, 0x26667, 0x1f4] with
    decls := [(17, ⟨[], ⟨0, 1, 1, 0, [], 0, [], []⟩, none⟩)] }

theorem witness_admission_taken_or_too_large :
    declBadField admDeclState.admStaged = false ∧ admDeclState.declBadEnd admDeclState.admStaged = false ∧
    (tfind admDeclState.decls 17).isSome = true ∧ admDeclState.admN < cdiv (dBytes admDeclState.admStaged) 64 ∧
    tfind admDeclState.decls 3 = none ∧ admDeclState.flag F.ADM_CMD_STAT_BUSY = false := by decide +kernel

theorem witness_admission_in_use :
    ((admDeclState.setFld F.GATE_SST_STATE 2 1 4).setRegN .GATE_SENT_W 17 1 4 2).admInUse 17 = true ∧
    (tfind ((admDeclState.setFld F.GATE_SST_STATE 2 1 4).setRegN .GATE_SENT_W 17 1 4 2).decls 17).isSome = true := by decide +kernel

theorem witness_source_slots :
    0 < 960 ∧ 0 < 4 ∧ 238 < 239 ∧ 239 < cdiv 960 4 := by decide +kernel

theorem witness_admission_ok :
    (match (admEnState [0x06140011, 0x1400, 0x26667, 0x1f4]).admCompute 17 [0x06140011, 0x1400, 0x26667, 0x1f4] with
      | .ok p => !p.res.isEmpty
      | .no _ _ => false) = true := by decide +kernel

/-! ### O22, O23: Spires -/

/-- Context 0 of Spire 2 of pavilion 1 in RUN at a bundle of the given words. -/
def sprState : Nat → Nat → State :=
  fun w0 w1 => ((State.reset.setRegN .SPR_STAT 1 1 2).stBytes (imemBase 1 2) (natBytes 4 w0 ++ natBytes 4 w1)).setCtx 1 2 0
    { SprCtx.zero with x := [(3, 0x10020), (4, 0xdeadbeef)], ag := [(1, ⟨0x2000, 1024, 1008, 16⟩)] }

theorem witness_store_bundle :
    (sprState (sEncode (.store 4 4 3 (-4))) 0).issuer 1 2 = some 0 ∧
    ((sprState (sEncode (.store 4 4 3 (-4))) 0).addFld F.SPR_STALL_CNT_COUNT 0 1 2).haltBefore 1 2 0 = 0 ∧
    (match ((sprState (sEncode (.store 4 4 3 (-4))) 0).addFld F.SPR_STALL_CNT_COUNT 0 1 2).issueOf 1 2 0 none with
      | .run a b => a == .store 4 4 3 (-4) && b == .nop
      | _ => false) = true := by decide +kernel

theorem witness_vector_store_bundle :
    (match ((sprState 0 (vEncode (.vst 1 1))).addFld F.SPR_STALL_CNT_COUNT 0 1 2).issueOf 1 2 0 none with
      | .run a b => a == .nop && b == .vst 1 1
      | _ => false) = true := by decide +kernel

theorem witness_fault_bundle :
    (sprState (0x3f * 2 ^ 26) 0).issuer 1 2 = some 0 ∧ ((sprState (0x3f * 2 ^ 26) 0).ctx 1 2 0).pc < 2 ^ 13 ∧
    (match ((sprState (0x3f * 2 ^ 26) 0).addFld F.SPR_STALL_CNT_COUNT 0 1 2).issueOf 1 2 0 none with
      | .fault e => decide (e < 16) && e != 5
      | _ => false) = true := by decide +kernel

/-! ### O24..O28: tasks, events, tower words -/

/-- A scheduler with EN and flow 40 on. -/
def tskState : State :=
  (State.reset.setFlag F.TSK_CTL_EN true 3).setFlag F.TSK_FLOW_EN true 3 40

theorem witness_task_disabled :
    State.reset.flag F.TSK_CTL_EN 3 = false := by decide +kernel

theorem witness_task_bad :
    tskState.flag F.TSK_CTL_EN 3 = true ∧ tskState.tskBad 3 (tskRecord 7 0 40 5 6 0) = true := by decide +kernel

theorem witness_task_flow_off :
    tskState.tskBad 3 (tskRecord 1 0 41 5 6 0) = false ∧ bitsOf ((tskRecord 1 0 41 5 6 0).getD 0 0) 0 4 = 1 ∧
    tskState.flag F.TSK_FLOW_EN 3 (bitsOf ((tskRecord 1 0 41 5 6 0).getD 0 0) 16 10) = false := by decide +kernel

theorem witness_task_posted :
    tskState.tskBad 3 (tskRecord 1 0 40 5 6 0) = false ∧
    tskState.flag F.TSK_FLOW_EN 3 (bitsOf ((tskRecord 1 0 40 5 6 0).getD 0 0) 16 10) = true ∧
    tskState.flag F.TSK_FLOW_CMD_STAT_BUSY 3 = false ∧ (tskState.tu 3).freeSlot = some 0 := by decide +kernel

/-- A READY task of flow 40 for Spire 3. -/
def dispatchState : State :=
  (({ tskState with tsk := [(3, { TskUnit.empty with ready := [⟨0, 40, 5, 6, 0, 0⟩] })] } : State).setRegN .TSK_FLOW 0x00400089 3 40).setFlag
    F.SPR_CTL_EN true 3 3

theorem witness_dispatch :
    ((dispatchState.tu 3).running.map Prod.fst).Nodup ∧ ((dispatchState.tu 3).running.map fun e => e.2.flow).Nodup ∧
    (dispatchState.tu 3).ready ≠ [] := by decide +kernel

/-- Source 400 of pavilion 10 is ripe for target 2. -/
def evState : State :=
  (((State.reset.setRegN .EVC_MASK 0 10 12).setRegN .EVC_GRP_ROUTE 2 10 50 |>.setBit .EVC_PEND 16 true 10 12).setH
    .evcCount 3 10 400).setEv 10 .gstat 50 16 1 1

theorem witness_acknowledge :
    evState.evNext 10 2 0 = some 400 ∧ (10 : Nat) < 33 ∧ (0 : Nat) < 2 ∧ State.reset.evNext 10 2 0 = none := by decide +kernel

theorem witness_acknowledge_held :
    (State.reset.setEv 10 .tstat 2 3 1 1).frozen 10 2 = true ∧ stackTakes 1 0 = false ∧
    ((evState.setH .evcStack 1 10 2).h .evcStack 10 2) = 1 ∧ (evState.holdSet 10).evHold 10 = true := by decide +kernel

theorem witness_end_of_interrupt :
    (evState.setStack 10 2 3).frozen 10 2 = false ∧ (evState.setStack 10 2 3).h .evcStack 10 2 ≠ 0 ∧
    stackTop ((evState.setStack 10 2 3).h .evcStack 10 2) = 1 ∧ stackTop ((evState.setStack 10 2 3).h .evcStack 10 2) ≠ 0 ∧
    evState.h .evcStack 10 2 = 0 := by decide +kernel

/-- An input port with LAT 10 and a word whose first bit came at 0. -/
def tioInState : State :=
  { (((State.reset.setFlag F.TIO_GRP_CFG_EN true 1 5).setFlag F.TIO_GRP_CFG_OWNER true 1 5).setRegN .TIO_GRP_LAT 10 1 5) with
    tio := [((1, 5), [(0, 0x5a)])] }

/-- An output port with a word due at 0. -/
def tioOutState : State :=
  tioInState.setFlag F.TIO_GRP_CFG_DIR true 1 5

theorem witness_tower_input_word :
    tioInState.tioOf 1 5 = (0, 0x5a) :: [] ∧ tioInState.tioRuns 1 5 false = true ∧
    atOrAfter (tioInState.pavTime (tioInState.fld F.TIO_GRP_CFG_PAV 1 5)) (0 + BitVec.ofNat 64 (tioInState.regN .TIO_GRP_LAT 1 5)) = false ∧
    atOrAfter (({ tioInState with time := 10 } : State).pavTime 0) (0 + BitVec.ofNat 64 10) = true ∧
    later 10 (0 + BitVec.ofNat 64 10) = false ∧ later 11 (0 + BitVec.ofNat 64 10) = true := by decide +kernel

theorem witness_tower_output_word :
    tioOutState.tioOf 1 5 = (0, 0x5a) :: [] ∧ tioOutState.tioRuns 1 5 true = true ∧
    later 0 ((0 : Time) - BitVec.ofNat 64 (tioOutState.nsUnits 2)) = true ∧
    later (0 - BitVec.ofNat 64 (tioOutState.nsUnits 2)) ((0 : Time) - BitVec.ofNat 64 (tioOutState.nsUnits 2)) = false := by decide +kernel

/-- A scheduler whose every slot is taken. -/
def fullScheduler : TskUnit :=
  { TskUnit.empty with waiting := (List.range 16384).map fun n => (⟨n, 0, 0, 0, 0, 0⟩, []) }

theorem witness_task_no_slot : fullScheduler.freeSlot = none := by
  simp [TskUnit.freeSlot, firstWhere, fullScheduler, TskUnit.all, TskUnit.empty]

/-! ### O29..O35: network, links, loads -/

theorem witness_fence_request :
    RegId.defined .PRM_FENCE_CTL 3 = true ∧ State.reset.fld F.PRM_STAT_FENCE 4 = 0 ∧ bitOf 3 0 = true ∧ bitOf 3 1 = true := by decide +kernel

/-- A fence of scope PORTS around port 95 in the given state. -/
def fenceState : Nat → State :=
  fun st => ((State.reset.setFld F.PRM_STAT_FENCE st 4).setFld F.PRM_FENCE_CTL_SCOPE 1 4).setBit .PRM_FENCE_PORT 31 true 4 2

theorem witness_fence_draining :
    RegId.defined .PRM_FENCE_CTL 2 = true ∧ bitOf 2 0 = false ∧ (fenceState 1).fld F.PRM_STAT_FENCE 4 = 1 ∧
    (fenceState 1).drained 4 ((fenceState 1).inScope 4) = true ∧ (fenceState 1).transitEmpty 4 = true := by decide +kernel

theorem witness_fence_release :
    (fenceState 2).fld F.PRM_STAT_FENCE 4 = 2 ∧ (fenceState 2).fld F.PRM_FENCE_CTL_SCOPE 4 = 1 ∧
    (fenceState 2).portClosed 4 95 = true ∧ (4 : Nat) < 32 := by decide +kernel

/-- The read of the example of chapter 12. -/
def isoRead : Flight :=
  ⟨[0x05c29d08, 0x10000000, 0x02901d00, 0], 0, 0, 0, 0, none, 1, 0, none⟩

/-- Router 11 masks node 29 and holds a read for it. -/
def isoState : State :=
  (State.reset.setBit .PRM_ISO 29 true 11).setPIn 11 0 [isoRead]

theorem witness_isolated_target :
    (11 : Nat) < 32 ∧ ((isoState.pIn 11 0).find? (fun f => f.cls == 0)) = some isoRead ∧ isoState.isoAt 11 (pktDst isoRead.words) = true ∧
    pktNonPosted isoRead.words = true ∧ pktNonPosted [0x05c29d10, 0x10000000, 0x02901d00, 0] = false := by decide +kernel

theorem witness_isolation_mask_refused :
    State.reset.isPresiding (.lodge 3) = false ∧ RegId.defined .PRM_ISO (5 * 2 ^ 32) = true := by decide +kernel

theorem witness_store_conditional :
    State.reset.resvHeld 3 0 5 64 = false ∧ (State.reset.amoMem 3 8 0 0 0 0 5 64 (fun t _ => t)).2.resvHeld 3 (8 / 64) 5 64 = true ∧
    ((6, 64) : Nat × Nat) ≠ (5, 64) := by decide +kernel

/-- A link that is UP and expects SEQ 255. -/
def lrtState : State :=
  (State.reset.setFld F.LRT_LINK_STAT_STATE 5 4 2).setSide 4 2 { LrtSide.empty with expect := 255 }

theorem witness_lartum_frames :
    lrtState.lrtState 4 2 = 5 ∧ (lrtState.side 4 2).expect = 255 ∧ (lrtState.side 4 2).swap = none ∧ (0 : Nat) ≠ 255 := by decide +kernel

/-- Annex 1, enabled, in the given state. -/
def anxState : Nat → State :=
  fun st => (State.reset.setFlag F.ANX_CFG_EN true 0 1).setFld F.ANX_STAT_STATE st 0 1

theorem witness_annex_states :
    (anxState 3).anxState 1 = 3 ∧ (anxState 4).anxState 1 = 4 ∧ (anxState 5).anxState 1 = 5 ∧ (anxState 6).anxState 1 ≠ 5 ∧
    (1 : Nat) < 4 ∧ (5 : Nat) < 6 := by decide +kernel

theorem witness_tokens :
    (decodeTokens 1 1 [] [] [BitVec.ofNat 32 (2 ^ 29 + 1024)]).isSome = true ∧ (List.replicate 1024 (7 : Word)).length = 1024 ∧
    4 * 2 ^ 29 ≤ (0x80000001 : Word).toNat ∧ (0 : Word).toNat % 2 ^ 11 = 0 ∧
    1024 < ([] : List Word).length + (0x401 : Word).toNat % 2 ^ 11 := by decide +kernel

/-- A load in the given state from the given source. -/
def loadState : Nat → Nat → State :=
  fun st src => ((State.reset.setFld F.CFG_LOAD_STAT_STATE st).setH .loadSrc src).setH .presiding 1

theorem witness_load_error :
    (loadState 0 0).loadState ≠ 1 ∧ (loadState 0 0).loadState ≠ 2 ∧ (loadState 1 0).loadState = 1 ∧ (loadState 2 1).loadState = 2 ∧
    (loadState 1 0).h .loadSrc = 0 ∧ (loadState 1 0).hb .loadPav = false ∧ (loadState 1 0).fld F.CFG_LOAD_CTL_SRC = 0 ∧
    (loadState 2 1).h .loadSrc ≠ 0 ∧ (255 : Nat) < 256 := by decide +kernel

theorem witness_load_go :
    bitOf (3 : Word).toNat 0 = true ∧ RegId.defined .CFG_LOAD_CTL (3 : Word).toNat = true ∧ State.reset.isPresiding (.host 0) = false ∧
    (loadState 3 0).isPresiding (.lodge 0) = true ∧ (loadState 3 0).loadState = 3 := by decide +kernel

/-! ### O36..O43: keys, lodges, telemetry, interfaces, debug -/

/-- KID 3 of chapter 15, whose first leaf is about to overflow. -/
def keyState : State :=
  ((((State.reset.setFld F.MEM_KEY_STAT_STATE 2 10 3).setRegN .MEM_KEY_BASE 0x10000 10 3).setRegN .MEM_KEY_PAGES 4096 10 3).setH
    .keyMinor 127 10 3 1)

theorem witness_protected_write :
    keyState.keyAccess 10 3 0x10000040 = .guarded ∧ (keyState.keyWrite 10 3 0x10000040).isSome = true ∧
    (∀ e ∈ keyState.keyPath 10 3 0x10000040, keyState.h .keyMinor 10 3 (e.1 * 64 + e.2) ≤ 127) ∧ keyState.keyPath 10 3 0x10000040 ≠ [] := by decide +kernel

/-- The lodge of site 5 with FIE at 1 and a fast event offered. -/
def lodgeState : State :=
  (((((State.reset.setFld F.LDG_BOOT_STAT_STATE 1 5).setRegN .HEVC_MASK 0 0 12).setRegN .HEVC_CLASS 0x10000 0 12).setBit
    .HEVC_PEND 16 true 0 12).setRegN .HEVC_GRP_ROUTE (8 * 5 + 1) 0 (State.reset.evGroup hevc 400) |>.setEv hevc .gstat (State.reset.evGroup hevc 400) 16 1 1).setLodge 5
    ⟨0x100, [(1, 11)], [(1, 22)], [(0x7c0, 1), (0x7c2, 0x80000)], 0⟩

theorem witness_lodge_fast_entry :
    lodgeState.lodgeReady 5 = true ∧ (lodgeState.lodge 5).fie = true ∧ (lodgeState.lodge 5).inFast = false ∧
    lodgeState.lodgeOffered 5 1 = true ∧ (State.reset.lodge 5).fie = false := by decide +kernel

/-- A message of term 1; the lodges of sites 3 and 7 stand. -/
def electState : State :=
  foldS (fun x s => (s.setFld F.LDG_BOOT_STAT_STATE 1 x).setFld F.LDG_SITE_STAT_SELFTEST 1 x) [3, 7] (State.reset.setH .elecTerm 1)

theorem witness_election :
    electState.h .elecTerm ≠ 0 ∧ electState.h .elecCand = 0 ∧ (∀ x ∈ [7, 3, 9], electState.regN .LDG_TERM x ≤ electState.h .elecTerm) ∧
    electState.standing 3 = true ∧ electState.standing 7 = true := by decide +kernel

/-- A log of class 3. -/
def logRec : TelRec :=
  ⟨false, [0x0b, 1, 2, 3, 4, 5, 6, 7], 0⟩

/-- A ring of 256 records with some held and one log in the intake. -/
def logState : Nat → State :=
  fun held => { ((((((State.reset.setFlag F.TEL_CTL_LOG_EN true).setFlag F.TEL_CTL_LOG_MEM true).setFlag F.PCIE_FN_STAT_USABLE true 0 0).setRegN
    .TEL_LOG_WR held).setFld F.TEL_LOG_CFG_SIZE_LOG2 8)) with telIntake := [logRec] }

theorem witness_log_dropped :
    (logState 240).telIntake = logRec :: [] ∧ logRec.trace = false ∧ (3 : Nat) = (logRec.words.getD 0 0).toNat % 8 ∧
    (logState 240).telFree false < 1 + (7 - 3) * (logState 240).fld F.TEL_LOG_CFG_STEP + b2n (logState 240).gapPending := by decide +kernel

theorem witness_log_stored :
    1 + (7 - 3) * (logState 239).fld F.TEL_LOG_CFG_STEP + b2n (logState 239).gapPending ≤ (logState 239).telFree false ∧
    (logState 239).flag F.TEL_CTL_LOG_MEM = true ∧ (logState 239).fnUsable ((logState 239).fld F.TEL_CTL_FUNC) = true ∧
    (logState 239).regN .TEL_LOG_WR < 2 ^ 32 ∧ (logState 239).gapPending = false := by decide +kernel

theorem witness_log_after_a_gap :
    ((logState 230).setH .telGap 1 0 2).gapPending = true ∧
    1 + (7 - 3) * ((logState 230).setH .telGap 1 0 2).fld F.TEL_LOG_CFG_STEP + b2n ((logState 230).setH .telGap 1 0 2).gapPending ≤
      ((logState 230).setH .telGap 1 0 2).telFree false := by decide +kernel

theorem witness_alarm_record :
    State.reset.h .almSent 3 255 = 0 ∧ (State.reset.setH .almSent 65535 3 255).h .almSent 3 255 ≠ 0 ∧
    (State.reset.setH .almSent 65535 3 255).hb .almTaken 3 255 = false ∧ (State.reset.setH .almSent 65535 3 255).h .almSent 3 255 < 65536 := by decide +kernel

/-- Endpoint 1 up, with its functions usable and IDE required. -/
def pcieState : State :=
  ((((State.reset.setFlag F.PCIE_EP_STAT_LINK_UP true 0 1).setFlag F.PCIE_FN_CFG_EN true 0 3).setFlag F.PCIE_FN_STAT_USABLE true 0 3).setFlag
    F.PCIE_FN_STAT_USABLE true 0 2).setFlag F.PCIE_EP_CTL_IDE_REQ true 0 1

theorem witness_functions :
    (1 : Nat) < 2 ∧ (3 : Nat) < 4 ∧ pcieState.flag F.PCIE_EP_CTL_IDE_REQ 0 1 = true ∧ pcieState.flag F.PCIE_FN_STAT_USABLE 0 3 = true := by decide +kernel

theorem witness_masked_pins :
    (5 : Nat) < 6 ∧ (State.reset.setRegN .GPIO_DOUT 0xffff 0 5).regN .GPIO_DOUT 0 5 < 2 ^ 16 ∧ State.reset.regN .GPIO_OE 0 5 < 2 ^ 16 ∧
    (∀ b, b < 16 → bitOf (0x00ff00aa : Word).toNat (16 + b) = true → bitOf (0xff005500 : Word).toNat (16 + b) = false) := by decide +kernel

/-- A locked part. -/
def lockedState : State :=
  State.reset.setFlag F.DBG_STAT_SECURE true |>.setFlag F.DBG_STAT_UNLOCKED false

theorem witness_locked :
    lockedState.dbgLocked = true ∧ RegId.defined .DBG_ACC_CTL 1 = true ∧ bitsOf (1 : Word).toNat 0 2 ≠ 0 ∧ RegId.defined .DBG_CORE_CTL 1 = true ∧
    RegId.defined .DBG_PATCH_DATA 1 = true ∧ lockedState.flag F.DBG_STAT_ERASING = false ∧ lockedState.hb .porHeld = false ∧
    Requester.host 0 ≠ .lodge 3 := by decide +kernel

/-! ### O44..O46: completion, registers, time, ingest and fabric -/

theorem witness_field_values :
    RegId.defined .ADM_CFG 0x8003c006 = true ∧ RegId.defined .ANX_CFG 1 = true ∧ RegId.defined .CAMP_REF_CFG 0x102710 = true ∧
    RegId.defined .CFG_LOAD_CTL 3 = true ∧ RegId.defined .CFG_VER_CTL 1 = true ∧ RegId.defined .DBG_ACC_CTL 1 = true ∧
    RegId.defined .DOME_CTL 1 = true ∧ RegId.defined .DOME_RING_CFG 1 = true ∧ RegId.defined .ETH_CTL 0x215 = true ∧
    RegId.defined .GATE_CTL 1 = true ∧ RegId.defined .GPIO_U_CFG 1 = true ∧ RegId.defined .LDG_SUB_CTL 1 = true ∧
    RegId.defined .MEM_REMAP_ENTRY 1 = true ∧ RegId.defined .PRM_FENCE_CTL 1 = true ∧ RegId.defined .PRM_FENCE_CTL 2 = true ∧
    RegId.defined .PRM_ISO (0xfff * 2 ^ 32) = true ∧ RegId.defined .SPR_DMA_CTL 1 = true ∧
    RegId.defined .SPR_FEED_CFG 1 = true ∧ RegId.defined .SPR_FEED_RIDX 1 = true ∧ RegId.defined .SPR_START 1 = true ∧
    RegId.defined .TEL_ALM_RAISE 0x8f = true ∧ RegId.defined .TEL_CTL 3 = true ∧ RegId.defined .THM_PWR_CTL 1 = true ∧
    RegId.defined .TIO_GRP_CFG 1 = true ∧ RegId.defined .TSK_CTL 0x601 = true ∧ RegId.defined .TSK_FLOW 0x400089 = true ∧
    RegId.defined .XCV_LANE_CFG 6 = true ∧ RegId.defined .EVC_SWRAISE 511 = true ∧ RegId.defined .HEVC_SWRAISE 2047 = true ∧
    RegId.defined .DBG_CORE_CTL 2 = true ∧ RegId.defined .DBG_PATCH_ADDR 0x80000000 = true := by decide +kernel

/-- Node 11 with one request delivered. -/
def rxState : List Word → State :=
  fun pkt => State.reset.setPRx 11 [pkt]

/-- A request of a class and an operation from pavilion 10 to pavilion 11. -/
def reqOf : Nat → Nat → Nat → List Word → List Word :=
  fun cls op w2 vs => [BitVec.ofNat 32 (cls + op * 8 + 11 * 256 + 10 * 2 ^ 14 + 92 * 2 ^ 20), 0, BitVec.ofNat 32 w2, 0] ++ vs

theorem witness_requests :
    ((rxState (reqOf 0 1 0 [])).pRx 11).contains (reqOf 0 1 0 []) = true ∧ pktClass (reqOf 0 1 0 []) ≠ 1 ∧ pktOp (reqOf 0 1 0 []) = 1 ∧
    pktPeek (reqOf 0 1 0 []) = false ∧
    (let pkt := (reqOf 4 1 0 []).set 3 16; ((rxState pkt).pRx 11).contains pkt = true ∧ pktOp pkt = 1 ∧ pktPeek pkt = true) ∧
    (let pkt := reqOf 0 2 0x2000 [7]
     ((rxState pkt).pRx 11).contains pkt = true ∧ pktClass pkt ≠ 1 ∧ pktOp pkt = 2 ∧
       (((rxState pkt).setPRx 11 (((rxState pkt).pRx 11).erase pkt)).serveWrite 11 pkt .ok).isSome = true) ∧
    (let pkt := reqOf 0 3 0x2000 [7]
     ((rxState pkt).pRx 11).contains pkt = true ∧ pktClass pkt ≠ 1 ∧ pktOp pkt = 3 ∧
       (((rxState pkt).setPRx 11 (((rxState pkt).pRx 11).erase pkt)).serveAtomic 11 pkt .ok 0).isSome = true) := by decide +kernel

/-- A launch queue of pavilion 3 whose head writes a register. -/
def launchWriteState : State :=
  { (State.reset.setH .lqForwarded 1 3 1) with lq := [((3, 1), [⟨[0, 0, 7, 48, 5, 0, 0, 0], false⟩])] }

theorem witness_register_writes :
    (State.reset.regWrite 48 7 (.host 0)).isSome = true ∧ (State.reset.regWrite 52 7 (.host 0)).isSome = true ∧
    (State.reset.regWrite 0x200010 7 (.host 0)).isSome = true ∧ 48 % 4 = 0 ∧
    (State.reset.regWrite 48 7 (.host 1)).map Prod.fst = some .ok ∧
    (launchWriteState.lqHead 3 1 7).isSome = true ∧ (State.lqBatch 3 1 0 16 launchWriteState).isSome = true := by decide +kernel

/-- An epoch mode, and a correction that is applied as a step. -/
def timeState : Nat → State :=
  fun mode => (((State.reset.setFld F.CAMP_CTL_EPOCH_MODE mode).setFlag F.CAMP_CTL_STEP_EN true).setReg .CAMP_SLEW_REM 5).setH .lqForwarded 0 3 1

theorem witness_time_commands :
    (timeState 0).fld F.CAMP_CTL_EPOCH_MODE = 0 ∧ (timeState 1).fld F.CAMP_CTL_EPOCH_MODE = 1 ∧
    (timeState 0).flag F.CAMP_CTL_STEP_EN = true ∧ (timeState 0).reg .CAMP_SLEW_REM ≠ 0 ∧ State.reset.flag F.CAMP_CTL_STEP_EN = false ∧
    launchWriteState.lqOf 3 1 ≠ [] ∧ launchWriteState.flag F.CAMP_LQ_CTL_EN 3 1 = true := by decide +kernel

/-- A transaction whose lines are all written. -/
def doneTxn : DomeTxn :=
  DomeTxn.plain 2 0

theorem witness_commits :
    ((commitState .flight .unused).stream 2 5).firstCommit false (fun k => k.st == .flight) ≠ none ∧
    ((commitState .unused .flight).stream 2 5).firstCommit true (fun k => k.st == .flight) ≠ none ∧
    (let s := { (commitState .writing .unused) with domeTxns := [(0, doneTxn)] }
     ((s.stream 2 5).firstCommit false (fun k => k.st == .writing && s.txnOver k.txn)).any (fun c =>
       (s.commitFinish c.home.pav c.home.ring (s.commitIn 2 5 c false) c.home.ofs c.home.lines c.home.txn).isSome) = true) := by decide +kernel

/-- XFL lane 3 of T1, enabled, in a state. -/
def laneState : Nat → State :=
  fun st => (((State.reset.setFld F.XFL_LANE_STAT_STATE st 1 3).setFlag F.XFL_LANE_CTL_EN true 1 3).setFld F.XCV_LANE_CFG_USE 1 1 3).modLane
    1 3 fun x => { x with waiting := true }

theorem witness_lanes :
    (laneState 0).flag F.XFL_LANE_CTL_EN 1 3 = true ∧ (laneState 0).laneState 1 3 = 0 ∧ ((laneState 0).lane 1 3).waiting = true ∧
    (laneState 1).laneState 1 3 = 1 ∧ (laneState 1).fld F.XCV_LANE_CFG_USE 1 3 = 1 ∧
    (laneState 1).flag F.XCV_LANE_STAT_RATE_MISMATCH 1 3 = false ∧ (laneState 1).scanning = false ∧ 2 ≤ (laneState 2).laneState 1 3 := by decide +kernel

/-- PLL 1 of pavilion 4 with every condition of its commands. -/
def pllState : State :=
  ((((State.reset.setFlag F.CFG_PLL_STAT_RELOCKING true 4 1).setFlag F.CFG_PLL_STAT_LOCK true 4 1).setFlag F.CFG_PLL_STAT_LOSS true 4
    1).setH .pllCfg 16 4 1).setH .pllDiv 0x01010101 4 1

theorem witness_clocks :
    pllState.flag F.CFG_PLL_STAT_RELOCKING 4 1 = true ∧ pllState.flag F.CFG_PLL_STAT_LOCK 4 1 = true ∧
    (∃ j, j < 4 ∧ ratioWhole (bitsOf (pllState.h .pllCfg 4 1) 0 10,
      (bitsOf (pllState.h .pllCfg 4 1) 10 4 + 1) * bitsOf (pllState.h .pllDiv 4 1) (8 * j) 8) = true) ∧
    pllState.flag F.CFG_PLL_STAT_LOSS 4 1 = true ∧ State.reset.flag F.CFG_RST_SW 4 0 = false ∧ State.reset.loadingPav 4 = false ∧
    (127 : Nat) < 128 := by decide +kernel

/-- A lane frame at time 0. -/
def frameOf : LaneFrame :=
  ⟨0, 256, [1, 2], false, false⟩

/-- A stream with a frame to release and a beat to present. -/
def releaseReady : State :=
  ({ (State.reset.setFld F.GATE_SST_STATE 2 10 5) with time := 10000000 } : State).setStream 10 5 { Stream.empty with held := [frameOf], nextBeat := some 0 }

theorem witness_release :
    (releaseReady.releasePop 10 5).isSome = true ∧ (releaseReady.primPop 10 5).isSome = true := by decide +kernel

theorem witness_tower_words :
    tioInState.tioRuns 1 5 false = true ∧ tioOutState.tioRuns 1 5 true = true ∧ tioInState.tioOf 1 5 = [(0, 0x5a)] ∧
    atOrAfter (({ tioInState with time := 10 } : State).pavTime 0) (0 + BitVec.ofNat 64 (tioInState.regN .TIO_GRP_LAT 1 5)) = true ∧
    later (10 : Time) (0 + BitVec.ofNat 64 (tioInState.regN .TIO_GRP_LAT 1 5)) = false ∧
    later (0 : Time) (10000000 - BitVec.ofNat 64 (tioOutState.nsUnits 2)) = false := by decide +kernel

/-! ### O47..O49: domes, queues, admission and telemetry -/

/-- A read of line 0 by port 2. -/
def lineRead : DomeReq :=
  { lineWrite with write := false, bytes := [] }

/-- A dome with work of every kind under way. -/
def domeWaits : Nat → State :=
  fun st => ((((((((((domeState.setH .domeRefAhead st 1 3).setH .domeRefAhead 8 2 0).setIssued 1 0 [lineRead]).setH .domeSr st 1).setFlag F.DOME_RING_STAT_INIT true 1
    511).setH .remapPend 1 1).setFlag F.DOME_CTL_PATROL_EN true 2).setH .domeReady 1 2).setFld F.MEM_KEY_STAT_STATE st 1 15).setH .keyChange 0 1 15)

theorem witness_dome_work :
    0 < (domeWaits 1).h .domeRefAhead 1 3 ∧ (domeWaits 0).h .domeRefAhead 1 3 = 0 ∧ (domeWaits 0).wqOf 1 0 ≠ [] ∧
    (domeWaits 0).issuedOf 1 0 = [lineRead] ∧
    (domeWaits 1).domeRuns 1 = false ∧ domeState.domeRuns 1 = true ∧ 0 < (domeState.setH .domeRefAhead 1 1 3).h .domeRefAhead 1 3 ∧
    domeState.h .domeRefDue 1 3 < domeState.fld F.DOME_REF_CFG_POSTPONE_MAX 1 ∧
    domeState.fld F.DOME_REF_CFG_POSTPONE_MAX 1 ≤ (domeState.setH .domeRefDue 8 1 3).h .domeRefDue 1 3 ∧
    (domeWaits 0).flag F.DOME_CTL_PATROL_EN 2 = true ∧ (domeWaits 0).patrolTurn 2 (linePc ((domeWaits 0).h .domePatrol 2)) = true ∧
    (domeWaits 1).h .domeSr 1 = 1 ∧ (domeWaits 3).h .domeSr 1 = 3 ∧ (domeWaits 0).hb .domeReady 3 = false ∧
    (domeWaits 0).flag F.DOME_RING_STAT_INIT 1 511 = true ∧ (domeWaits 0).hb .remapPend 1 = true ∧
    (domeWaits 1).keyState 1 15 = 1 ∧ (domeWaits 4).keyState 1 15 = 4 ∧ (domeWaits 4).h .keyChange 1 15 = 0 ∧ (domeWaits 4).keyBusy 1 15 = false := by decide +kernel

/-- A descriptor of an operation. -/
def descOf : Nat → QDesc :=
  fun op => ⟨BitVec.ofNat 32 op :: nopDesc.words.tail, false, none, 0⟩

/-- A queue pair with one accepted descriptor, and one accepted event. -/
def readyState : Nat → State :=
  fun op => { (qpState (descOf op)).setQp 7 { QPair.empty with acc := [descOf op] } with
    events := [⟨0, [], none, [], false, false, [], 0, 0, false, none, none, false⟩], accIn := [⟨accRecord, none, none⟩] }

/-- The presiding lodge of site 3 and its deputy of site 7 hold the journal. -/
def holderState : State :=
  foldS (fun x s => s.setFlag F.LDG_JRNL_STAT_HOLDER true x) [3, 7] ((State.reset.setH .presiding 4).setH .elecWin 4)

theorem witness_queue_work :
    (readyState 0).qpState 7 = 1 ∧ ((readyState 0).qp 7).failing = false ∧
    (∀ op, op < 7 → ((readyState op).descReady 7 1 op).isSome = true) ∧
    (readyState 1).accIn.length + ((readyState 1).events.filter fun e => !e.building).length < 1024 ∧
    ([] : List HostLine).length = (descOf 5).w 8 / 64 ∧
    ((readyState 6).holdSetRing ((descOf 6).w 4 / 256) ((descOf 6).w 4) false ((descOf 6).w 6 + (descOf 6).w 7 * 2 ^ 32)).entAssured
      ((descOf 6).w 4 / 256) ((descOf 6).w 4 % 256) = false ∧
    ({ holderState with accIn := (readyState 0).accIn } : State).jrnlOk = true ∧
    ((readyState 0).events.find? fun e => !e.building).isSome = true ∧ ((readyState 0).events.filter fun e => e.building).length < 64 := by decide +kernel

/-- An admission and a release at their time, and a declaration that moves. -/
def admWait : State :=
  ({ (((State.reset.setH .admPending 18).setH .admReleasing 18).setH .admEffect 5) with
    time := 5, decls := [(17, ⟨[0x06140011, 0x1400], ⟨0x26042, 4, 240, 0, [], 0, [], []⟩, some ⟨0x26042, 4, 240, 1, [], 0, [], []⟩⟩)] } : State)

theorem witness_admission_work :
    admWait.hb .admPending = true ∧ admWait.hb .admReleasing = true ∧ admWait.admDue = true ∧ admWait.flag F.ADM_STAT_RESTORE = false ∧
    State.reset.declFrom 4095 1 0 = false ∧ (∀ f, f < 2 → (let s := (admDeclState.setFld F.ADM_D_STAT_STATE 1 0 17).setRegN .ADM_D_W 5 0 17
      s.declFrom 17 (dSrcKind (s.declWords 17)) (dSrcId (s.declWords 17)) = true ∧
      later (BitVec.ofNat 64 (15 + f)) (10 + BitVec.ofNat 64 (s.regN .ADM_D_W 0 17)) = decide (f = 1))) ∧
    (tfind admWait.decls 17).isSome = true ∧ (∀ d ∈ tfind admWait.decls 17, d.next.isSome = true) ∧
    atOrAfter admWait.time (admWait.hTime .admMoveAt 0 17) = true ∧
    (State.reset.setFlag F.ADM_STAT_RESTORE true).flag F.ADM_STAT_RESTORE = true ∧ State.reset.h .admPending = 0 := by decide +kernel

theorem witness_alarms_and_heat :
    ((State.reset.setBit .TEL_ALM_PEND 31 true 43 7).bit .TEL_ALM_PEND (255 % 32) 43 (255 / 32)) = true ∧ State.reset.hb .almTaken 43 255 = false ∧
    (State.reset.setH .almSent 1 43 255).h .almSent 43 255 ≠ 0 ∧
    signed 32 ((State.reset.setH .thmCtl 340 4).h .thmCtl 4) = 340 ∧ signed 32 ((State.reset.setH .thmCtl 400 4).h .thmCtl 4) = 400 ∧
    signed 32 ((State.reset.setH .thmCtl 401 4).h .thmCtl 4) = 401 ∧ (7 : Nat) < 8 := by decide +kernel

/-! ### O50..O52: Spires, tasks, events and the network -/

/-- Spire 2 of pavilion 1 runs, with a bundle of NOPs. -/
def runBundle : State :=
  ((sprState 0 0).setCtxState 1 2 0 1).setFlag F.SPR_STAT_IMEM_VALID true 1 2

theorem witness_bundle_issue :
    runBundle.issuer 1 2 = some 0 ∧ (runBundle.addFld F.SPR_STALL_CNT_COUNT 3 1 2).haltBefore 1 2 0 = 0 ∧
    (runBundle.addFld F.SPR_STALL_CNT_COUNT 3 1 2).issueOf 1 2 0 none = .run .nop .nop ∧
    SOp.nop.undefinedCsr ((runBundle.addFld F.SPR_STALL_CNT_COUNT 3 1 2).ctx 1 2 0) = false := by decide +kernel

/-- A line of zeros. -/
def zeroLine : List Byte :=
  List.replicate 64 0

/-- Spire 2 of pavilion 1 fetches line 0 of its image again; no context runs. -/
def refetchState : State :=
  ((State.reset.setH .domeReady 1 1).setCtx 1 2 0 { SprCtx.zero with refetch := true }).setH .imemCrc (crc32c zeroLine).toNat 1 2 0

theorem witness_refetch :
    (refetchState.ctx 1 2 0).refetch = true ∧ (refetchState.imgLine 1 2 0).1 = some zeroLine ∧
    (let u := (((refetchState.imgLine 1 2 0).2.addFld F.SPR_IREFETCH_CNT_COUNT 1 1 2).setCtx 1 2 0 SprCtx.zero)
     (crc32c zeroLine).toNat = u.h .imemCrc 1 2 0 ∧ ((u.stBytes (imemBase 1 2) zeroLine).sramCorrected 1).issuer 1 2 ≠ some 0) := by decide +kernel

/-- Context 1 of Spire 2 of pavilion 1 waits. -/
def waitState : Nat → State :=
  fun mask => ((State.reset.setCtx 1 2 1 { SprCtx.zero with waitMask := mask }).setCtxState 1 2 1 2)

/-- Source 400 is offered to Spire 2 of pavilion 10, whose context 0 waits with EIE at 1. -/
def vectorState : State :=
  ((evState.setRegN .EVC_GRP_ROUTE (2 + 0) 10 50).setCtxState 10 2 0 2).setCtx 10 2 0 { SprCtx.zero with eie := true, pc := 9 }

theorem witness_spire_waits :
    (waitState 1).ctxState 1 2 1 = 2 ∧ ((waitState 1).ctx 1 2 1).waitMask ≠ 0 ∧ (waitState 1).waitHolds 1 2 ((waitState 1).ctx 1 2 1).waitMask = true ∧
    ((waitState 0).ctx 1 2 1).waitMask = 0 ∧ atOrAfter ((waitState 0).pavTime 1) ((waitState 0).ctx 1 2 1).waitTime = true ∧
    vectorState.ctxState 10 2 0 = 2 ∧ (vectorState.ctx 10 2 0).eie = true ∧ (vectorState.ctx 10 2 0).amo = false ∧ (vectorState.evNext 10 2 0).isSome = true := by decide +kernel

/-- A task of flow 40. -/
def taskOf : Nat → Task :=
  fun n => ⟨n, 40, 5, 6, n, 0⟩

/-- Two delayed tasks that are due and a task whose mailbox write is under way. -/
def tasksState : State :=
  { tskState with tsk := [(3, { TskUnit.empty with delayed := [taskOf 4, taskOf 2], running := [(8, taskOf 7)], mbox := [(8, 4096, [1, 2, 3, 4])] })] }

theorem witness_task_work :
    ((tasksState.tu 3).delayed.filter fun t => atOrAfter (tasksState.pavTime 3) t.due) ≠ [] ∧ (tasksState.tu 3).on 8 = some (taskOf 7) ∧
    (tasksState.tu 3).mbox.find? (fun m => m.1 == 8) = some (8, 4096, [1, 2, 3, 4]) ∧ State.reset.portClosed 3 115 = false ∧ State.reset.power 3 < 2 ∧
    (State.reset.setFld F.PRM_STAT_FENCE 1 3).portClosed 3 115 = true := by decide +kernel

theorem witness_event_timer :
    atOrAfter State.reset.time (State.reset.hTime .evcExpiry 32 63) = true := by decide +kernel

/-- Link 6 of pavilion 4 in a state, with a swap under way. -/
def lrtAt : Nat → State :=
  fun st => (State.reset.setFld F.LRT_LINK_STAT_STATE st 4 6).setSide 4 6 { LrtSide.empty with swap := some ⟨3, 33, none, 0⟩ }

theorem witness_links :
    (lrtAt 1).lrtState 4 6 = 1 ∧ (lrtAt 5).lrtState 4 6 ≠ 0 ∧ ((lrtAt 5).side 4 6).swap = some ⟨3, 33, none, 0⟩ ∧
    (let s := ((((anxState 2).setFlag F.ANX_STAT_FITTED true 0 1).setRegN .ANX_CFG ((anxState 2).regN .ANX_CFG 0 1) 0 1))
     (s.anxFollow 1).anxState 1 = 2 ∧ (s.anxFollow 1).flag F.ANX_CFG_EN 0 1 = true) := by decide +kernel

/-- A request of node 43 waits for its response; pavilion 4 is fencing. -/
def reqState : State :=
  ((State.reset.setPReq 43 [(127, 255)]).setH .plotFence 1 4 3).setFld F.PRM_STAT_FENCE 1 4

theorem witness_node_work :
    (reqState.pReq 43).contains (127, 255) = true ∧ reqState.fld F.PRM_STAT_FENCE 4 = 1 ∧ reqState.drained 4 (reqState.inScope 4) = true ∧
    reqState.transitEmpty 4 = true ∧ reqState.h .plotFence 4 3 = 1 ∧ reqState.drained 4 (plotPort 3) = true := by decide +kernel

/-! ### O53..O55: loads, lodges, resets and the outer interfaces -/

/-- A section of zeros for plots of pavilion 0. -/
def wholeSect : Nat → ImgSect :=
  fun plots => ⟨1, false, 1, plots, 0, List.replicate (1024 * (popcount 4 plots * plotFrames)) 0⟩

theorem witness_section_frames (plots : Nat) : (sectFrames (wholeSect plots)).isSome = true := by
  simp [sectFrames, wholeSect]

/-- A load of pavilion 0, whose plot 3 is in the same state. -/
def loading : Nat → State :=
  fun st => ((((loadState st 0).setH .loadMask 1).setH .domeReady 1 0).setFld F.CFG_PLOT_STAT_STATE st 0 3).setFld F.CFG_PLOT_SRC_BASE 0x1000 0 3

theorem witness_load_sections :
    (loading 2).loadState = 2 ∧ (loading 2).firstBad 1 0 [wholeSect 15] = none ∧ coverage 1 [wholeSect 15] = true := by
  have h := witness_section_frames 15
  refine ⟨by decide +kernel, ?_, by decide +kernel⟩
  simp only [State.firstBad, State.sectError]
  simp [h, show (wholeSect 15).kind = 1 from rfl]

theorem witness_loads :
    (loading 5).loadState = 5 ∧ (loading 1).loadState = 1 ∧ ((loading 1).setRegN .CFG_IMG_INFO (1 + 256 * 2 ^ 16)).headerError 1 256 = 0 ∧
    (loading 3).loadState = 3 ∧ atOrAfter (loading 3).time ((loading 3).hTime .loadTs) = true ∧
    (loading 2).fld F.CFG_PLOT_STAT_STATE 0 3 = 2 ∧ (loading 2).plotSrcError 0 3 = false ∧
    ((loading 2).cfgGet 0 (64 * (loading 2).fld F.CFG_PLOT_SRC_BASE 0 3) ((loading 2).regN .CFG_PLOT_LEN 0 3)).1.isSome = true ∧ (wholeSect 8).kind = 1 ∧ (wholeSect 8).plots % 16 = 2 ^ 3 ∧
    bitOf (wholeSect 8).targets 0 = true ∧ (loading 3).fld F.CFG_PLOT_STAT_STATE 0 3 = 3 ∧ (loading 4).loadingPav 0 = false := by decide +kernel

/-- The verifier of pavilion 31 in a state. -/
def verifying : Nat → State :=
  fun st => (State.reset.setFld F.CFG_VER_STAT_STATE st 31).setFlag F.CFG_VER_CTL_EN true 31 |>.setFld F.CFG_PLOT_STAT_STATE 0 31 3

theorem witness_verifier :
    (verifying 2).verState 31 = 2 ∧ (verifying 2).flag F.CFG_VER_CTL_EN 31 = true ∧ (verifying 1).verState 31 = 1 ∧
    ((verifying 1).verFrom 31 ((verifying 1).h .verNext 31)).isSome = true := by decide +kernel

/-- The lodge of site 5 runs from flash, with a normal event offered. -/
def lodgeRun5 : State :=
  ((lodgeState.setRegN .HEVC_CLASS 0 0 12).setLodge 5 ⟨0x20000000, [], [], [(0x300, 8), (0x304, 0x800)], 0⟩).setFlag F.LDG_WDOG_CTL_EN true 5

theorem witness_lodge_work :
    lodgeRun5.lodgeReady 5 = true ∧ (lodgeRun5.lodge 5).inFast = false ∧ lodgeRun5.lodgeOffered 5 0 = true ∧
    bitOf ((lodgeRun5.lodge 5).c 0x304).toNat 11 = true ∧ bitOf ((lodgeRun5.lodge 5).c 0x300).toNat 3 = true ∧
    lodgeRun5.lodgeHalted 5 = false ∧ lodgeRun5.hb .lodgeWfi 5 = false ∧ lodgeRun5.h .haltReq 5 8 0 = 0 ∧ lodgeRun5.lodgeBreak 5 = false ∧
    (lodgeRun5.setLodge 5 ((lodgeRun5.lodge 5).tick 2)).lodgeFetch 5 (lodgeRun5.lodge 5).pc 0x00500093 0 = some (0x00500093, 4) ∧
    (0x00500093 % 128) ∉ [0x73, 0x03, 0x23, 0x2f] ∧
    ((lodgeRun5.lodge 5).tick 2).arith 0x00500093 (((lodgeRun5.lodge 5).pc + 4) % 2 ^ 32) = some (some 5, 0x20000004) := by decide +kernel

/-- Context 0 of Spire 2 of pavilion 1 is halted. -/
def haltedSpire : State :=
  runBundle.setCtxState 1 2 0 4

theorem witness_debug_step :
    haltedSpire.coreHalted 1 2 0 = true := by decide +kernel

theorem witness_debug_step_next : ∃ t, haltedSpire.coreCtl 1 2 4 false none = .next t := by
  have h : (match haltedSpire.coreCtl 1 2 4 false none with | .next _ => true | _ => false) = true := by decide +kernel
  split at h
  · exact ⟨_, ‹_›⟩
  · cases h

theorem witness_watchdog_and_boot :
    ({ lodgeRun5 with time := 2 ^ 45 } : State).wdogRuns 5 = true ∧ ({ lodgeRun5 with time := 2 ^ 45 } : State).wdogCnt 5 = 0 ∧ State.reset.fld F.LDG_BOOT_STAT_STATE 35 = 0 ∧
    (State.reset.setFld F.LDG_BOOT_STAT_STATE 2 35).fld F.LDG_BOOT_STAT_STATE 35 = 2 ∧ State.reset.lodgeRuns 35 = false := by decide +kernel

/-- The lodge of site 3 presides and is the candidate of term 9; the lodge of site 35 is filling its copy. -/
def council : State :=
  ((holderState.setFlag F.LDG_JRNL_STAT_FILLING true 35).setFld F.LDG_BOOT_STAT_STATE 1 7).setH .elecCand 4 |>.setH .elecTerm 9

theorem witness_council :
    council.h .presiding ≠ 0 ∧ council.regN .LDG_TERM 7 ≤ council.h .hbTerm ∧ council.h .elecTerm ≠ 0 ∧ council.h .elecCand ≠ 0 ∧
    council.jrnlHead = some 3 ∧ council.jrnlHolder 3 = true ∧ council.safeHold = false ∧ council.jrnlHolder 7 = true ∧ (7 : Nat) ≠ 3 ∧
    council.flag F.LDG_JRNL_STAT_FILLING 35 = true ∧ (7 : Nat) < 8 ∧ council.presSite.isSome = true ∧
    lodgeRun5.presSite = none ∧ lodgeRun5.lodgeRuns 5 = true ∧ lodgeRun5.h .elecTerm ≠ lodgeRun5.regN .LDG_TERM 5 + 1 ∧
    (State.reset.setH .porHeld 1).hb .porHeld = true := by decide +kernel

theorem witness_debug_work :
    (State.reset.setH .jtagIr 0x21).tapIr = 0x20 ∧ State.reset.dbgLocked = false ∧ 9 % 8 = 1 ∧ 10 % 8 = 2 ∧
    RegId.defined .DBG_CORE_CTL 9 = true ∧ RegId.defined .DBG_CORE_CTL 10 = true ∧
    (((State.reset.setCtxState 1 2 1 4).setRegN .DBG_CORE_CTL (10 &&& 0x38) 1 2).coreHalted 1 2 (bitsOf 10 3 1)) = true ∧
    RegId.defined .DBG_CORE_REGSEL 0x1f = true ∧ regClass 2 (bitsOf 0x1f 12 4) = true ∧ bitOf 0x1f 16 = false ∧
    [0, 3, 4].contains ((haltedSpire.setRegN .DBG_CORE_REGSEL 0x1f 1 2).ctxState 1 2 (haltedSpire.fld F.DBG_CORE_CTL_CTX 1 2)) = true ∧
    ((haltedSpire.setRegN .DBG_CORE_REGSEL 0x1f 1 2).sprPeek 1 2 (haltedSpire.fld F.DBG_CORE_CTL_CTX 1 2) 0 31).isSome = true := by decide +kernel

/-- The outer interfaces, enabled. -/
def outerState : State :=
  ((((((State.reset.setFlag F.XCV_LANE_CTL_PRBS_EN true 7 19).setFlag F.PCIE_EP_CTL_EN true 0 1).setFld F.PCIE_EP_CTL_MAXW 4 0 1).setFld
    F.PCIE_EP_CTL_MAXGEN 6 0 1).setFlag F.PCIE_EP_STAT_IDE_FAIL true 0 1).setFlag F.ETH_CTL_EN true 7 |>.setFlag F.GPIO_U_CFG_EN true 1 3).setUnitTx 1 19 [7] |>.setFld F.GPIO_U_CFG_MODE 1 1 18 |>.setFlag F.GPIO_U_CFG_EN true 1 18 |>.setFld F.GPIO_U_CFG_MODE 2 1 19
    |> foldS (fun l s => s.setFld F.XCV_LANE_CFG_USE 3 4 l) (List.range 16)

theorem witness_outer_work :
    outerState.fld F.XCV_LANE_CFG_USE 7 19 = 0 ∧ outerState.flag F.XCV_LANE_CTL_PRBS_EN 7 19 = true ∧ outerState.flag F.PCIE_EP_CTL_EN 0 1 = true ∧
    4 ≤ outerState.fld F.PCIE_EP_CTL_MAXW 0 1 ∧ 6 ≤ outerState.fld F.PCIE_EP_CTL_MAXGEN 0 1 ∧ outerState.pcieLanes 1 4 = true ∧
    outerState.flag F.PCIE_EP_STAT_LINK_UP 0 1 = false ∧ outerState.scanning = false ∧ outerState.flag F.PCIE_EP_STAT_IDE_FAIL 0 1 = true ∧
    outerState.flag F.ETH_CTL_EN 7 = true ∧ outerState.flag F.ETH_STAT_LINK_UP 7 = false ∧ outerState.flag F.GPIO_U_CFG_EN 1 3 = true ∧ (3 : Nat) < 4 ∧
    outerState.flag F.GPIO_U_CFG_EN 1 18 = true ∧ bitsOf (outerState.fld F.GPIO_U_CFG_MODE 1 18) 0 2 = 1 ∧
    bitsOf (outerState.fld F.GPIO_U_CFG_MODE 1 19) 0 2 = 2 ∧ outerState.unitTx 1 19 = [7] := by decide +kernel

/-! ### O56..O60 -/

theorem witness_queue_forms :
    ({ State.reset with pending := [.adjGo, .safeHoldEnter] } : State).pending = .adjGo :: [.safeHoldEnter] ∧ State.reset.pending = [] := by decide +kernel

theorem witness_cold_reset :
    (State.reset.setH .porHeld 1).hb .porHeld = true ∧ State.reset.hb .porHeld = false ∧ State.reset.fuseBad = false := by decide +kernel

theorem witness_spire_slots :
    SOp.nop.wf = true ∧ VOp.nop.wf = true ∧ (SOp.jal 0 (-6)).wf = true ∧ (VOp.vrnd 1 0 16 2 true).wf = true := by decide +kernel

theorem witness_canonical_step :
    State.reset.Canonical ∧ step { State.reset with pending := [.psampFifoRead 0] } = .next State.reset := ⟨rfl, rfl⟩

/-! ### Clauses that turn on a write, a packet, a debug step or a time -/

/-- The lodge of site 3 presides. -/
def presState : State :=
  State.reset.setH .presiding 4

theorem witness_no_launched_write (r : RegRef) : State.reset.shotsAt r = [] := rfl

theorem witness_pair_clauses :
    State.reset.findReg 0x1160030 = some (some ⟨.PRM_ISO, 1, 0, 0, false⟩) ∧ State.reset.regReach 0x1160030 = .ok ∧
    RegId.PRM_ISO.row.pair = true ∧ presState.isPresiding (.lodge 3) = true ∧ presState.isPresiding (.host 0) = false ∧
    State.reset.findReg 0x240010 = some (some ⟨.RDO_QP_DB, 0, 0, 0, false⟩) ∧ State.reset.regReach 0x240010 = .ok ∧
    RegId.RDO_QP_DB.row.pair = true ∧ qpPair .RDO_QP_DB = true ∧ State.reset.qpState 0 = 0 ∧
    (State.reset.setFld F.RDO_QP_STAT_STATE 1 0 0).qpState 0 ≠ 0 ∧ qpPair .CAMP_ADJ = false := by decide +kernel

theorem witness_read_only_write (v : Word) (who : Requester) : State.reset.shotMask ⟨.SITE_ID, 0, 0, 0, false⟩ v who = v := by
  cases who <;> rfl

theorem witness_slew_passes :
    slewState.flag F.CAMP_CTL_STEP_EN = false ∧ slewState.reg .CAMP_SLEW_REM ≠ 0#64 := by decide +kernel

/-- A write or an atomic request to a register offset, delivered at a node. -/
def regReq : Nat → Nat → Nat → Nat → List Word → List Word :=
  fun node op w3 x vs => [BitVec.ofNat 32 (op * 8 + node * 256 + 10 * 2 ^ 14 + 92 * 2 ^ 20), BitVec.ofNat 32 x, 0x2000,
    BitVec.ofNat 32 w3] ++ vs

/-- A request is delivered at a node. -/
def rxAt : Nat → List Word → State :=
  fun n pkt => State.reset.setPRx n [pkt]

theorem witness_register_packets :
    (let pkt := regReq 11 2 0 0x1b60008 [7]
     ((rxAt 11 pkt).pRx 11).contains pkt = true ∧ pktClass pkt ≠ 1 ∧ pktOp pkt = 2 ∧ pktAddr pkt / 2 ^ 45 = 1 ∧
       addrOk (pktAddr pkt) = true ∧ pktPayload pkt = [7] ∧
       (let u := (rxAt 11 pkt).setPRx 11 (((rxAt 11 pkt).pRx 11).erase pkt)
        u.nodeReach 11 pkt = .ok ∧ u.writeDefined (pktAddr pkt % 2 ^ 26) 7 (u.pktWho pkt) = true)) ∧
    (let pkt := regReq 11 2 0 0x1b10040 (List.replicate 8 0)
     (rxAt 11 pkt).nodeReach 11 pkt = .ok ∧ (rxAt 11 pkt).findReg (pktAddr pkt % 2 ^ 26) = some (some ⟨.TSK_CMD_PORT, 11, 0, 0, false⟩) ∧
       (rxAt 11 pkt).regReach (pktAddr pkt % 2 ^ 26) = .ok) ∧
    (let pkt := regReq 32 2 0 0x200100 (List.replicate 8 0)
     (rxAt 32 pkt).nodeReach 32 pkt = .ok ∧ (rxAt 32 pkt).findReg (pktAddr pkt % 2 ^ 26) = some (some ⟨.RDO_ACC_PORT, 0, 0, 0, false⟩) ∧
       (rxAt 32 pkt).regReach (pktAddr pkt % 2 ^ 26) = .ok) ∧
    (let pkt := regReq 11 2 0 0x1ba0000 (List.replicate 8 0)
     (rxAt 11 pkt).findReg (pktAddr pkt % 2 ^ 26) = some (some ⟨.TEL_LOG_PORT, 11, 0, 0, false⟩) ∧ (pktPayload pkt).length = 8) ∧
    (rxAt 11 (regReq 12 2 0 0x1c60008 [7])).nodeReach 11 (regReq 12 2 0 0x1c60008 [7]) ≠ .ok := by decide +kernel

theorem witness_many_words (i : Nat) (r : RegRef) (t : State) (hi : i < 2) (h : t.findReg (0x100010 + 4 * i) = some (some r)) :
    r.id ≠ .DBG_CORE_CTL ∧ r.id ≠ .DBG_CORE_REGSEL ∧ ∀ d, r.id.defined d = true := by
  have hr : r.id = .ADM_DECL_W := by
    rcases i with - | - | i
    · have e : t.findReg (0x100010 + 4 * 0) = some (some ⟨.ADM_DECL_W, 0, 0, 0, false⟩) := rfl
      rw [e] at h; cases h; rfl
    · have e : t.findReg (0x100010 + 4 * 1) = some (some ⟨.ADM_DECL_W, 0, 1, 0, false⟩) := rfl
      rw [e] at h; cases h; rfl
    · omega
  rw [hr]
  have h0 : RegId.rsv .ADM_DECL_W = 0 := rfl
  have h1 : RegId.ranges .ADM_DECL_W = [] := rfl
  exact ⟨by decide, by decide, fun d => by simp [RegId.defined, h0, h1]⟩

/-- A write or an atomic request to the data memory of Spire 2 of pavilion 11. -/
def memReq : Nat → Nat → List Word → List Word :=
  fun op w3 vs => [BitVec.ofNat 32 (op * 8 + 11 * 256 + 10 * 2 ^ 14 + 92 * 2 ^ 20), 64,
    BitVec.ofNat 32 (0x4000 + 11 * 256 + 2 * 16), BitVec.ofNat 32 w3] ++ vs

theorem witness_memory_packets :
    (let pkt := memReq 2 0 [7, 8]
     ((rxAt 11 pkt).pRx 11).contains pkt = true ∧ pktOp pkt = 2 ∧ pktAddr pkt / 2 ^ 45 = 2 ∧ (rxAt 11 pkt).nodeReach 11 pkt = .ok ∧
       (match (rxAt 11 pkt).localAt 11 (pktAddr pkt) with | .mem _ _ off => off == 64 | _ => false) = true) ∧
    (let pkt := memReq 3 2 [7, 8]
     ((rxAt 11 pkt).pRx 11).contains pkt = true ∧ pktOp pkt = 3 ∧ pktAddr pkt / 2 ^ 45 = 2 ∧ (rxAt 11 pkt).nodeReach 11 pkt = .ok ∧
       (match (rxAt 11 pkt).localAt 11 (pktAddr pkt) with | .mem _ _ off => off == 64 | _ => false) = true) := by decide +kernel

theorem witness_atomic_packets :
    (let pkt := regReq 11 3 2 0x1b60008 [7, 8]
     let s := rxAt 11 pkt
     pktClass pkt ≠ 1 ∧ pktOp pkt = 3 ∧ pktAfn pkt = 2 ∧ s.nodeReach 11 pkt = .ok ∧ (s.regRead (pktAddr pkt % 2 ^ 26) false).1 = .ok ∧
       (s.regRead (pktAddr pkt % 2 ^ 26) false).2.2.writeDefined (pktAddr pkt % 2 ^ 26)
         (amoNew 2 (s.regRead (pktAddr pkt % 2 ^ 26) false).2.1 7 8) (s.pktWho pkt) = true) ∧
    (let pkt := regReq 11 3 8 0x1b60008 [7, 8]
     pktAfn pkt = 8 ∧ ((rxAt 11 pkt).regRead (pktAddr pkt % 2 ^ 26) false).2.1 ≠ 7) ∧
    pktAfn (regReq 11 3 1 0x1b60008 [7, 8]) < 2 ∧ amoReadOnly .EVC_ACK_0 = true := by
  decide +kernel

theorem witness_host_window :
    0x1160008 % 4 = 0 ∧ State.reset.writeDefined 0x1160008 7 (.host 0) = true ∧ (State.regReads false 1 0x1160008 State.reset).1 = .ok := by
  decide +kernel

/-- Queue 1 of pavilion 3 with a head that writes a register of the window. -/
def launchWrite : Nat → State :=
  fun off => { (State.reset.setH .lqForwarded 1 3 1) with
    lq := [((3, 1), [⟨[0, 0, 7, BitVec.ofNat 32 off, 5, 0xff, 0, 0], false⟩])] }

theorem witness_launched_writes :
    (let e : LqEntry := ⟨[0, 0, 7, 0x60008, 5, 0xff, 0, 0], false⟩
     let s := launchWrite 0x60008
     s.lqHead 3 1 7 = some e ∧ s.lqOf 3 1 = [e] ∧ (s.lqIsLate 3 1 e && bitOf e.w2 4) = false ∧ e.param 0 % 2 ^ 24 < (lqWindow 3).2 ∧
       s.regReach ((lqWindow 3).1 + e.param 0 % 2 ^ 24) = .ok ∧
       s.findReg ((lqWindow 3).1 + e.param 0 % 2 ^ 24) = some (some ⟨.PRM_FENCE_TMO, 3, 0, 0, false⟩) ∧
       RegId.PRM_FENCE_TMO.defined ((loWord (s.regVal ⟨.PRM_FENCE_TMO, 3, 0, 0, false⟩) &&& ~~~0xff) ||| (5 &&& 0xff)).toNat = true ∧
       roReg .PRM_FENCE_TMO = false ∧
       (s.shotAdd ⟨.PRM_FENCE_TMO, 3, 0, 0, false⟩ (loWord (s.regVal ⟨.PRM_FENCE_TMO, 3, 0, 0, false⟩)) 5 0xff).refDefined
         ⟨.PRM_FENCE_TMO, 3, 0, 0, false⟩ ((loWord (s.regVal ⟨.PRM_FENCE_TMO, 3, 0, 0, false⟩) &&& ~~~0xff) ||| (5 &&& 0xff)) = true) ∧
    (let e : LqEntry := ⟨[0, 0, 7, 0xffffff, 5, 0xff, 0, 0], false⟩
     (launchWrite 0xffffff).lqHead 3 1 7 = some e ∧ (lqWindow 3).2 ≤ e.param 0 % 2 ^ 24) ∧
    (∃ t, (launchWrite 0x60008).lqWriteHead 3 1 ⟨[0, 0, 7, 0x60008, 5, 0xff, 0, 0], false⟩ = some t ∧ t.lqOf 3 1 = []) := by
  refine ⟨by decide +kernel, by decide +kernel, ?_⟩
  have h : (match (launchWrite 0x60008).lqWriteHead 3 1 ⟨[0, 0, 7, 0x60008, 5, 0xff, 0, 0], false⟩ with
    | some t => (t.lqOf 3 1).isEmpty | none => false) = true := by decide +kernel
  split at h
  · exact ⟨_, ‹_›, by simpa using h⟩
  · cases h

theorem witness_register_write :
    State.reset.writeDefined 0x1160008 7 (.host 0) = true ∧ State.reset.findReg 0x1160008 = some (some ⟨.PRM_FENCE_TMO, 1, 0, 0, false⟩) ∧
    State.reset.regReach 0x1160008 = .ok ∧ RegId.PRM_FENCE_TMO.defined 7 = true ∧ State.reset.findReg 0x400000 = none ∧
    (State.reset.setH .porHeld 1).regReach 0x1160008 ≠ .ok := by decide +kernel

/-- Context 0 of Spire 2 of pavilion 1 is halted, out of RUN or out of WAIT. -/
def halted : Nat → Nat → State :=
  fun st mask => (haltedSpire.setCtx 1 2 0 { haltedSpire.ctx 1 2 0 with haltFrom := st, waitMask := mask })

theorem witness_debug_steps :
    RegId.defined .DBG_CORE_CTL 4 = true ∧ (halted 1 0).dbgLocked = false ∧
    (let o := (halted 1 0).setRegN .DBG_CORE_CTL (4 &&& 0x38) 1 2
     o.ctxState 1 2 0 = 4 ∧ (o.ctxUnhalt 1 2 0).ctxState 1 2 0 ≠ 0 ∧ (o.ctx 1 2 0).haltFrom ≠ 2 ∧
       (o.ctxUnhalt 1 2 0).issueOf 1 2 0 none = .run .nop .nop ∧ SOp.nop.undefinedCsr ((o.ctxUnhalt 1 2 0).ctx 1 2 0) = false) ∧
    (let o := (halted 2 1).setRegN .DBG_CORE_CTL (4 &&& 0x38) 1 2
     o.ctxState 1 2 0 = 4 ∧ (o.ctxUnhalt 1 2 0).ctxState 1 2 0 ≠ 0 ∧ (o.ctx 1 2 0).haltFrom = 2 ∧ (o.ctx 1 2 0).waitMask ≠ 0) ∧
    lockedState.dbgLocked = true := by decide +kernel

/-- The lodge of site 5 is halted. -/
def haltedLodge : State :=
  lodgeRun5.setFlag F.DBG_CORE_STAT_HALTED0 true 5 8

theorem witness_lodge_debug_step :
    haltedLodge.dbgLocked = false ∧ haltedLodge.lodgeHalted 5 = true ∧
    (let u := (haltedLodge.setRegN .DBG_CORE_CTL (4 &&& 0x38) 5 8).lodgeStep 5
     u.lodgeRuns 5 = true ∧ (u.setLodge 5 ((u.lodge 5).tick 2)).lodgeFetch 5 (u.lodge 5).pc 0x00500093 0 = some (0x00500093, 4) ∧
       ((u.lodge 5).tick 2).arith 0x00500093 (((u.lodge 5).pc + 4) % 2 ^ 32) = some (some 5, 0x20000004)) := by decide +kernel

/-- Lane 3 of T1 in LOCK seeks block lock, with its receiver on. -/
def seekLane : State :=
  (laneState 1).setFlag F.XCV_LANE_CTL_RX_EN true 1 3

theorem witness_block_lock :
    seekLane.laneState 1 3 = 1 ∧ seekLane.fld F.XCV_LANE_CFG_USE 1 3 = 1 ∧ seekLane.flag F.XCV_LANE_STAT_RATE_MISMATCH 1 3 = false ∧
    seekLane.flag F.XCV_LANE_CTL_RX_EN 1 3 = true ∧ seekLane.scanning = false ∧ lockGained (List.replicate 64 1) = true ∧
    seekLane.cwAligned 1 3 [] = true ∧ lockLost (List.replicate 16 0) = true := by decide +kernel

theorem witness_lane_frames :
    lrtState.linkCarries 4 2 = true := by decide +kernel

theorem witness_clock_seeks :
    ∃ s : State, s.pllSeeks 4 1 = true ∧ State.reset.fabricResets 4 0 = false ∧ (State.reset.setFld F.CAMP_STAT_SRC 0).fld F.CAMP_STAT_SRC < 2 := by
  exact ⟨pllState, by decide +kernel, by decide +kernel, by decide +kernel⟩

/-- A declaration whose source owns every slot of an output. -/
def slotState : State :=
  { (admDeclState.setFld F.ADM_D_STAT_STATE 1 0 17).setRegN .ADM_D_W 5 0 17 with
    decls := [(17, ⟨admDeclState.declWords 17, ⟨0, 1, 1, 0, [(.torus 1 0, 2 ^ 4000 - 1)], 0, [], []⟩, none⟩)] }

theorem witness_flits_in_their_slots :
    (∀ f, f < 2 → slotState.declFrom 17 (dSrcKind (slotState.declWords 17)) (dSrcId (slotState.declWords 17)) = true ∧
      slotState.flag F.ADM_STAT_RESTORE = false ∧ slotState.ownSlot 17 0 = some (1, 0) ∧
      later (BitVec.ofNat 64 (5 + f)) (0 + BitVec.ofNat 64 ((slotState.useSlot 1 0).regN .ADM_D_W 0 17)) = decide (f = 1) ∧
      (slotState.useSlot 1 0).wasHeld 0 = false) := by decide +kernel

theorem witness_admission_times :
    admWait.keptEffect.hb .admPending = true ∧ admWait.keptEffect.admDue = true ∧ admWait.hb .admReleasing = true ∧
    admWait.wasHeld 15 = false := by decide +kernel

theorem witness_watchdog_left :
    ({ lodgeRun5 with time := 2 ^ 45 } : State).wdogRuns 5 = true ∧ ({ lodgeRun5 with time := 2 ^ 45 } : State).wdogLeft 5 = 0 ∧
    ((State.reset.setH .faultOpen 1 3 35).lodgeRuns 35 = false ∧ (State.reset.setH .faultOpen 1 3 35).hb .faultOpen 3 35 = true) := by
  decide +kernel

theorem witness_prbs : (outerState.setFlag F.XCV_LANE_CTL_RX_EN true 7 19).fld F.XCV_LANE_CFG_USE 7 19 = 0 ∧
    (outerState.setFlag F.XCV_LANE_CTL_RX_EN true 7 19).flag F.XCV_LANE_CTL_PRBS_EN 7 19 = true ∧
    (outerState.setFlag F.XCV_LANE_CTL_RX_EN true 7 19).flag F.XCV_LANE_CTL_RX_EN 7 19 = true := by decide +kernel

end Sys2Proof.Tests
end

section
/-!
SUPPORT. A field of a register read after the register is written (R8), and what a register write answers where R9
defines its effect.
-/
namespace Sys2Proof.Panel

open Sys2Proof Sys2Proof.Machine

/-- The width of a register in the model does not cut a field that lies within it. -/
theorem bitsOf_mod_two_pow (n lo w m : Nat) (h : lo + w ≤ m) : bitsOf (n % 2 ^ m) lo w = bitsOf n lo w := by
  have hm : 2 ^ m = 2 ^ lo * 2 ^ (m - lo) := by rw [← Nat.pow_add, Nat.add_sub_cancel' (by omega)]
  rw [bitsOf, bitsOf, hm, Nat.mod_mul_right_div_self, Nat.mod_mod_of_dvd _ (Nat.pow_dvd_pow 2 (by omega))]

theorem bitsOf_setBitsOf_same (v lo w x : Nat) : bitsOf (setBitsOf v lo w x) lo w = x % 2 ^ w := by
  have hv : v = 2 ^ lo * (2 ^ w * (v / 2 ^ lo / 2 ^ w) + v / 2 ^ lo % 2 ^ w) + v % 2 ^ lo := by
    rw [Nat.div_add_mod, Nat.div_add_mod]
  have hset : setBitsOf v lo w x = v % 2 ^ lo + 2 ^ lo * (x % 2 ^ w + 2 ^ w * (v / 2 ^ lo / 2 ^ w)) := by
    rw [setBitsOf, bitsOf]
    generalize v / 2 ^ lo % 2 ^ w = b at *
    generalize v / 2 ^ lo / 2 ^ w = q at *
    generalize v % 2 ^ lo = r at *
    rw [hv, Nat.mul_comm b, Nat.mul_comm (x % 2 ^ w), Nat.mul_add, Nat.mul_add]
    omega
  rw [hset, bitsOf, Nat.add_mul_div_left _ _ (Nat.two_pow_pos lo), Nat.div_eq_of_lt (Nat.mod_lt _ (Nat.two_pow_pos lo)),
    Nat.zero_add, Nat.add_mul_mod_self_left, Nat.mod_mod]

theorem regN_setRegN_same (s : State) (id : RegId) (v w i j : Nat) : (s.setRegN id v w i j).regN id w i j = v % 2 ^ 64 := by
  simp [State.regN, State.setRegN]

theorem fld_setFld_same (s : State) (f : Fld) (v w i j : Nat) (h : f.lo + f.w ≤ 64) :
    (s.setFld f v w i j).fld f w i j = v % 2 ^ f.w := by
  rw [State.fld, State.setFld, regN_setRegN_same, bitsOf_mod_two_pow _ _ _ _ h, bitsOf_setBitsOf_same]

theorem flag_setFlag_false (s : State) (f : Fld) (w i j : Nat) (h : f.lo + f.w ≤ 64) :
    (s.setFlag f false w i j).flag f w i j = false := by
  simp [State.flag, State.setFlag, fld_setFld_same _ _ _ _ _ _ h, b2n]

theorem wrOut_of_defined (id : RegId) (v : Word) (t : State) (h : id.defined v.toNat = true) : wrOut id v t = .next t := by
  rw [wrOut, if_pos h]

end Sys2Proof.Panel
end

section
/-!
SUPPORT. Events, alarms, admission and the annexes leave the configuration block (CFG, block `cfgG`) and a GO that waits
for BUSY (R22) alone: the frame of everything that follows a change of the folly map (R20, R349, R190).
-/
namespace Sys2Proof.Panel

open Sys2Proof Sys2Proof.Machine

/-- `t` holds the registers of the configuration block, and the GO that waits for CFG_PMAP_CTL.BUSY, as `s` does. -/
structure ConfigKept (s t : State) : Prop where
  reg : ∀ id w i j, id.row.block = .cfgG → t.reg id w i j = s.reg id w i j
  loadWait : t.hb .loadWait = s.hb .loadWait

namespace ConfigKept

variable {s t : State}

theorem refl (s : State) : ConfigKept s s := ⟨fun _ _ _ _ _ => rfl, rfl⟩

theorem fld (h : ConfigKept s t) (f : Fld) (w i j : Nat) (hf : f.r.row.block = .cfgG) : t.fld f w i j = s.fld f w i j := by
  rw [State.fld, State.fld, State.regN, State.regN, h.reg _ _ _ _ hf]

/-! ### The named updates -/

theorem setReg (h : ConfigKept s t) {id : RegId} (hid : id.row.block ≠ .cfgG) (v : DWord) (w i j : Nat) :
    ConfigKept s (t.setReg id v w i j) where
  reg id' w' i' j' hid' := by
    rw [t.reg_setReg_id_ne id id' v w i j w' i' j' (fun e => hid (e ▸ hid')), h.reg _ _ _ _ hid']
  loadWait := h.loadWait

theorem setRegN (h : ConfigKept s t) {id : RegId} (hid : id.row.block ≠ .cfgG) (v w i j : Nat) :
    ConfigKept s (t.setRegN id v w i j) := h.setReg hid _ w i j

theorem setFld (h : ConfigKept s t) {f : Fld} (hf : f.r.row.block ≠ .cfgG) (v w i j : Nat) :
    ConfigKept s (t.setFld f v w i j) := h.setRegN hf _ w i j

theorem setFlag (h : ConfigKept s t) {f : Fld} (hf : f.r.row.block ≠ .cfgG) (b : Bool) (w i j : Nat) :
    ConfigKept s (t.setFlag f b w i j) := h.setFld hf _ w i j

theorem setBit (h : ConfigKept s t) {id : RegId} (hid : id.row.block ≠ .cfgG) (b : Nat) (v : Bool) (w i j : Nat) :
    ConfigKept s (t.setBit id b v w i j) := h.setRegN hid _ w i j

theorem setH (h : ConfigKept s t) {k : Hid} (hk : k ≠ .loadWait) (v w i j : Nat) : ConfigKept s (t.setH k v w i j) where
  reg := h.reg
  loadWait := by
    rw [← h.loadWait, State.hb, State.hb, t.h_setH_ne k .loadWait v w i j 0 0 0 (fun e => hk (congrArg HidKey.id e))]

theorem foldS {α : Type} {f : α → State → State} (hf : ∀ a t, ConfigKept s t → ConfigKept s (f a t)) (l : List α) :
    ∀ {t}, ConfigKept s t → ConfigKept s (Machine.foldS f l t) := by
  induction l with
  | nil => exact fun h => h
  | cons a as ih => exact fun h => ih (hf a _ h)

/-! ### Events and alarms (R259, R261, R428) -/

theorem evId_block_ne (c : Nat) (r : EvReg) : (evId c r).row.block ≠ .cfgG := by
  cases r <;> rw [evId] <;> split <;> decide

theorem setEv (h : ConfigKept s t) (c : Nat) (r : EvReg) (i lo w v : Nat) : ConfigKept s (t.setEv c r i lo w v) :=
  h.setRegN (evId_block_ne c r) _ _ _ _

theorem ite (c : Prop) [Decidable c] {u v : State} (hu : ConfigKept s u) (hv : ConfigKept s v) :
    ConfigKept s (if c then u else v) := by
  split
  · exact hu
  · exact hv

theorem evCount (h : ConfigKept s t) (c g n : Nat) : ConfigKept s (t.evCount c g n) := by
  unfold State.evCount
  refine .ite _ h ?_
  extract_lets was t₁ now t₂
  have started : ConfigKept s t₁ :=
    .ite _ (h.setH (by decide) _ _ _ _ |>.setH (by decide) _ _ _ _ |>.setEv _ _ _ _ _ _) h
  have counted : ConfigKept s t₂ := started.setEv _ _ _ _ _ _
  exact .ite _ (counted.setEv _ _ _ _ _ _) counted

theorem raise (h : ConfigKept s t) (c q : Nat) : ConfigKept s (t.raise c q) := by
  unfold State.raise
  extract_lets t₁ t₂
  have counted : ConfigKept s t₁ := h.setH (by decide) _ _ _ _
  have pending : ConfigKept s t₂ := counted.setEv _ _ _ _ _ _
  exact .ite _ (counted.setH (by decide) _ _ _ _) (.ite _ pending (pending.evCount _ _ _))

theorem device (h : ConfigKept s t) (q : Nat) : ConfigKept s (t.device q) := h.raise hevc q

theorem alarmSend (h : ConfigKept s t) (n ty : Nat) : ConfigKept s (t.alarmSend n ty) :=
  h.setH (by decide) _ _ _ _ |>.setH (by decide) _ _ _ _ |>.setH (by decide) _ _ _ _ |>.setH (by decide) _ _ _ _

theorem devAlarm (h : ConfigKept s t) (ty : Nat) : ConfigKept s (t.devAlarm ty) := by
  unfold State.devAlarm State.alarm
  have counted (n : Nat) : ConfigKept s (t.setH .almCount (satAdd 65535 (t.h .almCount n ty) 1) n ty) :=
    h.setH (by decide) _ _ _ _
  exact .ite _ (counted _) ((counted _).setBit (by decide) _ _ _ _ _ |>.setH (by decide) _ _ _ _ |>.alarmSend _ _)

/-! ### Admission (R187..R194) -/

/-- The declarations, which are not registers, change. -/
theorem withDecls (h : ConfigKept s t) (ds : Table Nat Decl) : ConfigKept s { t with decls := ds } :=
  ⟨h.reg, h.loadWait⟩

theorem makeUndef (h : ConfigKept s t) (a n : Nat) : ConfigKept s (t.makeUndef a n) := ⟨h.reg, h.loadWait⟩

theorem jrnlWritten (h : ConfigKept s t) : ConfigKept s t.jrnlWritten :=
  foldS (fun _ _ h => .ite _ (h.makeUndef _ _) h) _ h

theorem admCounts (h : ConfigKept s t) : ConfigKept s t.admCounts :=
  (h.setFld (by decide) _ _ _ _).setFld (by decide) _ _ _ _

theorem domeRate (h : ConfigKept s t) (w : List Nat) (sub add : Nat) : ConfigKept s (t.domeRate w sub add) :=
  .ite _ (h.setFld (by decide) _ _ _ _) h

theorem tioFollow (h : ConfigKept s t) (i st : Nat) : ConfigKept s (t.tioFollow i st) := by
  refine foldS (fun k t h => ?_) _ h
  have shown (b : Bool) : ConfigKept s (t.setFlag F.TIO_GRP_STAT_DEGRADED b k.w k.i) := h.setFlag (by decide) _ _ _ _
  exact .ite _ (.ite _ ((shown _).device _) (shown _)) h

theorem admState (h : ConfigKept s t) (i st : Nat) : ConfigKept s (t.admState i st) :=
  .ite _ h ((h.setFld (by decide) _ _ _ _).admCounts.device _ |>.tioFollow _ _)

theorem admWrite (h : ConfigKept s t) (i : Nat) (w : List Nat) (p : Plan) : ConfigKept s (t.admWrite i w p) :=
  ((h.withDecls _).domeRate _ _ _ |>.setRegN (by decide) _ _ _ _ |>.setRegN (by decide) _ _ _ _).jrnlWritten

theorem admFree (h : ConfigKept s t) (i : Nat) : ConfigKept s (t.admFree i) := by
  unfold State.admFree
  split
  · exact h
  · exact ((h.withDecls _).domeRate _ _ _ |>.admState _ _).admCounts.jrnlWritten

theorem admShow (h : ConfigKept s t) (w gap : Nat) : ConfigKept s (t.admShow w gap) :=
  h.setFld (by decide) _ _ _ _ |>.setFlag (by decide) _ _ _ _ |>.setRegN (by decide) _ _ _ _
    |>.setRegN (by decide) _ _ _ _

theorem admEnd (h : ConfigKept s t) (reason w gap : Nat) : ConfigKept s (t.admEnd reason w gap) :=
  h.setFld (by decide) _ _ _ _ |>.setFlag (by decide) _ _ _ _ |>.setRegN (by decide) _ _ _ _
    |>.setRegN (by decide) _ _ _ _ |>.device _

theorem admNote (h : ConfigKept s t) (i code : Nat) : ConfigKept s (t.admNote i code) :=
  (h.setFld (by decide) _ _ _ _).devAlarm _ |>.device _

theorem admLost (h : ConfigKept s t) (i : Nat) : ConfigKept s (t.admLost i) := by
  unfold State.admLost
  split
  · exact (h.withDecls _).admState _ _
  · exact h.admState _ _

/-- R190. A recomputation ends in a reservation that is written or moved to, or in a declaration FREE or FAULTED. -/
theorem admRecompute (h : ConfigKept s t) (i code : Nat) : ConfigKept s (t.admRecompute i code) := by
  unfold State.admRecompute
  split
  · exact h
  · extract_lets t₁ ans
    have noted : ConfigKept s t₁ := h.admNote i code
    clear_value ans
    refine .ite _ ?kept (.ite _ ?pending ?inEffect)
    case kept =>
      cases ans with
      | ok p => exact (noted.domeRate _ _ _ |>.admWrite _ _ _).setH (by decide) _ _ _ _
      | no => exact (noted.admFree _).setH (by decide) _ _ _ _
    case pending =>
      cases ans with
      | ok p => exact (noted.domeRate _ _ _ |>.admWrite _ _ _ |>.admShow _ _).setH (by decide) _ _ _ _
      | no => exact ((noted.admFree _).setH (by decide) _ _ _ _).admEnd _ _ _
    case inEffect =>
      cases ans with
      | ok p => exact .ite _ ((noted.withDecls _).setH (by decide) _ _ _ _ |>.admState _ _) (noted.admLost _)
      | no => exact noted.admLost _

theorem capacityFault (h : ConfigKept s t) (code : Nat) (hit : Decl → Bool) : ConfigKept s (t.capacityFault code hit) :=
  foldS (fun i _ h => h.admRecompute i code) _ h

/-! ### The annexes (R349) -/

theorem annexLost (h : ConfigKept s t) (a : Nat) : ConfigKept s (t.nodeLost (annexNode a)) := by
  rw [State.nodeLost, if_neg (by rw [annexNode]; omega), if_neg (by rw [annexNode]; omega)]
  exact h.capacityFault _ _

theorem setAnx (h : ConfigKept s t) (a st : Nat) : ConfigKept s (t.setAnx a st) :=
  .ite _ h ((h.setFld (by decide) _ _ _ _).device _)

theorem anxFollow (h : ConfigKept s t) (a : Nat) : ConfigKept s (t.anxFollow a) :=
  .ite _ (h.setAnx a 0) (.ite _ ((ConfigKept.ite _ (h.annexLost a) h).setAnx a 1) (.ite _ (h.setAnx a 2) h))

end ConfigKept
end Sys2Proof.Panel
end

section
/-!
SUPPORT, for O3 and O4. The placement of logical pavilions (R19): rows, positions and slots, and what neighbours are apart.
-/
namespace Sys2Proof.Panel

open Sys2Proof Sys2Proof.Machine

/-! ### Rows and positions -/

theorem prow_lt : ∀ r < 4, prow r < 4 := by
  decide

theorem prow_injective : ∀ r < 4, ∀ r' < 4, prow r = prow r' → r = r' := by
  decide

/-- R19. Rows that follow one another on the torus lie at most two physical rows apart. -/
theorem absDiff_prow_next_le : ∀ r < 4, absDiff (prow r) (prow ((r + 1) % 4)) ≤ 2 := by
  decide

theorem posOf_le : ∀ c < 8, posOf c ≤ 7 := by
  decide

theorem posOf_injective : ∀ c < 8, ∀ c' < 8, posOf c = posOf c' → c = c' := by
  decide

/-- R19. The folded order: columns that follow one another on the torus lie at most two positions apart. -/
theorem absDiff_posOf_next_le : ∀ c < 8, absDiff (posOf c) (posOf ((c + 1) % 8)) ≤ 2 := by
  decide

/-! ### Slots: the positions of a row, with the folly slot skipped -/

variable (map r : Nat)

theorem slotOf_of_lt {c : Nat} (h : posOf c < follySlot map (prow r)) : slotOf map r c = posOf c := if_pos h

theorem slotOf_of_le {c : Nat} (h : follySlot map (prow r) ≤ posOf c) : slotOf map r c = posOf c + 1 :=
  if_neg (Nat.not_lt.2 h)

/-- The two cases of R19, with what each says of the slot. -/
theorem slotOf_cases (c : Nat) :
    (slotOf map r c < follySlot map (prow r) ∧ slotOf map r c = posOf c) ∨
      (follySlot map (prow r) < slotOf map r c ∧ slotOf map r c = posOf c + 1) := by
  rcases Nat.lt_or_ge (posOf c) (follySlot map (prow r)) with h | h
  · have e := slotOf_of_lt map r h
    exact .inl ⟨e ▸ h, e⟩
  · have e := slotOf_of_le map r h
    exact .inr ⟨e ▸ Nat.lt_succ_of_le h, e⟩

theorem slotOf_ne_folly (c : Nat) : slotOf map r c ≠ follySlot map (prow r) := by
  have := slotOf_cases map r c
  omega

theorem slotOf_lt (c : Nat) (hc : c < 8) : slotOf map r c < 9 := by
  have := slotOf_cases map r c
  have := posOf_le c hc
  omega

theorem slotOf_injective (c c' : Nat) (hc : c < 8) (hc' : c' < 8) (h : slotOf map r c = slotOf map r c') : c = c' := by
  refine posOf_injective c hc c' hc' ?_
  have := slotOf_cases map r c
  have := slotOf_cases map r c'
  omega

/-- Skipping the folly slot takes positions at most one slot further apart. -/
theorem absDiff_slotOf_le (r' c c' : Nat) : absDiff (slotOf map r c) (slotOf map r' c') ≤ absDiff (posOf c) (posOf c') + 1 := by
  have := slotOf_cases map r c
  have := slotOf_cases map r' c'
  simp only [absDiff]
  omega

/-! ### Sites -/

theorem siteUnder_mul_add (c : Nat) (hc : c < 8) : siteUnder map (8 * r + c) = 9 * prow r + slotOf map r c := by
  rw [siteUnder, show (8 * r + c) / 8 = r by omega, show (8 * r + c) % 8 = c by omega]

theorem siteUnder_div (p : Nat) : siteUnder map p / 9 = prow (p / 8) := by
  have := slotOf_lt map (p / 8) (p % 8) (Nat.mod_lt _ (by decide))
  rw [siteUnder]
  omega

theorem siteUnder_mod (p : Nat) : siteUnder map p % 9 = slotOf map (p / 8) (p % 8) := by
  have := slotOf_lt map (p / 8) (p % 8) (Nat.mod_lt _ (by decide))
  rw [siteUnder]
  omega

theorem siteUnder_lt (p : Nat) (hp : p < 32) : siteUnder map p < 36 := by
  have := prow_lt (p / 8) (by omega)
  have := siteUnder_div map p
  omega

theorem siteUnder_ne_folly (p : Nat) : siteUnder map p % 9 ≠ follySlot map (siteUnder map p / 9) := by
  rw [siteUnder_mod, siteUnder_div]
  exact slotOf_ne_folly map _ _

theorem siteUnder_injective (p q : Nat) (hp : p < 32) (hq : q < 32) (h : siteUnder map p = siteUnder map q) : p = q := by
  have hrow : p / 8 = q / 8 := by
    refine prow_injective _ (by omega) _ (by omega) ?_
    rw [← siteUnder_div map p, ← siteUnder_div map q, h]
  have hcol : p % 8 = q % 8 := by
    refine slotOf_injective map (p / 8) _ _ (by omega) (by omega) ?_
    rw [← siteUnder_mod map p, hrow, ← siteUnder_mod map q, h]
  omega

/-! ### Neighbours on the torus -/

/-- A neighbour in a row has its row, and the next column. -/
theorem neighbour_east (p : Nat) : neighbour p 1 / 8 = p / 8 ∧ neighbour p 1 % 8 = (p % 8 + 1) % 8 := by
  simp only [neighbour]
  omega

/-- A neighbour in a column has the next row, and its column. -/
theorem neighbour_south (p : Nat) : neighbour p 3 / 8 = (p / 8 + 1) % 4 ∧ neighbour p 3 % 8 = p % 8 := by
  simp only [neighbour]
  omega

theorem siteUnder_east_within_reach (p : Nat) :
    siteUnder map p / 9 = siteUnder map (neighbour p 1) / 9 ∧
      absDiff (siteUnder map p % 9) (siteUnder map (neighbour p 1) % 9) ≤ 3 := by
  obtain ⟨hrow, hcol⟩ := neighbour_east p
  simp only [siteUnder_div, siteUnder_mod, hrow, hcol, true_and]
  calc absDiff (slotOf map (p / 8) (p % 8)) (slotOf map (p / 8) ((p % 8 + 1) % 8))
      ≤ absDiff (posOf (p % 8)) (posOf ((p % 8 + 1) % 8)) + 1 := absDiff_slotOf_le map _ _ _ _
    _ ≤ 3 := Nat.succ_le_succ (absDiff_posOf_next_le _ (Nat.mod_lt _ (by decide)))

theorem siteUnder_south_within_reach (p : Nat) (hp : p < 32) :
    absDiff (siteUnder map p / 9) (siteUnder map (neighbour p 3) / 9) ≤ 2 ∧
      absDiff (siteUnder map p % 9) (siteUnder map (neighbour p 3) % 9) ≤ 1 := by
  obtain ⟨hrow, hcol⟩ := neighbour_south p
  simp only [siteUnder_div, siteUnder_mod, hrow, hcol]
  refine ⟨absDiff_prow_next_le _ (by omega), ?_⟩
  calc absDiff (slotOf map (p / 8) (p % 8)) (slotOf map ((p / 8 + 1) % 4) (p % 8))
      ≤ absDiff (posOf (p % 8)) (posOf (p % 8)) + 1 := absDiff_slotOf_le map _ _ _ _
    _ = 1 := by simp [absDiff]

end Sys2Proof.Panel
end

section
/-!
SUPPORT, for O5. The folly map in force changes when an APPLY is done, and BUSY with it (R20..R22).
-/
namespace Sys2Proof.Panel

open Sys2Proof Sys2Proof.Machine

theorem exec_pmapApply (v : Word) (who : Requester) (s : State) :
    exec (.pmapApply v who) s = wrOut .CFG_PMAP_CTL v (s.pmapCtlWrite v.toNat who) := rfl

theorem exec_pmapApplyDone (s : State) : exec .pmapApplyDone s = .next s.mapDone := rfl

theorem pmapCtlWrite_of_not_presiding (s : State) (v : Nat) (who : Requester) (h : s.isPresiding who = false) :
    s.pmapCtlWrite v who = s := by
  simp [State.pmapCtlWrite, h]

theorem pmapCtlWrite_of_busy (s : State) (v : Nat) (who : Requester) (h : s.flag F.CFG_PMAP_CTL_BUSY = true) :
    s.pmapCtlWrite v who = s := by
  rw [State.pmapCtlWrite, State.mapApply, if_pos h, ite_self]

theorem mapDone_of_not_busy (s : State) (h : s.flag F.CFG_PMAP_CTL_BUSY = false) : s.mapDone = s := by
  simp [State.mapDone, h]

/-- The word that CFG_FOLLY_MAP takes with a map (R20). -/
def mapWord (s : State) (map : Nat) : Nat := map % 2 ^ 16 + (if map % 2 ^ 16 = s.follyFuse then 0 else 2 ^ 31)

theorem mapWord_lt (s : State) (map : Nat) : mapWord s map < 2 ^ 64 := by
  unfold mapWord
  split <;> omega

/-- ROW0..ROW3 of the word are the map. -/
theorem bitsOf_mapWord_rows (s : State) (map : Nat) : bitsOf (mapWord s map) 0 16 = map % 2 ^ 16 := by
  unfold mapWord bitsOf
  split <;> omega

/-- OVERRIDE of the word tells the map from the fuse map. -/
theorem bitsOf_mapWord_override (s : State) (map : Nat) :
    bitsOf (mapWord s map) 31 1 = 1 ↔ map % 2 ^ 16 ≠ s.follyFuse := by
  unfold mapWord bitsOf
  split <;> omega

/-- R20. What follows a change of the map keeps the configuration block as the change leaves it. -/
theorem setMap_configKept (s : State) (map : Nat) :
    ConfigKept (s.setRegN .CFG_FOLLY_MAP (mapWord s map)) (s.setMap map) :=
  .foldS (fun a _ h => h.anxFollow a) _ (.refl _)

theorem setMap_regN (s : State) (map : Nat) : (s.setMap map).regN .CFG_FOLLY_MAP = mapWord s map := by
  rw [State.regN, (setMap_configKept s map).reg _ _ _ _ rfl, ← State.regN, regN_setRegN_same,
    Nat.mod_eq_of_lt (mapWord_lt s map)]

theorem setMap_follyMap (s : State) (map : Nat) : (s.setMap map).follyMap = map % 2 ^ 16 := by
  rw [State.follyMap, setMap_regN, bitsOf_mapWord_rows]

theorem setMap_siteOf (s : State) (map p : Nat) : (s.setMap map).siteOf p = siteUnder (map % 2 ^ 16) p := by
  rw [State.siteOf, setMap_follyMap]

theorem setMap_override (s : State) (map : Nat) :
    (s.setMap map).flag F.CFG_FOLLY_MAP_OVERRIDE = true ↔ map % 2 ^ 16 ≠ s.follyFuse := by
  rw [← bitsOf_mapWord_override s map, ← setMap_regN s map]
  exact beq_iff_eq

theorem setMap_busy (s : State) (map : Nat) : (s.setMap map).flag F.CFG_PMAP_CTL_BUSY = s.flag F.CFG_PMAP_CTL_BUSY := by
  rw [State.flag, (setMap_configKept s map).fld _ _ _ _ rfl, State.fld, State.regN, State.setRegN,
    s.reg_setReg_id_ne .CFG_FOLLY_MAP _ _ _ _ _ _ _ _ (by decide)]
  rfl

theorem setMap_loadWait (s : State) (map : Nat) : (s.setMap map).hb .loadWait = s.hb .loadWait :=
  (setMap_configKept s map).loadWait

/-- R22. Where no GO waits, an APPLY that is done clears BUSY and puts the accepted map in force. -/
theorem mapDone_of_busy (s : State) (hbusy : s.flag F.CFG_PMAP_CTL_BUSY = true) (hwait : s.hb .loadWait = false) :
    s.mapDone = (s.setFlag F.CFG_PMAP_CTL_BUSY false).setMap (s.h .pmapNext) := by
  have noGo : ((s.setFlag F.CFG_PMAP_CTL_BUSY false).setMap (s.h .pmapNext)).hb .loadWait = false := by
    rw [setMap_loadWait]
    exact hwait
  simp [State.mapDone, hbusy, noGo]

end Sys2Proof.Panel
end

section
/-!
O3, O4, O5 settled.
-/
namespace Sys2Proof.Panel

open Sys2Proof Sys2Proof.Machine

/-- Settles O3 (R19), by the row and the position of P(r,c) and the two cases of its slot. -/
theorem placementFollowsTheFollySlots : Obligations.PlacementFollowsTheFollySlots := by
  unfold Obligations.PlacementFollowsTheFollySlots
  intro map r c hr hc
  have site := siteUnder_mul_add map r c hc
  refine ⟨prow r, posOf c, ?_, ?_, ?_, ?_, fun h => if_pos h, fun h => if_neg (by omega), ?below, ?above⟩
  case below => exact fun h => by rw [site, slotOf_of_lt map r h]
  case above => exact fun h => by rw [site, slotOf_of_le map r h]
  all_goals rintro rfl; rfl

/-- Settles O4 (R19). No map puts a pavilion on a folly or two on one site, so the premise that its slots are at most 8
is not needed. -/
theorem placementIsInjectiveAndWithinReach : Obligations.PlacementIsInjectiveAndWithinReach := by
  unfold Obligations.PlacementIsInjectiveAndWithinReach
  intro map _
  refine ⟨siteUnder_injective map, fun p hp => ⟨siteUnder_lt map p hp, siteUnder_ne_folly map p⟩, fun p hp => ?_⟩
  obtain ⟨sameRow, east⟩ := siteUnder_east_within_reach map p
  obtain ⟨southRow, southSlot⟩ := siteUnder_south_within_reach map p hp
  exact ⟨sameRow, east, southRow, southSlot⟩

/-- Settles O5 (R20, R22), by the frame of what follows a change of the map: the annexes, their capacity faults and the
events and alarms of these keep the configuration block. -/
theorem follyMapChangesWhenBusyClears : Obligations.FollyMapChangesWhenBusyClears := by
  unfold Obligations.FollyMapChangesWhenBusyClears
  intro v who s hdef
  rw [exec_pmapApply, exec_pmapApplyDone, wrOut_of_defined _ _ _ hdef]
  refine ⟨fun h => ?_, fun h => ?_, fun h => ?_, fun hbusy hwait => ⟨s.mapDone, rfl, ?_⟩⟩
  · rw [pmapCtlWrite_of_not_presiding s _ who h]
  · rw [pmapCtlWrite_of_busy s _ who h]
  · rw [mapDone_of_not_busy s h]
  · rw [mapDone_of_busy s hbusy hwait]
    refine ⟨?busy, setMap_siteOf _ _, setMap_override _ _⟩
    case busy => rw [setMap_busy, flag_setFlag_false _ _ _ _ _ (by decide)]

end Sys2Proof.Panel
end

section
/-!
SUPPORT. A field of a register beside a write of another register or another field (R8), and what a raised event (R259,
R261) and an alarm (R428) leave alone.
-/
namespace Sys2Proof.Campanile

open Sys2Proof Sys2Proof.Machine Sys2Proof.Panel

/-! ### Fields -/

/-- A word with a field replaced: the bits below it, the field's new bits, and the bits above it. -/
theorem setBitsOf_eq (v lo w x : Nat) :
    setBitsOf v lo w x = 2 ^ lo * (2 ^ w * (v / 2 ^ (lo + w)) + x % 2 ^ w) + v % 2 ^ lo := by
  have parts : 2 ^ lo * (2 ^ w * (v / 2 ^ (lo + w)) + bitsOf v lo w) + v % 2 ^ lo = v := by
    rw [Nat.pow_add, ← Nat.div_div_eq_div_mul, bitsOf, Nat.div_add_mod, Nat.div_add_mod]
  rw [Nat.mul_add] at parts ⊢
  rw [setBitsOf, Nat.mul_comm (bitsOf v lo w), Nat.mul_comm (x % 2 ^ w)]
  omega

/-- A field of a word is not changed when a disjoint one is replaced. -/
theorem bitsOf_setBitsOf_disjoint (v lo w x lo' w' : Nat) (h : lo' + w' ≤ lo ∨ lo + w ≤ lo') :
    bitsOf (setBitsOf v lo w x) lo' w' = bitsOf v lo' w' := by
  rcases h with below | above
  · rw [← bitsOf_mod_two_pow _ _ _ _ below, ← bitsOf_mod_two_pow v _ _ _ below, setBitsOf_eq, Nat.mul_add_mod,
      Nat.mod_mod]
  · have hx : x % 2 ^ w < 2 ^ w := Nat.mod_lt _ (Nat.two_pow_pos w)
    have hv : v % 2 ^ lo < 2 ^ lo := Nat.mod_lt _ (Nat.two_pow_pos lo)
    have high : setBitsOf v lo w x / 2 ^ (lo + w) = v / 2 ^ (lo + w) := by
      rw [setBitsOf_eq, Nat.pow_add, ← Nat.div_div_eq_div_mul, Nat.mul_add_div (Nat.two_pow_pos lo),
        Nat.div_eq_of_lt hv, Nat.add_zero, Nat.mul_add_div (Nat.two_pow_pos w), Nat.div_eq_of_lt hx, Nat.add_zero]
    have split : 2 ^ lo' = 2 ^ (lo + w) * 2 ^ (lo' - (lo + w)) := by rw [← Nat.pow_add, Nat.add_sub_cancel' above]
    rw [bitsOf, bitsOf, split, ← Nat.div_div_eq_div_mul, ← Nat.div_div_eq_div_mul, high]

variable (s : State) (f g : Fld) (w i j : Nat)

theorem fld_setReg_ne {id : RegId} (h : id ≠ f.r) (v : DWord) (w' i' j' : Nat) :
    (s.setReg id v w' i' j').fld f w i j = s.fld f w i j := by
  rw [State.fld, State.regN, s.reg_setReg_id_ne _ _ _ _ _ _ _ _ _ h]
  rfl

theorem fld_setRegN_ne {id : RegId} (h : id ≠ f.r) (v w' i' j' : Nat) :
    (s.setRegN id v w' i' j').fld f w i j = s.fld f w i j := fld_setReg_ne s f w i j h _ w' i' j'

theorem fld_setFld_ne (h : g.r ≠ f.r) (v w' i' j' : Nat) : (s.setFld g v w' i' j').fld f w i j = s.fld f w i j :=
  fld_setRegN_ne s f w i j h _ w' i' j'

/-- A field keeps its value beside a write of a disjoint field of its register. -/
theorem fld_setFld_disjoint (hr : g.r = f.r) (hf : f.lo + f.w ≤ 64) (h : f.lo + f.w ≤ g.lo ∨ g.lo + g.w ≤ f.lo)
    (v : Nat) : (s.setFld g v w i j).fld f w i j = s.fld f w i j := by
  rw [State.fld, State.setFld, hr, regN_setRegN_same, bitsOf_mod_two_pow _ _ _ _ hf,
    bitsOf_setBitsOf_disjoint _ _ _ _ _ _ h]
  rfl

theorem fld_setH (k : Hid) (v w' i' j' : Nat) : (s.setH k v w' i' j').fld f w i j = s.fld f w i j := rfl

theorem flag_setFlag_true (hw : 0 < f.w) (h : f.lo + f.w ≤ 64) : (s.setFlag f true w i j).flag f w i j = true := by
  rw [State.flag, State.setFlag, fld_setFld_same _ _ _ _ _ _ h, b2n, if_pos rfl,
    Nat.mod_eq_of_lt (Nat.one_lt_two_pow (Nat.ne_of_gt hw))]
  rfl

/-! ### Raised events (R259, R261) -/

section
variable {P : State → Prop} (hid : ∀ t k v w i, P t → P (t.setH k v w i))
  (ev : ∀ t c r i lo w v, P t → P (t.setEv c r i lo w v))
include hid ev

theorem evCount_induction {s : State} (h : P s) (c g n : Nat) : P (s.evCount c g n) := by
  unfold State.evCount
  extract_lets was t₁ now t₂
  have started : P t₁ := by
    unfold t₁
    split
    · exact ev _ _ _ _ _ _ _ (hid _ _ _ _ _ (hid _ _ _ _ _ h))
    · exact h
  have counted : P t₂ := ev _ _ _ _ _ _ _ started
  split
  · exact h
  · split
    · exact ev _ _ _ _ _ _ _ counted
    · exact counted

/-- A raise is made of writes of hidden state and of event-controller fields: what those keep, it keeps. -/
theorem raise_induction {s : State} (h : P s) (c q : Nat) : P (s.raise c q) := by
  unfold State.raise
  extract_lets t₁ t₂
  have noted : P t₁ := hid _ _ _ _ _ h
  have pending : P t₂ := ev _ _ _ _ _ _ _ noted
  split
  · exact hid _ _ _ _ _ noted
  · split
    · exact pending
    · exact evCount_induction hid ev pending _ _ _

end

/-- A register that no event controller has. -/
def NotEvent (id : RegId) : Prop := ∀ c r, evId c r ≠ id

theorem evId_block (c : Nat) (r : EvReg) : (evId c r).row.block = .evc ∨ (evId c r).row.block = .hevc := by
  cases r <;> rw [evId] <;> split <;> decide

theorem notEvent_of_block {id : RegId} (h : ¬ (id.row.block = .evc ∨ id.row.block = .hevc)) : NotEvent id :=
  fun c r e => h (e ▸ evId_block c r)

@[simp] theorem raise_psamp (c q : Nat) : (s.raise c q).psamp = s.psamp :=
  raise_induction (P := fun t => t.psamp = s.psamp) (fun _ _ _ _ _ h => h) (fun _ _ _ _ _ _ _ h => h) rfl c q

theorem raise_fld (hf : NotEvent f.r) (c q : Nat) : (s.raise c q).fld f w i j = s.fld f w i j :=
  raise_induction (P := fun t => t.fld f w i j = s.fld f w i j) (fun _ _ _ _ _ h => h)
    (fun t c r _ _ _ _ h => (fld_setRegN_ne t f w i j (hf c r) _ _ _ _).trans h) rfl c q

/-! ### Alarms (R428) -/

@[simp] theorem devAlarm_time (ty : Nat) : (s.devAlarm ty).time = s.time := by
  unfold State.devAlarm State.alarm
  extract_lets was t
  split <;> rfl

end Sys2Proof.Campanile
end

section
/-!
SUPPORT, for O7. PIN_SAMPLE results (R57): the word, the FIFO of a tower, and the launch that brings a result there
(R48..R51).
-/
namespace Sys2Proof.Campanile

open Sys2Proof Sys2Proof.Machine Sys2Proof.Panel

/-! ### The word -/

/-- R57. The word of a sample: the pins, the group and the TAG. -/
def sampleWord (pins : Byte) (e : LqEntry) : Word :=
  BitVec.ofNat 32 (pins.toNat + bitsOf (e.param 0) 0 5 * 2 ^ 8 + bitsOf e.w2 16 16 * 2 ^ 16)

theorem bitsOf_lt (v lo w : Nat) : bitsOf v lo w < 2 ^ w := Nat.mod_lt _ (Nat.two_pow_pos w)

theorem toNat_extract_sampleWord (pins : Byte) (e : LqEntry) :
    ((sampleWord pins e).extractLsb' 0 8).toNat = pins.toNat ∧
      ((sampleWord pins e).extractLsb' 8 5).toNat = bitsOf (e.param 0) 0 5 ∧
      ((sampleWord pins e).extractLsb' 16 16).toNat = bitsOf e.w2 16 16 := by
  have hpins := pins.isLt
  have hgroup := bitsOf_lt (e.param 0) 0 5
  have htag := bitsOf_lt e.w2 16 16
  simp only [sampleWord, BitVec.extractLsb'_toNat, BitVec.toNat_ofNat, Nat.shiftRight_eq_div_pow]
  omega

/-! ### The FIFO -/

variable (s : State) (t h q : Nat)

theorem psampPush_of_room (w : Word) (hroom : (tget s.psamp t []).length < 64) :
    s.psampPush t h q w = { s with psamp := tput s.psamp t (tget s.psamp t [] ++ [w]) } :=
  if_neg (Nat.not_le.2 hroom)

theorem psampPush_of_full (w : Word) (hfull : 64 ≤ (tget s.psamp t []).length) :
    s.psampPush t h q w = s.lqErr F.CAMP_LQ_STAT_PSAMP_OVF h q := if_pos hfull

theorem psampPop_nil (hs : tget s.psamp t [] = []) : s.psampPop t = (0, s) := by
  rw [State.psampPop, hs]

theorem psampPop_cons (w : Word) (l : List Word) (hs : tget s.psamp t [] = w :: l) :
    s.psampPop t = (w, { s with psamp := tput s.psamp t l }) := by
  rw [State.psampPop, hs]

/-! ### Launch-queue errors and events (R58) -/

/-- R58. The launch event of a queue is one raise. -/
theorem lqEvent_eq_raise : ∃ c n, s.lqEvent h q = s.raise c n := by
  unfold State.lqEvent State.local State.device
  split
  · exact ⟨_, _, rfl⟩
  · split <;> exact ⟨_, _, rfl⟩

theorem lqErr_of_set (f : Fld) (hset : s.flag f h q = true) : s.lqErr f h q = s := if_pos hset

/-- R58. An error bit that goes from 0 to 1 raises one event. -/
theorem lqErr_of_clear (f : Fld) (hclear : s.flag f h q = false) :
    ∃ c n, s.lqErr f h q = (s.setFlag f true h q).raise c n := by
  unfold State.lqErr State.local State.device
  rw [if_neg (by simp [hclear])]
  split <;> exact ⟨_, _, rfl⟩

/-- R58. After an error its bit is 1, and the sample FIFOs are as before. -/
theorem lqErr_flag_and_psamp (f : Fld) (hw : 0 < f.w) (hf : f.lo + f.w ≤ 64) (hev : NotEvent f.r) :
    (s.lqErr f h q).flag f h q = true ∧ (s.lqErr f h q).psamp = s.psamp := by
  cases hflag : s.flag f h q
  case true =>
    rw [lqErr_of_set s h q f hflag]
    exact ⟨hflag, rfl⟩
  case false =>
    obtain ⟨c, n, raised⟩ := lqErr_of_clear s h q f hflag
    rw [raised, State.flag, raise_fld _ _ _ _ _ hev, raise_psamp]
    exact ⟨flag_setFlag_true s f h q 0 hw hf, State.setFlag_psamp ..⟩

/-! ### The launch -/

/-- What is done once the target has taken entry e: it leaves its queue as launched, is counted, and its event is
raised. -/
def launched (s : State) (h q : Nat) (e : LqEntry) (late : Bool) : State :=
  let s := s.lqLeave h q e (b2n late) |>.addFld F.CAMP_LQ_LAUNCHED_COUNT 1 h q
  let s := s.setH .lqPrevTime (if late then s.nodeTime h else e.time).toNat h q |>.setH .lqHasPrev 1 h q
  let s := if late then s.addFld F.CAMP_LQ_LATE_COUNT 1 h q |>.setFlag F.CAMP_LQ_STAT_LATE true h q else s
  if bitOf e.w2 5 then s.lqEvent h q else s

/-- An entry that may act and is not discarded as late is launched when its target takes it. -/
theorem lqLaunch_of_taken (kind : Nat) (act : LqEntry → State → Bool × State) (e : LqEntry) (s' : State)
    (hhead : s.lqHead h q kind = some e)
    (hlate : (s.lqIsLate h q e && bitOf e.w2 4) = false) (hact : act e s = (true, s')) :
    s.lqLaunch h q kind act = launched s' h q e (s.lqIsLate h q e) := by
  simp [State.lqLaunch, hhead, hlate, hact, launched]

/-- `t` holds the sample FIFOs, and PSAMP_OVF of queue (h, q), as `s` does. -/
structure SamplesKept (h q : Nat) (s t : State) : Prop where
  psamp : t.psamp = s.psamp
  ovf : t.fld F.CAMP_LQ_STAT_PSAMP_OVF h q = s.fld F.CAMP_LQ_STAT_PSAMP_OVF h q

namespace SamplesKept

variable {h q : Nat} {s t : State}

theorem setReg (k : SamplesKept h q s t) {id : RegId} (hid : id ≠ .CAMP_LQ_STAT) (v : DWord) (w i j : Nat) :
    SamplesKept h q s (t.setReg id v w i j) :=
  ⟨k.psamp, (fld_setReg_ne t F.CAMP_LQ_STAT_PSAMP_OVF h q 0 hid v w i j).trans k.ovf⟩

theorem setFld (k : SamplesKept h q s t) {f : Fld} (hf : f.r ≠ .CAMP_LQ_STAT) (v w i j : Nat) :
    SamplesKept h q s (t.setFld f v w i j) := k.setReg hf _ w i j

/-- Another field of the queue's own status changes. -/
theorem setStat (k : SamplesKept h q s t) {f : Fld} (hr : f.r = .CAMP_LQ_STAT) (hf : f.lo + f.w ≤ 21) (v : Nat) :
    SamplesKept h q s (t.setFld f v h q) :=
  ⟨k.psamp, (fld_setFld_disjoint t F.CAMP_LQ_STAT_PSAMP_OVF f h q 0 hr (by decide) (.inr hf) v).trans k.ovf⟩

theorem setH (k : SamplesKept h q s t) (x : Hid) (v w i j : Nat) : SamplesKept h q s (t.setH x v w i j) :=
  ⟨k.psamp, k.ovf⟩

theorem raise (k : SamplesKept h q s t) (c n : Nat) : SamplesKept h q s (t.raise c n) :=
  ⟨(raise_psamp t c n).trans k.psamp, (raise_fld t _ _ _ _ (notEvent_of_block (by decide)) c n).trans k.ovf⟩

theorem lqLeave (k : SamplesKept h q s t) (e : LqEntry) (result : Nat) :
    SamplesKept h q s (t.lqLeave h q e result) := by
  have queue : SamplesKept h q s { t with lq := tput t.lq (h, q) ((t.lqOf h q).drop 1) } := ⟨k.psamp, k.ovf⟩
  have fill : SamplesKept h q s (t.setLq h q ((t.lqOf h q).drop 1)) := queue.setStat rfl (by decide) _
  exact (fill.setH _ _ _ _ _).setReg (by decide) _ _ _ _ |>.setReg (by decide) _ _ _ _

theorem launched (k : SamplesKept h q s t) (e : LqEntry) (late : Bool) : SamplesKept h q s (launched t h q e late) := by
  unfold Campanile.launched
  extract_lets left noted counted
  have left_kept : SamplesKept h q s left := (k.lqLeave e _).setFld (by decide) _ _ _ _
  have noted_kept : SamplesKept h q s noted := (left_kept.setH _ _ _ _ _).setH _ _ _ _ _
  have counted_kept : SamplesKept h q s counted := by
    unfold counted
    split
    · exact (noted_kept.setFld (by decide) _ _ _ _).setStat rfl (by decide) _
    · exact noted_kept
  split
  · obtain ⟨c, n, raised⟩ := lqEvent_eq_raise counted h q
    exact raised ▸ counted_kept.raise c n
  · exact counted_kept

end SamplesKept

/-- R57. A launched entry leaves the samples as its action leaves them. -/
theorem launched_samplesKept (e : LqEntry) (late : Bool) : SamplesKept h q s (launched s h q e late) :=
  SamplesKept.launched ⟨rfl, rfl⟩ e late

/-- R57. The state a PIN_SAMPLE entry leaves: the FIFO is pushed, and the entry is launched. -/
theorem exec_launchPinSample (pins : Byte) (e : LqEntry) (hhead : s.lqHead (32 + t) q 6 = some e)
    (hlate : (s.lqIsLate (32 + t) q e && bitOf e.w2 4) = false) :
    exec (.launchPinSample t q pins) s =
      .next (launched (s.psampPush t (32 + t) q (sampleWord pins e)) (32 + t) q e (s.lqIsLate (32 + t) q e)) :=
  congrArg _ (lqLaunch_of_taken s (32 + t) q 6 _ e _ hhead hlate rfl)

theorem exec_psampFifoRead : exec (.psampFifoRead t) s = .next (s.psampPop t).2 := rfl

end Sys2Proof.Campanile
end

section
/-!
SUPPORT, for O6. The write of PUSH7 (R46, R48).
-/
namespace Sys2Proof.Campanile

open Sys2Proof Sys2Proof.Machine

/-- R46. The entry that the eight PUSH words hold. -/
def pushedEntry (s : State) (h q : Nat) : LqEntry :=
  ⟨(List.range 8).map fun n => BitVec.ofNat 32 (s.regN .CAMP_LQ_PUSH h q n), false⟩

/-- FILL counts an entry that joins the end of a queue. -/
theorem setLq_append (s : State) (h q : Nat) (l : List LqEntry) (e : LqEntry) :
    s.setLq h q (l ++ [e]) =
      ({ s with lq := tput s.lq (h, q) (l ++ [e]) } : State).setFld F.CAMP_LQ_STAT_FILL (l.length + 1) h q := by
  rw [State.setLq, List.length_append]
  rfl

/-- R46, R48. The write of PUSH7 commits the pushed entry or rejects it, by its two checks in the model's order. -/
theorem exec_lqPush (h q : Nat) (w7 : Word) (s : State) :
    exec (.lqPush h q w7) s = .next (
      let u := s.setRegN .CAMP_LQ_PUSH w7.toNat h q 7
      let e := pushedEntry u h q
      if (s.lqOf h q).length ≥ 256 ∨ u.flag F.CAMP_LQ_STAT_FLUSH_BUSY h q then u.lqErr F.CAMP_LQ_STAT_FULL_ERR h q
      else if !(kindPermitted h e.kind && lqParamsValid h e) then u.lqErr F.CAMP_LQ_STAT_KIND_ERR h q
      else u.setLq h q (s.lqOf h q ++ [{ e with late := u.lqShort h e.time }])) := rfl

end Sys2Proof.Campanile
end

section
/-!
SUPPORT, for O8. The slew accumulator (R36..R38).
-/
namespace Sys2Proof.Campanile

open Sys2Proof Sys2Proof.Machine Sys2Proof.Panel

variable (s : State)

/-! ### What the accumulator reads after an addition -/

theorem reg_setFld_ne (f : Fld) {id : RegId} (h : f.r ≠ id) (v w i j w' i' j' : Nat) :
    (s.setFld f v w i j).reg id w' i' j' = s.reg id w' i' j' := s.reg_setReg_id_ne _ _ _ _ _ _ _ _ _ h

theorem slewAdd_reg (d : Int) : (s.slewAdd d).reg .CAMP_SLEW_REM = s.reg .CAMP_SLEW_REM + BitVec.ofInt 64 d := by
  rw [State.slewAdd, State.setFlag, reg_setFld_ne _ _ (by decide), State.reg_setReg_same]

/-- R37. What is taken from the accumulator in full leaves it empty, and SLEWING clear. -/
theorem slewAdd_neg_all (t : State) (ht : t.reg .CAMP_SLEW_REM = s.reg .CAMP_SLEW_REM) :
    (t.slewAdd (-(s.reg .CAMP_SLEW_REM).toInt)).reg .CAMP_SLEW_REM = 0#64 ∧
      (t.slewAdd (-(s.reg .CAMP_SLEW_REM).toInt)).flag F.CAMP_STAT_SLEWING = false := by
  have empty : t.reg .CAMP_SLEW_REM + BitVec.ofInt 64 (-(s.reg .CAMP_SLEW_REM).toInt) = 0#64 := by
    rw [ht, BitVec.ofInt_neg, BitVec.ofInt_toInt, BitVec.add_right_neg]
  refine ⟨(slewAdd_reg _ _).trans empty, ?_⟩
  rw [State.slewAdd, empty]
  exact flag_setFlag_false _ _ _ _ _ (by decide)

/-! ### The end of a slew (R37) -/

theorem reg_withTime (now : Time) (id : RegId) : ({ s with time := now } : State).reg id = s.reg id := rfl

theorem pinsPass_reg (n : Nat) (id : RegId) : (s.pinsPass n).reg id = s.reg id := by
  unfold State.pinsPass
  split <;> rfl

theorem pinsPass_time (n : Nat) : (s.pinsPass n).time = s.time := by
  unfold State.pinsPass
  split <;> rfl

theorem pinsPass_h (n : Nat) (k : Hid) : (s.pinsPass n).h k = s.h k := by
  unfold State.pinsPass
  split <;> rfl

/-- R37. The units that a slew of `a` steps still takes, with `m` units passed since the last step, end it. -/
theorem min_slew_steps (a m : Nat) : min ((m + (a * 1000000 - m)) / 1000000) a = a := by
  omega

theorem signed_natAbs_eq (x : Int) : (if 0 < x then (x.natAbs : Int) else -x.natAbs) = x := by
  split <;> omega

theorem slewLeft_of_empty (hrem : s.reg .CAMP_SLEW_REM = 0#64) : s.slewLeft = 0 := by
  simp [State.slewLeft, hrem]

theorem pass_of_empty (n : Nat) (hrem : s.reg .CAMP_SLEW_REM = 0#64) :
    s.pass n = { s.pinsPass n with time := s.time + BitVec.ofNat 64 n } := by
  simp [State.pass, pinsPass_reg, pinsPass_time, hrem]

/-- R37. The state at the end of the slew under way. -/
theorem pass_slewLeft (hstep : s.flag F.CAMP_CTL_STEP_EN = false) (hrem : s.reg .CAMP_SLEW_REM ≠ 0#64) :
    s.pass s.slewLeft =
      (({ s.pinsPass s.slewLeft with
          time := s.time + BitVec.ofNat 64 s.slewLeft + s.reg .CAMP_SLEW_REM } : State).setH .slewPhase 0).slewAdd
        (-(s.reg .CAMP_SLEW_REM).toInt) := by
  have hstep' : (s.pinsPass s.slewLeft).flag F.CAMP_CTL_STEP_EN = false := by
    rwa [State.flag, State.fld, State.regN, pinsPass_reg]
  have hrem' : ((s.reg .CAMP_SLEW_REM).toInt == 0) = false := by
    simpa [← BitVec.toInt_inj] using hrem
  have steps := min_slew_steps (s.reg .CAMP_SLEW_REM).toInt.natAbs (s.h .slewPhase)
  rw [← State.slewLeft] at steps
  simp only [State.pass, pinsPass_reg, pinsPass_time, pinsPass_h, hstep', hrem', Bool.or_self, Bool.false_eq_true,
    if_false, steps, signed_natAbs_eq, if_true, BitVec.ofInt_toInt]

theorem pass_slewLeft_empty (hstep : s.flag F.CAMP_CTL_STEP_EN = false) (hrem : s.reg .CAMP_SLEW_REM ≠ 0#64) :
    (s.pass s.slewLeft).reg .CAMP_SLEW_REM = 0#64 ∧ (s.pass s.slewLeft).flag F.CAMP_STAT_SLEWING = false := by
  rw [pass_slewLeft s hstep hrem]
  exact slewAdd_neg_all s _ (by rw [State.reg_setH, reg_withTime, pinsPass_reg])

theorem pass_slewLeft_time (hstep : s.flag F.CAMP_CTL_STEP_EN = false) (hrem : s.reg .CAMP_SLEW_REM ≠ 0#64) :
    (s.pass s.slewLeft).time = s.time + BitVec.ofNat 64 s.slewLeft + s.reg .CAMP_SLEW_REM := by
  rw [pass_slewLeft s hstep hrem, State.slewAdd, State.setFlag_time, State.setReg_time, State.setH_time]

/-! ### The three commands -/

/-- R36. ADJ_GO. -/
theorem exec_adjGo :
    exec .adjGo s = .next ((s.setReg .CAMP_SLEW_REM (s.reg .CAMP_SLEW_REM + s.reg .CAMP_ADJ)).setFlag
      F.CAMP_STAT_SLEWING (s.reg .CAMP_SLEW_REM + s.reg .CAMP_ADJ != 0#64)) := by
  change Host.Outcome.next (s.slewAdd (s.reg .CAMP_ADJ).toInt) = _
  rw [State.slewAdd, BitVec.ofInt_toInt]
  rfl

/-- R38. STEP_APPLY. -/
theorem exec_stepApply (hstep : s.flag F.CAMP_CTL_STEP_EN = true) (hrem : s.reg .CAMP_SLEW_REM ≠ 0#64) :
    exec .stepApply s = .next (((s.stepTo (s.time + s.reg .CAMP_SLEW_REM)).setReg .CAMP_SLEW_REM 0).setFlag
      F.CAMP_STAT_SLEWING false) :=
  if_pos (by simp [hstep, hrem])

theorem exec_slewDone (hstep : s.flag F.CAMP_CTL_STEP_EN = false) : exec .slewDone s = .next (s.pass s.slewLeft) :=
  if_neg (by simp [hstep])

theorem stepTo_time (new : Time) : (s.stepTo new).time = new := by
  rw [State.stepTo, devAlarm_time]
  rfl

end Sys2Proof.Campanile
end

section
/-!
O6, O7, O8 settled.
-/
namespace Sys2Proof.Campanile

open Sys2Proof Sys2Proof.Machine Sys2Proof.Panel

/-- Settles O7 (R57), by the launch that a PIN_SAMPLE entry makes of a push of the FIFO, and the frame of that launch:
it keeps the FIFOs and PSAMP_OVF as the push leaves them. -/
theorem pinSampleFifoHoldsSixtyFourResults : Obligations.PinSampleFifoHoldsSixtyFourResults := by
  unfold Obligations.PinSampleFifoHoldsSixtyFourResults
  refine ⟨fun t q pins e s hhead hlate =>
      ⟨_, exec_launchPinSample s t q pins e hhead hlate, fun room => ?room, fun full => ?full⟩,
    fun t w l s hs => ?pop, fun t s hs => ?empty, fun r s hr => ?peek⟩
  case room =>
    obtain ⟨hpins, hgroup, htag⟩ := toNat_extract_sampleWord pins e
    refine ⟨sampleWord pins e, BitVec.eq_of_toNat_eq hpins, hgroup, htag, ?_, fun t' ht => ?_⟩ <;>
      rw [(launched_samplesKept ..).psamp, psampPush_of_room _ _ _ _ _ room]
    · exact tget_tput_same _ _ _ _
    · exact tget_tput_ne _ _ _ _ _ ht.symm
  case full =>
    rw [State.flag, (launched_samplesKept ..).psamp, (launched_samplesKept ..).ovf, psampPush_of_full _ _ _ _ _ full]
    exact (lqErr_flag_and_psamp s (32 + t) q F.CAMP_LQ_STAT_PSAMP_OVF (by decide) (by decide)
      (notEvent_of_block (by decide))).symm
  case pop =>
    rw [exec_psampFifoRead, psampPop_cons s t w l hs]
    exact ⟨rfl, rfl⟩
  case empty =>
    rw [exec_psampFifoRead, psampPop_nil s t hs]
    exact ⟨rfl, rfl⟩
  case peek =>
    rw [State.refPeek, hr]
    rfl

/-- Settles O6 (R46, R48, R58), by the two checks of a commit in their order: FULL_ERR alone for an entry that meets
both is the model's choice (log entry 143). -/
theorem launchQueueCommitQueuesOrRejects : Obligations.LaunchQueueCommitQueuesOrRejects := by
  unfold Obligations.LaunchQueueCommitQueuesOrRejects
  rintro h q w7 s u e rfl he
  obtain rfl : e = pushedEntry _ h q := he
  rw [exec_lqPush]
  refine ⟨fun full => ?full, fun room idle invalid => ?invalid, fun room idle permitted valid => ?valid⟩
  case full => exact congrArg _ (if_pos full)
  case invalid =>
    rw [if_neg (by simp [idle, room]), if_pos]
    exact congrArg not invalid
  case valid =>
    rw [if_neg (by simp [idle, room]), if_neg, setLq_append]
    · rfl
    · simp [permitted, valid]

/-- Settles O8 (R36, R37, R38). That SLEW_DONE takes the block to the end of the slew is the model's reading (log entry
145). -/
theorem slewAccumulatorTakesEveryCorrection : Obligations.SlewAccumulatorTakesEveryCorrection := by
  unfold Obligations.SlewAccumulatorTakesEveryCorrection
  intro s
  refine ⟨exec_adjGo s, fun hstep hrem => ⟨_, exec_stepApply s hstep hrem, ?stepTime, ?stepRem, ?stepFlag⟩,
    fun hstep => ⟨_, exec_slewDone s hstep, ?done⟩⟩
  case stepTime => rw [State.setFlag_time, State.setReg_time, stepTo_time]
  case stepRem => rw [State.setFlag, reg_setFld_ne _ _ (by decide), State.reg_setReg_same, BitVec.ofNat_eq_ofNat]
  case stepFlag => exact flag_setFlag_false _ _ _ _ _ (by decide)
  case done =>
    by_cases hrem : s.reg .CAMP_SLEW_REM = 0#64
    · rw [pass_of_empty s _ hrem, slewLeft_of_empty s hrem, hrem]
      exact ⟨(BitVec.add_zero _).symm, by rw [reg_withTime, pinsPass_reg, hrem], fun ne => absurd rfl ne⟩
    · obtain ⟨empty, clear⟩ := pass_slewLeft_empty s hstep hrem
      exact ⟨pass_slewLeft_time s hstep hrem, empty, fun _ => clear⟩

end Sys2Proof.Campanile
end

section
/-!
SUPPORT, for O9 and O10. The stream commands of Table 3.6 (R78, R80) and the writes of a stream entry (R81, R100).
-/
namespace Sys2Proof.Gatehouse

open Sys2Proof Sys2Proof.Machine

variable (s : State) (p i : Nat)

/-! ### Commands -/

/-- Table 3.6. The commands that act in a state of a stream: ENABLE 1, DISABLE 2, PAUSE 3, RESUME 4, UNREGISTER 5,
ABORT 6. -/
def CommandListed (op st : Nat) : Prop :=
  op = 1 ∧ (st = 0 ∨ st = 5) ∨ op = 2 ∧ (st = 1 ∨ st = 2 ∨ st = 3) ∨ op = 3 ∧ st = 2 ∨ op = 4 ∧ st = 3 ∨
    op = 5 ∧ st = 5 ∨ op = 6 ∧ st = 4

theorem strmOp_of_unlisted (op : Nat) (h : ¬ CommandListed op (s.sst p i)) : s.strmOp p i op = (2, s) := by
  simp only [CommandListed, not_or] at h
  obtain ⟨enable, disable, pause, resume, unregister, abort⟩ := h
  rw [State.strmOp, if_neg enable, if_neg disable, if_neg pause, if_neg resume, if_neg unregister, if_neg abort]

theorem strmOp_pause (h : s.sst p i = 2) : s.strmOp p i 3 = (0, s.setSst p i 3) := by
  simp [State.strmOp, h]

theorem strmOp_resume (h : s.sst p i = 3) : s.strmOp p i 4 = (0, s.setSst p i 2) := by
  simp [State.strmOp, h]

theorem strmCmd_of_busy (op : Nat) (h : s.flag F.GATE_STRM_CMD_STAT_BUSY p = true) :
    s.strmCmd p i op = s.setFld F.GATE_STRM_CMD_STAT_ERR 1 p := if_pos h

theorem strmCmd_of_idle (op : Nat) (h : s.flag F.GATE_STRM_CMD_STAT_BUSY p = false) :
    s.strmCmd p i op = ((s.strmOp p i op).2.setFlag F.GATE_STRM_CMD_STAT_BUSY true p).setFld
      F.GATE_STRM_CMD_STAT_ERR (s.strmOp p i op).1 p := if_neg (by simp [h])

/-- R78, R80. A command that is not listed for the state only reports ERR 0x2. -/
theorem strmCmd_of_unlisted (op : Nat) (h : s.flag F.GATE_STRM_CMD_STAT_BUSY p = false)
    (hop : ¬ CommandListed op (s.sst p i)) :
    s.strmCmd p i op =
      (s.setFlag F.GATE_STRM_CMD_STAT_BUSY true p).setFld F.GATE_STRM_CMD_STAT_ERR 2 p := by
  rw [strmCmd_of_idle s p i op h, strmOp_of_unlisted s p i op hop]

/-- The commands of a stream are writes of GATE_STRM_CMD. -/
theorem exec_streamCommands :
    exec (.streamEnable p i) s = .next (s.strmCmd p i 1) ∧ exec (.streamDisable p i) s = .next (s.strmCmd p i 2) ∧
      exec (.streamPause p i) s = .next (s.strmCmd p i 3) ∧ exec (.streamResume p i) s = .next (s.strmCmd p i 4) ∧
      exec (.streamUnregister p i) s = .next (s.strmCmd p i 5) ∧
      exec (.streamAbort p i) s = .next (s.strmCmd p i 6) := ⟨rfl, rfl, rfl, rfl, rfl, rfl⟩

/-! ### Entry words -/

variable (w v : Nat)

theorem exec_gateSentWrite (x : Word) : exec (.gateSentWrite p i w x) s = .next (s.sentWrite p i w x.toNat) := rfl

/-- R81. In FREE and IDLE every word takes a write. -/
theorem sentWrite_of_stopped (h : s.sst p i = 0 ∨ s.sst p i = 5) :
    s.sentWrite p i w v = s.setRegN .GATE_SENT_W v p i w := if_pos h

/-- R81, R100. While the stream is enabled the pedestal word and a valid CODEC word take a write. -/
theorem sentWrite_of_codecWord (hst : s.sst p i = 1 ∨ s.sst p i = 2 ∨ s.sst p i = 3)
    (hw : w = 7 ∨ (w = 6 ∧ codecValid v = true)) :
    s.sentWrite p i w v = (s.setRegN .GATE_SENT_W v p i w).setH .codecWrote (s.pavTime p).toNat p i := by
  simp only [State.sentWrite]
  rw [if_neg (by omega), if_neg (by omega), if_neg (by omega), if_pos hw]

/-- R81. A write that the state does not permit. -/
theorem sentWrite_of_refused (hdeg : s.flag F.GATE_SST_DEGRADED p i = false)
    (h : (s.sst p i = 1 ∨ s.sst p i = 2 ∨ s.sst p i = 3) ∧ w < 6 ∨ s.sst p i = 4) :
    s.sentWrite p i w v = s.gateIgn p := by
  simp only [State.sentWrite]
  rw [if_neg (by omega), if_neg (by simp [hdeg])]
  rcases h with ⟨running, fixed⟩ | draining
  · rw [if_neg (by omega), if_neg (by omega)]
  · rw [if_pos draining]

end Sys2Proof.Gatehouse
end

section
/-!
SUPPORT, for O11. What a transfer of one command to a dome (R116, R117, R134) leaves alone.
-/
namespace Sys2Proof.Gatehouse

open Sys2Proof Sys2Proof.Machine

/-- `t` holds the registers outside the dome blocks, and the streams, as `s` does. -/
structure TransferKept (s t : State) : Prop where
  reg : ∀ id w i j, id.row.block ≠ .dome → t.reg id w i j = s.reg id w i j
  streams : t.streams = s.streams

namespace TransferKept

variable {s t : State}

theorem refl (s : State) : TransferKept s s := ⟨fun _ _ _ _ _ => rfl, rfl⟩

theorem setH (h : TransferKept s t) (k : Hid) (v w i j : Nat) : TransferKept s (t.setH k v w i j) := ⟨h.reg, h.streams⟩

theorem setFld (h : TransferKept s t) {f : Fld} (hf : f.r.row.block = .dome) (v w i j : Nat) :
    TransferKept s (t.setFld f v w i j) where
  reg id w' i' j' hid := by
    have other : f.r ≠ id := fun e => hid (e ▸ hf)
    rw [State.setFld, State.setRegN, t.reg_setReg_id_ne _ _ _ _ _ _ _ _ _ other, h.reg _ _ _ _ hid]
  streams := h.streams

theorem ite (c : Prop) [Decidable c] {u v : State} (hu : TransferKept s u) (hv : TransferKept s v) :
    TransferKept s (if c then u else v) := by
  split
  · exact hu
  · exact hv

theorem foldS {α : Type} {f : α → State → State} (hf : ∀ a t, TransferKept s t → TransferKept s (f a t)) (l : List α) :
    ∀ {t}, TransferKept s t → TransferKept s (Machine.foldS f l t) := by
  induction l with
  | nil => exact fun h => h
  | cons a as ih => exact fun h => ih (hf a _ h)

theorem rowTouch (h : TransferKept s t) (p c bank row : Nat) (close : Bool) :
    TransferKept s (t.rowTouch p c bank row close) := by
  unfold State.rowTouch
  extract_lets refreshed n cleared touched
  have refreshed_kept : TransferKept s refreshed := ⟨h.reg, h.streams⟩
  have cleared_kept : TransferKept s cleared := refreshed_kept.setH _ _ _ _ _
  have due_kept (ds : Table (Nat × Nat) (List (Nat × Nat))) : TransferKept s { cleared with domeNrf := ds } :=
    ⟨cleared_kept.reg, cleared_kept.streams⟩
  exact (ite _ h (ite _ ((due_kept _).setFld (by decide) _ _ _ _) (refreshed_kept.setH _ _ _ _ _))).setH _ _ _ _ _

theorem capCount (h : TransferKept s t) (p c : Nat) : TransferKept s (t.capCount p c) :=
  ite _ (h.setH _ _ _ _ _) ((h.setH _ _ _ _ _).setH _ _ _ _ _)

theorem lineMove (h : TransferKept s t) (p line : Nat) (close : Bool) : TransferKept s (t.lineMove p line close) :=
  (h.rowTouch _ _ _ _ _).capCount _ _

theorem domeStore (h : TransferKept s t) (p a : Nat) (bytes : List Byte) (poison : Bool) :
    TransferKept s (t.domeStore p a bytes poison) := by
  unfold State.domeStore
  extract_lets n marked
  have marked_kept : TransferKept s marked :=
    foldS (fun _ _ h => ite _ (h.setH _ _ _ _ _) (ite _ (h.setH _ _ _ _ _) h)) _ h
  exact ⟨marked_kept.reg, marked_kept.streams⟩

theorem txnPart (h : TransferKept s t) (n part : Nat) (hold poison : Bool) (bytes : List Byte) :
    TransferKept s (t.txnPart n part hold poison bytes) := by
  unfold State.txnPart
  split
  · exact h
  · exact ⟨h.reg, h.streams⟩

theorem issueWrite (h : TransferKept s t) (p c : Nat) (r : DomeReq) : TransferKept s (t.issueWrite p c r) := by
  unfold State.issueWrite
  extract_lets taken stored moved
  have taken_kept : TransferKept s taken := ⟨h.reg, h.streams⟩
  have stored_kept : TransferKept s stored := (taken_kept.domeStore _ _ _ _).txnPart _ _ _ _ _
  have moved_kept : TransferKept s moved := (stored_kept.rowTouch _ _ _ _ _).capCount _ _
  exact ite _ (moved_kept.setH _ _ _ _ _) moved_kept

theorem lineFlush (h : TransferKept s t) (p line : Nat) : TransferKept s (t.lineFlush p line) :=
  foldS (fun _ _ h => h.issueWrite _ _ _) _ h

theorem domePut (h : TransferKept s t) (p a : Nat) (bytes : List Byte) (poison prm : Bool) :
    TransferKept s (t.domePut p a bytes poison prm) := by
  refine (foldS (fun l t h => ?_) _ h).domeStore _ _ _ _
  have moved := (h.lineFlush p l).lineMove p l false
  exact ite _ moved ⟨moved.reg, moved.streams⟩

end TransferKept
end Sys2Proof.Gatehouse
end

section
/-!
SUPPORT, for O11. How a commit is decided (R89, R90, Table 3.10): the outcome a stream shows, what keeps it, and what
the answer of its only commit makes of it.
-/
namespace Sys2Proof.Gatehouse

open Sys2Proof Sys2Proof.Machine Sys2Proof.Panel Sys2Proof.Campanile

theorem regN_setRegN_ne (s : State) {id id' : RegId} (h : id ≠ id') (v w i j w' i' j' : Nat) :
    (s.setRegN id v w i j).regN id' w' i' j' = s.regN id' w' i' j' :=
  congrArg BitVec.toNat (s.reg_setReg_id_ne _ _ _ _ _ _ _ _ _ h)

/-! ### The outcome a stream shows -/

/-- `t` shows the last accepted SEQ, the refused count and the last reason of entry i of pavilion p as `s` does, and has
the same of its fragments closed and its commits in flight. -/
structure OutcomeKept (p i : Nat) (s t : State) : Prop where
  seq : t.regN .GATE_SSEQ p i = s.regN .GATE_SSEQ p i
  refused : t.regN .GATE_SREFUSED p i = s.regN .GATE_SREFUSED p i
  reason : t.fld F.GATE_SST_LAST_REASON p i = s.fld F.GATE_SST_LAST_REASON p i
  closed : (t.stream p i).closed = (s.stream p i).closed
  flight : (t.stream p i).flight = (s.stream p i).flight

theorem stream_setStream_same (s : State) (p i : Nat) (x : Stream) : (s.setStream p i x).stream p i = x :=
  tget_tput_same _ _ _ _

theorem stream_modStream_same (s : State) (p i : Nat) (f : Stream → Stream) :
    (s.modStream p i f).stream p i = f (s.stream p i) := stream_setStream_same _ _ _ _

namespace OutcomeKept

variable {p i : Nat} {s t u : State}

theorem refl (p i : Nat) (s : State) : OutcomeKept p i s s := ⟨rfl, rfl, rfl, rfl, rfl⟩

theorem trans (h : OutcomeKept p i s t) (h' : OutcomeKept p i t u) : OutcomeKept p i s u :=
  ⟨h'.seq.trans h.seq, h'.refused.trans h.refused, h'.reason.trans h.reason, h'.closed.trans h.closed,
    h'.flight.trans h.flight⟩

theorem ite (c : Prop) [Decidable c] {u v : State} (hu : OutcomeKept p i s u) (hv : OutcomeKept p i s v) :
    OutcomeKept p i s (if c then u else v) := by
  split
  · exact hu
  · exact hv

theorem of_transferKept (h : TransferKept s t) : OutcomeKept p i s t where
  seq := congrArg BitVec.toNat (h.reg _ _ _ _ (by decide))
  refused := congrArg BitVec.toNat (h.reg _ _ _ _ (by decide))
  reason := by rw [State.fld, State.fld, State.regN, State.regN, h.reg _ _ _ _ (by decide)]
  closed := by rw [State.stream, h.streams]; rfl
  flight := by rw [State.stream, h.streams]; rfl

theorem setH (h : OutcomeKept p i s t) (k : Hid) (v w i' j : Nat) : OutcomeKept p i s (t.setH k v w i' j) :=
  ⟨h.seq, h.refused, h.reason, h.closed, h.flight⟩

theorem setRegN (h : OutcomeKept p i s t) {id : RegId} (hseq : id ≠ .GATE_SSEQ) (hrefused : id ≠ .GATE_SREFUSED)
    (hsst : id ≠ .GATE_SST) (v w i' j : Nat) : OutcomeKept p i s (t.setRegN id v w i' j) where
  seq := (regN_setRegN_ne t hseq _ _ _ _ _ _ _).trans h.seq
  refused := (regN_setRegN_ne t hrefused _ _ _ _ _ _ _).trans h.refused
  reason := (fld_setRegN_ne t F.GATE_SST_LAST_REASON p i 0 hsst v w i' j).trans h.reason
  closed := h.closed
  flight := h.flight

/-- A stream changes, but for its fragments closed and its commits in flight. -/
theorem modStream (h : OutcomeKept p i s t) (f : Stream → Stream)
    (hclosed : (f (t.stream p i)).closed = (t.stream p i).closed)
    (hflight : (f (t.stream p i)).flight = (t.stream p i).flight) : OutcomeKept p i s (t.modStream p i f) where
  seq := h.seq
  refused := h.refused
  reason := h.reason
  closed := by rw [stream_modStream_same, hclosed, h.closed]
  flight := by rw [stream_modStream_same, hflight, h.flight]

theorem raise (h : OutcomeKept p i s t) (c q : Nat) : OutcomeKept p i s (t.raise c q) :=
  raise_induction (fun _ _ _ _ _ h => h.setH _ _ _ _ _)
    (fun _ c r _ _ _ _ h => h.setRegN (notEvent_of_block (id := .GATE_SSEQ) (by decide) c r)
      (notEvent_of_block (id := .GATE_SREFUSED) (by decide) c r) (notEvent_of_block (id := .GATE_SST) (by decide) c r)
      _ _ _ _) h c q

/-- The state of the stream is another field than its last reason. -/
theorem setSst (h : OutcomeKept p i s t) (st : Nat) : OutcomeKept p i s (t.setSst p i st) := by
  have shown : OutcomeKept p i s (t.setFld F.GATE_SST_STATE st p i) := ⟨?seq, ?refused, ?reason, h.closed, h.flight⟩
  · exact ite _ h (shown.raise p 401)
  case seq => exact (regN_setRegN_ne t (by decide) _ _ _ _ _ _ _).trans h.seq
  case refused => exact (regN_setRegN_ne t (by decide) _ _ _ _ _ _ _).trans h.refused
  case reason =>
    have other :=
      fld_setFld_disjoint t F.GATE_SST_LAST_REASON F.GATE_SST_STATE p i 0 rfl (by decide) (.inr (by decide)) st
    exact other.trans h.reason

/-- GATE_STAT shows nothing of a stream. -/
theorem showFill (h : OutcomeKept p i s t) : OutcomeKept p i s (t.showFill p) :=
  h.setRegN (by decide) (by decide) (by decide) _ _ _ _

theorem gateShow (h : OutcomeKept p i s t) : OutcomeKept p i s (t.gateShow p) :=
  h.setRegN (by decide) (by decide) (by decide) _ _ _ _

theorem drainFollow (h : OutcomeKept p i s t) : OutcomeKept p i s (t.drainFollow p i) :=
  ite _ (h.setSst 5).gateShow h.gateShow

theorem rewriteHeader (h : OutcomeKept p i s t) (k : CommitCopy) (bytes : List Byte) :
    OutcomeKept p i s (t.rewriteHeader k bytes) :=
  h.trans (of_transferKept ((TransferKept.refl t).domePut _ _ _ _ _))

theorem voidCopy (h : OutcomeKept p i s t) (c : Commit) (twin : Bool) : OutcomeKept p i s (t.voidCopy p i c twin) :=
  ite _ (h.rewriteHeader _ _) h

/-- What keeps the outcome keeps it beside a new SEQ. -/
theorem setSeq (h : OutcomeKept p i s t) (n : Nat) :
    OutcomeKept p i (s.setRegN .GATE_SSEQ n p i) (t.setRegN .GATE_SSEQ n p i) where
  seq := by rw [regN_setRegN_same, regN_setRegN_same]
  refused := by
    rw [regN_setRegN_ne _ (by decide), regN_setRegN_ne _ (by decide)]
    exact h.refused
  reason := by
    rw [fld_setRegN_ne _ F.GATE_SST_LAST_REASON _ _ _ (by decide),
      fld_setRegN_ne _ F.GATE_SST_LAST_REASON _ _ _ (by decide)]
    exact h.reason
  closed := h.closed
  flight := h.flight

end OutcomeKept

/-! ### Acceptance and refusal -/

variable (s : State) (p i : Nat) (c : Commit)

/-- R89..R91. An acceptance shows the SEQ of the commit. -/
theorem accept_outcome : OutcomeKept p i (s.setRegN .GATE_SSEQ c.seq p i) (s.accept p i c) := by
  unfold State.accept
  extract_lets x gap degraded home headers
  have home_kept : OutcomeKept p i s home := (OutcomeKept.refl p i s).rewriteHeader _ _
  have headers_kept : OutcomeKept p i s headers :=
    .ite _ (.refl p i s) (.ite _ (home_kept.rewriteHeader _ _) home_kept)
  exact (headers_kept.setSeq c.seq).modStream _ rfl rfl

/-- R97. A count goes up by one; source 400 shows nothing of it. -/
theorem gateCount_outcome (id : RegId) :
    OutcomeKept p i (s.setRegN id ((s.regN id p i + 1) % 2 ^ 32) p i) (s.gateCount id p i) :=
  .ite _ (.refl p i _) (((OutcomeKept.refl p i _).setH _ _ _ _ _).raise _ _)

/-- R90. A refusal shows its reason, and is counted. -/
theorem refuse_outcome (reason : Nat) :
    OutcomeKept p i ((s.setFld F.GATE_SST_LAST_REASON reason p i).setRegN .GATE_SREFUSED
        ((s.regN .GATE_SREFUSED p i + 1) % 2 ^ 32) p i) (s.refuse p i reason) := by
  have count : (s.setFld F.GATE_SST_LAST_REASON reason p i).regN .GATE_SREFUSED p i = s.regN .GATE_SREFUSED p i :=
    regN_setRegN_ne s (by decide) _ _ _ _ _ _ _
  rw [← count, State.refuse]
  exact (gateCount_outcome _ p i .GATE_SREFUSED).modStream _ rfl rfl

/-- R89, R90. A commit whose copies are settled is accepted or refused. -/
def judge : State :=
  if commitReason c = 0 then s.accept p i c
  else ((s.voidCopy p i c false).voidCopy p i c true).refuse p i (commitReason c)

theorem judge_accepted (h : commitReason c = 0) :
    (judge s p i c).regN .GATE_SSEQ p i = c.seq % 2 ^ 64 ∧
      (judge s p i c).regN .GATE_SREFUSED p i = s.regN .GATE_SREFUSED p i := by
  rw [judge, if_pos h, (accept_outcome s p i c).seq, (accept_outcome s p i c).refused]
  exact ⟨regN_setRegN_same _ _ _ _ _ _, regN_setRegN_ne s (by decide) _ _ _ _ _ _ _⟩

theorem judge_refused (r : Nat) (h : commitReason c = r) (hr : r ≠ 0) (hlt : r < 2 ^ 4) :
    (judge s p i c).regN .GATE_SSEQ p i = s.regN .GATE_SSEQ p i ∧
      (judge s p i c).regN .GATE_SREFUSED p i = (s.regN .GATE_SREFUSED p i + 1) % 2 ^ 32 ∧
      (judge s p i c).fld F.GATE_SST_LAST_REASON p i = r := by
  have void : OutcomeKept p i s ((s.voidCopy p i c false).voidCopy p i c true) :=
    ((OutcomeKept.refl p i s).voidCopy c false).voidCopy c true
  have refused := refuse_outcome ((s.voidCopy p i c false).voidCopy p i c true) p i r
  rw [judge, h, if_neg hr]
  refine ⟨?seq, ?count, ?reason⟩
  case seq =>
    rw [refused.seq, ← void.seq]
    exact (regN_setRegN_ne _ (by decide) _ _ _ _ _ _ _).trans (regN_setRegN_ne _ (by decide) _ _ _ _ _ _ _)
  case count =>
    rw [refused.refused, regN_setRegN_same, void.refused]
    omega
  case reason =>
    rw [refused.reason, fld_setRegN_ne _ F.GATE_SST_LAST_REASON _ _ _ (by decide)]
    exact (fld_setFld_same _ _ _ _ _ _ (by decide)).trans (Nat.mod_eq_of_lt hlt)

theorem judge_stream :
    ((judge s p i c).stream p i).closed = (s.stream p i).closed ∧
      ((judge s p i c).stream p i).flight = (s.stream p i).flight := by
  unfold judge
  split
  · exact ⟨(accept_outcome s p i c).closed, (accept_outcome s p i c).flight⟩
  · have void := ((OutcomeKept.refl p i s).voidCopy c false).voidCopy c true
    have refused := refuse_outcome ((s.voidCopy p i c false).voidCopy p i c true) p i (commitReason c)
    exact ⟨refused.closed.trans void.closed, refused.flight.trans void.flight⟩

/-! ### The answer of the only commit -/

/-- The commits of a stream that are in flight are replaced. -/
def withFlight (cs : List Commit) : State := s.modStream p i fun x => { x with flight := cs }

theorem stream_withFlight (cs : List Commit) :
    (withFlight s p i cs).stream p i = { s.stream p i with flight := cs } := stream_modStream_same _ _ _ _

/-- A commit whose home's answer has been received. -/
def received (c : Commit) (r : Nat) : Commit := { c with home := { c.home with st := .got r } }

theorem copy_of_unused {k : CommitCopy} (h : k.st = .unused) : k.settled = true ∧ k.reason = 0 := by
  simp [CommitCopy.settled, CommitCopy.reason, h]

theorem copy_of_got {k : CommitCopy} {r : Nat} (h : k.st = .got r) : k.settled = true ∧ k.reason = r := by
  simp [CommitCopy.settled, CommitCopy.reason, h]

/-- Table 3.10. The reason that the home's answer and a settled twin copy give. -/
theorem commitReason_received (r : Nat) (hdeg : c.degraded = false) :
    commitReason (received c r) =
      if r = 0 then (if c.twin.reason = 0 ∨ c.twin.reason = 3 ∨ c.twin.reason = 4 then c.twin.reason else 5)
      else if c.twin.reason = 0 then r else min r c.twin.reason := by
  simp only [commitReason, received, hdeg]
  rfl

/-- With no commit in flight, none is decided. -/
theorem settle_nil (n : Nat) (h : (s.stream p i).flight = []) : s.settle (n + 1) p i = s.drainFollow p i := by
  rw [State.settle, h]

/-- The oldest commit in flight is decided once both its copies are settled. -/
theorem settle_cons (n : Nat) (cs : List Commit) (h : (s.stream p i).flight = c :: cs)
    (hhome : c.home.settled = true) (htwin : c.twin.settled = true) :
    s.settle (n + 1) p i = ((judge (withFlight s p i cs) p i c).showFill p).settle n p i := by
  rw [State.settle, h]
  simp only [hhome, htwin, Bool.and_self, if_true]
  rfl

theorem issue_nil (h : (s.stream p i).closed = []) : s.issue p i = s := by
  rw [State.issue, h]

/-- R89. The only commit in flight is decided, and nothing is issued. -/
theorem decideAll_single (h : (s.stream p i).flight = [c]) (hclosed : (s.stream p i).closed = [])
    (hhome : c.home.settled = true) (htwin : c.twin.settled = true) :
    OutcomeKept p i (judge (withFlight s p i []) p i c) ((s.decideAll p i).issue p i) := by
  obtain ⟨closed, flight⟩ := judge_stream (withFlight s p i []) p i c
  rw [stream_withFlight] at closed flight
  rw [State.decideAll, h, List.length_singleton, settle_cons s p i c 1 [] h hhome htwin]
  generalize judge (withFlight s p i []) p i c = judged at closed flight ⊢
  have shown : OutcomeKept p i judged (judged.showFill p) := (OutcomeKept.refl p i judged).showFill
  rw [settle_nil _ p i 0 (shown.flight.trans flight),
    issue_nil _ p i (shown.drainFollow.closed.trans (closed.trans hclosed))]
  exact shown.drainFollow

theorem twinAcked_home (ok : CommitCopy → Bool) (reason : CommitCopy → Nat) : s.twinAcked p i false ok reason = s := by
  unfold State.twinAcked
  split <;> rfl

/-- R89. The home's answer reaches a stream whose only commit in flight it is for. -/
theorem answerRx_single (ok : CommitCopy → Bool) (reason : CommitCopy → Nat) (hflight : (s.stream p i).flight = [c])
    (horphans : (s.stream p i).orphans = []) (hok : ok c.home = true) :
    s.answerRx p i false ok reason = ((withFlight s p i [received c (reason c.home)]).decideAll p i).issue p i := by
  simp [State.answerRx, twinAcked_home, horphans, withFlight, received, State.modStream, hflight, onFirst, Commit.copy,
    Commit.withCopy, hok]

/-- R89, R90. The state that the home's answer leaves shows what has become of the commit. -/
theorem exec_commitAckRx_single (hflight : (s.stream p i).flight = [c]) (hclosed : (s.stream p i).closed = [])
    (horphans : (s.stream p i).orphans = []) :
    ∃ t, exec (.commitAckRx p i false) s = .next t ∧ ∀ r, c.home.st = .answered r → c.twin.settled = true →
      OutcomeKept p i (judge (withFlight (withFlight s p i [received c r]) p i []) p i (received c r)) t := by
  refine ⟨_, rfl, fun r hhome htwin => ?_⟩
  rw [answerRx_single s p i c _ _ hflight horphans (by rw [hhome]), hhome]
  refine decideAll_single _ p i (received c r) ?_ ?_ rfl htwin <;> rw [stream_withFlight]
  exact hclosed

end Sys2Proof.Gatehouse
end

section
/-!
O9, O10, O11 settled.
-/
namespace Sys2Proof.Gatehouse

open Sys2Proof Sys2Proof.Machine Sys2Proof.Panel

/-- Settles O9 (R78, R80), by the commands that Table 3.6 lists for a state. -/
theorem streamCommandsFollowTheStateTable : Obligations.StreamCommandsFollowTheStateTable := by
  unfold Obligations.StreamCommandsFollowTheStateTable
  intro p i s
  obtain ⟨enable, disable, pause, resume, unregister, abort⟩ := exec_streamCommands s p i
  rw [enable, disable, pause, resume, unregister, abort]
  refine ⟨fun busy => ?busy, fun idle => ?idle⟩
  case busy =>
    have refused (op : Nat) := congrArg (Host.Outcome.next (φ := Fault) (ρ := Refusal)) (strmCmd_of_busy s p i op busy)
    exact ⟨refused 1, refused 2, refused 3, refused 4, refused 5, refused 6⟩
  case idle =>
    have unlisted (op : Nat) (h : ¬ CommandListed op (s.sst p i)) :=
      congrArg (Host.Outcome.next (φ := Fault) (ρ := Refusal)) (strmCmd_of_unlisted s p i op idle h)
    refine ⟨fun running => ?pause, fun paused => ?resume, fun free stopped => unlisted 1 ?_, fun h => unlisted 2 ?_,
      fun h => unlisted 3 ?_, fun h => unlisted 4 ?_, fun h => unlisted 5 ?_, fun h => unlisted 6 ?_⟩
    case pause => rw [strmCmd_of_idle s p i 3 idle, strmOp_pause s p i running]
    case resume => rw [strmCmd_of_idle s p i 4 idle, strmOp_resume s p i paused]
    all_goals rw [CommandListed]; omega

/-- Settles O10 (R81, R100), by the three answers that an entry has to a write. -/
theorem streamEntryWritesDependOnTheState : Obligations.StreamEntryWritesDependOnTheState := by
  unfold Obligations.StreamEntryWritesDependOnTheState
  intro p i w v s
  rw [exec_gateSentWrite]
  exact ⟨fun h => by rw [sentWrite_of_stopped s p i w _ h],
    fun hst hw => by rw [sentWrite_of_codecWord s p i w _ hst hw],
    fun hdeg h => by rw [sentWrite_of_refused s p i w _ hdeg h]; rfl⟩

/-- Settles O11 (R89, R90), by the reason of Table 3.10 that the two answers give the commit. -/
theorem fragmentIsAcceptedOnlyOnEveryAcknowledgement : Obligations.FragmentIsAcceptedOnlyOnEveryAcknowledgement := by
  unfold Obligations.FragmentIsAcceptedOnlyOnEveryAcknowledgement
  intro p i c s hflight hclosed horphans hdeg
  obtain ⟨t, executed, decided⟩ := exec_commitAckRx_single s p i c hflight hclosed horphans
  refine ⟨t, executed, fun hhome htwin => ?accepted, fun r hhome hlow hhigh htwin => ?refused,
    fun r hhome htwin h0 h3 h4 => ?twinRefused⟩
  case accepted =>
    obtain ⟨settled, acked⟩ := htwin.elim copy_of_unused copy_of_got
    have reason : commitReason (received c 0) = 0 := by
      rw [commitReason_received c 0 hdeg, if_pos rfl, if_pos (.inl acked), acked]
    have kept := decided 0 hhome settled
    rw [kept.seq, kept.refused]
    exact judge_accepted _ p i _ reason
  case refused =>
    obtain ⟨settled, unused⟩ := copy_of_unused htwin
    have reason : commitReason (received c r) = r := by
      rw [commitReason_received c r hdeg, if_neg (by omega), if_pos unused]
    have kept := decided r hhome settled
    rw [kept.seq, kept.refused, kept.reason]
    exact judge_refused _ p i _ r reason (by omega) (by omega)
  case twinRefused =>
    obtain ⟨settled, refused⟩ := copy_of_got htwin
    have reason : commitReason (received c 0) = 5 := by
      rw [commitReason_received c 0 hdeg, if_pos rfl, refused, if_neg (by omega)]
    obtain ⟨seq, -, last⟩ :=
      judge_refused (withFlight (withFlight s p i [received c 0]) p i []) p i _ 5 reason (by decide) (by decide)
    have kept := decided 0 hhome settled
    exact ⟨kept.seq.trans seq, kept.reason.trans last⟩

end Sys2Proof.Gatehouse
end

section
/-!
SUPPORT, for O12 and O13. Bit strings (R104): what a field of m bits reads back as, and the payload words of a
bit string.
-/
namespace Sys2Proof.Codecs

open Sys2Proof Sys2Proof.Machine

/-! ### Fields -/

theorem bitOf_eq_testBit (v i : Nat) : bitOf v i = v.testBit i := by
  rw [bitOf, Nat.testBit_eq_decide_div_mod_eq]; rfl

theorem b2n_bitOf (v i : Nat) : b2n (bitOf v i) = v / 2 ^ i % 2 := by
  rcases Nat.mod_two_eq_zero_or_one (v / 2 ^ i) with h | h <;> simp [b2n, bitOf, h]

@[simp] theorem length_bitsMsb (m v : Nat) : (bitsMsb m v).length = m := by
  induction m with
  | zero => rfl
  | succ m ih => rw [bitsMsb, List.length_cons, ih]

/-- A field of m bits depends on the low bits of its value alone. -/
theorem bitsMsb_mod (m n v : Nat) (h : m ≤ n) : bitsMsb m (v % 2 ^ n) = bitsMsb m v := by
  induction m with
  | zero => rfl
  | succ m ih =>
    have low : m < n := h
    rw [bitsMsb, bitsMsb, ih (by omega), bitOf_eq_testBit, bitOf_eq_testBit, Nat.testBit_mod_two_pow]
    simp [low]

theorem foldl_msb (l : List Bool) (v : Nat) :
    l.foldl (fun v b => 2 * v + b2n b) v = 2 ^ l.length * v + msbNat l := by
  induction l generalizing v with
  | nil => simp [msbNat]
  | cons b l ih =>
    rw [msbNat, List.foldl_cons, List.foldl_cons, ih, ih, List.length_cons, Nat.mul_zero, Nat.zero_add, Nat.pow_succ,
      Nat.mul_add, Nat.mul_assoc, Nat.add_assoc]

theorem msbNat_cons (b : Bool) (l : List Bool) : msbNat (b :: l) = 2 ^ l.length * b2n b + msbNat l := by
  rw [msbNat, List.foldl_cons, foldl_msb, Nat.mul_zero, Nat.zero_add]

theorem b2n_le_one (b : Bool) : b2n b ≤ 1 := by cases b <;> decide

theorem msbNat_lt (l : List Bool) : msbNat l < 2 ^ l.length := by
  induction l with
  | nil => decide
  | cons b l ih =>
    have top := Nat.mul_le_mul_left (2 ^ l.length) (b2n_le_one b)
    rw [msbNat_cons, List.length_cons, Nat.pow_succ]
    omega

theorem msbNat_bitsMsb (m v : Nat) : msbNat (bitsMsb m v) = v % 2 ^ m := by
  induction m with
  | zero => rw [Nat.pow_zero, Nat.mod_one]; rfl
  | succ m ih => rw [bitsMsb, msbNat_cons, length_bitsMsb, b2n_bitOf, ih, Nat.mod_pow_succ, Nat.add_comm]

theorem bitsMsb_msbNat (l : List Bool) : bitsMsb l.length (msbNat l) = l := by
  induction l with
  | nil => rfl
  | cons b l ih =>
    have tail : msbNat (b :: l) % 2 ^ l.length = msbNat l := by
      rw [msbNat_cons, Nat.mul_add_mod, Nat.mod_eq_of_lt (msbNat_lt l)]
    have head : bitOf (msbNat (b :: l)) l.length = b := by
      rw [msbNat_cons, bitOf, Nat.mul_add_div (Nat.two_pow_pos _), Nat.div_eq_of_lt (msbNat_lt l)]
      cases b <;> decide
    rw [List.length_cons, bitsMsb, head, ← bitsMsb_mod _ _ _ (Nat.le_refl _), tail, ih]

/-- `read_bits(m)` takes back a field of m bits. -/
theorem readBits_bitsMsb (m v : Nat) (rest : List Bool) : readBits m (bitsMsb m v ++ rest) = (v % 2 ^ m, rest) := by
  have field : (bitsMsb m v ++ rest).take m = bitsMsb m v := List.take_left' (length_bitsMsb m v)
  rw [readBits, List.drop_left' (length_bitsMsb m v), field, length_bitsMsb, Nat.sub_self, List.replicate_zero,
    List.append_nil, msbNat_bitsMsb]

/-- Successive fields of m bits read back in order. -/
theorem readFields_flatMap {α : Type} (m : Nat) (f : α → Nat) (xs : List α) (rest : List Bool) :
    readFields xs.length m (xs.flatMap (fun x => bitsMsb m (f x)) ++ rest) = xs.map fun x => f x % 2 ^ m := by
  induction xs with
  | nil => rfl
  | cons x xs ih =>
    rw [List.flatMap_cons, List.append_assoc, List.length_cons, readFields, readBits_bitsMsb, ih, List.map_cons]

/-! ### Payload words -/

/-- A payload word unpacks to the 32 bits it was made of. -/
theorem bitsMsb_word (l : List Bool) (h : l.length = 32) : bitsMsb 32 (BitVec.ofNat 32 (msbNat l)).toNat = l := by
  rw [BitVec.toNat_ofNat, bitsMsb_mod _ _ _ (Nat.le_refl _), ← h, bitsMsb_msbNat]

/-- R104. The words of a bit string hold it whole, followed by zeros. -/
theorem unpackWords_packWords (n : Nat) (l : List Bool) (h : l.length ≤ 32 * n) :
    unpackWords (packWords n l) = l ++ List.replicate (32 * n - l.length) false := by
  induction n generalizing l with
  | zero =>
    obtain rfl : l = [] := List.eq_nil_of_length_eq_zero (by omega)
    rfl
  | succ n ih =>
    have word : ((l.take 32) ++ List.replicate (32 - (l.take 32).length) false).length = 32 := by
      rw [List.length_append, List.length_replicate, List.length_take]; omega
    have ih := ih (l.drop 32) (by rw [List.length_drop]; omega)
    rw [unpackWords] at ih ⊢
    rw [packWords, List.flatMap_cons, bitsMsb_word _ word, ih]
    rcases Nat.le_total 32 l.length with long | short
    case inl =>
      have full : (l.take 32).length = 32 := by rw [List.length_take]; omega
      rw [full, Nat.sub_self, List.replicate_zero, List.append_nil, ← List.append_assoc, List.take_append_drop,
        List.length_drop]
      congr 2
      omega
    case inr =>
      rw [List.take_of_length_le short, List.drop_of_length_le short, List.nil_append, List.append_assoc,
        List.replicate_append_replicate]
      congr 2
      simp only [List.length_nil]
      omega

theorem length_le_wordsFor (l : List Bool) : l.length ≤ 32 * wordsFor l := by
  rw [wordsFor, cdiv, if_neg (by decide)]; omega

end Sys2Proof.Codecs
end

section
/-!
SUPPORT, for O12. RAW and PACK (R106, R107): the decoder reads each residual's code and takes the step back.
-/
namespace Sys2Proof.Codecs

open Sys2Proof Sys2Proof.Machine

/-! ### RAW, and the verbatim and full modes -/

/-- R106. Samples written whole read back. -/
theorem readFields_codeRaw (mode : Nat) (xs : List Nat) (rest : List Bool) (hxs : ∀ x ∈ xs, x < 65536) :
    readFields xs.length 16 ((codeRaw mode xs).bits ++ rest) = xs := by
  rw [codeRaw, readFields_flatMap]
  exact (List.map_congr_left fun x hx => Nat.mod_eq_of_lt (hxs x hx)).trans (List.map_id' xs)

theorem wordsFor_codeRaw (mode : Nat) (xs : List Nat) : wordsFor (codeRaw mode xs).bits = cdiv xs.length 2 := by
  have size : (codeRaw mode xs).bits.length = 16 * xs.length := by
    simp only [codeRaw, List.length_flatMap, length_bitsMsb, List.map_const', List.sum_replicate_nat, Nat.mul_comm]
  rw [wordsFor, size, cdiv, cdiv, if_neg (by decide), if_neg (by decide)]
  omega

/-! ### The residuals of PACK -/

/-- The sample after `prev` that a mapped residual says. -/
def nextSample (prev u : Nat) : Nat :=
  if u % 2 = 0 then (prev + u / 2) % 65536 else (prev + 65536 - (u + 1) / 2) % 65536

/-- The map of R107 step 1 is one-to-one: the decoder undoes it. -/
theorem nextSample_packResidual (prev x : Nat) (hprev : prev < 65536) (hx : x < 65536) :
    nextSample prev (packResidual prev x) = x := by
  simp only [packResidual, nextSample]
  split
  case isTrue up => rw [if_pos (by omega)]; omega
  case isFalse down => rw [if_neg (by omega)]; omega

theorem packResidual_lt (prev x : Nat) : packResidual prev x < 65536 := by
  simp only [packResidual]
  split <;> omega

/-- R107 step 3. The code of one residual under parameter k. -/
def residualCode (k u : Nat) : List Bool :=
  if u / 2 ^ k ≤ 15 then List.replicate (u / 2 ^ k) true ++ [false] ++ bitsMsb k u
  else List.replicate 16 true ++ bitsMsb 16 u

/-- One residual read under parameter k, and the string after it. -/
def readResidual (k : Nat) (l : List Bool) : Nat × List Bool :=
  if (readOnes 16 l).1 = 16 then readBits 16 (readOnes 16 l).2
  else ((readOnes 16 l).1 * 2 ^ k + (readBits k (readOnes 16 l).2).1, (readBits k (readOnes 16 l).2).2)

theorem packCode_cons (u : Nat) (us : List Nat) (a c : Nat) :
    packCode (u :: us) a c = residualCode (packK c a) u ++
      (if c + 1 = 32 then packCode us ((a + u) / 2) 16 else packCode us (a + u) (c + 1)) := rfl

theorem unpackCode_succ (n prev a c : Nat) (l : List Bool) :
    unpackCode (n + 1) prev a c l =
      nextSample prev (readResidual (packK c a) l).1 ::
        (if c + 1 = 32 then
          unpackCode n (nextSample prev (readResidual (packK c a) l).1) ((a + (readResidual (packK c a) l).1) / 2) 16
            (readResidual (packK c a) l).2
        else
          unpackCode n (nextSample prev (readResidual (packK c a) l).1) (a + (readResidual (packK c a) l).1) (c + 1)
            (readResidual (packK c a) l).2) := rfl

theorem readOnes_stopped (n q : Nat) (l : List Bool) (h : q < n) :
    readOnes n (List.replicate q true ++ false :: l) = (q, l) := by
  induction q generalizing n with
  | zero =>
    obtain ⟨n, rfl⟩ := Nat.exists_eq_add_one_of_ne_zero (by omega : n ≠ 0)
    simp [readOnes]
  | succ q ih =>
    obtain ⟨n, rfl⟩ := Nat.exists_eq_add_one_of_ne_zero (by omega : n ≠ 0)
    simp [readOnes, List.replicate_succ, ih n (by omega)]

theorem readOnes_full (n : Nat) (l : List Bool) : readOnes n (List.replicate n true ++ l) = (n, l) := by
  induction n with
  | zero => simp [readOnes]
  | succ n ih => simp [readOnes, List.replicate_succ, ih]

/-- Sixteen one-bits come first only in an escape, so a residual's code says which it is. -/
theorem readResidual_residualCode (k u : Nat) (rest : List Bool) (hu : u < 65536) :
    readResidual k (residualCode k u ++ rest) = (u, rest) := by
  rw [residualCode, readResidual]
  split
  case isTrue ordinary =>
    have ones : readOnes 16 (List.replicate (u / 2 ^ k) true ++ [false] ++ bitsMsb k u ++ rest) =
        (u / 2 ^ k, bitsMsb k u ++ rest) := by
      rw [List.append_assoc, List.append_assoc]
      exact readOnes_stopped _ _ _ (by omega)
    rw [ones, if_neg (by dsimp only; omega), readBits_bitsMsb, Nat.div_add_mod']
  case isFalse escape =>
    rw [List.append_assoc, readOnes_full, if_pos rfl, readBits_bitsMsb, Nat.mod_eq_of_lt (show u < 2 ^ 16 from hu)]

/-- R107. The decoder follows the adaptive state of the encoder, and gives the samples after the first back. -/
theorem unpackCode_packCode (x : Nat) (xs : List Nat) (a c : Nat) (rest : List Bool)
    (hxs : ∀ y ∈ x :: xs, y < 65536) : unpackCode xs.length x a c (packCode (packResiduals (x :: xs)) a c ++ rest) =
      xs := by
  induction xs generalizing x a c with
  | nil => rfl
  | cons y ys ih =>
    have hx : x < 65536 := hxs x (by simp)
    have tail : ∀ z ∈ y :: ys, z < 65536 := fun z hz => hxs z (List.mem_cons_of_mem _ hz)
    rw [packResiduals, packCode_cons, List.append_assoc, List.length_cons, unpackCode_succ,
      readResidual_residualCode _ _ _ (packResidual_lt x y), nextSample_packResidual x y hx (tail y (by simp))]
    split
    · rw [ih _ _ _ tail]
    · rw [ih _ _ _ tail]

end Sys2Proof.Codecs
end

section
/-!
SUPPORT, for O12. What a decoder recovers of a block (R104), and that of a RAW or PACK block it recovers every sample
(R106, R107).
-/
namespace Sys2Proof.Codecs

open Sys2Proof Sys2Proof.Machine

/-- The samples decoded from the payload words of a coded block, under its MODE and PARAM. -/
def recovered (word ped : Nat) (xs : List Nat) : List Int :=
  let b := codeBlock word ped xs
  decodeBlock word ped xs.length b.mode b.param (unpackWords (packWords (wordsFor b.bits) b.bits))

variable {word ped : Nat} {xs : List Nat}

/-- The zeros that fill the last payload word do not matter to a decoder that recovers the samples before any rest. -/
theorem recovered_of_decodes {ys : List Int} (b : CodedBlock) (coded : codeBlock word ped xs = b)
    (decodes : ∀ rest, decodeBlock word ped xs.length b.mode b.param (b.bits ++ rest) = ys) :
    recovered word ped xs = ys := by
  subst coded
  rw [recovered, unpackWords_packWords _ _ (length_le_wordsFor _)]
  exact decodes _

theorem recovered_getElem? {f : Nat → Int} {i x : Nat} (all : recovered word ped xs = xs.map f)
    (hx : xs[i]? = some x) : (recovered word ped xs)[i]? = some (f x) := by
  rw [all, List.getElem?_map, hx, Option.map_some]

/-! ### RAW -/

theorem codeBlock_raw (h : bitsOf word 0 3 = 0) : codeBlock word ped xs = codeRaw 0 xs := by
  simp only [codeBlock, codecWord, h]

theorem decodeBlock_raw (h : bitsOf word 0 3 = 0) (n mode param : Nat) (l : List Bool) :
    decodeBlock word ped n mode param l = (readFields n 16 l).map Int.ofNat := by
  simp only [decodeBlock, codecWord, h]

theorem recovered_raw (h : bitsOf word 0 3 = 0) (hxs : ∀ x ∈ xs, x < 65536) :
    recovered word ped xs = xs.map Int.ofNat :=
  recovered_of_decodes _ (codeBlock_raw h) fun rest => by
    rw [decodeBlock_raw h, readFields_codeRaw 0 xs rest hxs]

/-! ### PACK -/

/-- R107 step 2. K0 of a block. -/
def packStart (xs : List Nat) : Nat := if xs.length ≤ 1 then 0 else packK (xs.length - 1) (packResiduals xs).sum

/-- R107 step 3. The bit string of coded mode. -/
def packString (xs : List Nat) : List Bool :=
  bitsMsb 16 (xs.headD 0) ++ packCode (packResiduals xs) (4 * 2 ^ packStart xs) 4

theorem codePack_of_shorter (h : wordsFor (packString xs) < cdiv xs.length 2) :
    codePack xs = ⟨0, packString xs, packStart xs, false⟩ := if_pos h

theorem codePack_of_not_shorter (h : ¬ wordsFor (packString xs) < cdiv xs.length 2) :
    codePack xs = { codeRaw 1 xs with param := packStart xs } := if_neg h

theorem codeBlock_pack (h : bitsOf word 0 3 = 1) : codeBlock word ped xs = codePack xs := by
  simp only [codeBlock, codecWord, h]

theorem decodeBlock_pack_verbatim (h : bitsOf word 0 3 = 1) (n param : Nat) (l : List Bool) :
    decodeBlock word ped n 1 param l = (readFields n 16 l).map Int.ofNat := by
  simp only [decodeBlock, codecWord, h, if_pos]

theorem decodeBlock_pack_coded (h : bitsOf word 0 3 = 1) (n param : Nat) (l : List Bool) :
    decodeBlock word ped n 0 param l = ((readBits 16 l).1 ::
      unpackCode (n - 1) (readBits 16 l).1 (4 * 2 ^ param) 4 (readBits 16 l).2).map Int.ofNat := by
  simp only [decodeBlock, codecWord, h, if_neg Nat.zero_ne_one]

theorem recovered_pack (h : bitsOf word 0 3 = 1) (nonempty : 1 ≤ xs.length) (hxs : ∀ x ∈ xs, x < 65536) :
    recovered word ped xs = xs.map Int.ofNat := by
  by_cases shorter : wordsFor (packString xs) < cdiv xs.length 2
  case pos =>
    refine recovered_of_decodes _ ((codeBlock_pack h).trans (codePack_of_shorter shorter)) fun rest => ?_
    obtain ⟨x, ys, rfl⟩ := List.exists_cons_of_length_pos nonempty
    have first : x % 2 ^ 16 = x := Nat.mod_eq_of_lt (hxs x (by simp))
    dsimp only
    rw [decodeBlock_pack_coded h, packString, List.headD_cons, List.append_assoc, readBits_bitsMsb, first,
      List.length_cons, Nat.add_sub_cancel, unpackCode_packCode x ys _ _ rest hxs]
  case neg =>
    refine recovered_of_decodes _ ((codeBlock_pack h).trans (codePack_of_not_shorter shorter)) fun rest => ?_
    exact (decodeBlock_pack_verbatim h _ _ _).trans (congrArg _ (readFields_codeRaw 1 xs rest hxs))

/-- R108. Step 4 of R107 never picks a coding longer than verbatim. -/
theorem wordsFor_codePack (xs : List Nat) : wordsFor (codePack xs).bits ≤ cdiv xs.length 2 := by
  by_cases shorter : wordsFor (packString xs) < cdiv xs.length 2
  case pos => rw [codePack_of_shorter shorter]; exact Nat.le_of_lt shorter
  case neg => rw [codePack_of_not_shorter shorter]; exact Nat.le_of_eq (wordsFor_codeRaw 1 xs)

/-! ### Both -/

/-- R106, R107. RAW and PACK recover every sample. -/
theorem recovered_lossless (named : bitsOf word 0 3 ≤ 1) (nonempty : 1 ≤ xs.length)
    (hxs : ∀ x ∈ xs, x < 65536) : recovered word ped xs = xs.map Int.ofNat := by
  rcases Nat.le_one_iff_eq_zero_or_eq_one.mp named with raw | pack
  · exact recovered_raw raw hxs
  · exact recovered_pack pack nonempty hxs

/-- R106, R108. RAW and PACK fill no more words than verbatim. -/
theorem wordsFor_codeBlock_lossless (named : bitsOf word 0 3 ≤ 1) :
    wordsFor (codeBlock word ped xs).bits ≤ cdiv xs.length 2 := by
  rcases Nat.le_one_iff_eq_zero_or_eq_one.mp named with raw | pack
  · rw [codeBlock_raw raw]; exact Nat.le_of_eq (wordsFor_codeRaw 0 xs)
  · rw [codeBlock_pack pack]; exact wordsFor_codePack xs

end Sys2Proof.Codecs
end

section
/-!
SUPPORT, for O13. SUPP (R110): a sample of the block is recovered, or it was not kept and the pedestal stands for it.
-/
namespace Sys2Proof.Codecs

open Sys2Proof Sys2Proof.Machine

variable {word ped : Nat} {xs : List Nat}

/-- What a sample may be recovered as from SUPP: itself, or the pedestal for a sample that is not kept. -/
def SuppRecovers (xs : List Nat) (ped t w i x : Nat) (y : Int) : Prop :=
  y = x ∨ (y = ped ∧ suppKept xs ped t w i = false)

theorem suppOver_of_getElem? {i x : Nat} (hx : xs[i]? = some x) (t : Nat) :
    suppOver xs ped t i = decide (t ≤ max x ped - min x ped) := by
  rw [suppOver, List.getD_eq_getElem?_getD, hx, Option.getD_some]

/-- A sample over threshold is kept: the window around it holds itself. -/
theorem absDiff_lt_of_not_kept {t w i x : Nat} (hx : xs[i]? = some x) (dropped : suppKept xs ped t w i = false) :
    absDiff x ped < t := by
  obtain ⟨inside, -⟩ := List.getElem?_eq_some_iff.mp hx
  have under := List.any_eq_false.mp dropped i (List.mem_range.mpr inside)
  simp only [suppOver_of_getElem? hx, Nat.max_self, Nat.min_self, Nat.sub_self, Nat.zero_le, decide_true, Bool.and_true,
    decide_eq_true_eq] at under
  rw [absDiff]
  omega

/-- The keep map of a block. -/
def keepMap (xs : List Nat) (ped t w : Nat) : List Bool := (List.range xs.length).map (suppKept xs ped t w)

@[simp] theorem length_keepMap (xs : List Nat) (ped t w : Nat) : (keepMap xs ped t w).length = xs.length := by
  simp [keepMap]

theorem keepMap_getElem? (ped t w i x : Nat) (hx : xs[i]? = some x) :
    (keepMap xs ped t w)[i]? = some (suppKept xs ped t w i) := by
  obtain ⟨inside, -⟩ := List.getElem?_eq_some_iff.mp hx
  simp [keepMap, inside]

/-- The fields of the kept samples, in order. -/
def keptFields (xs : List Nat) (ks : List Bool) : List Bool :=
  ((xs.zip ks).filter fun e => e.2).flatMap fun e => bitsMsb 16 e.1

/-- The mapped block. -/
def suppMapped (xs : List Nat) (ped t w : Nat) : CodedBlock :=
  ⟨0, keepMap xs ped t w ++ List.replicate (64 - xs.length) false ++ keptFields xs (keepMap xs ped t w), 0, false⟩

/-- The three modes of R110. -/
theorem codeSupp_cases (xs : List Nat) (ped t w : Nat) :
    (codeSupp xs ped t w = ⟨1, [], 0, false⟩ ∧ (keepMap xs ped t w).filter id = []) ∨
      codeSupp xs ped t w = codeRaw 2 xs ∨ codeSupp xs ped t w = suppMapped xs ped t w := by
  by_cases empty : ((keepMap xs ped t w).filter id).length = 0
  case pos => exact .inl ⟨if_pos empty, List.eq_nil_of_length_eq_zero empty⟩
  case neg =>
    by_cases full : cdiv xs.length 2 ≤ 2 + cdiv ((keepMap xs ped t w).filter id).length 2
    case pos => exact .inr (.inl ((if_neg empty).trans (if_pos full)))
    case neg => exact .inr (.inr ((if_neg empty).trans (if_neg full)))

theorem codeBlock_supp (h : bitsOf word 0 3 = 2) :
    codeBlock word ped xs = codeSupp xs ped (bitsOf word 16 16) (bitsOf word 4 4) := by
  simp only [codeBlock, codecWord, h]

theorem decodeBlock_supp_full (h : bitsOf word 0 3 = 2) (n param : Nat) (l : List Bool) :
    decodeBlock word ped n 2 param l = (readFields n 16 l).map Int.ofNat := by
  simp only [decodeBlock, codecWord, h, if_pos]

theorem decodeBlock_supp_empty (h : bitsOf word 0 3 = 2) (n param : Nat) (l : List Bool) :
    decodeBlock word ped n 1 param l = (List.replicate n ped).map Int.ofNat := by
  simp [decodeBlock, codecWord, h]

theorem decodeBlock_supp_mapped (h : bitsOf word 0 3 = 2) (n param : Nat) (l : List Bool) :
    decodeBlock word ped n 0 param l = (unpackSupp ped (l.take n) (l.drop 64)).map Int.ofNat := by
  simp [decodeBlock, codecWord, h]

/-- The decoder takes a field for each sample that the keep map keeps. -/
theorem unpackSupp_keptFields (ped : Nat) (xs : List Nat) (ks : List Bool) (rest : List Bool)
    (same : ks.length = xs.length) (hxs : ∀ x ∈ xs, x < 65536) :
    unpackSupp ped ks (keptFields xs ks ++ rest) = xs.zipWith (fun x k => if k then x else ped) ks := by
  induction ks generalizing xs with
  | nil => obtain rfl : xs = [] := List.eq_nil_of_length_eq_zero same.symm; rfl
  | cons k ks ih =>
    obtain ⟨x, ys, rfl⟩ := List.exists_cons_of_length_pos (l := xs) (by rw [← same]; exact Nat.succ_pos _)
    have ih := ih ys (Nat.succ.inj same) fun y hy => hxs y (List.mem_cons_of_mem x hy)
    rw [keptFields] at ih
    cases k with
    | false => simpa [keptFields, unpackSupp] using ih
    | true =>
      have first : x % 2 ^ 16 = x := Nat.mod_eq_of_lt (hxs x (by simp))
      rw [keptFields, List.zip_cons_cons, List.filter_cons_of_pos rfl, List.flatMap_cons, List.append_assoc, unpackSupp,
        if_pos rfl, readBits_bitsMsb, first, ih]
      rfl

theorem recovered_suppMapped (h : bitsOf word 0 3 = 2) (few : xs.length ≤ 64) (hxs : ∀ x ∈ xs, x < 65536)
    (t w : Nat) (coded : codeBlock word ped xs = suppMapped xs ped t w) :
    recovered word ped xs =
      (xs.zipWith (fun x k => if k then x else ped) (keepMap xs ped t w)).map Int.ofNat := by
  refine recovered_of_decodes _ coded fun rest => ?_
  have map : (keepMap xs ped t w ++ List.replicate (64 - xs.length) false).length = 64 := by
    rw [List.length_append, length_keepMap, List.length_replicate]; omega
  rw [suppMapped, decodeBlock_supp_mapped h]
  dsimp only
  rw [List.append_assoc, List.drop_left' map, List.append_assoc, List.take_left' (length_keepMap xs ped t w),
    unpackSupp_keptFields ped xs _ rest (length_keepMap xs ped t w) hxs]

theorem recovered_supp (h : bitsOf word 0 3 = 2) (few : xs.length ≤ 64) (hxs : ∀ x ∈ xs, x < 65536) (i x : Nat)
    (hx : xs[i]? = some x) :
    ∃ y, (recovered word ped xs)[i]? = some y ∧
      SuppRecovers xs ped (bitsOf word 16 16) (bitsOf word 4 4) i x y := by
  have kept := keepMap_getElem? ped (bitsOf word 16 16) (bitsOf word 4 4) i x hx
  rcases codeSupp_cases xs ped (bitsOf word 16 16) (bitsOf word 4 4) with ⟨empty, noneKept⟩ | full | mapped
  case inl =>
    have dropped : suppKept xs ped (bitsOf word 16 16) (bitsOf word 4 4) i = false :=
      Bool.eq_false_iff.mpr (List.filter_eq_nil_iff.mp noneKept _ (List.mem_of_getElem? kept))
    have all : recovered word ped xs = (List.replicate xs.length ped).map Int.ofNat :=
      recovered_of_decodes _ ((codeBlock_supp h).trans empty) fun rest => decodeBlock_supp_empty h _ _ _
    obtain ⟨inside, -⟩ := List.getElem?_eq_some_iff.mp hx
    exact ⟨ped, by simp [all, inside], .inr ⟨rfl, dropped⟩⟩
  case inr.inl =>
    have all : recovered word ped xs = xs.map Int.ofNat :=
      recovered_of_decodes _ ((codeBlock_supp h).trans full) fun rest =>
        (decodeBlock_supp_full h _ _ _).trans (congrArg _ (readFields_codeRaw 2 xs rest hxs))
    exact ⟨x, by rw [all, List.getElem?_map, hx]; rfl, .inl rfl⟩
  case inr.inr =>
    have all := recovered_suppMapped h few hxs _ _ ((codeBlock_supp h).trans mapped)
    have value : (recovered word ped xs)[i]? = some
        (Int.ofNat (if suppKept xs ped (bitsOf word 16 16) (bitsOf word 4 4) i then x else ped)) := by
      rw [all, List.getElem?_map, List.getElem?_zipWith, hx, kept]; rfl
    refine ⟨_, value, ?_⟩
    split
    case isTrue => exact .inl rfl
    case isFalse dropped => exact .inr ⟨rfl, Bool.eq_false_iff.mpr dropped⟩

end Sys2Proof.Codecs
end

section
/-!
SUPPORT, for O13. QNT and LOG (R111, R112): the value each code is recovered as, and its distance from the sample.
-/
namespace Sys2Proof.Codecs

open Sys2Proof Sys2Proof.Machine

variable {word ped : Nat} {xs : List Nat}

/-! ### QNT -/

theorem unsign_cast (m : Nat) (c : Int) : (unsign m c : Int) = c % (2 ^ m : Nat) :=
  Int.toNat_of_nonneg (Int.emod_nonneg c (by exact_mod_cast Nat.ne_of_gt (Nat.two_pow_pos m)))

theorem unsign_lt (m : Nat) (c : Int) : unsign m c < 2 ^ m := by
  have field : (unsign m c : Int) < (2 ^ m : Nat) := by
    rw [unsign_cast]
    exact Int.emod_lt_of_pos c (by exact_mod_cast Nat.two_pow_pos m)
  exact_mod_cast field

/-- A two's complement field of m bits reads back as the integer it was written for. -/
theorem signed_unsign (m : Nat) (c : Int) (hm : m ≠ 0) (low : -((2 ^ (m - 1) : Nat) : Int) ≤ c)
    (high : c ≤ ((2 ^ (m - 1) : Nat) : Int) - 1) : signed m (unsign m c % 2 ^ m) = c := by
  have double : 2 ^ m = 2 * 2 ^ (m - 1) := by rw [← Nat.pow_succ']; congr 1; omega
  have field := unsign_cast m c
  rw [signed, Nat.mod_mod, Nat.mod_eq_of_lt (unsign_lt m c)]
  rw [double] at field ⊢
  generalize 2 ^ (m - 1) = half at *
  rcases Int.lt_or_le c 0 with neg | nonneg
  case inl =>
    rw [← Int.add_emod_right, Int.emod_eq_of_lt (by omega) (by omega)] at field
    rw [if_neg (by omega)]
    omega
  case inr =>
    rw [Int.emod_eq_of_lt nonneg (by omega)] at field
    rw [if_pos (by omega)]
    omega

/-- Rounding to the nearest integer moves a value by at most half a step. -/
theorem roundEven_within (r : Int) (q : Nat) :
    2 * (roundEven r q * (2 ^ q : Nat) - r) ≤ (2 ^ q : Nat) ∧
      2 * (r - roundEven r q * (2 ^ q : Nat)) ≤ (2 ^ q : Nat) := by
  have positive : (0 : Int) < (2 ^ q : Nat) := by exact_mod_cast Nat.two_pow_pos q
  have split := Int.mul_ediv_add_emod r (2 ^ q : Nat)
  have low := Int.emod_nonneg r (Int.ne_of_gt positive)
  have high := Int.emod_lt_of_pos r positive
  simp only [roundEven]
  generalize ((2 ^ q : Nat) : Int) = step at *
  generalize r / step = m at *
  generalize r % step = f at *
  have down : m * step = step * m := Int.mul_comm m step
  have up : (m + 1) * step = step * m + step := by rw [Int.add_mul, Int.one_mul, down]
  by_cases below : 2 * f < step
  case pos => rw [if_pos below, down]; omega
  case neg =>
    by_cases above : step < 2 * f
    case pos => rw [if_neg below, if_pos above, up]; omega
    case neg =>
      rw [if_neg below, if_neg above]
      by_cases even : m % 2 = 0
      case pos => rw [if_pos even, down]; omega
      case neg => rw [if_neg even, up]; omega

theorem clampI_range (lo hi c : Int) (h : lo ≤ hi) : lo ≤ clampI lo hi c ∧ clampI lo hi c ≤ hi := by
  rw [clampI]
  by_cases below : c < lo
  case pos => rw [if_pos below]; omega
  case neg =>
    by_cases above : hi < c
    case pos => rw [if_neg below, if_pos above]; omega
    case neg => rw [if_neg below, if_neg above]; omega

/-- R111. The code of a sample before the clamp. -/
def qntRounded (ped q x : Nat) : Int := roundEven ((x : Int) - ped) q

/-- R111. The code of a sample. -/
def qntCode (ped q m x : Nat) : Int :=
  clampI (-((2 ^ (m - 1) : Nat) : Int)) (((2 ^ (m - 1) : Nat) : Int) - 1) (qntRounded ped q x)

theorem qntCode_range (ped q m x : Nat) :
    -((2 ^ (m - 1) : Nat) : Int) ≤ qntCode ped q m x ∧ qntCode ped q m x ≤ ((2 ^ (m - 1) : Nat) : Int) - 1 := by
  have positive := Nat.two_pow_pos (m - 1)
  exact clampI_range _ _ _ (by omega)

theorem codeQnt_eq (xs : List Nat) (ped q m : Nat) :
    codeQnt xs ped q m = ⟨0, xs.flatMap fun x => bitsMsb m (unsign m (qntCode ped q m x)), 0,
      xs.map (qntRounded ped q) != xs.map (qntCode ped q m)⟩ := by
  simp only [codeQnt, List.map_map, List.flatMap_map]
  rfl

/-- R111. In a block with SAT 0 the clamp changed no code. -/
theorem qntCode_of_not_sat (xs : List Nat) (ped q m x : Nat) (hx : x ∈ xs) (sat : (codeQnt xs ped q m).sat = false) :
    qntCode ped q m x = qntRounded ped q x := by
  rw [codeQnt_eq] at sat
  exact (List.map_inj_left.mp (bne_eq_false_iff_eq.mp sat) x hx).symm

theorem codeBlock_qnt (h : bitsOf word 0 3 = 3) :
    codeBlock word ped xs = codeQnt xs ped (bitsOf word 8 4) (bitsOf word 12 4 + 1) := by
  simp only [codeBlock, codecWord, h]

theorem decodeBlock_qnt (h : bitsOf word 0 3 = 3) (n mode param : Nat) (l : List Bool) :
    decodeBlock word ped n mode param l = (readFields n (bitsOf word 12 4 + 1) l).map fun v =>
      (ped : Int) + signed (bitsOf word 12 4 + 1) v * (2 ^ bitsOf word 8 4 : Nat) := by
  simp only [decodeBlock, codecWord, h]

theorem recovered_qnt (h : bitsOf word 0 3 = 3) :
    recovered word ped xs = xs.map fun x =>
      (ped : Int) + qntCode ped (bitsOf word 8 4) (bitsOf word 12 4 + 1) x * (2 ^ bitsOf word 8 4 : Nat) := by
  refine recovered_of_decodes _ ((codeBlock_qnt h).trans (codeQnt_eq _ _ _ _)) fun rest => ?_
  dsimp only
  rw [decodeBlock_qnt h, readFields_flatMap, List.map_map]
  refine List.map_congr_left fun x _ => ?_
  obtain ⟨low, high⟩ := qntCode_range ped (bitsOf word 8 4) (bitsOf word 12 4 + 1) x
  rw [Function.comp_apply, signed_unsign _ _ (Nat.succ_ne_zero _) low high]

/-- R111. A sample that the clamp did not change is within half a step of what its code recovers. -/
theorem qntRounded_within (ped q x : Nat) :
    2 * ((ped : Int) + qntRounded ped q x * (2 ^ q : Nat) - x) ≤ (2 ^ q : Nat) ∧
      2 * ((x : Int) - (ped + qntRounded ped q x * (2 ^ q : Nat))) ≤ (2 ^ q : Nat) := by
  obtain ⟨above, below⟩ := roundEven_within ((x : Int) - ped) q
  rw [qntRounded]
  omega

/-! ### LOG -/

/-- R112. The sample that the decoder gives for a code. -/
def logValue (v : Nat) : Nat := if v < 512 then v else (512 + v % 512) * 2 ^ (v / 512 - 1)

theorem logCode_of_small (x : Nat) (h : x < 512) : logCode x = x := if_pos h

/-- R112. The nine bits after the leading one of a sample of 512 or more. -/
theorem logFraction_range (x : Nat) (h : 512 ≤ x) :
    9 ≤ Nat.log2 x ∧ 512 ≤ x / 2 ^ (Nat.log2 x - 9) ∧ x / 2 ^ (Nat.log2 x - 9) < 1024 := by
  have nonzero : x ≠ 0 := by omega
  have exponent : 9 ≤ Nat.log2 x := (Nat.le_log2 nonzero).mpr h
  have least := Nat.log2_self_le nonzero
  have most := Nat.lt_log2_self (n := x)
  obtain ⟨d, hd⟩ := Nat.exists_eq_add_of_le exponent
  rw [hd, Nat.add_right_comm, Nat.pow_add] at most
  rw [hd, Nat.pow_add] at least
  rw [hd, Nat.add_sub_cancel_left]
  exact ⟨by omega, (Nat.le_div_iff_mul_le (Nat.two_pow_pos d)).mpr least,
    (Nat.div_lt_iff_lt_mul (Nat.two_pow_pos d)).mpr most⟩

theorem logCode_of_large (x : Nat) (h : 512 ≤ x) :
    logCode x = 512 * (Nat.log2 x - 8) + (x / 2 ^ (Nat.log2 x - 9) - 512) := if_neg (Nat.not_lt.mpr h)

/-- A sample is below 65,536, so its code fits a field of 12 bits. -/
theorem logCode_lt (x : Nat) (hx : x < 65536) : logCode x < 2 ^ 12 := by
  rcases Nat.lt_or_ge x 512 with small | large
  case inl => rw [logCode_of_small x small]; omega
  case inr =>
    obtain ⟨-, least, most⟩ := logFraction_range x large
    have exponent : Nat.log2 x < 16 := (Nat.log2_lt (by omega)).mpr hx
    rw [logCode_of_large x large]
    omega

theorem logValue_logCode_of_small (x : Nat) (h : x < 512) : logValue (logCode x) = x := by
  rw [logCode_of_small x h]
  exact if_pos h

/-- R112. The decoder gives the sample with its low bits dropped. -/
theorem logValue_logCode_of_large (x : Nat) (h : 512 ≤ x) :
    logValue (logCode x) = x / 2 ^ (Nat.log2 x - 9) * 2 ^ (Nat.log2 x - 9) := by
  obtain ⟨exponent, least, most⟩ := logFraction_range x h
  rw [logCode_of_large x h]
  generalize x / 2 ^ (Nat.log2 x - 9) = m at *
  have fraction : 512 + (512 * (Nat.log2 x - 8) + (m - 512)) % 512 = m := by omega
  have group : (512 * (Nat.log2 x - 8) + (m - 512)) / 512 - 1 = Nat.log2 x - 9 := by omega
  rw [logValue, if_neg (by omega), fraction, group]

theorem codeBlock_log (h : bitsOf word 0 3 = 4) : codeBlock word ped xs = codeLog xs := by
  simp only [codeBlock, codecWord, h]

theorem decodeBlock_log (h : bitsOf word 0 3 = 4) (n mode param : Nat) (l : List Bool) :
    decodeBlock word ped n mode param l = ((readFields n 12 l).map logValue).map Int.ofNat := by
  simp only [decodeBlock, codecWord, h]
  rfl

theorem recovered_log (h : bitsOf word 0 3 = 4) (hxs : ∀ x ∈ xs, x < 65536) :
    recovered word ped xs = xs.map fun x => (logValue (logCode x) : Int) := by
  refine recovered_of_decodes _ (codeBlock_log h) fun rest => ?_
  rw [decodeBlock_log h, codeLog, readFields_flatMap, List.map_map, List.map_map]
  refine List.map_congr_left fun x hx => ?_
  simp only [Function.comp_apply, Nat.mod_eq_of_lt (logCode_lt x (hxs x hx))]
  rfl

/-- R112. What LOG takes from a sample of 512 or more is its low e - 9 bits. -/
theorem logValue_within (x : Nat) (h : 512 ≤ x) :
    logValue (logCode x) ≤ x ∧ x ≤ logValue (logCode x) + (2 ^ (Nat.log2 x - 9) - 1) := by
  have split := Nat.div_add_mod' x (2 ^ (Nat.log2 x - 9))
  have lost := Nat.mod_lt x (Nat.two_pow_pos (Nat.log2 x - 9))
  rw [logValue_logCode_of_large x h]
  omega

end Sys2Proof.Codecs
end

section
/-!
O12 and O13: the losses of Table 4.5.
-/
namespace Sys2Proof.Codecs

open Sys2Proof Sys2Proof.Machine

/-- R100. A valid CODEC word names one of the five codecs of Table 4.1. -/
theorem codec_of_valid {word : Nat} (valid : codecValid word = true) :
    bitsOf word 0 3 ≤ 1 ∨ bitsOf word 0 3 = 2 ∨ bitsOf word 0 3 = 3 ∨ bitsOf word 0 3 = 4 := by
  simp only [codecValid, Bool.and_eq_true] at valid
  obtain ⟨-, unused⟩ := valid
  split at unused
  case h_6 => exact absurd unused Bool.false_ne_true
  all_goals omega

/-- Settles O12 (R104, R106, R107, R108), by the decoder's run over each codec's bit string. -/
theorem rawAndPackLoseNothing : Obligations.RawAndPackLoseNothing := by
  unfold Obligations.RawAndPackLoseNothing
  rintro word ped xs _ nonempty - hxs named rfl
  exact ⟨recovered_lossless named nonempty hxs, wordsFor_codeBlock_lossless named⟩

/-- Settles O13 (R110, R111, R112, R114), by what each codec of Table 4.5 recovers for a sample. -/
theorem lossyCodecsLoseWhatTheirTableStates : Obligations.LossyCodecsLoseWhatTheirTableStates := by
  unfold Obligations.LossyCodecsLoseWhatTheirTableStates
  rintro word ped xs _ i x nonempty few hxs - valid rfl hx
  rcases codec_of_valid valid with lossless | supp | qnt | log
  case inl =>
    exact ⟨x, recovered_getElem? (recovered_lossless lossless nonempty hxs) hx, fun h => absurd h (by omega),
      fun h => absurd h (by omega), fun h => absurd h (by omega)⟩
  case inr.inl =>
    obtain ⟨y, decoded, recovers⟩ := recovered_supp (ped := ped) supp few hxs i x hx
    refine ⟨y, decoded, fun _ => recovers.imp id fun ⟨pedestal, dropped⟩ => ⟨pedestal, dropped, ?_⟩,
      fun h => absurd h (by omega), fun h => absurd h (by omega)⟩
    exact absDiff_lt_of_not_kept hx dropped
  case inr.inr.inl =>
    refine ⟨_, recovered_getElem? (recovered_qnt qnt) hx, fun h => absurd h (by omega), fun _ sat => ?_,
      fun h => absurd h (by omega)⟩
    rw [codeBlock_qnt qnt] at sat
    rw [qntCode_of_not_sat xs ped _ _ x (List.mem_of_getElem? hx) sat]
    exact qntRounded_within ped _ x
  case inr.inr.inr =>
    refine ⟨_, recovered_getElem? (recovered_log log hxs) hx, fun h => absurd h (by omega),
      fun h => absurd h (by omega), fun _ => ⟨fun small => ?_, fun large => ?_⟩⟩
    · rw [logValue_logCode_of_small x small]
    · obtain ⟨below, near⟩ := logValue_within x large
      have step := Nat.two_pow_pos (Nat.log2 x - 9)
      omega

end Sys2Proof.Codecs
end

section
/-!
SUPPORT, for O14, O15 and O16. What the work of a dome (R117, R126..R133, R390) leaves of its memory and of the queues of
its pseudo-channels.
-/
namespace Sys2Proof.Domes

open Sys2Proof Sys2Proof.Machine

/-! ### Folds and tables -/

/-- What every step of a fold keeps, the fold keeps. -/
theorem foldS_keeps {σ α : Type} {f : α → σ → σ} {P : σ → Prop} (keeps : ∀ a s, P s → P (f a s)) (l : List α) :
    ∀ {s}, P s → P (foldS f l s) := by
  induction l with
  | nil => exact fun h => h
  | cons a as ih => exact fun h => ih (keeps a _ h)

/-- What the step of one element establishes, and every step keeps, holds after the fold. -/
theorem foldS_establishes {σ α : Type} {f : α → σ → σ} {P : σ → Prop} {a : α} (establishes : ∀ s, P (f a s))
    (keeps : ∀ b s, P s → P (f b s)) {l : List α} (h : a ∈ l) (s : σ) : P (foldS f l s) := by
  induction l generalizing s with
  | nil => cases h
  | cons b l ih =>
    rcases List.mem_cons.1 h with rfl | h
    · exact foldS_keeps keeps l (establishes s)
    · exact ih h (f b s)

section
variable {κ α : Type} [DecidableEq κ]

theorem mem_of_tfind {t : Table κ α} {k : κ} {v : α} (h : tfind t k = some v) : (k, v) ∈ t := by
  induction t with
  | nil => cases h
  | cons e t ih =>
    rw [tfind] at h
    split at h
    next hk =>
      obtain rfl := hk
      obtain rfl := Option.some.inj h
      exact List.mem_cons_self
    next => exact List.mem_cons_of_mem _ (ih h)

theorem mem_of_mem_tdel {t : Table κ α} {k : κ} {e : κ × α} (h : e ∈ tdel t k) : e ∈ t := by
  induction t with
  | nil => cases h
  | cons d t ih =>
    rw [tdel] at h
    split at h
    · exact List.mem_cons_of_mem _ (ih h)
    · rcases List.mem_cons.1 h with rfl | h
      · exact List.mem_cons_self
      · exact List.mem_cons_of_mem _ (ih h)

end

/-! ### Memory and queues kept -/

/-- No request in progress holds metadata that its answer would bring into the cache (R390). -/
def NoMetas (s : State) : Prop := ∀ e ∈ s.domeTxns, e.2.metas = []

/-- `t` holds memory and the queues of the domes as `s` does, and no metadata in a request where `s` holds none. -/
structure QueuesKept (s t : State) : Prop where
  mem : t.mem = s.mem
  undef : t.undef = s.undef
  rq : t.domeRq = s.domeRq
  wq : t.domeWq = s.domeWq
  metas : NoMetas s → NoMetas t

namespace QueuesKept

variable {s t u : State}

theorem refl (s : State) : QueuesKept s s := ⟨rfl, rfl, rfl, rfl, id⟩

theorem trans (h : QueuesKept s t) (h' : QueuesKept t u) : QueuesKept s u :=
  ⟨h'.mem.trans h.mem, h'.undef.trans h.undef, h'.rq.trans h.rq, h'.wq.trans h.wq, h'.metas ∘ h.metas⟩

theorem rqOf (h : QueuesKept s t) (p c : Nat) : t.rqOf p c = s.rqOf p c := by rw [State.rqOf, State.rqOf, h.rq]

theorem wqOf (h : QueuesKept s t) (p c : Nat) : t.wqOf p c = s.wqOf p c := by rw [State.wqOf, State.wqOf, h.wq]

theorem ldByte (h : QueuesKept s t) (a : Nat) : t.ldByte a = s.ldByte a := by
  rw [State.ldByte, State.ldByte, h.mem, h.undef]

theorem domeByte (h : QueuesKept s t) (p a : Nat) : t.domeByte p a = s.domeByte p a := by
  simp only [State.domeByte, h.wqOf, h.ldByte]

theorem ite (c : Prop) [Decidable c] (ht : QueuesKept s t) (hu : QueuesKept s u) : QueuesKept s (if c then t else u) := by
  split
  · exact ht
  · exact hu

theorem foldS {α : Type} {f : α → State → State} (hf : ∀ a t, QueuesKept s t → QueuesKept s (f a t)) (l : List α)
    (h : QueuesKept s t) : QueuesKept s (Machine.foldS f l t) := foldS_keeps hf l h

/-! #### The named updates -/

theorem setH (h : QueuesKept s t) (k : Hid) (v w i j : Nat) : QueuesKept s (t.setH k v w i j) :=
  ⟨h.mem, h.undef, h.rq, h.wq, h.metas⟩

theorem setFld (h : QueuesKept s t) (f : Fld) (v w i j : Nat) : QueuesKept s (t.setFld f v w i j) :=
  ⟨h.mem, h.undef, h.rq, h.wq, h.metas⟩

theorem stBytes (h : QueuesKept s t) (a : Nat) (vs : List Byte) : QueuesKept (s.stBytes a vs) (t.stBytes a vs) where
  mem := congrArg (memSetList · a vs) h.mem
  undef := congrArg (undefCut · a vs.length) h.undef
  rq := h.rq
  wq := h.wq
  metas := h.metas

/-! #### Transactions -/

theorem txnDone (h : QueuesKept s t) (n : Nat) : QueuesKept s (t.txnDone n) :=
  ⟨h.mem, h.undef, h.rq, h.wq, fun hs e he => h.metas hs e (mem_of_mem_tdel he)⟩

theorem txnPart (h : QueuesKept s t) (n part : Nat) (hold poison : Bool) (bytes : List Byte) :
    QueuesKept s (t.txnPart n part hold poison bytes) := by
  unfold State.txnPart
  split
  next => exact h
  next x found =>
    refine ⟨h.mem, h.undef, h.rq, h.wq, fun hs e he => ?_⟩
    rcases List.mem_cons.1 he with rfl | he
    · exact h.metas hs (n, x) (mem_of_tfind found)
    · exact h.metas hs e (mem_of_mem_tdel he)

theorem holdQueue (h : QueuesKept s t) (l : List DomeReq) : QueuesKept s (t.holdQueue l) :=
  foldS (fun _ _ h => h.txnPart _ _ _ _ _) l h

theorem prmAnswer (h : QueuesKept s t) (n port : Nat) (req : List Word) (status result : Nat) (poison : Bool)
    (payload : List Word) : QueuesKept s (t.prmAnswer n port req status result poison payload) := by
  unfold State.prmAnswer
  extract_lets counted
  have counted_kept : QueuesKept s counted := ite _ h (ite _ (h.setFld _ _ _ _ _) h)
  exact ite _ ⟨counted_kept.mem, counted_kept.undef, counted_kept.rq, counted_kept.wq, counted_kept.metas⟩ counted_kept

/-! #### Rows, refresh and the cap -/

theorem batchEnter (h : QueuesKept s t) (p c : Nat) : QueuesKept s (t.batchEnter p c) := ite _ (h.setH _ _ _ _ _) h

theorem rowTouch (h : QueuesKept s t) (p c bank row : Nat) (close : Bool) :
    QueuesKept s (t.rowTouch p c bank row close) := by
  unfold State.rowTouch
  extract_lets refreshed n cleared touched
  have refreshed_kept : QueuesKept s refreshed := ⟨h.mem, h.undef, h.rq, h.wq, h.metas⟩
  have cleared_kept : QueuesKept s cleared := refreshed_kept.setH _ _ _ _ _
  have due_kept (due : Table (Nat × Nat) (List (Nat × Nat))) : QueuesKept s { cleared with domeNrf := due } :=
    ⟨cleared_kept.mem, cleared_kept.undef, cleared_kept.rq, cleared_kept.wq, cleared_kept.metas⟩
  exact (ite _ h (ite _ ((due_kept _).setFld _ _ _ _ _) (refreshed_kept.setH _ _ _ _ _))).setH _ _ _ _ _

theorem capCount (h : QueuesKept s t) (p c : Nat) : QueuesKept s (t.capCount p c) :=
  ite _ (h.setH _ _ _ _ _) ((h.setH _ _ _ _ _).setH _ _ _ _ _)

theorem refreshOnce (h : QueuesKept s t) (p c : Nat) : QueuesKept s (t.refreshOnce p c) :=
  ite _ (h.setH _ _ _ _ _) ⟨h.mem, h.undef, h.rq, h.wq, h.metas⟩

/-! #### Self-refresh -/

theorem cacheClean (h : QueuesKept s t) (p : Nat) : QueuesKept s (t.cacheClean p) :=
  ite _ h ⟨h.mem, h.undef, h.rq, h.wq, h.metas⟩

theorem srUpdate (h : QueuesKept s t) (p : Nat) : QueuesKept s (t.srUpdate p) := by
  unfold State.srUpdate
  extract_lets sr noted
  have noted_kept : QueuesKept s noted := ite _ (h.setH _ _ _ _ _) h
  exact (ite _ (ite _ (noted_kept.setH _ _ _ _ _) (ite _ (noted_kept.setH _ _ _ _ _) noted_kept))
    (ite _ (noted_kept.setH _ _ _ _ _) noted_kept)).setFld _ _ _ _ _

end QueuesKept

/-! ### Queues replaced -/

section
variable (s : State) (p c : Nat) (l : List DomeReq)

@[simp] theorem rqOf_setRq_same : (s.setRq p c l).rqOf p c = l := tget_tput_same _ _ _ _
@[simp] theorem wqOf_setWq_same : (s.setWq p c l).wqOf p c = l := tget_tput_same _ _ _ _
@[simp] theorem wqOf_setRq (p' c' : Nat) : (s.setRq p c l).wqOf p' c' = s.wqOf p' c' := rfl
@[simp] theorem rqOf_setWq (p' c' : Nat) : (s.setWq p c l).rqOf p' c' = s.rqOf p' c' := rfl

theorem rqOf_setRq_ne {p' c' : Nat} (h : (p, c) ≠ (p', c')) : (s.setRq p c l).rqOf p' c' = s.rqOf p' c' :=
  tget_tput_ne _ _ _ _ _ h

theorem wqOf_setWq_ne {p' c' : Nat} (h : (p, c) ≠ (p', c')) : (s.setWq p c l).wqOf p' c' = s.wqOf p' c' :=
  tget_tput_ne _ _ _ _ _ h

end

/-- R117, R126. A write joins the end of its pseudo-channel's queue, and memory is as it was. -/
theorem domeEnq_kept (s : State) (p : Nat) {r : DomeReq} (write : r.write = true) :
    QueuesKept (s.setWq p (linePc r.line) (s.wqOf p (linePc r.line) ++ [r])) (s.domeEnq p r) := by
  unfold State.domeEnq
  extract_lets c cleared
  rw [if_pos write]
  refine .batchEnter ?_ _ _
  unfold cleared
  split
  · exact .refl _
  · exact ⟨rfl, rfl, rfl, rfl, id⟩

/-! ### Metadata queued (R390) -/

/-- `t` holds memory and the read queues as `s` does, and its write queues have gained writes without bytes alone. -/
structure MetadataQueued (s t : State) : Prop where
  mem : t.mem = s.mem
  undef : t.undef = s.undef
  rq : t.domeRq = s.domeRq
  wq : ∀ p c, ∃ l, t.wqOf p c = s.wqOf p c ++ l ∧ ∀ r ∈ l, r.bytes = []

namespace MetadataQueued

variable {s t u : State}

theorem of_queuesKept (h : QueuesKept s t) : MetadataQueued s t :=
  ⟨h.mem, h.undef, h.rq, fun p c => ⟨[], by simp [h.wqOf]⟩⟩

theorem trans (h : MetadataQueued s t) (h' : MetadataQueued t u) : MetadataQueued s u where
  mem := h'.mem.trans h.mem
  undef := h'.undef.trans h.undef
  rq := h'.rq.trans h.rq
  wq p c := by
    obtain ⟨l, hl, empty⟩ := h.wq p c
    obtain ⟨l', hl', empty'⟩ := h'.wq p c
    exact ⟨l ++ l', by rw [hl', hl, List.append_assoc], fun r hr => (List.mem_append.1 hr).elim (empty r) (empty' r)⟩

theorem foldS {α : Type} {f : α → State → State} (hf : ∀ a t, MetadataQueued t (f a t)) (l : List α) (s : State) :
    MetadataQueued s (Machine.foldS f l s) :=
  foldS_keeps (fun a t h => h.trans (hf a t)) l (of_queuesKept (.refl s))

theorem domeEnq (s : State) (p : Nat) {r : DomeReq} (write : r.write = true) (empty : r.bytes = []) :
    MetadataQueued s (s.domeEnq p r) := by
  have kept := domeEnq_kept s p write
  refine ⟨kept.mem, kept.undef, kept.rq, fun p' c' => ?_⟩
  rw [kept.wqOf]
  by_cases same : (p, linePc r.line) = (p', c')
  · obtain ⟨rfl, rfl⟩ := Prod.mk.inj same
    exact ⟨[r], wqOf_setWq_same .., by simpa using empty⟩
  · exact ⟨[], by rw [wqOf_setWq_ne _ _ _ _ same, List.append_nil], by simp⟩

theorem metaBack (s : State) (p : Nat) (x : MetaLine) : MetadataQueued s (s.metaBack p x) := by
  unfold State.metaBack
  split
  · exact domeEnq s p rfl rfl
  · exact of_queuesKept (.refl s)

theorem cacheUse (s : State) (p k l : Nat) (dirty : Bool) : MetadataQueued s (s.cacheUse p k l dirty) := by
  have cached (c : Table Nat (List MetaLine)) : MetadataQueued s { s with keyCache := c } :=
    of_queuesKept ⟨rfl, rfl, rfl, rfl, id⟩
  unfold State.cacheUse
  extract_lets c same c'
  clear_value c'
  split
  · split
    · exact (cached _).trans (metaBack _ _ _)
    · exact cached _
  · exact of_queuesKept (.refl s)

theorem cacheUses (s : State) (p k : Nat) (ls : List (Nat × Bool)) : MetadataQueued s (s.cacheUses p k ls) :=
  foldS (fun _ t => cacheUse t _ _ _ _) ls s

end MetadataQueued

/-! ### Answers (R117, R390) -/

/-- What answering a request can do: besides the answer itself, its metadata may enter the cache. -/
theorem txnAnswer_cases (s : State) (n : Nat) :
    QueuesKept s (s.txnAnswer n) ∨
      ∃ x k, s.txn n = some x ∧ QueuesKept ((s.txnDone n).cacheUses x.pav k x.metas) (s.txnAnswer n) := by
  unfold State.txnAnswer
  split
  next => exact .inl (.refl s)
  next x found =>
    split
    next => exact .inl (.refl s)
    next =>
      have done : QueuesKept s (s.txnDone n) := (QueuesKept.refl s).txnDone n
      split
      next => exact .inl (.refl s)
      next =>
        extract_lets forgotten answered
        split
        next => exact .inl (done.prmAnswer _ _ _ _ _ _ _)
        next =>
          cases key : x.key with
          | none =>
            simp only [answered, key]
            exact .inl (done.prmAnswer _ _ _ _ _ _ _)
          | some k =>
            simp only [answered, key]
            cases x.poison with
            | true => exact .inl (done.prmAnswer _ _ _ _ _ _ _)
            | false => exact .inr ⟨x, k, found, (QueuesKept.refl _).prmAnswer _ _ _ _ _ _ _⟩

theorem txnAnswer_metadataQueued (s : State) (n : Nat) : MetadataQueued s (s.txnAnswer n) := by
  rcases txnAnswer_cases s n with kept | ⟨x, k, -, kept⟩
  · exact .of_queuesKept kept
  · exact (MetadataQueued.of_queuesKept ((QueuesKept.refl s).txnDone n)).trans
      ((MetadataQueued.cacheUses _ _ _ _).trans (.of_queuesKept kept))

theorem txnAnswer_queuesKept {s t : State} (h : QueuesKept s t) (bare : NoMetas s) (n : Nat) :
    QueuesKept s (t.txnAnswer n) := by
  rcases txnAnswer_cases t n with kept | ⟨x, k, found, kept⟩
  · exact h.trans kept
  · have empty : x.metas = [] := h.metas bare _ (mem_of_tfind found)
    rw [empty] at kept
    exact (h.txnDone n).trans kept

theorem txnsAnswer_metadataQueued (s : State) (p : Nat) : MetadataQueued s (s.txnsAnswer p) := by
  refine .foldS (fun e t => ?_) _ s
  split
  · exact txnAnswer_metadataQueued t e.1
  · exact .of_queuesKept (.refl t)

/-- While no request holds metadata, answers leave every queue. -/
theorem txnsAnswer_queuesKept {s : State} (bare : NoMetas s) (p : Nat) : QueuesKept s (s.txnsAnswer p) :=
  .foldS (fun e _ h => .ite _ (txnAnswer_queuesKept h bare e.1) h) _ (.refl s)

end Sys2Proof.Domes
end

section
/-!
SUPPORT, for O14 and O15. The queued writes of a pseudo-channel over its memory (R117): the byte that a read takes once a
write is queued, and once one reaches the DRAM.
-/
namespace Sys2Proof.Domes

open Sys2Proof Sys2Proof.Machine

/-! ### Memory not defined, and bytes written -/

/-- Every run that a write leaves undefined lies outside the bytes written. -/
theorem outside_of_mem_undefCut {l : List UndefRange} {a n : Nat} {q : UndefRange} (hn : n ≠ 0)
    (hq : q ∈ undefCut l a n) : q.base + q.len ≤ a ∨ a + n ≤ q.base := by
  rw [undefCut, if_neg hn] at hq
  obtain ⟨r, -, hq⟩ := List.mem_flatMap.1 hq
  split at hq
  next apart => exact List.mem_singleton.1 hq ▸ apart
  next =>
    rcases List.mem_append.1 hq with before | after
    · rw [List.mem_ite_nil_right, List.mem_singleton] at before
      obtain ⟨low, rfl⟩ := before
      exact .inl (by simp only; omega)
    · rw [List.mem_ite_nil_right, List.mem_singleton] at after
      obtain ⟨-, rfl⟩ := after
      exact .inr (Nat.le_refl _)

/-- Bytes that have been written are no longer undefined. -/
theorem undefAt_undefCut_in {l : List UndefRange} {a n x : Nat} (low : a ≤ x) (high : x < a + n) :
    undefAt (undefCut l a n) x = none := by
  rw [undefAt, List.find?_eq_none]
  intro q hq
  have outside := outside_of_mem_undefCut (by omega) hq
  simp only [Bool.and_eq_true, decide_eq_true_eq]
  omega

theorem undefAt_undefCut_single (r : UndefRange) {a n x : Nat} (out : x < a ∨ a + n ≤ x) :
    (undefAt (undefCut [r] a n) x).map UndefRange.seed = (undefAt [r] x).map UndefRange.seed := by
  simp only [undefAt, undefCut, List.flatMap_cons, List.flatMap_nil, List.append_nil]
  grind

/-- A write leaves the free value of every other undefined byte. -/
theorem undefAt_undefCut_out (l : List UndefRange) {a n x : Nat} (out : x < a ∨ a + n ≤ x) :
    (undefAt (undefCut l a n) x).map UndefRange.seed = (undefAt l x).map UndefRange.seed := by
  have cons (l l' : List UndefRange) : undefAt (l ++ l') x = (undefAt l x).or (undefAt l' x) := List.find?_append
  induction l with
  | nil => simp [undefCut]
  | cons r l ih =>
    have cut : undefCut (r :: l) a n = undefCut [r] a n ++ undefCut l a n := by
      by_cases hn : n = 0 <;> simp [undefCut, hn]
    rw [cut, cons, Option.map_or, undefAt_undefCut_single r out, ih, ← Option.map_or, ← cons]
    rfl

theorem ldByte_eq (s : State) (x : Nat) :
    s.ldByte x = match (undefAt s.undef x).map UndefRange.seed with
      | none => memGet s.mem x
      | some seed => freeByte seed x := by
  unfold State.ldByte
  cases undefAt s.undef x <;> rfl

theorem ldByte_stBytes_in {s : State} (canonical : s.Canonical) {a x : Nat} {vs : List Byte} (low : a ≤ x)
    (high : x < a + vs.length) : (s.stBytes a vs).ldByte x = vs.getD (x - a) 0 := by
  rw [State.ldByte, State.stBytes, undefAt_undefCut_in low high]
  have stored := memGet_memSetList_in vs s.mem a (x - a) (by omega) canonical
  rwa [show a + (x - a) = x by omega] at stored

theorem ldByte_stBytes_out (s : State) {a x : Nat} {vs : List Byte} (out : x < a ∨ a + vs.length ≤ x) :
    (s.stBytes a vs).ldByte x = s.ldByte x := by
  rw [ldByte_eq, ldByte_eq, State.stBytes, undefAt_undefCut_out _ out, memGet_memSetList_out _ _ _ _ out]

/-! ### The writes over a byte -/

section
variable {line off : Nat} {b : Byte}

theorem overlayByte_append (rs rs' : List DomeReq) :
    overlayByte line off (rs ++ rs') b = overlayByte line off rs' (overlayByte line off rs b) := by
  induction rs generalizing b with
  | nil => rfl
  | cons r rs ih => exact ih

theorem overlayByte_single_in {r : DomeReq} (h : r.line = line ∧ r.off ≤ off ∧ off < r.off + r.bytes.length) :
    overlayByte line off [r] b = r.bytes.getD (off - r.off) 0 := if_pos h

theorem overlayByte_single_out {r : DomeReq} (h : ¬ (r.line = line ∧ r.off ≤ off ∧ off < r.off + r.bytes.length)) :
    overlayByte line off [r] b = b := if_neg h

theorem overlayByte_of_empty {rs : List DomeReq} (empty : ∀ r ∈ rs, r.bytes = []) : overlayByte line off rs b = b := by
  induction rs generalizing b with
  | nil => rfl
  | cons r rs ih =>
    have nothing : overlayByte line off [r] b = b := overlayByte_single_out (by simp [empty r List.mem_cons_self])
    calc overlayByte line off (r :: rs) b
        = overlayByte line off rs (overlayByte line off [r] b) := rfl
      _ = b := by rw [nothing, ih fun q hq => empty q (List.mem_cons_of_mem _ hq)]

/-- Writes to different lines may change places. -/
theorem overlayByte_comm {q r : DomeReq} (ne : q.line ≠ r.line) :
    overlayByte line off [q] (overlayByte line off [r] b) = overlayByte line off [r] (overlayByte line off [q] b) := by
  by_cases hq : q.line = line
  · have away : r.line ≠ line := fun hr => ne (hq.trans hr.symm)
    rw [overlayByte_single_out fun h => away h.1, overlayByte_single_out fun h => away h.1]
  · rw [overlayByte_single_out fun h => hq h.1, overlayByte_single_out fun h => hq h.1]

/-- R126. The oldest write to its line may reach the DRAM before the other writes of its queue. -/
theorem overlayByte_erase {rs : List DomeReq} {r : DomeReq} (oldest : rs.find? (fun q => q.line == r.line) = some r) :
    overlayByte line off (rs.erase r) (overlayByte line off [r] b) = overlayByte line off rs b := by
  induction rs generalizing b with
  | nil => cases oldest
  | cons q rs ih =>
    by_cases same : q.line = r.line
    · obtain rfl : q = r := by simpa [same] using oldest
      rw [List.erase_cons_head]
      rfl
    · have ne : q ≠ r := fun e => same (congrArg DomeReq.line e)
      rw [List.erase_cons_tail (by simpa using ne)]
      calc overlayByte line off (q :: rs.erase r) (overlayByte line off [r] b)
          = overlayByte line off (rs.erase r) (overlayByte line off [q] (overlayByte line off [r] b)) := rfl
        _ = overlayByte line off (rs.erase r) (overlayByte line off [r] (overlayByte line off [q] b)) := by
            rw [overlayByte_comm same]
        _ = overlayByte line off rs (overlayByte line off [q] b) := ih (by simpa [same] using oldest)
        _ = overlayByte line off (q :: rs) b := rfl

end

/-! ### The byte a read takes -/

theorem domeByte_of_lt (s : State) (p : Nat) {a : Nat} (ha : a < 2 ^ 31) :
    s.domeByte p a = overlayByte (a / 64) (a % 64) (s.wqOf p (linePc (a / 64))) (s.ldByte (domeBase p + a)) := by
  rw [State.domeByte, Nat.mod_eq_of_lt ha]

/-- R117. A queued write lies over what the byte read before. -/
theorem domeByte_domeEnq (s : State) (p : Nat) {a : Nat} {r : DomeReq} (ha : a < 2 ^ 31) (write : r.write = true) :
    (s.domeEnq p r).domeByte p a = overlayByte (a / 64) (a % 64) [r] (s.domeByte p a) := by
  rw [(domeEnq_kept s p write).domeByte, domeByte_of_lt _ _ ha, domeByte_of_lt _ _ ha]
  by_cases same : linePc r.line = linePc (a / 64)
  · rw [same, wqOf_setWq_same, overlayByte_append]
    rfl
  · have away : r.line ≠ a / 64 := fun e => same (congrArg linePc e)
    rw [wqOf_setWq_ne _ _ _ _ (fun e => same (Prod.mk.inj e).2), overlayByte_single_out fun h => away h.1]
    rfl

theorem MetadataQueued.domeByte {s t : State} (h : MetadataQueued s t) (p : Nat) {a : Nat} (ha : a < 2 ^ 31) :
    t.domeByte p a = s.domeByte p a := by
  obtain ⟨l, hl, empty⟩ := h.wq p (linePc (a / 64))
  have memory : t.ldByte (domeBase p + a) = s.ldByte (domeBase p + a) := by
    rw [State.ldByte, State.ldByte, h.mem, h.undef]
  rw [domeByte_of_lt _ _ ha, domeByte_of_lt _ _ ha, hl, overlayByte_append, overlayByte_of_empty empty, memory]

end Sys2Proof.Domes
end

section
/-!
SUPPORT, for O15. What a scheduler's turn can do (R126), and that no turn changes a byte of the dome while memory is in its
canonical form.
-/
namespace Sys2Proof.Domes

open Sys2Proof Sys2Proof.Machine

variable {s : State} {p c : Nat}

/-! ### The turns -/

theorem issueRead_kept (r : DomeReq) : QueuesKept (s.setRq p c ((s.rqOf p c).erase r)) (s.issueRead p c r) := by
  unfold State.issueRead
  extract_lets issued moved
  have issued_kept : QueuesKept (s.setRq p c ((s.rqOf p c).erase r)) issued := ⟨rfl, rfl, rfl, rfl, id⟩
  have moved_kept := (issued_kept.rowTouch p c (lineBank r.line) (lineRow r.line) (issued.closes p r)).capCount p c
  exact .ite _ moved_kept (moved_kept.setH _ _ _ _ _)

/-- R126. A write leaves its queue, and its bytes are in memory. -/
theorem issueWrite_kept (r : DomeReq) :
    QueuesKept ((s.setWq p c ((s.wqOf p c).erase r)).stBytes (domeBase p + (64 * r.line + r.off)) r.bytes)
      (s.issueWrite p c r) := by
  unfold State.issueWrite State.domeStore
  extract_lets taken n marked stored moved
  have marked_kept : QueuesKept taken marked :=
    .foldS (fun _ _ h => .ite _ (h.setH _ _ _ _ _) (.ite _ (h.setH _ _ _ _ _) h)) _ (.refl _)
  have stored_kept := (marked_kept.stBytes (domeBase p + (64 * r.line + r.off)) r.bytes).txnPart r.txn r.part false false []
  have moved_kept := (stored_kept.rowTouch p c (lineBank r.line) (lineRow r.line) (stored.closes p r)).capCount p c
  exact .ite _ (moved_kept.setH _ _ _ _ _) moved_kept

/-- The oldest write to the line of a write that waits. -/
theorem find?_oldest {rs : List DomeReq} {r : DomeReq} (waits : r ∈ rs) :
    rs.find? (fun q => q.line == ((rs.find? fun q => q.line == r.line).getD r).line) =
      some ((rs.find? fun q => q.line == r.line).getD r) := by
  cases oldest : rs.find? fun q => q.line == r.line with
  | none => exact absurd (List.find?_eq_none.1 oldest r waits) (by simp)
  | some q =>
    have line : q.line = r.line := by simpa using List.find?_some oldest
    rw [Option.getD_some, line, oldest]

/-- R126, R129, R130. What a turn can do: a refresh or nothing, the issue of a read, or the issue of the oldest write to its
line. -/
theorem schedIssue_cases (reads : ∀ r ∈ s.rqOf p c, r.write = false) :
    QueuesKept s (s.schedIssue p c) ∨ (∃ r, s.schedIssue p c = s.issueRead p c r) ∨
      ∃ r, (s.wqOf p c).find? (fun q => q.line == r.line) = some r ∧ s.schedIssue p c = s.issueWrite p c r := by
  have refreshed (k : Hid) (v : Nat) : QueuesKept s ((s.setH k v p c).refreshOnce p c) :=
    ((QueuesKept.refl s).setH _ _ _ _ _).refreshOnce p c
  have head {r : DomeReq} {rs : List DomeReq} (queue : s.wqOf p c = r :: rs) :
      (s.wqOf p c).find? (fun q => q.line == r.line) = some r := by simp [queue]
  unfold State.schedIssue
  extract_lets nrf limit rt
  split
  next => exact .inl (.refl s)
  split
  next => exact .inl (refreshed _ _)
  split
  next => exact .inl ⟨rfl, rfl, rfl, rfl, id⟩
  split
  next =>
    cases found : rt with
    | none => exact .inl (.refl s)
    | some r =>
      simp only
      split
      next write =>
        have waits : r ∈ s.wqOf p c :=
          (List.mem_append.1 (List.mem_of_find?_eq_some found)).elim
            (fun read => absurd write (by simp [reads r (List.mem_of_mem_take read)])) List.mem_of_mem_take
        exact .inr (.inr ⟨_, find?_oldest waits, rfl⟩)
      next => exact .inr (.inl ⟨r, rfl⟩)
  split
  next =>
    split
    next r rs queue => exact .inr (.inr ⟨r, head queue, rfl⟩)
    next => exact .inl (.refl s)
  split
  next => exact .inl (.refl s)
  split
  next r _ => exact .inr (.inl ⟨r, rfl⟩)
  next =>
    split
    next r rs queue => exact .inr (.inr ⟨r, head queue, rfl⟩)
    next => exact .inl (.ite _ (refreshed _ _) (.refl s))

/-! ### The bytes -/

/-- R117. The issue of the oldest write to its line changes no byte that a read takes. -/
theorem domeByte_issueWrite (canonical : s.Canonical) {r : DomeReq}
    (oldest : (s.wqOf p c).find? (fun q => q.line == r.line) = some r) (own : linePc r.line = c)
    (fits : r.off + r.bytes.length ≤ 64) {a : Nat} (ha : a < 2 ^ 31) :
    (s.issueWrite p c r).domeByte p a = s.domeByte p a := by
  have memory : ((s.setWq p c ((s.wqOf p c).erase r)).stBytes (domeBase p + (64 * r.line + r.off)) r.bytes).ldByte
      (domeBase p + a) = overlayByte (a / 64) (a % 64) [r] (s.ldByte (domeBase p + a)) := by
    by_cases carried : r.line = a / 64 ∧ r.off ≤ a % 64 ∧ a % 64 < r.off + r.bytes.length
    · rw [overlayByte_single_in carried, ldByte_stBytes_in (s := s.setWq p c _) canonical (by omega) (by omega)]
      congr 1
      omega
    · rw [overlayByte_single_out carried, ldByte_stBytes_out _ (by omega)]
      rfl
  rw [(issueWrite_kept r).domeByte, domeByte_of_lt _ _ ha, domeByte_of_lt _ _ ha, memory]
  by_cases same : linePc (a / 64) = c
  · rw [same]
    exact (congrArg (overlayByte _ _ · _) (wqOf_setWq_same ..)).trans (overlayByte_erase oldest)
  · have away : r.line ≠ a / 64 := fun e => same (e ▸ own)
    rw [overlayByte_single_out fun h => away h.1]
    exact congrArg (overlayByte _ _ · _) (wqOf_setWq_ne _ _ _ _ fun e => same (Prod.mk.inj e).2.symm)

/-- R117, R126. From a memory in canonical form, no turn of a scheduler changes a byte that a read of its dome takes. -/
theorem domeByte_schedIssue (canonical : s.Canonical)
    (writes : ∀ r ∈ s.wqOf p c, r.write = true ∧ linePc r.line = c ∧ r.line < 2 ^ 25 ∧ r.off + r.bytes.length ≤ 64)
    (reads : ∀ r ∈ s.rqOf p c, r.write = false) {a : Nat} (ha : a < 2 ^ 31) :
    ((s.schedIssue p c).txnsAnswer p).domeByte p a = s.domeByte p a := by
  rw [(txnsAnswer_metadataQueued _ p).domeByte p ha]
  rcases schedIssue_cases reads with kept | ⟨r, read⟩ | ⟨r, oldest, issued⟩
  · exact kept.domeByte p a
  · rw [read, (issueRead_kept r).domeByte]
    rfl
  · obtain ⟨-, own, -, fits⟩ := writes r (List.mem_of_find?_eq_some oldest)
    rw [issued, domeByte_issueWrite canonical oldest own fits ha]

/-! ### Memory out of its canonical form -/

/-- A dome that runs, with a write of one zero queued to its first byte, over a memory as listed. -/
def zeroQueued (m : List Host.Cell) : State :=
  { (State.reset.setH .domeReady 1).setWq 0 0 [⟨2, 0, true, 0, 1, [0], false, 0, 0, 0, false, [], none⟩] with mem := m }

/-- Listed in order, the first two bytes of the dome, both 1, let the zero be written, and no read sees it happen. -/
theorem domeByte_schedIssue_ordered {a : Nat} (ha : a < 2 ^ 31) :
    (((zeroQueued [(0, 1), (1, 1)]).schedIssue 0 0).txnsAnswer 0).domeByte 0 a =
      (zeroQueued [(0, 1), (1, 1)]).domeByte 0 a := by
  have canonical : (zeroQueued [(0, 1), (1, 1)]).Canonical := rfl
  exact domeByte_schedIssue canonical (by decide) (by decide) ha

/-- Listed out of order, they do not: the zero takes nothing off the list (`memSet`), and byte 0 reads 1 again. -/
theorem domeByte_schedIssue_disordered :
    (zeroQueued [(1, 1), (0, 1)]).domeByte 0 0 = 0 ∧
      (((zeroQueued [(1, 1), (0, 1)]).schedIssue 0 0).txnsAnswer 0).domeByte 0 0 = 1 := by
  decide

end Sys2Proof.Domes
end

section
/-!
SUPPORT, for O16. Entry to self-refresh empties the queues of a dome (R133), and a dome that does not run issues nothing.
-/
namespace Sys2Proof.Domes

open Sys2Proof Sys2Proof.Machine

variable (s : State) (p c : Nat)

/-- Nothing waits in a pseudo-channel. -/
def Drained (s : State) (p c : Nat) : Prop := s.rqOf p c = [] ∧ s.wqOf p c = []

/-- R133. What entry to self-refresh does to one pseudo-channel. -/
def dropPc (p c : Nat) (s : State) : State :=
  let s := (s.holdQueue (s.rqOf p c)).holdQueue (s.wqOf p c)
  let s := s.setRq p c [] |>.setWq p c [] |>.setH .domeBatch 0 p c
  foldS (fun b s => s.setH .domeRow 0 p c b) (List.range 16) s

theorem domeDrop_eq : s.domeDrop p = foldS (dropPc p) (List.range 16) s := rfl

/-- The requests of the pseudo-channel are answered, and then its queues are empty. -/
theorem dropPc_kept : ∃ u, QueuesKept s u ∧ QueuesKept ((u.setRq p c []).setWq p c []) (dropPc p c s) :=
  ⟨_, (QueuesKept.refl s).holdQueue _ |>.holdQueue _,
    .foldS (fun _ _ h => h.setH _ _ _ _ _) _ ((QueuesKept.refl _).setH _ _ _ _ _)⟩

theorem dropPc_drained : Drained (dropPc p c s) p c := by
  obtain ⟨u, -, kept⟩ := dropPc_kept s p c
  exact ⟨(kept.rqOf p c).trans (rqOf_setRq_same u p c []), (kept.wqOf p c).trans (wqOf_setWq_same _ p c [])⟩

/-- A pseudo-channel once drained stays so while the next ones are. -/
theorem dropPc_keeps_drained (b : Nat) (h : Drained s p c) : Drained (dropPc p b s) p c := by
  by_cases same : b = c
  · exact same ▸ dropPc_drained s p b
  · obtain ⟨u, answered, kept⟩ := dropPc_kept s p b
    have other : (p, b) ≠ (p, c) := fun e => same (Prod.mk.inj e).2
    refine ⟨?_, ?_⟩
    · rw [kept.rqOf, rqOf_setWq, rqOf_setRq_ne _ _ _ _ other, answered.rqOf, h.1]
    · rw [kept.wqOf, wqOf_setWq_ne _ _ _ _ other, wqOf_setRq, answered.wqOf, h.2]

theorem domeDrop_drained (hc : c < 16) : Drained (s.domeDrop p) p c :=
  foldS_establishes (fun t => dropPc_drained t p c) (fun b t => dropPc_keeps_drained t p c b) (List.mem_range.2 hc) s

/-- R133. What is dropped is not performed. -/
theorem domeDrop_memory :
    (s.domeDrop p).mem = s.mem ∧ (s.domeDrop p).undef = s.undef ∧ (NoMetas s → NoMetas (s.domeDrop p)) := by
  refine foldS_keeps (P := fun t => t.mem = s.mem ∧ t.undef = s.undef ∧ (NoMetas s → NoMetas t)) ?_ _ ⟨rfl, rfl, id⟩
  rintro c t ⟨mem, undef, metas⟩
  obtain ⟨u, answered, kept⟩ := dropPc_kept t p c
  exact ⟨kept.mem.trans (answered.mem.trans mem), kept.undef.trans (answered.undef.trans undef),
    fun bare => kept.metas (answered.metas (metas bare))⟩

/-- The dome in self-refresh, its requests not yet answered. -/
def entered (s : State) (p : Nat) : State := (((s.domeDrop p).cacheClean p).setH .domeSr 2 p).srUpdate p

theorem entered_kept : QueuesKept (s.domeDrop p) (entered s p) :=
  ((QueuesKept.refl _).cacheClean p |>.setH _ _ _ _ _).srUpdate p

theorem entered_drained (hc : c < 16) : Drained (entered s p) p c := by
  obtain ⟨noReads, noWrites⟩ := domeDrop_drained s p c hc
  exact ⟨((entered_kept s p).rqOf p c).trans noReads, ((entered_kept s p).wqOf p c).trans noWrites⟩

theorem entered_memory : (entered s p).mem = s.mem ∧ (entered s p).undef = s.undef := by
  obtain ⟨mem, undef, -⟩ := domeDrop_memory s p
  exact ⟨(entered_kept s p).mem.trans mem, (entered_kept s p).undef.trans undef⟩

theorem entered_noMetas (bare : NoMetas s) : NoMetas (entered s p) := by
  obtain ⟨-, -, metas⟩ := domeDrop_memory s p
  exact (entered_kept s p).metas (metas bare)

theorem exec_srEntryDone (entering : s.h .domeSr p = 1) :
    exec (.srEntryDone p) s = .next ((entered s p).txnsAnswer p) := if_pos entering

theorem schedIssue_of_not_runs (stopped : s.domeRuns p = false) : s.schedIssue p c = s := by
  simp [State.schedIssue, stopped]

end Sys2Proof.Domes
end

section
/-!
SUPPORT. Statements O14 to O16 of the domes (R115..R139).
-/
namespace Sys2Proof.Domes

open Sys2Proof Sys2Proof.Machine

/-- Settles O14 (R117), by the queued write lying over what the byte read before. -/
theorem queuedWritesAreSeenByReads : Obligations.QueuedWritesAreSeenByReads := by
  unfold Obligations.QueuedWritesAreSeenByReads
  intro p a r s write _ fits ha
  rw [domeByte_domeEnq s p ha write]
  refine ⟨fun low high => ?_, fun out => ?_⟩
  · rw [overlayByte_single_in (by omega)]
    congr 1
    omega
  · exact overlayByte_single_out (by omega)

/-- Refutes O15: its premises do not ask that memory is in canonical form (`State.Canonical`). They are met by a dome whose
memory lists its bytes out of order; there the write of a zero is issued without taking effect, and a byte that read 0
reads 1. From a canonical memory, the only kind the model means to build, the statement holds (`domeByte_schedIssue`). -/
theorem not_domeSchedulerKeepsTheContents : ¬ Obligations.DomeSchedulerKeepsTheContents := by
  unfold Obligations.DomeSchedulerKeepsTheContents
  intro holds
  obtain ⟨t, issued, same⟩ := holds 0 0 (zeroQueued [(1, 1), (0, 1)]) (by decide) (by decide)
  obtain rfl := Host.Outcome.next.inj issued
  obtain ⟨before, after⟩ := domeByte_schedIssue_disordered
  have kept : (1 : Byte) = 0 := after.symm.trans ((same 0 (by decide)).trans before)
  exact absurd kept (by decide)

/-- Settles O16 (R133, R137), by the queues emptied at entry, which answers fill with metadata at most. -/
theorem domeHoldAnswersEveryQueuedRequest : Obligations.DomeHoldAnswersEveryQueuedRequest := by
  unfold Obligations.DomeHoldAnswersEveryQueuedRequest
  intro p s
  refine ⟨fun entering => ⟨_, exec_srEntryDone s p entering, fun c hc => ?_, ?_⟩, fun c stopped => ?_⟩
  · obtain ⟨noReads, noWrites⟩ := entered_drained s p c hc
    have answered := txnsAnswer_metadataQueued (entered s p) p
    refine ⟨?_, ?_, fun bare => ?_⟩
    · rw [State.rqOf, answered.rq]
      exact noReads
    · obtain ⟨l, queue, empty⟩ := answered.wq p c
      rwa [queue, noWrites, List.nil_append]
    · rw [(txnsAnswer_queuesKept (entered_noMetas s p bare) p).wqOf, noWrites]
  · have answered := txnsAnswer_metadataQueued (entered s p) p
    obtain ⟨mem, undef⟩ := entered_memory s p
    exact ⟨answered.mem.trans mem, answered.undef.trans undef⟩
  · exact congrArg (fun t => Host.Outcome.next (t.txnsAnswer p)) (schedIssue_of_not_runs s p c stopped)

end Sys2Proof.Domes
end

section
/-!
SUPPORT, for O17, O18 and O19. The accept port (R141..R143) answer by answer, and what holds back the oldest fetched
descriptor of a queue pair (R156, R159, R167).
-/
namespace Sys2Proof.Readout

open Sys2Proof Sys2Proof.Machine

/-! ### The accept port -/

section
variable {ws : List Word} {whole : Bool} {req : Option (Nat × List Word)} {s : State}

/-- An answer of the port and the state it leaves are what the write comes to. -/
theorem exec_accPortWrite_of_accPort {code : Nat} {t : State} (answer : s.accPort ws whole none = (code, t)) :
    (s.accPort ws whole none).1 = code ∧ exec (.accPortWrite ws whole) s = .next t :=
  ⟨congrArg Prod.fst answer, congrArg (fun r : Nat × State => Host.Outcome.next r.2) answer⟩

/-- Answer DISABLED. -/
theorem accPort_of_disabled (off : s.flag F.RDO_CTL_EN = false) : s.accPort ws whole req = (3, s) :=
  if_pos (by simp [off])

variable (on : s.flag F.RDO_CTL_EN = true) (running : s.safeHold = false)
include on running

/-- Answer BAD, counted, with its event source (R177). -/
theorem accPort_of_bad (bad : whole = false ∨ ws.length ≠ 8 ∨ s.accValid ws = false) :
    s.accPort ws whole req = (2, (s.addFld F.RDO_ACC_BAD_COUNT 1).device 1024) := by
  have refused : (!whole || ws.length != 8 || !s.accValid ws) = true := by
    rcases bad with part | count | invalid
    · simp [part]
    · simp [count]
    · simp [invalid]
  simp only [State.accPort, on, running, refused, Bool.not_true, Bool.or_self, Bool.false_eq_true, if_true, if_false]

variable (eight : ws.length = 8) (valid : s.accValid ws = true)
include eight valid

/-- Answer RETRY, counted: the intake of 1,024 is full. -/
theorem accPort_of_intake_full (full : 1024 ≤ s.accIn.length + (s.events.filter fun e => !e.building).length) :
    s.accPort ws true req = (1, s.addFld F.RDO_ACC_RETRY_COUNT 1) := by
  simp [State.accPort, on, running, eight, valid, full]

/-- Answer OK: the record joins the end of the intake. -/
theorem accPort_of_room (space : s.accIn.length + (s.events.filter fun e => !e.building).length < 1024)
    (room : s.jrnlRoom = true) :
    s.accPort ws true req = (0, ({ s with accIn := s.accIn ++ [(⟨ws, none, req⟩ : AccIn)] } : State).rdoShow) := by
  simp [State.accPort, on, running, eight, valid, Nat.not_le.2 space, room]

end

/-! ### Acceptance of a descriptor -/

section
variable {q : Nat} {d : QDesc} {ds : List QDesc} {s : State}
variable (oldest : (s.qp q).fetched = d :: ds) (run : s.qpState q = 1) (sound : (s.qp q).failing = false)
variable (usable : s.fnUsable (s.qpFn q) = true)
include oldest run sound usable

/-- R156. A SEQ out of order fails the queue pair, with the SEQ it expected on record. -/
theorem descAccept_of_seq_ne (wrong : d.seq.toNat ≠ (s.regN .RDO_QP_JSEQ 0 q + 1) % 2 ^ 32) :
    s.descAccept q = ((s.setFld F.RDO_QP_STAT_ERR 5 0 q).setRegN .RDO_QP_ERR_SEQ
      ((s.regN .RDO_QP_JSEQ 0 q + 1) % 2 ^ 32) 0 q).qpFail q := by
  simp [State.descAccept, oldest, run, sound, usable, wrong, -Nat.reducePow]

variable (inOrder : d.seq.toNat = (s.regN .RDO_QP_JSEQ 0 q + 1) % 2 ^ 32) (op : d.op ≠ 1)
include inOrder op

/-- R159. A descriptor waits for room for its completion. -/
theorem descAccept_of_ring_full (full : 2 ^ s.fld F.RDO_QP_CFG_CQ_LOG2 0 q ≤
    (s.qp q).acc.length + (s.cqTail q + 2 ^ 16 - (s.qp q).head) % 2 ^ 16) : s.descAccept q = s := by
  simp [State.descAccept, oldest, run, sound, usable, inOrder, op, full, -Nat.reducePow]

/-- R167. A descriptor waits until its journal entry can be held. -/
theorem descAccept_of_not_jrnlOk (unheld : s.jrnlOk = false) : s.descAccept q = s := by
  simp [State.descAccept, oldest, run, sound, usable, inOrder, op, unheld, -Nat.reducePow]

end

end Sys2Proof.Readout
end

section
/-!
SUPPORT. Statements O17 to O19 of accepts and readout (R140..R178).
-/
namespace Sys2Proof.Readout

open Sys2Proof Sys2Proof.Machine

/-- Settles O17 (R141, R142, R143, R172, R177), by the port's answers in the order of its checks. -/
theorem acceptPortAnswersByItsTable : Obligations.AcceptPortAnswersByItsTable := by
  unfold Obligations.AcceptPortAnswersByItsTable
  intro ws whole s
  refine ⟨fun off => ?_, fun on running => ⟨fun bad => ?_, ?_⟩⟩
  · exact exec_accPortWrite_of_accPort (accPort_of_disabled off)
  · exact exec_accPortWrite_of_accPort (accPort_of_bad on running bad)
  · rintro rfl eight valid
    refine ⟨fun full => ?_, fun space room => ?_⟩
    · exact exec_accPortWrite_of_accPort (accPort_of_intake_full on running eight valid full)
    · exact exec_accPortWrite_of_accPort (accPort_of_room on running eight valid space room)

/-- Settles O18 (R144), by the one check a write of a stream set makes. -/
theorem streamSetIsFrozenWhileReferenced : Obligations.StreamSetIsFrozenWhileReferenced := by
  unfold Obligations.StreamSetIsFrozenWhileReferenced
  intro k w v s
  exact ⟨fun named => congrArg Host.Outcome.next (if_pos named),
    fun unnamed => congrArg Host.Outcome.next (if_neg (not_not_intro unnamed))⟩

/-- Settles O19 (R156, R159, R167), by what holds the oldest fetched descriptor back. -/
theorem descriptorAcceptanceNeedsSequenceAndRoom : Obligations.DescriptorAcceptanceNeedsSequenceAndRoom := by
  unfold Obligations.DescriptorAcceptanceNeedsSequenceAndRoom
  intro q d ds s oldest run sound usable
  refine ⟨fun wrong => ?_, fun inOrder op held => ?_⟩
  · exact congrArg Host.Outcome.next (descAccept_of_seq_ne oldest run sound usable wrong)
  · rcases held with full | unheld
    · exact congrArg Host.Outcome.next (descAccept_of_ring_full oldest run sound usable inOrder op full)
    · exact congrArg Host.Outcome.next (descAccept_of_not_jrnlOk oldest run sound usable inOrder op unheld)

end Sys2Proof.Readout
end

section
/-!
SUPPORT, for O20. The commands of the ADM block (R187, R188), check by check: what the checks of a declaration answer, and
how ADMIT, QUERY and RELEASE end on the first check that fails.
-/
namespace Sys2Proof.Admission

open Sys2Proof Sys2Proof.Machine

/-! ### The checks of a declaration -/

section
variable {i : Nat} {admitting : Bool} {w : List Nat} {s : State}

/-- BAD_FIELD comes first. -/
theorem admEval_of_badField (bad : declBadField w = true) : s.admEval i admitting w = .no 1 0 := if_pos bad

variable (fields : declBadField w = false)
include fields

/-- BAD_ENDPOINT, of a declaration whose fields are good. -/
theorem admEval_of_badEnd (bad : s.declBadEnd w = true) : s.admEval i admitting w = .no 2 0 := by
  simp [State.admEval, fields, bad]

variable (ends : s.declBadEnd w = false)
include ends

/-- ID_IN_USE is a check of ADMIT alone. -/
theorem admEval_of_taken (taken : (tfind s.decls i).isSome = true) : s.admEval i true w = .no 3 0 := by
  simp [State.admEval, fields, ends, taken]

/-- QUERY makes no check of the number: the computation, on behalf of no declaration, answers next. -/
theorem admEval_query : s.admEval i false w = s.admCompute 4096 w := by
  simp [State.admEval, fields, ends]

end

/-- RATE is the first check of the computation, before any route is sought. -/
theorem admCompute_of_too_many_flits {s : State} {w : List Nat} (self : Nat) (large : s.admN < cdiv (dBytes w) 64) :
    s.admCompute self w = .no 5 0 := if_pos large

/-! ### The commands -/

theorem exec_admAdmit (i : Nat) (s : State) : exec (.admAdmit i) s = .next (s.admAdmit i) := rfl

theorem exec_admQuery (i : Nat) (s : State) : exec (.admQuery i) s = .next (s.admQuery i) := rfl

theorem exec_admRelease (i : Nat) (s : State) : exec (.admRelease i) s = .next (s.admRelease i) := rfl

/-- R187. A command written while another waits changes no declaration. -/
theorem admBusy_decls (s : State) : s.admBusy.decls = s.decls := by simp [State.admBusy]

section
variable {s : State} (i : Nat)

theorem admAdmit_of_busy (busy : s.flag F.ADM_CMD_STAT_BUSY = true) : s.admAdmit i = s.admBusy := if_pos busy

theorem admQuery_of_busy (busy : s.flag F.ADM_CMD_STAT_BUSY = true) : s.admQuery i = s.admBusy := if_pos busy

theorem admRelease_of_busy (busy : s.flag F.ADM_CMD_STAT_BUSY = true) : s.admRelease i = s.admBusy := if_pos busy

variable (idle : s.flag F.ADM_CMD_STAT_BUSY = false)
include idle

section
variable (off : s.flag F.ADM_CFG_EN = false ∨ s.flag F.LDG_HOLD_STAT_ACTIVE = true)
include off

theorem admAdmit_of_not_configured : s.admAdmit i = s.admEnd 8 0 0 := by
  simp [State.admAdmit, idle, off]

theorem admQuery_of_not_configured : s.admQuery i = s.admEnd 8 0 0 := by
  simp [State.admQuery, idle, off]

theorem admRelease_of_not_configured : s.admRelease i = s.admEnd 8 0 0 := by
  simp [State.admRelease, idle, off]

end

variable (on : s.flag F.ADM_CFG_EN = true) (running : s.flag F.LDG_HOLD_STAT_ACTIVE = false)
include on running

/-- ADMIT ends with the reason that the staged declaration is refused for. -/
theorem admAdmit_of_refused {r x : Nat} (refused : s.admEval i true s.admStaged = .no r x) :
    s.admAdmit i = s.admEnd r x 0 := by
  simp [State.admAdmit, idle, on, running, refused]

/-- QUERY ends with the reason that the staged declaration is refused for. -/
theorem admQuery_of_refused {r x : Nat} (refused : s.admEval i false s.admStaged = .no r x) :
    s.admQuery i = s.admEnd r x 0 := by
  simp [State.admQuery, idle, on, running, refused]

/-- RELEASE of a FREE number ends NOT_ADMITTED. -/
theorem admRelease_of_free (free : tfind s.decls i = none) : s.admRelease i = s.admEnd 0xa 0 0 := by
  simp [State.admRelease, idle, on, running, free]

/-- RELEASE of a declaration that a stream still names ends IN_USE. -/
theorem admRelease_of_inUse {d : Decl} (held : tfind s.decls i = some d) (named : s.admInUse i = true) :
    s.admRelease i = s.admEnd 9 0 0 := by
  simp [State.admRelease, idle, on, running, held, named]

end

end Sys2Proof.Admission
end

section
/-!
SUPPORT. Statement O20 of deadline admission (R178..R194).
-/
namespace Sys2Proof.Admission

open Sys2Proof Sys2Proof.Machine

/-- Settles O20 (R182, R187, R188; R416 for the command in safe hold), by the checks of R188 in their order. -/
theorem admissionAnswersTheFirstFailingCheck : Obligations.AdmissionAnswersTheFirstFailingCheck := by
  unfold Obligations.AdmissionAnswersTheFirstFailingCheck
  intro i s
  simp only [exec_admAdmit, exec_admQuery, exec_admRelease, Host.Outcome.next.injEq]
  refine ⟨fun busy => ?_, fun idle => ⟨fun off => ?_, fun on running => ⟨fun bad => ?_, fun fields bad => ?_,
    fun fields ends => ⟨fun taken => ?_, fun large => ?_⟩, fun free => ?_, fun d held named => ?_⟩⟩⟩
  · exact ⟨admAdmit_of_busy i busy, admQuery_of_busy i busy, admRelease_of_busy i busy, admBusy_decls s⟩
  · exact ⟨admAdmit_of_not_configured i idle off, admQuery_of_not_configured i idle off,
      admRelease_of_not_configured i idle off⟩
  · exact ⟨admAdmit_of_refused i idle on running (admEval_of_badField bad),
      admQuery_of_refused i idle on running (admEval_of_badField bad)⟩
  · exact ⟨admAdmit_of_refused i idle on running (admEval_of_badEnd fields bad),
      admQuery_of_refused i idle on running (admEval_of_badEnd fields bad)⟩
  · exact admAdmit_of_refused i idle on running (admEval_of_taken fields ends taken)
  · have rate := (admEval_query (i := i) fields ends).trans (admCompute_of_too_many_flits 4096 large)
    exact admQuery_of_refused i idle on running rate
  · exact admRelease_of_free i idle on running free
  · exact admRelease_of_inUse i idle on running held named

end Sys2Proof.Admission
end

section
/-!
SUPPORT, for O59. The fields of a Spire's slot read back from its word (Tables 8.2, 8.4). A word is a sum of fields, each
at its own place above the sum of those below it: a field is read off the top, or in what lies below another field.
-/
namespace Sys2Proof.Spires

open Sys2Proof Sys2Proof.Machine

/-! ### Fields of a word -/

section
variable {x low k lo w : Nat}

@[simp] theorem bitsOf_top (fit : x < 2 ^ w) (below : low < 2 ^ k) : bitsOf (x * 2 ^ k + low) k w = x := by
  rw [bitsOf, Nat.mul_comm, Nat.mul_add_div (Nat.two_pow_pos k), Nat.div_eq_of_lt below, Nat.add_zero,
    Nat.mod_eq_of_lt fit]

@[simp] theorem bitsOf_below (x low : Nat) (h : lo + w ≤ k) : bitsOf (x * 2 ^ k + low) lo w = bitsOf low lo w := by
  rw [← Panel.bitsOf_mod_two_pow _ lo w k h, Nat.mul_comm, Nat.mul_add_mod, Panel.bitsOf_mod_two_pow _ lo w k h]

@[simp] theorem bitsOf_bottom (fit : x < 2 ^ w) : bitsOf x 0 w = x := by
  rw [bitsOf, Nat.pow_zero, Nat.div_one, Nat.mod_eq_of_lt fit]

@[simp] theorem bitsOf_above (w : Nat) (h : x < 2 ^ lo) : bitsOf x lo w = 0 := by
  rw [bitsOf, Nat.div_eq_of_lt h, Nat.zero_mod]

/-- The lowest field of a word, with nothing below it. -/
@[simp] theorem bitsOf_last (fit : x < 2 ^ w) : bitsOf (x * 2 ^ k) k w = x := bitsOf_top fit (Nat.two_pow_pos k)

@[simp] theorem bitsOf_below_last (x : Nat) (h : lo + w ≤ k) : bitsOf (x * 2 ^ k) lo w = 0 :=
  (bitsOf_below x 0 h).trans (bitsOf_above w (Nat.two_pow_pos lo))

/-- The top field of a word, where it is 1. -/
@[simp] theorem bitsOf_top_one (fit : 1 < 2 ^ w) (below : low < 2 ^ k) : bitsOf (2 ^ k + low) k w = 1 := by
  rw [← Nat.one_mul (2 ^ k), bitsOf_top fit below]

@[simp] theorem bitsOf_below_one (low : Nat) (h : lo + w ≤ k) : bitsOf (2 ^ k + low) lo w = bitsOf low lo w := by
  rw [← Nat.one_mul (2 ^ k), bitsOf_below 1 low h]

end

theorem mod_two_pow_eq_bitsOf (v n : Nat) : v % 2 ^ n = bitsOf v 0 n := by
  rw [bitsOf, Nat.pow_zero, Nat.div_one]

theorem bitOf_eq_bitsOf (v i : Nat) : bitOf v i = (bitsOf v i 1 == 1) := rfl

theorem b2n_lt (u : Bool) : b2n u < 2 := by cases u <;> decide

@[simp] theorem b2n_beq_one (u : Bool) : (b2n u == 1) = u := by cases u <;> rfl

/-- Bits 2:0 of VMAC. -/
theorem bitsOf_macFlags (u sub clr : Bool) :
    bitsOf (b2n u * 4 + (b2n sub * 2 + b2n clr)) 2 1 = b2n u ∧
      bitsOf (b2n u * 4 + (b2n sub * 2 + b2n clr)) 1 1 = b2n sub ∧
      bitsOf (b2n u * 4 + (b2n sub * 2 + b2n clr)) 0 1 = b2n clr := by
  revert u sub clr
  decide

/-! ### What well-formed fields fit -/

theorem fits_iff (w x : Nat) : fits w x = true ↔ x < 2 ^ w := decide_eq_true_iff

theorem signed_unsign_of_fitsS {w : Nat} {x : Int} (hw : w ≠ 0) (h : fitsS w x = true) :
    signed w (unsign w x) = x := by
  simp only [fitsS, Bool.and_eq_true, decide_eq_true_eq] at h
  obtain ⟨low, high⟩ := h
  have back := Codecs.signed_unsign w x hw (by exact_mod_cast low) (by push_cast; omega)
  rwa [Nat.mod_eq_of_lt (Codecs.unsign_lt w x)] at back

theorem lt_of_aluExists {fn : Nat} (h : aluExists fn = true) : fn < 2 ^ 11 := by
  simp only [aluExists, Bool.or_eq_true, Bool.and_eq_true, decide_eq_true_eq] at h
  omega

theorem lt_of_csrExists {n : Nat} (h : csrExists n = true) : n < 2 ^ 12 := by
  simp only [csrExists, Bool.or_eq_true, Bool.and_eq_true, decide_eq_true_eq, beq_iff_eq] at h
  omega

/-! ### Slots -/

/-- Formats R, I and L (Table 8.2), field upon field. -/
theorem sWord_eq (op rd ra low : Nat) : sWord op rd ra low = op * 2 ^ 26 + (rd * 2 ^ 21 + (ra * 2 ^ 16 + low)) := by
  rw [sWord, Nat.add_assoc, Nat.add_assoc]

theorem sWord_lt {op rd ra low : Nat} (opcode : op < 2 ^ 6) (below : rd * 2 ^ 21 + (ra * 2 ^ 16 + low) < 2 ^ 26) :
    sWord op rd ra low < 2 ^ 32 := by
  have word := sWord_eq op rd ra low
  omega

/-- A well-formed scalar slot has a 32-bit word, and is read back from it. -/
theorem sEncode_lt_and_sDecode {op : SOp} (h : op.wf = true) :
    sEncode op < 2 ^ 32 ∧ sDecode (sEncode op) = some op := by
  cases op with
  | nop | stop | eret | ebreak => exact ⟨by decide, rfl⟩
  | alu fn rd a b =>
    simp only [SOp.wf, Bool.and_eq_true, fits_iff] at h
    obtain ⟨⟨⟨listed, hrd⟩, ha⟩, hb⟩ := h
    have hfn := lt_of_aluExists listed
    exact ⟨sWord_lt (by decide) (by omega), by
      simp (disch := omega) [sEncode, sDecode, sWord_eq, listed, -Nat.reducePow]⟩
  | addi rd a imm | jalr rd a imm =>
    simp only [SOp.wf, Bool.and_eq_true, fits_iff] at h
    obtain ⟨⟨hrd, ha⟩, himm⟩ := h
    have field := Codecs.unsign_lt 16 imm
    exact ⟨sWord_lt (by decide) (by omega), by
      simp (disch := omega) [sEncode, sDecode, sWord_eq, signed_unsign_of_fitsS _ himm, -Nat.reducePow]⟩
  | logi fn rd a imm =>
    simp only [SOp.wf, Bool.and_eq_true, fits_iff, decide_eq_true_eq] at h
    obtain ⟨⟨⟨hfn, hrd⟩, ha⟩, himm⟩ := h
    refine ⟨sWord_lt (by omega) (by omega), ?_⟩
    obtain rfl | rfl | rfl : fn = 0 ∨ fn = 1 ∨ fn = 2 := by omega
    all_goals simp (disch := omega) [sEncode, sDecode, sWord_eq, -Nat.reducePow]
  | shi kind rd a sh =>
    simp only [SOp.wf, Bool.and_eq_true, fits_iff, decide_eq_true_eq] at h
    obtain ⟨⟨⟨listed, hrd⟩, ha⟩, hsh⟩ := h
    have field : kind * 2 ^ 5 + sh < 128 := by omega
    exact ⟨sWord_lt (by decide) (by omega), by
      simp (disch := omega) [sEncode, sDecode, sWord_eq, listed, field, -Nat.reducePow]⟩
  | load size sx rd a imm =>
    simp only [SOp.wf, Bool.and_eq_true, Bool.or_eq_true, beq_iff_eq, Bool.not_eq_true', fits_iff] at h
    have field := Codecs.unsign_lt 16 imm
    cases sx
    all_goals
      obtain ⟨⟨⟨(rfl | rfl) | ⟨rfl, ⟨⟩⟩, hrd⟩, ha⟩, himm⟩ := h
      all_goals exact ⟨sWord_lt (by decide) (by omega), by
        simp (disch := omega) [sEncode, sDecode, sWord_eq, loadOp, signed_unsign_of_fitsS _ himm, -Nat.reducePow]⟩
  | store size b a imm =>
    simp only [SOp.wf, Bool.and_eq_true, Bool.or_eq_true, beq_iff_eq, fits_iff] at h
    have field := Codecs.unsign_lt 16 imm
    obtain ⟨⟨⟨(rfl | rfl) | rfl, hb⟩, ha⟩, himm⟩ := h
    all_goals exact ⟨sWord_lt (by decide) (by omega), by
      simp (disch := omega) [sEncode, sDecode, sWord_eq, storeOp, signed_unsign_of_fitsS _ himm, -Nat.reducePow]⟩
  | branch cond a b off =>
    simp only [SOp.wf, Bool.and_eq_true, fits_iff, decide_eq_true_eq] at h
    obtain ⟨⟨⟨hcond, ha⟩, hb⟩, hoff⟩ := h
    have field := Codecs.unsign_lt 16 off
    refine ⟨sWord_lt (by omega) (by omega), ?_⟩
    obtain rfl | rfl | rfl | rfl | rfl | rfl :
      cond = 0 ∨ cond = 1 ∨ cond = 2 ∨ cond = 3 ∨ cond = 4 ∨ cond = 5 := by omega
    all_goals
      simp (disch := omega) [sEncode, sDecode, sWord_eq, signed_unsign_of_fitsS _ hoff, -Nat.reducePow]
  | jal rd off =>
    simp only [SOp.wf, Bool.and_eq_true, fits_iff] at h
    obtain ⟨hrd, hoff⟩ := h
    have field := Codecs.unsign_lt 21 off
    exact ⟨sWord_lt (by decide) (by omega), by
      simp (disch := omega) [sEncode, sDecode, sWord_eq, signed_unsign_of_fitsS _ hoff, -Nat.reducePow]⟩
  | agw g f r | agr r g f =>
    simp only [SOp.wf, Bool.and_eq_true, fits_iff] at h
    have place : (g * 4 + f) * 2 ^ 16 = g * 2 ^ 18 + f * 2 ^ 16 := by omega
    exact ⟨sWord_lt (by decide) (by omega), by
      simp (disch := omega) [sEncode, sDecode, sWord_eq, place, -Nat.reducePow]⟩
  | lwa r g | swa r g =>
    simp only [SOp.wf, Bool.and_eq_true, fits_iff] at h
    have place : g * 4 * 2 ^ 16 = g * 2 ^ 18 := by omega
    exact ⟨sWord_lt (by decide) (by omega), by
      simp (disch := omega) [sEncode, sDecode, sWord_eq, place, -Nat.reducePow]⟩
  | csrr rd csr =>
    simp only [SOp.wf, Bool.and_eq_true, fits_iff] at h
    obtain ⟨hrd, listed⟩ := h
    have hcsr := lt_of_csrExists listed
    exact ⟨sWord_lt (by decide) (by omega), by
      simp (disch := omega) [sEncode, sDecode, sWord_eq, listed, -Nat.reducePow]⟩
  | csrw csr a =>
    simp only [SOp.wf, Bool.and_eq_true, fits_iff] at h
    obtain ⟨⟨ha, listed⟩, writable⟩ := h
    have hcsr := lt_of_csrExists listed
    exact ⟨sWord_lt (by decide) (by omega), by
      simp (disch := omega) [sEncode, sDecode, sWord_eq, listed, writable, -Nat.reducePow]⟩
  | amo fn rd a b =>
    simp only [SOp.wf, Bool.and_eq_true, fits_iff, decide_eq_true_eq] at h
    obtain ⟨⟨⟨listed, hrd⟩, ha⟩, hb⟩ := h
    exact ⟨sWord_lt (by decide) (by omega), by
      simp (disch := omega) [sEncode, sDecode, sWord_eq, listed, -Nat.reducePow]⟩
  | loopi _ last | loop _ last =>
    simp only [SOp.wf, Bool.and_eq_true, fits_iff, bne_iff_ne] at h
    obtain ⟨fit, nonzero⟩ := h
    exact ⟨sWord_lt (by decide) (by omega), by
      simp (disch := omega) [sEncode, sDecode, sWord_eq, nonzero, -Nat.reducePow]⟩
  | waite mask =>
    simp only [SOp.wf, Bool.and_eq_true, fits_iff, bne_iff_ne] at h
    obtain ⟨fit, nonzero⟩ := h
    have listed : mask < 512 := fit
    exact ⟨sWord_lt (by decide) (by omega), by
      simp (disch := omega) [sEncode, sDecode, sWord_eq, nonzero, listed, -Nat.reducePow]⟩
  | feedack f =>
    simp only [SOp.wf, fits_iff] at h
    have listed : f < 4 := h
    exact ⟨sWord_lt (by decide) (by omega), by
      simp (disch := omega) [sEncode, sDecode, sWord_eq, listed, -Nat.reducePow]⟩
  | lui | waitt | sig =>
    simp only [SOp.wf, Bool.and_eq_true, fits_iff] at h
    exact ⟨sWord_lt (by decide) (by omega), by
      simp (disch := omega) [sEncode, sDecode, sWord_eq, -Nat.reducePow]⟩

/-- A well-formed vector slot has a 32-bit word, and is read back from it. -/
theorem vEncode_lt_and_vDecode {op : VOp} (h : op.wf = true) :
    vEncode op < 2 ^ 32 ∧ vDecode (vEncode op) = some op := by
  cases op with
  | nop => exact ⟨by decide, rfl⟩
  | vld | vst | vbc | vclr =>
    simp only [VOp.wf, Bool.and_eq_true, fits_iff] at h
    exact ⟨by rw [vEncode]; omega, by
      simp (disch := omega) [vEncode, vDecode, Nat.add_assoc, mod_two_pow_eq_bitsOf, -Nat.reducePow]⟩
  | valu =>
    simp only [VOp.wf, Bool.and_eq_true, fits_iff] at h
    exact ⟨by rw [vEncode]; omega, by
      simp (disch := omega) [vEncode, vDecode, Nat.add_assoc, -Nat.reducePow]⟩
  | vsh =>
    simp only [VOp.wf, Bool.and_eq_true, fits_iff, decide_eq_true_eq] at h
    obtain ⟨⟨⟨listed, hd⟩, ha⟩, hsh⟩ := h
    exact ⟨by rw [vEncode]; omega, by
      simp (disch := omega) [vEncode, vDecode, Nat.add_assoc, listed, -Nat.reducePow]⟩
  | vmac d a c u sub clr =>
    simp only [VOp.wf, Bool.and_eq_true, fits_iff] at h
    have hu := b2n_lt u
    have hsub := b2n_lt sub
    have hclr := b2n_lt clr
    exact ⟨by rw [vEncode]; omega, by
      simp (disch := omega) [vEncode, vDecode, Nat.add_assoc, bitOf_eq_bitsOf, bitsOf_macFlags, -Nat.reducePow]⟩
  | ftapv d g g' u =>
    simp only [VOp.wf, Bool.and_eq_true, fits_iff, bne_iff_ne] at h
    obtain ⟨⟨⟨hd, hg⟩, hg'⟩, distinct⟩ := h
    have hu := b2n_lt u
    exact ⟨by rw [vEncode]; omega, by
      simp (disch := omega) [vEncode, vDecode, Nat.add_assoc, mod_two_pow_eq_bitsOf, bitOf_eq_bitsOf, distinct,
        -Nat.reducePow]⟩
  | vrnd d a sh rm u =>
    simp only [VOp.wf, Bool.and_eq_true, fits_iff, decide_eq_true_eq] at h
    obtain ⟨⟨⟨hd, ha⟩, shift⟩, mode⟩ := h
    have hu := b2n_lt u
    exact ⟨by rw [vEncode]; omega, by
      simp (disch := omega) [vEncode, vDecode, Nat.add_assoc, mod_two_pow_eq_bitsOf, bitOf_eq_bitsOf, shift, mode,
        -Nat.reducePow]⟩
  | vldc _ _ u | ftap _ _ u | vhsum _ _ u | vext _ _ _ u =>
    simp only [VOp.wf, Bool.and_eq_true, fits_iff] at h
    have hu := b2n_lt u
    exact ⟨by rw [vEncode]; omega, by
      simp (disch := omega) [vEncode, vDecode, Nat.add_assoc, mod_two_pow_eq_bitsOf, bitOf_eq_bitsOf, -Nat.reducePow]⟩

end Sys2Proof.Spires
end

section
/-!
SUPPORT. Statement O59 of the Spires (R195..R233).
-/
namespace Sys2Proof.Spires

open Sys2Proof Sys2Proof.Machine

/-- Settles O59 (R197, R200, R201, R207), format by format: each field is read back from its place in the word. -/
theorem spireSlotsRoundTrip : Obligations.SpireSlotsRoundTrip := by
  unfold Obligations.SpireSlotsRoundTrip
  exact ⟨fun _ wf => sEncode_lt_and_sDecode wf, fun _ wf => vEncode_lt_and_vDecode wf⟩

end Sys2Proof.Spires
end

section
/-!
SUPPORT, for O22. What a bundle that stores leaves (R197, R202, R206, R211): the bytes of its access in memory, and the
registers of its context but for the generator of a VST.
-/
namespace Sys2Proof.Spires

open Sys2Proof Sys2Proof.Machine

/-! ### Bytes stored -/

theorem length_natBytes (n v : Nat) : (natBytes n v).length = n := by
  induction n generalizing v with
  | zero => rfl
  | succ n ih => rw [natBytes, List.length_cons, ih]

theorem natBytes_getD {n i : Nat} (v : Nat) (h : i < n) :
    (natBytes n v).getD i 0 = BitVec.ofNat 8 (v / 2 ^ (8 * i)) := by
  induction n generalizing i v with
  | zero => omega
  | succ n ih =>
    cases i with
    | zero => simp [natBytes]
    | succ i =>
      rw [natBytes, List.getD_cons_succ, ih (v / 256) (by omega), Nat.div_div_eq_div_mul, Nat.mul_succ, Nat.add_comm,
        Nat.pow_add]

/-- Two bytes of each of n lanes from lane m on. -/
theorem laneBytes_getD (f : Nat → BitVec 16) {m n i : Nat} (h : i < 2 * n) :
    ((List.range' m n).flatMap fun l => natBytes 2 (f l).toNat).getD i 0 =
      BitVec.ofNat 8 ((f (m + i / 2)).toNat / 2 ^ (8 * (i % 2))) := by
  induction n generalizing m i with
  | zero => omega
  | succ n ih =>
    match i with
    | 0 => simp [List.range'_succ, natBytes]
    | 1 => simp [List.range'_succ, natBytes]
    | i + 2 =>
      have later := ih (m := m + 1) (i := i) (by omega)
      rw [show m + (i + 2) / 2 = m + 1 + i / 2 by omega, Nat.add_mod_right, ← later]
      rfl

/-- The sixteen bytes of a vector register, lane by lane. -/
def vectorBytes (f : Nat → BitVec 16) : List Byte := (List.range 8).flatMap fun l => natBytes 2 (f l).toNat

theorem vectorBytes_getD (f : Nat → BitVec 16) {i : Nat} (h : i < 16) :
    (vectorBytes f).getD i 0 = BitVec.ofNat 8 ((f (i / 2)).toNat / 2 ^ (8 * (i % 2))) := by
  rw [vectorBytes, List.range_eq_range', laneBytes_getD f (n := 8) h, Nat.zero_add]

/-! ### Issue -/

section
variable {p k x stall : Nat} {s : State} {a : SOp} {b : VOp}

/-- R198. A bundle without an AMO executes at once. -/
theorem exec_bundleIssue_of_run (issues : s.issuer p k = some x)
    (unhalted : (s.addFld F.SPR_STALL_CNT_COUNT stall p k).haltBefore p k x = 0)
    (runs : (s.addFld F.SPR_STALL_CNT_COUNT stall p k).issueOf p k x none = .run a b)
    (csr : a.undefinedCsr (s.ctx p k x) = false) (atomic : ∀ fn rd ra rb, a ≠ .amo fn rd ra rb) :
    exec (.bundleIssue p k false none stall) s =
      .next ((s.addFld F.SPR_STALL_CNT_COUNT stall p k).bundleRun p k x a b 0) := by
  have defined : a.undefinedCsr ((s.addFld F.SPR_STALL_CNT_COUNT stall p k).ctx p k x) = false := csr
  change execBundleIssue p k false none stall s = _
  simp only [execBundleIssue, issues, unhalted, State.bundleIssue, runs, defined]
  cases a with
  | amo fn rd ra rb => exact absurd rfl (atomic fn rd ra rb)
  | _ => rfl

end

/-! ### What a store leaves -/

/-- `t` holds n bytes at an address and every other byte as `s` does, and a context with the registers of `c`. -/
structure Stored (s t : State) (p k x base n : Nat) (byte : Nat → Byte) (c : SprCtx) : Prop where
  written : ∀ i, i < n → t.ldByte (base + i) = byte i
  others : ∀ A, A < base ∨ base + n ≤ A → t.ldByte A = s.ldByte A
  scalars : (t.ctx p k x).x = c.x
  vectors : (t.ctx p k x).v = c.v
  coefficients : (t.ctx p k x).c = c.c
  accumulators : (t.ctx p k x).a = c.a
  generators : (t.ctx p k x).ag = c.ag

section
variable {p k x base n : Nat} {byte : Nat → Byte} {s t u : State} {c : SprCtx}

theorem Stored.of_kept (h : Stored s u p k x base n byte c) (mem : t.mem = u.mem) (undef : t.undef = u.undef)
    (spr : t.spr = u.spr) : Stored s t p k x base n byte c := by
  have byteKept (A : Nat) : t.ldByte A = u.ldByte A := by rw [State.ldByte, State.ldByte, mem, undef]
  have ctxKept : t.ctx p k x = u.ctx p k x := by rw [State.ctx, State.ctx, spr]
  obtain ⟨written, others, scalars, vectors, coefficients, accumulators, generators⟩ := h
  exact ⟨fun i hi => (byteKept _).trans (written i hi), fun A out => (byteKept A).trans (others A out),
    ctxKept ▸ scalars, ctxKept ▸ vectors, ctxKept ▸ coefficients, ctxKept ▸ accumulators, ctxKept ▸ generators⟩

/-- R331. To clear the reservations of others touches neither memory nor a context. -/
theorem Stored.resvHits {α : Type} {l : List α} {line : α → Nat} {r node port : Nat}
    (h : Stored s u p k x base n byte c) :
    Stored s (foldS (fun e u => u.resvHit r (line e) node port) l u) p k x base n byte c :=
  Domes.foldS_keeps (f := fun e u => u.resvHit r (line e) node port) (P := fun v => Stored s v p k x base n byte c)
    (fun _ _ stored => stored.of_kept rfl rfl rfl) l h

/-- Bytes stored, and a context put in place that has the registers of `c`. -/
theorem stored_stBytes_setCtx (canonical : s.Canonical) (f : Fld) (m : Nat) {bytes : List Byte}
    (length : bytes.length = n) (bytesAt : ∀ i, i < n → bytes.getD i 0 = byte i) {d : SprCtx}
    (registers : d.x = c.x ∧ d.v = c.v ∧ d.c = c.c ∧ d.a = c.a ∧ d.ag = c.ag) :
    Stored s (((s.addFld f m p k).stBytes base bytes).setCtx p k x d) p k x base n byte c := by
  subst length
  have stored (A : Nat) :
      (((s.addFld f m p k).stBytes base bytes).setCtx p k x d).ldByte A = (s.stBytes base bytes).ldByte A := rfl
  have context : (((s.addFld f m p k).stBytes base bytes).setCtx p k x d).ctx p k x = d := tget_tput_same ..
  obtain ⟨scalars, vectors, coefficients, accumulators, generators⟩ := registers
  refine ⟨fun i hi => ?_, fun A out => (stored A).trans (Domes.ldByte_stBytes_out s out), ?_, ?_, ?_, ?_, ?_⟩
  · rw [stored, Domes.ldByte_stBytes_in canonical (by omega) (by omega), Nat.add_sub_cancel_left, bytesAt i hi]
  all_goals rwa [context]

end

/-! ### The two bundles -/

section
variable (p k x : Nat) (amo : Word) {s : State} (canonical : s.Canonical)

theorem bundleDo_store (n b a : Nat) (imm : Int) (s : State) :
    ∃ d, s.bundleDo p k x (.store n b a imm) .nop amo =
        ((s.addFld (sprIssueReg x) 1 p k).stBytes (dmemBase p k + (s.ctx p k x).addr a imm)
          (natBytes n ((s.ctx p k x).s b).toNat)).setCtx p k x d ∧
      d.x = (s.ctx p k x).x ∧ d.v = (s.ctx p k x).v ∧ d.c = (s.ctx p k x).c ∧ d.a = (s.ctx p k x).a ∧
      d.ag = (s.ctx p k x).ag :=
  ⟨_, rfl, rfl, rfl, rfl, rfl, rfl⟩

theorem bundleDo_vst (a g : Nat) (s : State) :
    ∃ d, s.bundleDo p k x .nop (.vst a g) amo =
        ((s.addFld (sprIssueReg x) 1 p k).stBytes (dmemBase p k + ((s.ctx p k x).gen g).ea)
          (vectorBytes ((s.ctx p k x).lane a))).setCtx p k x d ∧
      d.x = (s.ctx p k x).x ∧ d.v = (s.ctx p k x).v ∧ d.c = (s.ctx p k x).c ∧ d.a = (s.ctx p k x).a ∧
      d.ag = ((s.ctx p k x).setGen g ((s.ctx p k x).gen g).next).ag :=
  ⟨_, rfl, rfl, rfl, rfl, rfl, rfl⟩

include canonical

/-- R202. From a memory in canonical form, SW, SH or SB beside VNOP stores the low bytes of its register, and no more. -/
theorem bundleRun_store_stored (n b a : Nat) (imm : Int) :
    Stored s (s.bundleRun p k x (.store n b a imm) .nop amo) p k x (dmemBase p k + (s.ctx p k x).addr a imm) n
      (fun i => BitVec.ofNat 8 (((s.ctx p k x).s b).toNat / 2 ^ (8 * i))) (s.ctx p k x) := by
  obtain ⟨d, executed, registers⟩ := bundleDo_store p k x amo n b a imm s
  refine Stored.resvHits (u := s.bundleDo p k x (.store n b a imm) .nop amo) ?_
  rw [executed]
  exact stored_stBytes_setCtx canonical _ 1 (length_natBytes n _) (fun i hi => natBytes_getD _ hi) registers

/-- R206, R211. From a memory in canonical form, VST beside NOP stores the lanes of its register, and no more, and its
generator is post-modified. -/
theorem bundleRun_vst_stored (a g : Nat) :
    Stored s (s.bundleRun p k x .nop (.vst a g) amo) p k x (dmemBase p k + ((s.ctx p k x).gen g).ea) 16
      (fun i => BitVec.ofNat 8 (((s.ctx p k x).lane a (i / 2)).toNat / 2 ^ (8 * (i % 2))))
      ((s.ctx p k x).setGen g ((s.ctx p k x).gen g).next) := by
  obtain ⟨d, executed, registers⟩ := bundleDo_vst p k x amo a g s
  refine Stored.resvHits (u := s.bundleDo p k x .nop (.vst a g) amo) ?_
  rw [executed]
  exact stored_stBytes_setCtx canonical _ 1 rfl (fun i hi => vectorBytes_getD _ hi) registers

end

/-! ### Memory out of its canonical form -/

/-- Context 0 of Spire 0 of pavilion 0 in RUN at bundle 0, over a memory as listed and wholly defined. -/
def running (m : List Host.Cell) : State := { State.reset.setRegN .SPR_STAT 1 with mem := m, undef := [] }

/-- The opcode of SB in the top byte of bundle 0, listed before a 1 in the first byte of data memory, which has the lower
address: the bundle is SB s0, 0(s0), which stores a zero over the 1. -/
def disordered : List Host.Cell := [(imemBase 0 0 + 3, 0x3c), (dmemBase 0 0, 1)]

theorem issueOf_disordered :
    ((running disordered).addFld F.SPR_STALL_CNT_COUNT 0 0 0).issueOf 0 0 0 none = .run (.store 1 0 0 0) .nop := by
  decide

/-- The zero takes nothing off the list (`memSet`), and the byte still reads 1. -/
theorem ldByte_bundleRun_disordered :
    (((running disordered).addFld F.SPR_STALL_CNT_COUNT 0 0 0).bundleRun 0 0 0 (.store 1 0 0 0) .nop 0).ldByte
      (dmemBase 0 0) = 1 := by
  decide

end Sys2Proof.Spires
end

section
/-!
SUPPORT. Statement O22 of the Spires (R195..R233).
-/
namespace Sys2Proof.Spires

open Sys2Proof Sys2Proof.Machine

/-- Refutes O22: its premises do not ask that memory is in canonical form (`State.Canonical`). They are met by a context
whose memory lists its bytes out of order; there the bundle SB s0, 0(s0) stores its zero without effect, and the byte at
the effective address reads 1. From a canonical memory, the only kind the model means to build, both parts of the
statement hold (`exec_bundleIssue_of_run`, `bundleRun_store_stored`, `bundleRun_vst_stored`). -/
theorem not_spireStoreBundleWritesItsBytesOnly : ¬ Obligations.SpireStoreBundleWritesItsBytesOnly := by
  unfold Obligations.SpireStoreBundleWritesItsBytesOnly
  intro holds
  have issues : (running disordered).issuer 0 0 = some 0 := by decide
  have unhalted : ((running disordered).addFld F.SPR_STALL_CNT_COUNT 0 0 0).haltBefore 0 0 0 = 0 := by decide
  obtain ⟨t, issued, written, -⟩ := (holds 0 0 0 0 _ issues unhalted).1 1 0 0 0 issueOf_disordered
  rw [exec_bundleIssue_of_run issues unhalted issueOf_disordered rfl nofun] at issued
  obtain rfl := Host.Outcome.next.inj issued
  have zero : (1 : Byte) = 0 := ldByte_bundleRun_disordered.symm.trans (written 0 (by decide))
  exact absurd zero (by decide)

end Sys2Proof.Spires
end

section
/-!
SUPPORT. A dispatch (R244..R246): the flow and the target it picks, and the running tasks after it.
-/
namespace Sys2Proof.Tasks

open Sys2Proof Sys2Proof.Machine

variable {s : State} {p f t : Nat}

/-! ### Lists -/

theorem nodup_map_append_singleton {α β : Type} {g : α → β} {l : List α} {a : α} (distinct : (l.map g).Nodup)
    (new : g a ∉ l.map g) : ((l ++ [a]).map g).Nodup := by
  rw [List.map_append, List.map_singleton, List.nodup_append]
  refine ⟨distinct, List.pairwise_singleton _ _, fun b old c last => ?_⟩
  rw [List.mem_singleton.1 last]
  exact fun same => new (same ▸ old)

/-! ### The scheduler after an update of the state -/

@[simp] theorem setTu_tsk (u : TskUnit) : (s.setTu p f u).tsk = tput s.tsk p u := by
  rw [State.setTu]
  exact Domes.foldS_keeps (P := fun v : State => v.tsk = tput s.tsk p u)
    (fun _ v kept => (v.setRegN_tsk _ _ _ _ _).trans kept) _ (by simp)

@[simp] theorem sprStart_tsk (k x addr : Nat) (args : List Word) : (s.sprStart p k x addr args).tsk = s.tsk := rfl

/-! ### The flow and the target -/

theorem on_eq_none_iff {u : TskUnit} : u.on t = none ↔ t ∉ u.running.map Prod.fst := by
  simp only [TskUnit.on, Option.map_eq_none_iff, List.find?_eq_none, List.mem_map, beq_iff_eq, not_exists, not_and]

theorem flowBusy_eq_false_iff {u : TskUnit} : u.flowBusy f = false ↔ f ∉ u.running.map fun e => e.2.flow := by
  simp [TskUnit.flowBusy]

theorem on_eq_none_of_tgtEligible (h : s.tgtEligible p t = true) : (s.tu p).on t = none := by
  simp only [State.tgtEligible, Bool.and_eq_true, Option.isNone_iff_eq_none] at h
  obtain ⟨⟨-, idle⟩, -⟩ := h
  exact idle

/-- The target a dispatch picks is eligible. -/
theorem tgtEligible_of_tgtFor (h : s.tgtFor p f = some t) : s.tgtEligible p t = true := by
  have picked := List.find?_some h
  simp only [Bool.and_eq_true] at picked
  obtain ⟨⟨-, eligible⟩, -⟩ := picked
  exact eligible

/-- The flow a dispatch picks is free. -/
theorem flowBusy_eq_false_of_flowFor {prio last : Nat} (h : s.flowFor p prio last = some f) :
    (s.tu p).flowBusy f = false := by
  have picked := List.find?_some h
  simp only [Bool.and_eq_true, Bool.not_eq_true'] at picked
  obtain ⟨⟨⟨-, free⟩, -⟩, -⟩ := picked
  exact free

/-! ### One dispatch -/

/-- A dispatch leaves the running tasks as they are, or adds a READY task of a free flow, on an eligible target. -/
theorem tskDispatch_running (s : State) (p : Nat) :
    ((s.tskDispatch p).tu p).running = (s.tu p).running ∨
      ∃ t k, k ∈ (s.tu p).ready ∧ (s.tu p).flowBusy k.flow = false ∧ s.tgtEligible p t = true ∧
        ((s.tskDispatch p).tu p).running = (s.tu p).running ++ [(t, k)] := by
  unfold State.tskDispatch
  extract_lets u pick
  cases hpick : pick with
  | none => exact .inl rfl
  | some choice =>
    obtain ⟨f, prio⟩ := choice
    have free : u.flowBusy f = false := by
      cases high : s.flowFor p 1 u.last1 with
      | some g =>
        simp only [pick, high, Option.some.injEq, Prod.mk.injEq] at hpick
        exact hpick.1 ▸ flowBusy_eq_false_of_flowFor high
      | none =>
        simp only [pick, high, Option.map_eq_some_iff, Prod.mk.injEq] at hpick
        obtain ⟨g, low, rfl, -⟩ := hpick
        exact flowBusy_eq_false_of_flowFor low
    cases target : s.tgtFor p f with
    | none => exact .inl (by simp only [target])
    | some t =>
      cases head : u.ready.find? (fun x => x.flow == f) with
      | none => exact .inl (by simp only [target, head])
      | some k =>
        have flow : k.flow = f := by simpa using List.find?_some head
        refine .inr ⟨t, k, List.mem_of_find?_eq_some head, flow ▸ free, tgtEligible_of_tgtFor target, ?_⟩
        simp only [target, head]
        split <;> simp [State.tu, u]

end Sys2Proof.Tasks
end

section
/-!
SUPPORT. Statement O25 of the task schedulers (R235..R258).
-/
namespace Sys2Proof.Tasks

open Sys2Proof Sys2Proof.Machine

/-- Settles O25 (R236, R244): the task a dispatch adds lies on a target that runs none, and its flow has no running
task. -/
theorem dispatchKeepsFlowsSerial : Obligations.DispatchKeepsFlowsSerial := by
  unfold Obligations.DispatchKeepsFlowsSerial
  intro p s targets flows
  refine ⟨s.tskDispatch p, rfl, ?_⟩
  obtain same | ⟨t, k, ready, free, eligible, added⟩ := tskDispatch_running s p
  · rw [same]
    exact ⟨targets, flows, .inl rfl⟩
  · have target := on_eq_none_iff.1 (on_eq_none_of_tgtEligible eligible)
    have flow := flowBusy_eq_false_iff.1 free
    refine ⟨?_, ?_, .inr ⟨t, k, ready, added, eligible⟩⟩
    · rw [added]
      exact nodup_map_append_singleton targets target
    · rw [added]
      exact nodup_map_append_singleton flows flow

end Sys2Proof.Tasks
end

section
/-!
SUPPORT. A field of an event controller read after a write of another one, hidden entries beside them, and what clearing a
source, settling a group, raises and alarms leave of the core targets (R259, R261, R265, R428).
-/
namespace Sys2Proof.Events

open Sys2Proof Sys2Proof.Machine Sys2Proof.Panel Sys2Proof.Campanile

/-! ### The registers of a controller -/

/-- The registers the two kinds of controller share. -/
def evRegs : List EvReg :=
  [.ctl, .stat, .fbTmo, .pend, .mask, .cls, .sgrp, .route, .coal, .tim, .gstat, .ack0, .ack1, .eoi, .tctl, .tstat]

theorem mem_evRegs (r : EvReg) : r ∈ evRegs := by
  cases r <;> decide

/-- The pavilions' controllers have one set of register names, the HEVC has another. -/
theorem evId_congr {c d : Nat} (kind : c < 32 ↔ d < 32) : evId c = evId d := by
  funext r
  cases r <;> simp only [evId, kind]

/-- Each shared register of a controller has a name of its own. -/
theorem evId_injective (c : Nat) : Function.Injective (evId c) := by
  have names : ∀ d ∈ [0, 32], ∀ r ∈ evRegs, ∀ r' ∈ evRegs, evId d r = evId d r' → r = r' := by decide
  intro r r'
  by_cases pavilion : c < 32
  · rw [evId_congr (d := 0) (by omega)]
    exact names 0 (by decide) r (mem_evRegs r) r' (mem_evRegs r')
  · rw [evId_congr (d := 32) (by omega)]
    exact names 32 (by decide) r (mem_evRegs r) r' (mem_evRegs r')

/-! ### A field after a write -/

variable (s : State) (c : Nat) (r : EvReg) (i lo w v : Nat)

theorem ev_setEv_same (h : lo + w ≤ 64) : (s.setEv c r i lo w v).ev c r i lo w = v % 2 ^ w := by
  rw [State.ev, State.setEv, regN_setRegN_same, bitsOf_mod_two_pow _ _ _ _ h, bitsOf_setBitsOf_same]

/-- A field keeps its value beside a write of a disjoint field of its register. -/
theorem ev_setEv_disjoint {lo' w' : Nat} (hw : lo' + w' ≤ 64) (h : lo' + w' ≤ lo ∨ lo + w ≤ lo') :
    (s.setEv c r i lo w v).ev c r i lo' w' = s.ev c r i lo' w' := by
  rw [State.ev, State.setEv, regN_setRegN_same, bitsOf_mod_two_pow _ _ _ _ hw, bitsOf_setBitsOf_disjoint _ _ _ _ _ _ h,
    State.ev]

/-- A write of one register of a controller leaves its others. -/
theorem ev_setEv_ne {r' : EvReg} (h : r ≠ r') (i' lo' w' : Nat) :
    (s.setEv c r i lo w v).ev c r' i' lo' w' = s.ev c r' i' lo' w' := by
  rw [State.ev, State.setEv, Gatehouse.regN_setRegN_ne s fun same => h (evId_injective c same), State.ev]

@[simp] theorem ev_setH (k : Hid) (x a b d : Nat) : (s.setH k x a b d).ev c r i lo w = s.ev c r i lo w := rfl

@[simp] theorem h_setEv (k : Hid) (a b d : Nat) : (s.setEv c r i lo w v).h k a b d = s.h k a b d := rfl

/-- A register no controller has is written. -/
theorem ev_setRegN {id : RegId} (h : NotEvent id) (x a b d : Nat) :
    (s.setRegN id x a b d).ev c r i lo w = s.ev c r i lo w := by
  rw [State.ev, Gatehouse.regN_setRegN_ne s (h c r).symm, State.ev]

/-! ### Hidden entries -/

theorem h_setH_id_ne {k k' : Hid} (h : k ≠ k') (x a b d a' b' d' : Nat) :
    (s.setH k x a b d).h k' a' b' d' = s.h k' a' b' d' :=
  s.h_setH_ne k k' x a b d a' b' d' fun same => h (congrArg HidKey.id same)

theorem tfind_tfilter {κ α : Type} [DecidableEq κ] (p : κ → Bool) (x : κ) (kept : p x = true) (l : Table κ α) :
    tfind (tfilter l p) x = tfind l x := by
  induction l with
  | nil => rfl
  | cons e l ih =>
    obtain ⟨k, a⟩ := e
    rw [tfilter] at ih
    by_cases here : k = x
    · simp [tfilter, tfind, here, kept]
    · by_cases stays : p k = true
      · simp [tfilter, tfind, here, stays, ih]
      · simp [tfilter, tfind, here, stays, ih]

/-- Hidden entries of a kind that is not filtered out stay. -/
theorem h_tfilter (p : HidKey → Bool) (k : Hid) (a b d : Nat) (kept : p ⟨k, a, b, d⟩ = true) :
    ({ s with hid := tfilter s.hid p } : State).h k a b d = s.h k a b d :=
  congrArg (Option.getD · 0) (tfind_tfilter p _ kept s.hid)

/-! ### What raises, settled groups and alarms leave -/

/-- `t` shows every register of controller c but the pending bits and the status of its groups, and holds the stacks of
its core targets, as `s` does. -/
structure TargetsKept (c : Nat) (s t : State) : Prop where
  ev : ∀ r i lo w, r ≠ .pend → r ≠ .gstat → t.ev c r i lo w = s.ev c r i lo w
  stack : ∀ x, t.h .evcStack c x = s.h .evcStack c x

namespace TargetsKept

variable {c : Nat} {s t : State}

theorem refl (c : Nat) (s : State) : TargetsKept c s s := ⟨fun _ _ _ _ _ _ => rfl, fun _ => rfl⟩

theorem ite (p : Prop) [Decidable p] {u v : State} (hu : TargetsKept c s u) (hv : TargetsKept c s v) :
    TargetsKept c s (if p then u else v) := by
  split
  · exact hu
  · exact hv

theorem setH (h : TargetsKept c s t) {k : Hid} (hk : k ≠ .evcStack) (x a b d : Nat) :
    TargetsKept c s (t.setH k x a b d) :=
  ⟨h.ev, fun y => (h_setH_id_ne t hk _ _ _ _ _ _ _).trans (h.stack y)⟩

theorem setPend (h : TargetsKept c s t) (i lo w v : Nat) : TargetsKept c s (t.setEv c .pend i lo w v) :=
  ⟨fun r i' lo' w' hp hg => (ev_setEv_ne t c _ _ _ _ _ hp.symm _ _ _).trans (h.ev r i' lo' w' hp hg), h.stack⟩

theorem setGstat (h : TargetsKept c s t) (i lo w v : Nat) : TargetsKept c s (t.setEv c .gstat i lo w v) :=
  ⟨fun r i' lo' w' hp hg => (ev_setEv_ne t c _ _ _ _ _ hg.symm _ _ _).trans (h.ev r i' lo' w' hp hg), h.stack⟩

theorem setRegN (h : TargetsKept c s t) {id : RegId} (hid : NotEvent id) (x a b d : Nat) :
    TargetsKept c s (t.setRegN id x a b d) :=
  ⟨fun r i lo w hp hg => (ev_setRegN t c r i lo w hid _ _ _ _).trans (h.ev r i lo w hp hg), h.stack⟩

theorem evCount (h : TargetsKept c s t) (g n : Nat) : TargetsKept c s (t.evCount c g n) := by
  unfold State.evCount
  refine .ite _ h ?_
  extract_lets was t₁ now t₂
  have started : TargetsKept c s t₁ :=
    .ite _ (h.setH (by decide) _ _ _ _ |>.setH (by decide) _ _ _ _ |>.setGstat _ _ _ _) h
  have counted : TargetsKept c s t₂ := started.setGstat _ _ _ _
  exact .ite _ (counted.setGstat _ _ _ _) counted

theorem raise (h : TargetsKept c s t) (q : Nat) : TargetsKept c s (t.raise c q) := by
  unfold State.raise
  extract_lets t₁ t₂
  have noted : TargetsKept c s t₁ := h.setH (by decide) _ _ _ _
  have pending : TargetsKept c s t₂ := noted.setPend _ _ _ _
  exact .ite _ (noted.setH (by decide) _ _ _ _) (.ite _ pending (pending.evCount _ _))

theorem alarm (h : TargetsKept c s t) (n ty : Nat) : TargetsKept c s (t.alarm n ty) := by
  unfold State.alarm State.alarmSend
  extract_lets was t₁
  have counted : TargetsKept c s t₁ := h.setH (by decide) _ _ _ _
  have sent : TargetsKept c s (t₁.setBit .TEL_ALM_PEND (ty % 32) true n (ty / 32)) :=
    counted.setRegN (notEvent_of_block (by decide)) _ _ _ _
  exact .ite _ counted (sent.setH (by decide) _ _ _ _ |>.setH (by decide) _ _ _ _ |>.setH (by decide) _ _ _ _
    |>.setH (by decide) _ _ _ _ |>.setH (by decide) _ _ _ _)

theorem devAlarm (h : TargetsKept c s t) (ty : Nat) : TargetsKept c s (t.devAlarm ty) := h.alarm _ ty

theorem evSettle (h : TargetsKept c s t) (g : Nat) : TargetsKept c s (t.evSettle c g) :=
  .ite _ (h.setGstat _ _ _ _ |>.setGstat _ _ _ _ |>.setGstat _ _ _ _ |>.setGstat _ _ _ _ |>.setH (by decide) _ _ _ _) h

end TargetsKept
end Sys2Proof.Events
end

section
/-!
SUPPORT, for O26. An acknowledge read (R265, R268, R269, R275): the source it delivers, and the state it leaves.
-/
namespace Sys2Proof.Events

open Sys2Proof Sys2Proof.Machine

variable (s : State) {c t cls q : Nat}

/-! ### The source -/

/-- R269, R275. Nothing is delivered while HOLD is in force, from a frozen stack, or to a stack that does not take the
class. -/
theorem evNext_of_blocked (blocked : s.evHold c = true ∨ s.frozen c t = true ∨ stackTakes (s.h .evcStack c t) cls = false) :
    s.evNext c t cls = none := by
  rw [State.evNext, if_pos]
  simpa [or_assoc] using blocked

/-- R265. The source delivered is the lowest one offered. -/
theorem evOffers_of_evNext (next : s.evNext c t cls = some q) :
    s.evOffers c t cls q = true ∧ ∀ r < q, s.evOffers c t cls r = false := by
  rw [State.evNext] at next
  split at next
  · cases next
  · obtain ⟨offered, -, lower⟩ := List.find?_range_eq_some.1 next
    exact ⟨offered, fun r hr => by simpa using lower r hr⟩

/-- R268. A source offered is not masked. -/
theorem evMasked_of_evOffers (offered : s.evOffers c t cls q = true) : s.evMasked c q = false := by
  simp only [State.evOffers, Bool.and_eq_true, Bool.not_eq_true'] at offered
  obtain ⟨⟨⟨⟨-, unmasked⟩, -⟩, -⟩, -⟩ := offered
  exact unmasked

/-! ### What the read leaves -/

/-- Clearing a source removes hidden entries of the gatehouse only. -/
theorem evClear_h {k : Hid} (hk : k ≠ .gateNoted) (a b d : Nat) :
    (s.evClear c q).h k a b d = (s.setH .evcCount 0 c q).h k a b d := by
  unfold State.evClear
  extract_lets cleared
  have same : cleared.h k a b d = (s.setH .evcCount 0 c q).h k a b d := rfl
  split
  · rw [h_tfilter cleared _ _ _ _ _ (by simp [hk]), same]
  · exact same

/-- Clearing a source writes no register but its pending bit. -/
theorem evClear_ev (r : EvReg) (i lo w : Nat) :
    (s.evClear c q).ev c r i lo w = (s.setEv c .pend (q / 32) (q % 32) 1 0).ev c r i lo w := by
  unfold State.evClear
  extract_lets cleared
  split <;> rfl

theorem evClear_evPend : (s.evClear c q).evPend c q = false := by
  rw [State.evPend, evClear_ev, ev_setEv_same _ _ _ _ _ _ _ (by omega)]
  rfl

@[simp] theorem evClear_evcCount : (s.evClear c q).h .evcCount c q = 0 := by
  rw [evClear_h s (by decide), State.h_setH_same]

theorem setStack_evPend (st : Nat) : (s.setStack c t st).evPend c q = s.evPend c q := by
  simp [State.setStack, State.evPend, ev_setEv_ne]

@[simp] theorem setStack_evcCount (st : Nat) : (s.setStack c t st).h .evcCount c q = s.h .evcCount c q := by
  simp [State.setStack, h_setH_id_ne]

@[simp] theorem setStack_evcStack (st : Nat) : (s.setStack c t st).h .evcStack c t = st := by
  simp [State.setStack]

theorem evSettle_evPend (g : Nat) : (s.evSettle c g).evPend c q = s.evPend c q := by
  unfold State.evSettle
  split
  · simp [State.evPend, ev_setEv_ne]
  · rfl

@[simp] theorem evSettle_evcCount (g : Nat) : (s.evSettle c g).h .evcCount c q = s.h .evcCount c q := by
  unfold State.evSettle
  split
  · simp [h_setH_id_ne]
  · rfl

@[simp] theorem evSettle_evcStack (g : Nat) : (s.evSettle c g).h .evcStack c t = s.h .evcStack c t :=
  (TargetsKept.refl c s).evSettle g |>.stack t

/-- R265. An acknowledge read that delivers a source clears its pending bit and count and pushes its class. -/
theorem ackTake_of_evNext (next : s.evNext c t cls = some q) :
    (s.ackTake c t cls).evPend c q = false ∧ (s.ackTake c t cls).h .evcCount c q = 0 ∧
      (s.ackTake c t cls).h .evcStack c t = stackPush (s.h .evcStack c t) cls := by
  rw [State.ackTake, next]
  refine ⟨?_, by simp, by simp⟩
  rw [evSettle_evPend, setStack_evPend, evClear_evPend]

end Sys2Proof.Events
end

section
/-!
SUPPORT, for O27. An end of interrupt (R270): the stack it pops, and the fault of one that does not match.
-/
namespace Sys2Proof.Events

open Sys2Proof Sys2Proof.Machine

variable (s : State) {c t cls : Nat}

theorem eoi_of_frozen (frozen : s.frozen c t = true) : s.eoi c t cls = s := if_pos frozen

theorem eoi_of_top (unfrozen : s.frozen c t = false) (held : s.h .evcStack c t ≠ 0)
    (top : stackTop (s.h .evcStack c t) = cls) :
    s.eoi c t cls = s.setStack c t (stackPop (s.h .evcStack c t)) := by
  rw [State.eoi, if_neg (by simp [unfrozen]), if_pos ⟨held, top⟩]

/-- R270. A stack fault: STACK_FROZEN of the target with the class, STACK_FAULT of the controller, and no request to the
target. -/
def stackFault (s : State) (c t cls : Nat) : State :=
  s.setEv c .tstat t 3 1 1 |>.setEv c .tstat t 4 1 cls |>.setEv c .stat 0 1 1 1 |>.setEv c .tstat t 7 1 0
    |>.setEv c .tstat t 8 1 0

theorem stackFault_frozen : (stackFault s c t cls).frozen c t = true := by
  simp [stackFault, State.frozen, ev_setEv_same, ev_setEv_ne, ev_setEv_disjoint]

theorem stackFault_class (binary : cls < 2) : (stackFault s c t cls).ev c .tstat t 4 1 = cls := by
  simp [stackFault, ev_setEv_same, ev_setEv_ne, ev_setEv_disjoint, Nat.mod_eq_of_lt binary]

theorem stackFault_flag : (stackFault s c t cls).ev c .stat 0 1 1 = 1 := by
  simp [stackFault, ev_setEv_same, ev_setEv_ne]

/-- R270. Beside the stack fault an unmatched end of interrupt raises an event and, for a lodge, an alarm, which leave
the core targets alone. -/
theorem eoi_of_mismatch (unfrozen : s.frozen c t = false)
    (mismatch : s.h .evcStack c t = 0 ∨ stackTop (s.h .evcStack c t) ≠ cls) :
    TargetsKept c (stackFault s c t cls) (s.eoi c t cls) := by
  rw [State.eoi, if_neg (by simp [unfrozen]),
    if_neg fun ⟨held, top⟩ => mismatch.elim held fun other => other top]
  have raised := (TargetsKept.refl c (stackFault s c t cls)).raise (if c < 32 then 500 else 1028)
  exact .ite _ (raised.alarm _ _) (.ite _ raised (raised.devAlarm _))

end Sys2Proof.Events
end

section
/-!
SUPPORT. Statements O26 and O27 of the event controllers (R259..R279).
-/
namespace Sys2Proof.Events

open Sys2Proof Sys2Proof.Machine

/-- Settles O26 (R265, R268, R269, R275): the source delivered is the first one offered, and none is offered under HOLD or
to a stack that does not take the class. -/
theorem acknowledgeClaimsTheLowestEligibleSource : Obligations.AcknowledgeClaimsTheLowestEligibleSource := by
  unfold Obligations.AcknowledgeClaimsTheLowestEligibleSource
  intro c t cls s
  refine ⟨evNext_of_blocked s, fun spurious => ⟨?_, ?_⟩, fun q next _ _ => ?_⟩
  · rw [State.ackWord, spurious]
  · exact congrArg Host.Outcome.next (by rw [State.ackTake, spurious])
  · obtain ⟨offered, lower⟩ := evOffers_of_evNext s next
    refine ⟨lower, offered, evMasked_of_evOffers s offered, ?_, _, rfl, ackTake_of_evNext s next⟩
    rw [State.ackWord, next]

/-- Settles O27 (R270), by the three cases of an end of interrupt: a frozen stack, a matching top, and a stack fault,
whose event and alarm leave the core targets alone. -/
theorem endOfInterruptPopsOrFreezes : Obligations.EndOfInterruptPopsOrFreezes := by
  unfold Obligations.EndOfInterruptPopsOrFreezes
  intro c t cls s _ binary
  refine ⟨fun frozen => ?_, fun unfrozen held top => ?_, fun unfrozen mismatch => ?_⟩
  · exact congrArg Host.Outcome.next (eoi_of_frozen s frozen)
  · exact congrArg Host.Outcome.next (eoi_of_top s unfrozen held top)
  · have kept := eoi_of_mismatch s unfrozen mismatch
    refine ⟨_, rfl, ?_, ?_, ?_, kept.stack t⟩
    · rw [State.frozen, kept.ev .tstat _ _ _ nofun nofun]
      exact stackFault_frozen s
    · rw [kept.ev .tstat _ _ _ nofun nofun, stackFault_class s binary]
    · rw [kept.ev .stat _ _ _ nofun nofun, stackFault_flag]

end Sys2Proof.Events
end

section
/-!
SUPPORT, for O31. The reservation entries of a target (R331) after each operation on them.
-/
namespace Sys2Proof.Promenade

open Sys2Proof Sys2Proof.Machine

variable (s : State) (t line node port : Nat)

@[simp] theorem resvOf_setResv_same (l : List (Nat × Nat × Nat)) : (s.setResv t l).resvOf t = l :=
  tget_tput_same _ _ _ _

theorem resvHeld_iff : s.resvHeld t line node port = true ↔ (line, node, port) ∈ s.resvOf t := by
  rw [State.resvHeld, List.contains_iff_mem]

theorem resvHeld_eq_false_iff : s.resvHeld t line node port = false ↔ (line, node, port) ∉ s.resvOf t := by
  rw [← resvHeld_iff, Bool.not_eq_true]

theorem resvHeld_resvSet : (s.resvSet t line node port).resvHeld t line node port = true := by
  rw [resvHeld_iff, State.resvSet, resvOf_setResv_same]
  exact List.mem_append_right _ List.mem_cons_self

theorem not_resvHeld_resvDrop : (s.resvDrop t node port).resvHeld t line node port = false := by
  simp [resvHeld_eq_false_iff, State.resvDrop]

/-- R331. A write of a line leaves no reservation of it but the writer's own. -/
theorem not_resvHeld_resvHit {node' port' : Nat} (other : (node', port') ≠ (node, port)) :
    (s.resvHit t line node' port').resvHeld t line node port = false := by
  rw [resvHeld_eq_false_iff, State.resvHit, resvOf_setResv_same]
  intro held
  have kept : node = node' ∧ port = port' := by simpa using (List.mem_filter.mp held).2
  exact other (by rw [kept.1, kept.2])

/-! ### Load-reserve and store-conditional (R330) -/

variable (a b old : Word) (off : Nat) (st : State → Word → State)

theorem amoMem_loadReserve : s.amoMem t off 0 a b old node port st = (old, s.resvSet t (off / 64) node port) := rfl

theorem amoMem_storeConditional_of_held (held : s.resvHeld t (off / 64) node port = true) :
    s.amoMem t off 1 a b old node port st =
      (0, ((st s a).resvHit t (off / 64) node port).resvDrop t node port) := if_pos held

theorem amoMem_storeConditional_of_not_held (lost : s.resvHeld t (off / 64) node port = false) :
    s.amoMem t off 1 a b old node port st = (1, s.resvDrop t node port) := if_neg (by simp [lost])

/-- R331. A store-conditional drops its requester's reservation, whether it stores or not. -/
theorem not_resvHeld_amoMem_storeConditional :
    (s.amoMem t off 1 a b old node port st).2.resvHeld t (off / 64) node port = false := by
  cases held : s.resvHeld t (off / 64) node port
  case true =>
    rw [amoMem_storeConditional_of_held _ _ _ _ _ _ _ _ _ held]
    exact not_resvHeld_resvDrop ..
  case false =>
    rw [amoMem_storeConditional_of_not_held _ _ _ _ _ _ _ _ _ held]
    exact not_resvHeld_resvDrop ..

/-- Settles O31 (R330, R331), by what each operation leaves of the reservation entries. -/
theorem storeConditionalNeedsItsReservation : Obligations.StoreConditionalNeedsItsReservation := by
  unfold Obligations.StoreConditionalNeedsItsReservation
  intro s rs off a b old node port st
  refine ⟨resvHeld_resvSet .., fun _ _ other => not_resvHeld_resvHit _ _ _ _ _ other, fun lost => ?_, fun held => ?_,
    not_resvHeld_amoMem_storeConditional ..⟩
  · rw [amoMem_storeConditional_of_not_held _ _ _ _ _ _ _ _ _ lost]
    exact ⟨rfl, rfl⟩
  · rw [amoMem_storeConditional_of_held _ _ _ _ _ _ _ _ _ held]
    exact ⟨rfl, rfl⟩

end Sys2Proof.Promenade
end

section
/-!
SUPPORT. A frame: what raised events, alarms and what follows a change of capacity, of a plot or of a function leave alone
(R190, R259, R261, R376, R428, R455), for a block of registers and a list of hidden entries of one's choice.
-/
namespace Sys2Proof.Frame

open Sys2Proof Sys2Proof.Machine

/-- The blocks that events, alarms, admission, domes, streams, queue pairs and plots write as they follow something. -/
def followBlocks : List Block := [.evc, .hevc, .telN, .adm, .dome, .tio, .gate, .rdoQp, .cfgP]

/-- The hidden entries they write. -/
def followHids : List Hid :=
  [.evcCount, .evcShadow, .evcCoal, .evcExpiry, .almCount, .almTime, .almSent, .almDrops, .almTaken, .telDrops, .admKept,
    .admKeptAt, .admPending, .admEffect, .admMoveAt, .domePower, .domeSr, .domeSrHot]

/-- A block of registers and a list of hidden entries that nothing of the above writes. -/
structure Scope where
  block : Block
  hids : List Hid
  far : block ∉ followBlocks
  apart : ∀ k ∈ followHids, k ∉ hids

/-- `t` holds the registers and the hidden entries of a scope as `s` does. -/
structure Kept (σ : Scope) (s t : State) : Prop where
  reg : ∀ id w i j, id.row.block = σ.block → t.reg id w i j = s.reg id w i j
  h : ∀ k w i j, k ∈ σ.hids → t.h k w i j = s.h k w i j

variable {σ : Scope} {s t u : State}

namespace Kept

theorem refl (σ : Scope) (s : State) : Kept σ s s := ⟨fun _ _ _ _ _ => rfl, fun _ _ _ _ _ => rfl⟩

theorem trans (k : Kept σ s t) (k' : Kept σ t u) : Kept σ s u :=
  ⟨fun _ _ _ _ hb => (k'.reg _ _ _ _ hb).trans (k.reg _ _ _ _ hb),
    fun _ _ _ _ hk => (k'.h _ _ _ _ hk).trans (k.h _ _ _ _ hk)⟩

theorem fld (k : Kept σ s t) (f : Fld) (w i j : Nat) (hf : f.r.row.block = σ.block) : t.fld f w i j = s.fld f w i j := by
  rw [State.fld, State.fld, State.regN, State.regN, k.reg _ _ _ _ hf]

theorem flag (k : Kept σ s t) (f : Fld) (w i j : Nat) (hf : f.r.row.block = σ.block) :
    t.flag f w i j = s.flag f w i j := congrArg (· == 1) (k.fld f w i j hf)

/-! ### The named updates -/

/-- A change of anything but registers, fuses and hidden state. -/
theorem other (k : Kept σ s t) (regs : u.regs = t.regs) (fuses : u.fuses = t.fuses) (hid : u.hid = t.hid) :
    Kept σ s u where
  reg id w i j hb := by
    rw [← k.reg id w i j hb]
    unfold State.reg State.initial State.fuse
    rw [regs, fuses]
  h x w i j hx := by rw [← k.h x w i j hx, State.h, State.h, hid]

theorem ite (c : Prop) [Decidable c] {u v : State} (hu : Kept σ s u) (hv : Kept σ s v) :
    Kept σ s (if c then u else v) := by
  split
  · exact hu
  · exact hv

theorem foldS {α : Type} {f : α → State → State} (hf : ∀ a t, Kept σ s t → Kept σ s (f a t)) (l : List α) :
    ∀ {t}, Kept σ s t → Kept σ s (Machine.foldS f l t) := by
  induction l with
  | nil => exact fun k => k
  | cons a as ih => exact fun k => ih (hf a _ k)

theorem setReg (k : Kept σ s t) {id : RegId} (hid : id.row.block ≠ σ.block) (v : DWord) (w i j : Nat) :
    Kept σ s (t.setReg id v w i j) where
  reg id' w' i' j' hb := by
    rw [t.reg_setReg_id_ne id id' v w i j w' i' j' (fun e => hid (e ▸ hb)), k.reg _ _ _ _ hb]
  h := k.h

theorem setRegN (k : Kept σ s t) {id : RegId} (hid : id.row.block ≠ σ.block) (v w i j : Nat) :
    Kept σ s (t.setRegN id v w i j) := k.setReg hid _ w i j

theorem setFld (k : Kept σ s t) {f : Fld} (hf : f.r.row.block ≠ σ.block) (v w i j : Nat) :
    Kept σ s (t.setFld f v w i j) := k.setRegN hf _ w i j

theorem setFlag (k : Kept σ s t) {f : Fld} (hf : f.r.row.block ≠ σ.block) (b : Bool) (w i j : Nat) :
    Kept σ s (t.setFlag f b w i j) := k.setFld hf _ w i j

theorem setH (k : Kept σ s t) {x : Hid} (hx : x ∉ σ.hids) (v w i j : Nat) : Kept σ s (t.setH x v w i j) where
  reg := k.reg
  h x' w' i' j' hx' := by
    have ne : x ≠ x' := fun e => hx (e ▸ hx')
    rw [← k.h x' w' i' j' hx', t.h_setH_ne x x' v w i j w' i' j' (fun e => ne (congrArg HidKey.id e))]

/-! ### What follows -/

theorem ne_of_follow {b : Block} (hb : b ∈ followBlocks) : b ≠ σ.block := fun e => σ.far (e ▸ hb)

theorem followRegN (k : Kept σ s t) {id : RegId} (hid : id.row.block ∈ followBlocks) (v w i j : Nat) :
    Kept σ s (t.setRegN id v w i j) := k.setRegN (ne_of_follow hid) v w i j

theorem followFld (k : Kept σ s t) {f : Fld} (hf : f.r.row.block ∈ followBlocks) (v w i j : Nat) :
    Kept σ s (t.setFld f v w i j) := k.setFld (ne_of_follow hf) v w i j

theorem followFlag (k : Kept σ s t) {f : Fld} (hf : f.r.row.block ∈ followBlocks) (b : Bool) (w i j : Nat) :
    Kept σ s (t.setFlag f b w i j) := k.setFlag (ne_of_follow hf) b w i j

theorem followH (k : Kept σ s t) {x : Hid} (hx : x ∈ followHids) (v w i j : Nat) : Kept σ s (t.setH x v w i j) :=
  k.setH (σ.apart x hx) v w i j

theorem setEv (k : Kept σ s t) (c : Nat) (r : EvReg) (i lo w v : Nat) : Kept σ s (t.setEv c r i lo w v) := by
  refine k.followRegN ?_ _ _ _ _
  rcases Campanile.evId_block c r with e | e <;> rw [e] <;> decide

theorem evCount (k : Kept σ s t) (c g n : Nat) : Kept σ s (t.evCount c g n) := by
  unfold State.evCount
  refine .ite _ k ?_
  extract_lets was t₁ now t₂
  have started : Kept σ s t₁ :=
    .ite _ (k.followH (by decide) _ _ _ _ |>.followH (by decide) _ _ _ _ |>.setEv _ _ _ _ _ _) k
  have counted : Kept σ s t₂ := started.setEv _ _ _ _ _ _
  exact .ite _ (counted.setEv _ _ _ _ _ _) counted

theorem raise (k : Kept σ s t) (c q : Nat) : Kept σ s (t.raise c q) := by
  unfold State.raise
  extract_lets t₁ t₂
  have counted : Kept σ s t₁ := k.followH (by decide) _ _ _ _
  have pending : Kept σ s t₂ := counted.setEv _ _ _ _ _ _
  exact .ite _ (counted.followH (by decide) _ _ _ _) (.ite _ pending (pending.evCount _ _ _))

theorem device (k : Kept σ s t) (q : Nat) : Kept σ s (t.device q) := k.raise _ q

theorem raiseLocal (k : Kept σ s t) (p q : Nat) : Kept σ s (t.local p q) := k.raise p q

theorem alarmSend (k : Kept σ s t) (n ty : Nat) : Kept σ s (t.alarmSend n ty) :=
  k.followH (by decide) _ _ _ _ |>.followH (by decide) _ _ _ _ |>.followH (by decide) _ _ _ _
    |>.followH (by decide) _ _ _ _

theorem alarm (k : Kept σ s t) (n ty : Nat) : Kept σ s (t.alarm n ty) := by
  unfold State.alarm
  extract_lets was counted
  have counted_kept : Kept σ s counted := k.followH (by decide) _ _ _ _
  exact .ite _ counted_kept ((counted_kept.followRegN (by decide) _ _ _ _).followH (by decide) _ _ _ _ |>.alarmSend _ _)

theorem devAlarm (k : Kept σ s t) (ty : Nat) : Kept σ s (t.devAlarm ty) := k.alarm _ ty

/-! ### Capacity faults (R190) -/

theorem withDecls (k : Kept σ s t) (ds : Table Nat Decl) : Kept σ s { t with decls := ds } := k.other rfl rfl rfl

theorem jrnlBytes (k : Kept σ s t) (x : Nat) : Kept σ s (t.jrnlBytes x) := k.other rfl rfl rfl

theorem jrnlWritten (k : Kept σ s t) : Kept σ s t.jrnlWritten := foldS (fun _ _ k => .ite _ (k.jrnlBytes _) k) _ k

theorem admCounts (k : Kept σ s t) : Kept σ s t.admCounts :=
  (k.followFld (by decide) _ _ _ _).followFld (by decide) _ _ _ _

theorem domeRate (k : Kept σ s t) (w : List Nat) (sub add : Nat) : Kept σ s (t.domeRate w sub add) :=
  .ite _ (k.followFld (by decide) _ _ _ _) k

theorem tioFollow (k : Kept σ s t) (i st : Nat) : Kept σ s (t.tioFollow i st) := by
  refine foldS (fun r t k => ?_) _ k
  have shown (b : Bool) : Kept σ s (t.setFlag F.TIO_GRP_STAT_DEGRADED b r.w r.i) := k.followFlag (by decide) _ _ _ _
  exact .ite _ (.ite _ ((shown _).device _) (shown _)) k

theorem admState (k : Kept σ s t) (i st : Nat) : Kept σ s (t.admState i st) :=
  .ite _ k ((k.followFld (by decide) _ _ _ _).admCounts.device _ |>.tioFollow _ _)

theorem admWrite (k : Kept σ s t) (i : Nat) (w : List Nat) (p : Plan) : Kept σ s (t.admWrite i w p) :=
  ((k.withDecls _).domeRate _ _ _ |>.followRegN (by decide) _ _ _ _ |>.followRegN (by decide) _ _ _ _).jrnlWritten

theorem admFree (k : Kept σ s t) (i : Nat) : Kept σ s (t.admFree i) := by
  unfold State.admFree
  split
  · exact k
  · exact ((k.withDecls _).domeRate _ _ _ |>.admState _ _).admCounts.jrnlWritten

theorem admShow (k : Kept σ s t) (w gap : Nat) : Kept σ s (t.admShow w gap) :=
  k.followFld (by decide) _ _ _ _ |>.followFlag (by decide) _ _ _ _ |>.followRegN (by decide) _ _ _ _
    |>.followRegN (by decide) _ _ _ _

theorem admEnd (k : Kept σ s t) (reason w gap : Nat) : Kept σ s (t.admEnd reason w gap) :=
  k.followFld (by decide) _ _ _ _ |>.followFlag (by decide) _ _ _ _ |>.followRegN (by decide) _ _ _ _
    |>.followRegN (by decide) _ _ _ _ |>.device _

theorem admLost (k : Kept σ s t) (i : Nat) : Kept σ s (t.admLost i) := by
  unfold State.admLost
  split
  · exact (k.withDecls _).admState _ _
  · exact k.admState _ _

theorem admRecompute (k : Kept σ s t) (i code : Nat) : Kept σ s (t.admRecompute i code) := by
  unfold State.admRecompute
  split
  · exact k
  · extract_lets t₁ ans
    have noted : Kept σ s t₁ := (k.followFld (by decide) _ _ _ _).devAlarm _ |>.device _
    clear_value ans
    cases ans with
    | ok p =>
      have written (w : List Nat) (sub : Nat) := (noted.domeRate w sub 0).admWrite i w p
      exact .ite _ ((written _ _).followH (by decide) _ _ _ _)
        (.ite _ (((written _ _).admShow _ _).followH (by decide) _ _ _ _)
          (.ite _ (((noted.withDecls _).followH (by decide) _ _ _ _).admState _ _) (noted.admLost _)))
    | no =>
      exact .ite _ ((noted.admFree _).followH (by decide) _ _ _ _)
        (.ite _ (((noted.admFree _).followH (by decide) _ _ _ _).admEnd _ _ _) (noted.admLost _))

theorem capacityFault (k : Kept σ s t) (code : Nat) (hit : Decl → Bool) : Kept σ s (t.capacityFault code hit) :=
  foldS (fun i _ k => k.admRecompute i code) _ k

/-! ### Domes, streams, queue pairs and plots (R91, R133, R164, R376) -/

theorem domeShow (k : Kept σ s t) (p : Nat) : Kept σ s (t.domeShow p) := k.followFld (by decide) _ _ _ _

theorem srUpdate (k : Kept σ s t) (p : Nat) : Kept σ s (t.srUpdate p) := by
  unfold State.srUpdate
  extract_lets sr noted
  have noted_kept : Kept σ s noted := .ite _ (k.followH (by decide) _ _ _ _) k
  have moved (st : Nat) : Kept σ s (noted.setH .domeSr st p) := noted_kept.followH (by decide) _ _ _ _
  exact domeShow (.ite _ (.ite _ (moved 1) (.ite _ (moved 2) noted_kept)) (.ite _ (moved 3) noted_kept)) p

theorem degrade (k : Kept σ s t) (p i : Nat) : Kept σ s (t.degrade p i) :=
  .ite _ k ((k.followFlag (by decide) _ _ _ _).raiseLocal _ _ |>.alarm _ _)

theorem twinLost (k : Kept σ s t) (q : Nat) : Kept σ s (t.twinLost q) :=
  .ite _ (foldS (fun _ _ k => .ite _ (k.degrade _ _) k) _ k) k

theorem setQpState (k : Kept σ s t) (q st : Nat) : Kept σ s (t.setQpState q st) :=
  have shown : Kept σ s (t.setFld F.RDO_QP_STAT_STATE st 0 q) := k.followFld (by decide) _ _ _ _
  .ite _ (shown.device _) shown

theorem setQp (k : Kept σ s t) (q : Nat) (x : QPair) : Kept σ s (t.setQp q x) := k.other rfl rfl rfl

theorem qpsStall (k : Kept σ s t) (f : Nat) : Kept σ s (t.qpsStall f) :=
  foldS (fun q _ k => .ite _ ((k.setQp _ _).setQpState q 5) k) _ k

theorem plotEnter (k : Kept σ s t) (p q st : Nat) : Kept σ s (t.plotEnter p q st) := by
  unfold State.plotEnter
  extract_lets l held
  exact .ite _ (.ite _ (k.other rfl rfl rfl) (k.other rfl rfl rfl)) (.ite _ (k.other rfl rfl rfl) k)

theorem setPlot (k : Kept σ s t) (p q st : Nat) : Kept σ s (t.setPlot p q st) :=
  .ite _ k (((k.plotEnter p q st).followFld (by decide) _ _ _ _).raiseLocal _ _)

theorem clearBytes (k : Kept σ s t) (a n : Nat) : Kept σ s (t.clearBytes a n) := k.other rfl rfl rfl

theorem plotBlank (k : Kept σ s t) (p q : Nat) : Kept σ s (t.plotBlank p q) := (k.clearBytes _ _).setPlot p q 4

end Kept
end Sys2Proof.Frame
end

section
/-!
SUPPORT, for O36. The counters of a key's nodes as a protected write advances them (R388, R391): the nodes of a path differ,
and each advance adds one to its own counter and takes no other back.
-/
namespace Sys2Proof.Integrity

open Sys2Proof Sys2Proof.Machine Sys2Proof.Frame

/-! ### The path of a write (R389) -/

/-- Every node of a path lies at or above the number of its first one, and names one of its 64 children. -/
theorem mem_treePath {fuel base n node child : Nat} (inside : node < n) (hchild : child < 64) {e : Nat × Nat}
    (he : e ∈ treePath fuel base n node child) : base + node ≤ e.1 ∧ e.2 < 64 := by
  induction fuel generalizing base n node child with
  | zero =>
    simp only [treePath, List.mem_cons, List.not_mem_nil, or_false] at he
    rcases he with rfl | rfl <;> simp only <;> omega
  | succ fuel ih =>
    rw [treePath, List.mem_cons] at he
    rcases he with rfl | above
    · exact ⟨Nat.le_refl _, hchild⟩
    · split at above
      · rw [List.mem_singleton] at above
        subst above
        simp only
        omega
      · have parent := ih (by rw [cdiv, if_neg (by decide)]; omega) (Nat.mod_lt _ (by decide)) above
        omega

/-- The nodes of a path differ: each lies on a level above those before it. -/
theorem treePath_pairwise {fuel base n node child : Nat} (inside : node < n) :
    (treePath fuel base n node child).Pairwise fun d e => d.1 ≠ e.1 := by
  induction fuel generalizing base n node child with
  | zero =>
    rw [treePath, List.pairwise_pair]
    simp only
    omega
  | succ fuel ih =>
    have parent : node / 64 < cdiv n 64 := by
      rw [cdiv, if_neg (by decide)]
      omega
    rw [treePath, List.pairwise_cons]
    split
    · refine ⟨fun e above => ?_, List.pairwise_singleton _ _⟩
      rw [List.mem_singleton] at above
      subst above
      simp only
      omega
    · refine ⟨fun e above => ?_, ih parent⟩
      have := mem_treePath parent (Nat.mod_lt _ (by decide)) above
      simp only
      omega

/-- R386. An access that is handled as protected lies in the range of its key, so that its leaf is one of the key's. -/
theorem leaf_lt_of_guarded {s : State} {p k a : Nat} (guarded : s.keyAccess p k a = .guarded) :
    a / 4096 - s.regN .MEM_KEY_BASE p k < s.regN .MEM_KEY_PAGES p k := by
  have range : s.inKeyRange p k a = true := by
    rw [State.keyAccess] at guarded
    split at guarded
    case isTrue active => exact active.2
    case isFalse => split at guarded <;> contradiction
  simp only [State.inKeyRange, Bool.and_eq_true, decide_eq_true_eq] at range
  omega

theorem mem_keyPath {s : State} {p k a : Nat} (guarded : s.keyAccess p k a = .guarded) {e : Nat × Nat}
    (he : e ∈ s.keyPath p k a) : e.2 < 64 :=
  (mem_treePath (leaf_lt_of_guarded guarded) (Nat.mod_lt _ (by decide)) he).2

theorem keyPath_pairwise {s : State} {p k a : Nat} (guarded : s.keyAccess p k a = .guarded) :
    (s.keyPath p k a).Pairwise fun d e => d.1 ≠ e.1 := treePath_pairwise (leaf_lt_of_guarded guarded)

/-! ### Counters -/

/-- The minor counters and the major counters of keys. -/
def counters : Scope := ⟨.prm, [.keyMinor, .keyMajor], by decide, by decide⟩

/-- The minor counter of child c of a node. -/
def minor (s : State) (p k n c : Nat) : Nat := s.h .keyMinor p k (n * 64 + c)

/-- The major counter of a node. -/
def major (s : State) (p k n : Nat) : Nat := s.h .keyMajor p k n

/-- A node's counter, as the nonce carries it (R388). -/
def counter (s : State) (p k n c : Nat) : Nat := major s p k n * 128 + minor s p k n c

theorem minor_eq_of_kept {s t : State} (kept : Kept counters s t) (p k n c : Nat) : minor t p k n c = minor s p k n c :=
  kept.h _ _ _ _ (by decide)

theorem major_eq_of_kept {s t : State} (kept : Kept counters s t) (p k n : Nat) : major t p k n = major s p k n :=
  kept.h _ _ _ _ (by decide)

theorem keyFlag_kept (s : State) (f : Fld) (hf : f.r.row.block ≠ counters.block) (p k ty : Nat) :
    Kept counters s (s.keyFlag f p k ty) := by
  have noted := ((Kept.refl counters s).setFlag hf true p k 0).alarm p ty
  exact .ite _ noted (noted.raiseLocal p 474)

variable (s : State) (p k : Nat)

theorem minor_setH_minor_same (v n c : Nat) : minor (s.setH .keyMinor v p k (n * 64 + c)) p k n c = v := State.h_setH_same ..

theorem minor_setH_minor_ne (v : Nat) {n c n' c' : Nat} (hc : c < 64) (hc' : c' < 64) (other : n ≠ n' ∨ c ≠ c') :
    minor (s.setH .keyMinor v p k (n * 64 + c)) p k n' c' = minor s p k n' c' :=
  s.h_setH_ne _ _ _ _ _ _ _ _ _ fun e => by
    have := congrArg HidKey.j e
    simp only at this
    omega

/-- A node's minor counters return to 0, and no other one changes. -/
theorem minor_reset (n : Nat) {n' c' : Nat} (hc' : c' < 64) (cs : List Nat) (hcs : ∀ c ∈ cs, c < 64) :
    minor (foldS (fun c s => s.setH .keyMinor 0 p k (n * 64 + c)) cs s) p k n' c' =
      if n = n' ∧ c' ∈ cs then 0 else minor s p k n' c' := by
  induction cs generalizing s with
  | nil => simp [foldS]
  | cons c cs ih =>
    rw [foldS, ih _ fun d hd => hcs d (List.mem_cons_of_mem c hd)]
    have hc := hcs c List.mem_cons_self
    by_cases later : n = n' ∧ c' ∈ cs
    · rw [if_pos later, if_pos ⟨later.1, List.mem_cons_of_mem c later.2⟩]
    · rw [if_neg later]
      by_cases here : n = n' ∧ c = c'
      · obtain ⟨rfl, rfl⟩ := here
        rw [minor_setH_minor_same, if_pos ⟨rfl, List.mem_cons_self⟩]
      · rw [minor_setH_minor_ne _ _ _ _ hc hc' (by omega), if_neg]
        rintro ⟨rfl, mem⟩
        rcases List.mem_cons.1 mem with rfl | mem
        · exact here ⟨rfl, rfl⟩
        · exact later ⟨rfl, mem⟩

theorem major_reset (n n' : Nat) (cs : List Nat) :
    major (foldS (fun c s => s.setH .keyMinor 0 p k (n * 64 + c)) cs s) p k n' = major s p k n' := by
  induction cs generalizing s with
  | nil => rfl
  | cons c cs ih => rw [foldS, ih, major, major, s.h_setH_ne _ _ _ _ _ _ _ _ _ (by simp)]

/-- R391. Below 127 the minor counter of the child advances. -/
theorem keyBump_of_lt {e : Nat × Nat} (below : minor s p k e.1 e.2 < 127) :
    s.keyBump p k e = s.setH .keyMinor (minor s p k e.1 e.2 + 1) p k (e.1 * 64 + e.2) := if_pos below

/-- R391. At 127 the node's major counter advances, and its minor counters return to 0. -/
theorem keyBump_of_ge {e : Nat × Nat} (full : 127 ≤ minor s p k e.1 e.2) {n c : Nat} (hc : c < 64) :
    minor (s.keyBump p k e) p k n c = (if e.1 = n then 0 else minor s p k n c) ∧
      major (s.keyBump p k e) p k n = major s p k n + if e.1 = n then 1 else 0 := by
  let r := foldS (fun c s => s.setH .keyMinor 0 p k (e.1 * 64 + c)) (List.range 64) s
  let t := (r.setH .keyMajor (major r p k e.1 + 1) p k e.1).setH .keyChange (r.h .keyChange p k + 1) p k
  have kept : Kept counters t (s.keyBump p k e) := by
    rw [State.keyBump, if_neg (by simpa [minor] using full)]
    exact .ite _ (keyFlag_kept _ _ (by decide) _ _ _) (.refl _ _)
  have minor_t : minor t p k n c = minor r p k n c := by
    rw [minor, State.h_setH_ne _ _ _ _ _ _ _ _ _ _ (by simp), State.h_setH_ne _ _ _ _ _ _ _ _ _ _ (by simp)]
    rfl
  have major_t : major t p k n = major r p k n + if e.1 = n then 1 else 0 := by
    rw [major, State.h_setH_ne _ _ _ _ _ _ _ _ _ _ (by simp)]
    split
    case isTrue same =>
      subst same
      exact State.h_setH_same ..
    case isFalse other => exact State.h_setH_ne _ _ _ _ _ _ _ _ _ _ (by simpa using other)
  rw [minor_eq_of_kept kept, major_eq_of_kept kept, minor_t, major_t, minor_reset _ _ _ _ hc _ (by simp),
    major_reset]
  simp [hc]

/-- R391. An advance adds one to the counter it is for. -/
theorem counter_keyBump_same {e : Nat × Nat} (he : e.2 < 64) (le : minor s p k e.1 e.2 ≤ 127) :
    counter (s.keyBump p k e) p k e.1 e.2 = counter s p k e.1 e.2 + 1 := by
  rcases Nat.lt_or_ge (minor s p k e.1 e.2) 127 with below | full
  · rw [keyBump_of_lt s p k below, counter, minor_setH_minor_same, major, s.h_setH_ne _ _ _ _ _ _ _ _ _ (by simp)]
    rfl
  · obtain ⟨hminor, hmajor⟩ := keyBump_of_ge s p k full (n := e.1) he
    rw [counter, hminor, hmajor, if_pos rfl, if_pos rfl, counter]
    omega

/-- R391. An advance of another node's counter changes nothing of a node. -/
theorem keyBump_other {e : Nat × Nat} (he : e.2 < 64) {n c : Nat} (hc : c < 64) (other : e.1 ≠ n) :
    minor (s.keyBump p k e) p k n c = minor s p k n c ∧ major (s.keyBump p k e) p k n = major s p k n := by
  rcases Nat.lt_or_ge (minor s p k e.1 e.2) 127 with below | full
  · rw [keyBump_of_lt s p k below, minor_setH_minor_ne s p k _ he hc (.inl other), major,
      s.h_setH_ne _ _ _ _ _ _ _ _ _ (by simp)]
    exact ⟨rfl, rfl⟩
  · simpa [other] using keyBump_of_ge s p k full (n := n) hc

/-- R391. No advance takes a counter back, or a minor counter above 127. -/
theorem counter_keyBump_le {e : Nat × Nat} (he : e.2 < 64) {n c : Nat} (hc : c < 64) (le : minor s p k n c ≤ 127) :
    minor (s.keyBump p k e) p k n c ≤ 127 ∧ counter s p k n c ≤ counter (s.keyBump p k e) p k n c := by
  rw [counter, counter]
  by_cases node : e.1 = n
  · subst node
    rcases Nat.lt_or_ge (minor s p k e.1 e.2) 127 with below | full
    · have hmajor : major (s.keyBump p k e) p k e.1 = major s p k e.1 := by
        rw [keyBump_of_lt s p k below, major, s.h_setH_ne _ _ _ _ _ _ _ _ _ (by simp)]
        rfl
      rw [hmajor, keyBump_of_lt s p k below]
      by_cases child : e.2 = c
      · subst child
        rw [minor_setH_minor_same]
        omega
      · rw [minor_setH_minor_ne s p k _ he hc (.inr child)]
        omega
    · obtain ⟨hminor, hmajor⟩ := keyBump_of_ge s p k full (n := e.1) hc
      rw [hminor, hmajor, if_pos rfl, if_pos rfl]
      omega
  · obtain ⟨hminor, hmajor⟩ := keyBump_other s p k he hc node
    rw [hminor, hmajor]
    exact ⟨le, Nat.le_refl _⟩

/-! ### The advances of a path -/

/-- The state after the advances of a path. -/
def bumped (s : State) (p k : Nat) (path : List (Nat × Nat)) : State := foldS (fun e s => s.keyBump p k e) path s

theorem bumped_other (path : List (Nat × Nat)) (fit : ∀ e ∈ path, e.2 < 64) {n c : Nat} (hc : c < 64)
    (off : ∀ e ∈ path, e.1 ≠ n) :
    minor (bumped s p k path) p k n c = minor s p k n c ∧ major (bumped s p k path) p k n = major s p k n := by
  induction path generalizing s with
  | nil => exact ⟨rfl, rfl⟩
  | cons d path ih =>
    obtain ⟨hminor, hmajor⟩ := keyBump_other s p k (fit d List.mem_cons_self) hc (off d List.mem_cons_self)
    rw [← hminor, ← hmajor]
    exact ih (s.keyBump p k d) (fun e he => fit e (List.mem_cons_of_mem d he))
      fun e he => off e (List.mem_cons_of_mem d he)

theorem counter_bumped_same (path : List (Nat × Nat)) (distinct : path.Pairwise fun d e => d.1 ≠ e.1)
    (fit : ∀ e ∈ path, e.2 < 64) (le : ∀ e ∈ path, minor s p k e.1 e.2 ≤ 127) :
    ∀ e ∈ path, counter (bumped s p k path) p k e.1 e.2 = counter s p k e.1 e.2 + 1 := by
  induction path generalizing s with
  | nil => simp
  | cons d path ih =>
    obtain ⟨apart, distinct⟩ := List.pairwise_cons.1 distinct
    have hd := fit d List.mem_cons_self
    have fit' : ∀ e ∈ path, e.2 < 64 := fun e he => fit e (List.mem_cons_of_mem d he)
    have kept (e) (he : e ∈ path) := keyBump_other s p k hd (fit' e he) (apart e he)
    intro e he
    rcases List.mem_cons.1 he with rfl | he
    · obtain ⟨hminor, hmajor⟩ := bumped_other (s.keyBump p k e) p k path fit' hd fun x hx => (apart x hx).symm
      rw [← counter_keyBump_same s p k hd (le e List.mem_cons_self), counter, counter, ← hminor, ← hmajor]
      rfl
    · have later := ih (s.keyBump p k d) distinct fit'
        (fun x hx => Nat.le_trans (Nat.le_of_eq (kept x hx).1) (le x (List.mem_cons_of_mem d hx))) e he
      obtain ⟨hminor, hmajor⟩ := kept e he
      rw [counter, counter, hminor, hmajor] at later
      exact later

theorem counter_bumped_le (path : List (Nat × Nat)) (fit : ∀ e ∈ path, e.2 < 64) {n c : Nat} (hc : c < 64)
    (le : minor s p k n c ≤ 127) :
    minor (bumped s p k path) p k n c ≤ 127 ∧ counter s p k n c ≤ counter (bumped s p k path) p k n c := by
  induction path generalizing s with
  | nil => exact ⟨le, Nat.le_refl _⟩
  | cons d path ih =>
    obtain ⟨first, up⟩ := counter_keyBump_le s p k (fit d List.mem_cons_self) hc le
    obtain ⟨rest, up'⟩ := ih (s.keyBump p k d) (fun e he => fit e (List.mem_cons_of_mem d he)) first
    exact ⟨rest, Nat.le_trans up up'⟩

/-- R386, R391. A protected write that is carried out advances the counters of its path. -/
theorem eq_bumped_of_keyWrite {t : State} {a : Nat} (guarded : s.keyAccess p k a = .guarded)
    (written : s.keyWrite p k a = some t) : t = bumped s p k (s.keyPath p k a) := by
  simp only [State.keyWrite, guarded] at written
  split at written
  · contradiction
  · exact (Option.some.inj written).symm

end Sys2Proof.Integrity
end

section
/-!
SUPPORT. Statement O36 of memory integrity (R380..R397).
-/
namespace Sys2Proof.Integrity

open Sys2Proof Sys2Proof.Machine

/-- Settles O36 (R388, R391), by induction over the path: its nodes differ, an advance adds one to its own counter, and no
advance takes a counter back. -/
theorem protectedCountersNeverReturn : Obligations.ProtectedCountersNeverReturn := by
  unfold Obligations.ProtectedCountersNeverReturn
  intro p k a s t guarded written
  obtain rfl := eq_bumped_of_keyWrite s p k guarded written
  have fit : ∀ e ∈ s.keyPath p k a, e.2 < 64 := fun e he => mem_keyPath guarded he
  exact ⟨fun le => counter_bumped_same s p k _ (keyPath_pairwise guarded) fit le,
    fun n c hc le => counter_bumped_le s p k _ fit hc le⟩

end Sys2Proof.Integrity
end

section
/-!
SUPPORT, for O42. The bits of a register after a masked write (R473).
-/
namespace Sys2Proof.Gpio

open Sys2Proof Sys2Proof.Machine

/-! ### One bit replaced -/

theorem bitOf_setBit_same (v b : Nat) (x : Bool) : bitOf (setBit v b x) b = x := by
  have h : bitsOf (setBit v b x) b 1 = (if x then 1 else 0) % 2 ^ 1 := Panel.bitsOf_setBitsOf_same v b 1 _
  rw [show bitOf (setBit v b x) b = (bitsOf (setBit v b x) b 1 == 1) from rfl, h]
  cases x <;> rfl

theorem bitOf_setBit_ne (v : Nat) {b c : Nat} (x : Bool) (h : c ≠ b) : bitOf (setBit v b x) c = bitOf v c := by
  have apart : c + 1 ≤ b ∨ b + 1 ≤ c := by omega
  exact congrArg (· == 1) (Campanile.bitsOf_setBitsOf_disjoint v b 1 _ c 1 apart)

/-! ### The masked write -/

/-- R473. After the bits of a list have been gone through, each of them that the mask names holds the written value. -/
theorem bitOf_maskedBits (v : Nat) (bs : List Nat) (old c : Nat) :
    bitOf (foldS (fun b x => if bitOf v (16 + b) then setBit x b (bitOf v b) else x) bs old) c =
      if c ∈ bs ∧ bitOf v (16 + c) = true then bitOf v c else bitOf old c := by
  induction bs generalizing old with
  | nil => simp [foldS]
  | cons b bs ih =>
    rw [foldS, ih]
    by_cases later : c ∈ bs ∧ bitOf v (16 + c) = true
    · rw [if_pos later, if_pos ⟨List.mem_cons_of_mem b later.1, later.2⟩]
    · rw [if_neg later]
      by_cases here : c = b
      · subst here
        by_cases mask : bitOf v (16 + c) = true
        · rw [if_pos mask, bitOf_setBit_same, if_pos ⟨List.mem_cons_self, mask⟩]
        · have unnamed : ¬ (c ∈ c :: bs ∧ bitOf v (16 + c) = true) := fun both => mask both.2
          rw [if_neg mask, if_neg unnamed]
      · have unnamed : ¬ (c ∈ b :: bs ∧ bitOf v (16 + c) = true) :=
          fun both => later ⟨(List.mem_cons.1 both.1).resolve_left here, both.2⟩
        rw [if_neg unnamed]
        split
        · exact bitOf_setBit_ne old _ here
        · rfl

theorem bitOf_maskedWrite (old v c : Nat) :
    bitOf (maskedWrite old v) c = if c < 16 ∧ bitOf v (16 + c) = true then bitOf v c else bitOf old c := by
  simp only [maskedWrite, bitOf_maskedBits, List.mem_range]

theorem eq_of_bitOf_eq {a b : Nat} (h : ∀ c, bitOf a c = bitOf b c) : a = b :=
  Nat.eq_of_testBit_eq fun c => by rw [← Codecs.bitOf_eq_testBit, ← Codecs.bitOf_eq_testBit, h c]

/-- A masked write keeps the high half of a register 0. -/
theorem maskedWrite_lt {old : Nat} (h : old < 2 ^ 16) (v : Nat) : maskedWrite old v < 2 ^ 16 := by
  refine Nat.lt_pow_two_of_testBit _ fun c hc => ?_
  rw [← Codecs.bitOf_eq_testBit, bitOf_maskedWrite, if_neg (by omega), Codecs.bitOf_eq_testBit]
  exact Nat.testBit_lt_two_pow (Nat.lt_of_lt_of_le h (Nat.pow_le_pow_right (by decide) hc))

/-- R473. Writes whose masks share no bit may come in either order. -/
theorem maskedWrite_comm (old : Nat) {v v2 : Nat}
    (apart : ∀ b, b < 16 → bitOf v (16 + b) = true → bitOf v2 (16 + b) = false) :
    maskedWrite (maskedWrite old v) v2 = maskedWrite (maskedWrite old v2) v := by
  refine eq_of_bitOf_eq fun c => ?_
  rw [bitOf_maskedWrite, bitOf_maskedWrite, bitOf_maskedWrite, bitOf_maskedWrite]
  by_cases first : c < 16 ∧ bitOf v (16 + c) = true
  · have second : ¬ (c < 16 ∧ bitOf v2 (16 + c) = true) := by simp [apart c first.1 first.2]
    rw [if_neg second, if_pos first, if_pos first]
  · rw [if_neg first, if_neg first]

variable (s : State) (id : RegId) (k v : Nat)

theorem regN_gpioMasked (h : s.regN id 0 k < 2 ^ 16) :
    (s.gpioMasked id k v).regN id 0 k = maskedWrite (s.regN id 0 k) v := by
  rw [State.gpioMasked, Panel.regN_setRegN_same]
  exact Nat.mod_eq_of_lt (Nat.lt_trans (maskedWrite_lt h v) (by decide))

end Sys2Proof.Gpio
end

section
/-!
SUPPORT. Statement O42 of the pins (R465..R478).
-/
namespace Sys2Proof.Gpio

open Sys2Proof Sys2Proof.Machine

/-- Settles O42 (R473), by the bits of the register after each write. -/
theorem maskedPinWritesNeverRace : Obligations.MaskedPinWritesNeverRace := by
  unfold Obligations.MaskedPinWritesNeverRace
  intro k oe v s _ high
  generalize hid : (if oe then RegId.GPIO_OE else .GPIO_DOUT) = id at high ⊢
  have exec_masked (x : Word) (u : State) : exec (.gpioMaskedWrite k oe x) u = .next (u.gpioMasked id k x.toNat) := by
    rw [← hid]
    rfl
  have value := regN_gpioMasked s id k v.toNat high
  have high' : (s.gpioMasked id k v.toNat).regN id 0 k < 2 ^ 16 := value ▸ maskedWrite_lt high v.toNat
  refine ⟨_, exec_masked v s, fun b hb => ?bits, high', fun id' w i j other => ?frame, rfl, fun v2 apart => ?order⟩
  case bits => rw [value, bitOf_maskedWrite]; simp [hb]
  case frame =>
    exact s.reg_setReg_ne _ _ _ _ _ _ _ _ _ fun e => other (by simpa [eq_comm] using e)
  case order =>
    refine ⟨_, _, _, exec_masked v2 _, exec_masked v2 s, exec_masked v _, ?_⟩
    have value2 := regN_gpioMasked s id k v2.toNat high
    have high2 : (s.gpioMasked id k v2.toNat).regN id 0 k < 2 ^ 16 := value2 ▸ maskedWrite_lt high v2.toNat
    rw [regN_gpioMasked _ _ _ _ high', regN_gpioMasked _ _ _ _ high2, value, value2]
    exact maskedWrite_comm _ apart

end Sys2Proof.Gpio
end

section
/-!
SUPPORT, for O37. A fast entry and MRET of a lodge core (R399, R400): LFCTL, LFEPC and the register banks.
-/
namespace Sys2Proof.Lodges

open Sys2Proof Sys2Proof.Machine

/-! ### CSRs of a core -/

section
variable (c : LodgeCore) (n : Nat) (v : Word) (b : Bool)

@[simp] theorem c_setC_same : (c.setC n v).c n = v := tget_tput_same _ _ _ _

theorem c_setC_ne {n m : Nat} (h : n ≠ m) : (c.setC n v).c m = c.c m := tget_tput_ne _ _ _ _ _ h

@[simp] theorem c_withPc (pc : Nat) : ({ c with pc := pc } : LodgeCore).c n = c.c n := rfl

theorem toNat_setBit_lt (w : Word) : setBit w.toNat 1 b < 2 ^ 32 := by
  refine Nat.lt_pow_two_of_testBit _ fun i hi => ?_
  rw [← Codecs.bitOf_eq_testBit, Gpio.bitOf_setBit_ne _ _ (by omega), Codecs.bitOf_eq_testBit]
  exact Nat.testBit_lt_two_pow (Nat.lt_of_lt_of_le w.isLt (Nat.pow_le_pow_right (by decide) hi))

/-- LFCTL after IN_FAST is set or cleared. -/
theorem lfctl_setFast : ((c.setFast b).c 0x7c0).toNat = setBit (c.c 0x7c0).toNat 1 b := by
  rw [LodgeCore.setFast, c_setC_same, BitVec.toNat_ofNat, Nat.mod_eq_of_lt (toNat_setBit_lt b _)]

@[simp] theorem inFast_setFast : (c.setFast b).inFast = b := by
  rw [LodgeCore.inFast, lfctl_setFast, Gpio.bitOf_setBit_same]

@[simp] theorem fie_setFast : (c.setFast b).fie = c.fie := by
  rw [LodgeCore.fie, lfctl_setFast, Gpio.bitOf_setBit_ne _ _ (by decide), LodgeCore.fie]

theorem c_setFast_ne {n : Nat} (h : n ≠ 0x7c0) : (c.setFast b).c n = c.c n := c_setC_ne c _ h.symm

end

/-! ### The fast entry (R400) -/

/-- The core after a fast entry: LFEPC holds the pc, IN_FAST is set, and the pc is LFVEC. -/
def fastEntry (c : LodgeCore) : LodgeCore :=
  { (c.setC 0x7c1 (BitVec.ofNat 32 c.pc)).setFast true with
    pc := (((c.setC 0x7c1 (BitVec.ofNat 32 c.pc)).setFast true).c 0x7c2).toNat }

variable (c : LodgeCore)

theorem fastEntry_c_ne {n : Nat} (lfctl : n ≠ 0x7c0) (lfepc : n ≠ 0x7c1) : (fastEntry c).c n = c.c n := by
  rw [fastEntry, c_withPc, c_setFast_ne _ _ lfctl, c_setC_ne _ _ lfepc.symm]

theorem fastEntry_pc : (fastEntry c).pc = (c.c 0x7c2).toNat := congrArg BitVec.toNat (fastEntry_c_ne c (by decide) (by decide))

theorem fastEntry_lfepc : (fastEntry c).c 0x7c1 = BitVec.ofNat 32 c.pc := by
  rw [fastEntry, c_withPc, c_setFast_ne _ _ (by decide), c_setC_same]

theorem fastEntry_inFast : (fastEntry c).inFast = true := inFast_setFast _ _

theorem fastEntry_fie : (fastEntry c).fie = c.fie := by
  refine (fie_setFast (c.setC 0x7c1 (BitVec.ofNat 32 c.pc)) true).trans ?_
  rw [LodgeCore.fie, LodgeCore.fie, c_setC_ne _ _ (by decide)]

/-- R400. Within a fast handler the fast bank is in use. -/
theorem fastEntry_r (r : Nat) : (fastEntry c).r r = if r = 0 then 0 else tget c.f r 0 := by
  rw [LodgeCore.r, fastEntry_inFast, if_pos rfl]
  rfl

theorem mret_of_inFast (h : c.inFast = true) : c.mret = { c.setFast false with pc := (c.c 0x7c1).toNat } := if_pos h

/-- R400. MRET from a fast handler goes back to the pc of the entry, on the normal bank. -/
theorem mret_fastEntry (normal : c.inFast = false) :
    (fastEntry c).mret.pc = c.pc % 2 ^ 32 ∧ (fastEntry c).mret.inFast = false ∧
      ∀ r, (fastEntry c).mret.r r = c.r r := by
  have back : (fastEntry c).mret.inFast = false := by
    rw [mret_of_inFast _ (fastEntry_inFast c)]
    exact inFast_setFast _ _
  refine ⟨?_, back, fun r => ?_⟩
  · rw [mret_of_inFast _ (fastEntry_inFast c), fastEntry_lfepc, BitVec.toNat_ofNat]
  · rw [LodgeCore.r, LodgeCore.r, back, normal, mret_of_inFast _ (fastEntry_inFast c)]
    rfl

/-! ### LODGE_FAST_ENTRY -/

variable (s : State) (x : Nat)

@[simp] theorem lodge_setLodge_same : (s.setLodge x c).lodge x = c := tget_tput_same _ _ _ _

theorem exec_lodgeFastEntry_of_closed (h : (s.lodge x).fie = false ∨ (s.lodge x).inFast = true) :
    exec (.lodgeFastEntry x) s = .next s :=
  if_neg (by rcases h with h | h <;> simp [h])

theorem exec_lodgeFastEntry (ready : s.lodgeReady x = true) (fie : (s.lodge x).fie = true)
    (normal : (s.lodge x).inFast = false) (offered : s.lodgeOffered x 1 = true) :
    exec (.lodgeFastEntry x) s = .next ((s.setH .lodgeWfi 0 x).setLodge x (fastEntry (s.lodge x))) :=
  if_pos (by simp [ready, fie, normal, offered])

end Sys2Proof.Lodges
end

section
/-!
SUPPORT. Statement O37 of the lodges (R398..R400).
-/
namespace Sys2Proof.Lodges

open Sys2Proof Sys2Proof.Machine

/-- Settles O37 (R399, R400), by the core that a fast entry leaves and MRET from there. -/
theorem lodgeFastHandlerRunsOnItsOwnBank : Obligations.LodgeFastHandlerRunsOnItsOwnBank := by
  unfold Obligations.LodgeFastHandlerRunsOnItsOwnBank
  intro x s
  refine ⟨exec_lodgeFastEntry_of_closed s x, fun ready fie normal offered =>
    ⟨_, exec_lodgeFastEntry s x ready fie normal offered, ?_⟩⟩
  rw [lodge_setLodge_same]
  exact ⟨fastEntry_pc _, fastEntry_lfepc _, fastEntry_inFast _, (fastEntry_fie _).trans fie,
    fun n lfctl lfepc => fastEntry_c_ne _ lfctl lfepc, fastEntry_r _, mret_fastEntry _ normal⟩

end Sys2Proof.Lodges
end

section
/-!
SUPPORT, for O38. The election message as it passes lodges (R404, R405): the term it carries, the candidate it names, and
what it leaves of what a lodge stands by.
-/
namespace Sys2Proof.Lodges

open Sys2Proof Sys2Proof.Machine

/-! ### The lowest of a list -/

/-- The candidate of a message after a lodge that stands (R404). -/
def lower (cand x : Nat) : Nat := if cand = 0 ∨ x + 1 < cand then x + 1 else cand

/-- The candidate after a list of lodges, of which some stand. -/
def lowest (stands : Nat → Bool) (l : List Nat) (cand : Nat) : Nat :=
  l.foldl (fun c x => if stands x then lower c x else c) cand

theorem lower_cases (cand x : Nat) :
    (lower cand x = x + 1 ∧ (cand = 0 ∨ x + 1 < cand)) ∨ (lower cand x = cand ∧ cand ≠ 0 ∧ cand ≤ x + 1) := by
  unfold lower
  split <;> omega

section
variable (stands : Nat → Bool)

theorem lowest_le (l : List Nat) {cand : Nat} (h : cand ≠ 0) : lowest stands l cand ≠ 0 ∧ lowest stands l cand ≤ cand := by
  induction l generalizing cand with
  | nil => exact ⟨h, Nat.le_refl _⟩
  | cons x l ih =>
    rw [lowest, List.foldl_cons]
    split
    · have := lower_cases cand x
      have rest : lowest stands l (lower cand x) ≠ 0 ∧ lowest stands l (lower cand x) ≤ lower cand x := ih (by omega)
      rw [lowest] at rest
      omega
    · exact ih h

/-- No lower lodge of the list stands. -/
theorem lowest_le_standing {l : List Nat} {y : Nat} (hy : y ∈ l) (up : stands y = true) (cand : Nat) :
    lowest stands l cand ≠ 0 ∧ lowest stands l cand ≤ y + 1 := by
  induction l generalizing cand with
  | nil => simp at hy
  | cons x l ih =>
    rcases List.mem_cons.1 hy with rfl | hy
    · rw [lowest, List.foldl_cons, if_pos up]
      have := lower_cases cand y
      have rest : lowest stands l (lower cand y) ≠ 0 ∧ lowest stands l (lower cand y) ≤ lower cand y :=
        lowest_le stands l (by omega)
      rw [lowest] at rest
      omega
    · exact ih hy _

/-- The candidate is the one it was, or a standing lodge of the list. -/
theorem lowest_cases (l : List Nat) (cand : Nat) :
    lowest stands l cand = cand ∨ ∃ x ∈ l, stands x = true ∧ lowest stands l cand = x + 1 := by
  induction l generalizing cand with
  | nil => exact .inl rfl
  | cons x l ih =>
    rw [lowest, List.foldl_cons]
    by_cases up : stands x = true
    · rw [if_pos up]
      rcases ih (lower cand x) with same | ⟨y, hy, up', named⟩
      · rcases lower_cases cand x with ⟨is, -⟩ | ⟨is, -⟩
        · exact .inr ⟨x, List.mem_cons_self, up, same.trans is⟩
        · exact .inl (same.trans is)
      · exact .inr ⟨y, List.mem_cons_of_mem _ hy, up', named⟩
    · rw [if_neg up]
      exact (ih cand).imp id fun ⟨y, hy, h⟩ => ⟨y, List.mem_cons_of_mem _ hy, h⟩

end

/-! ### What a lodge stands by -/

/-- `t` differs from `s` in nothing but the terms of lodges, the winner and the candidate. -/
structure TermsOnly (s t : State) : Prop where
  reg : ∀ id w i, id ≠ .LDG_TERM → t.reg id w i = s.reg id w i
  h : ∀ k w, k ≠ .elecWin → k ≠ .elecCand → t.h k w = s.h k w

namespace TermsOnly
variable {s t u : State}

theorem trans (a : TermsOnly s t) (b : TermsOnly t u) : TermsOnly s u :=
  ⟨fun _ _ _ hid => (b.reg _ _ _ hid).trans (a.reg _ _ _ hid),
    fun _ _ win cand => (b.h _ _ win cand).trans (a.h _ _ win cand)⟩

theorem setTerm (s : State) (v x : Nat) : TermsOnly s (s.setRegN .LDG_TERM v x) :=
  ⟨fun id w i hid => s.reg_setReg_id_ne .LDG_TERM id _ x 0 0 w i 0 hid.symm, fun _ _ _ _ => rfl⟩

theorem setCand (s : State) (v : Nat) : TermsOnly s (s.setH .elecCand v) :=
  ⟨fun _ _ _ _ => rfl, fun _ w _ cand => Events.h_setH_id_ne s cand.symm v 0 0 0 w 0 0⟩

theorem stepDown (s : State) (x term : Nat) : TermsOnly s (s.stepDown x term) := by
  unfold State.stepDown
  split
  · exact ⟨fun _ _ _ _ => rfl, fun _ w win _ => Events.h_setH_id_ne s win.symm 0 0 0 0 w 0 0⟩
  · exact ⟨fun _ _ _ _ => rfl, fun _ _ _ _ => rfl⟩

theorem fld (k : TermsOnly s t) (f : Fld) (w i : Nat) (hf : f.r ≠ .LDG_TERM) : t.fld f w i = s.fld f w i := by
  rw [State.fld, State.fld, State.regN, State.regN, k.reg _ _ _ hf]

theorem standing (k : TermsOnly s t) (y : Nat) : t.standing y = s.standing y := by
  have flag (f : Fld) (w i : Nat) (hf : f.r ≠ .LDG_TERM) : t.flag f w i = s.flag f w i :=
    congrArg (· == 1) (k.fld f w i hf)
  have runs : t.lodgeRuns y = s.lodgeRuns y := congrArg (· == 1) (k.fld F.LDG_BOOT_STAT_STATE y 0 (by decide))
  have halted : t.lodgeHalted y = s.lodgeHalted y := flag F.DBG_CORE_STAT_HALTED0 y 8 (by decide)
  have map : t.follyMap = s.follyMap := by
    rw [State.follyMap, State.follyMap, State.regN, State.regN, k.reg _ _ _ (by decide)]
  have dead : t.hb .lodgeDead y = s.hb .lodgeDead y := congrArg (· != 0) (k.h _ y (by decide) (by decide))
  unfold State.standing State.pavAt State.siteOf
  rw [runs, halted, map, dead, k.fld F.LDG_SITE_STAT_SELFTEST y 0 (by decide),
    flag F.LDG_SITE_STAT_FAILED y 0 (by decide)]

end TermsOnly

/-! ### One lodge -/

/-- The state after a lodge has taken the term of the message. -/
def termTaken (s : State) (x : Nat) : State := (s.stepDown x (s.h .elecTerm)).setRegN .LDG_TERM (s.h .elecTerm) x

/-- The state after the message has passed a lodge. -/
def passed (s : State) (x : Nat) : State :=
  if s.standing x ∧ (s.h .elecCand = 0 ∨ x + 1 < s.h .elecCand) then (termTaken s x).setH .elecCand (x + 1)
  else termTaken s x

variable (s : State) (x y : Nat)

theorem termTaken_termsOnly : TermsOnly s (termTaken s x) := (TermsOnly.stepDown s x _).trans (TermsOnly.setTerm _ _ x)

theorem passed_termsOnly : TermsOnly s (passed s x) := by
  unfold passed
  split
  · exact (termTaken_termsOnly s x).trans (TermsOnly.setCand _ _)
  · exact termTaken_termsOnly s x

@[simp] theorem stepDown_elecCand (term : Nat) : (s.stepDown x term).h .elecCand = s.h .elecCand := by
  unfold State.stepDown
  split
  · exact Events.h_setH_id_ne s (by decide) _ _ _ _ _ _ _
  · rfl

theorem termTaken_elecCand : (termTaken s x).h .elecCand = s.h .elecCand := stepDown_elecCand s x _

theorem passed_elecCand : (passed s x).h .elecCand = if s.standing x then lower (s.h .elecCand) x else s.h .elecCand := by
  unfold passed lower
  by_cases up : s.standing x = true
  · by_cases low : s.h .elecCand = 0 ∨ x + 1 < s.h .elecCand
    · rw [if_pos ⟨up, low⟩, if_pos up, if_pos low]
      exact State.h_setH_same _ _ _ _ _ _
    · rw [if_neg fun b => low b.2, if_pos up, if_neg low, termTaken_elecCand]
  · rw [if_neg fun b => up b.1, if_neg up, termTaken_elecCand]

theorem passed_elecTerm : (passed s x).h .elecTerm = s.h .elecTerm :=
  (passed_termsOnly s x).h .elecTerm 0 (by decide) (by decide)

theorem regN_setRegN_ne_index (id : RegId) (v : Nat) {w w' : Nat} (h : w ≠ w') :
    (s.setRegN id v w).regN id w' = s.regN id w' :=
  congrArg BitVec.toNat (s.reg_setReg_ne id id _ w 0 0 w' 0 0 fun e => h (congrArg RegKey.w e))

/-- No lodge holds a higher term than the message once it has passed. -/
theorem passed_term_le (h : s.regN .LDG_TERM y ≤ s.h .elecTerm) :
    (passed s x).regN .LDG_TERM y ≤ (passed s x).h .elecTerm := by
  have taken : (passed s x).regN .LDG_TERM y = (termTaken s x).regN .LDG_TERM y := by
    unfold passed
    split <;> rfl
  rw [passed_elecTerm, taken]
  by_cases e : y = x
  · subst e
    rw [termTaken, Panel.regN_setRegN_same]
    exact Nat.mod_le _ _
  · have dropped : (s.stepDown x (s.h .elecTerm)).regN .LDG_TERM y = s.regN .LDG_TERM y := by
      unfold State.stepDown
      split <;> rfl
    rw [termTaken, regN_setRegN_ne_index _ _ _ (Ne.symm e), dropped]
    exact h

theorem exec_electionMsg (term : s.h .elecTerm ≠ 0) (seen : s.regN .LDG_TERM x ≤ s.h .elecTerm) :
    exec (.electionMsg x) s = .next (passed s x) := by
  have open_ : ¬ (s.h .elecTerm = 0 ∨ s.h .elecTerm < s.regN .LDG_TERM x) := by omega
  have stands : (termTaken s x).standing x = s.standing x := (termTaken_termsOnly s x).standing x
  have same : (termTaken s x).standing x ∧ ((termTaken s x).h .elecCand = 0 ∨ x + 1 < (termTaken s x).h .elecCand) ↔
      s.standing x ∧ (s.h .elecCand = 0 ∨ x + 1 < s.h .elecCand) := by
    rw [(termTaken_termsOnly s x).standing x, termTaken_elecCand]
  refine (if_neg open_).trans ?_
  rw [passed, apply_ite Host.Outcome.next]
  exact ite_congr (propext same) (fun _ => rfl) fun _ => rfl

/-! ### A list of lodges, and the announcement -/

/-- The message passes a list of lodges that have seen no higher term. -/
theorem electionMsgs (l : List Nat) : ∀ s : State, s.h .elecTerm ≠ 0 → (∀ x ∈ l, s.regN .LDG_TERM x ≤ s.h .elecTerm) →
    ∃ t, l.foldl (fun (o : Host.Outcome State Fault Refusal) x =>
        match o with
        | .next u => exec (.electionMsg x) u
        | o => o) (.next s) = .next t ∧
      t.h .elecTerm = s.h .elecTerm ∧ t.h .elecCand = lowest s.standing l (s.h .elecCand) := by
  induction l with
  | nil => exact fun s _ _ => ⟨s, rfl, rfl, rfl⟩
  | cons x l ih =>
    intro s term seen
    obtain ⟨t, run, kept, cand⟩ := ih (passed s x) (by rwa [passed_elecTerm]) fun y hy =>
      passed_term_le s x y (seen y (List.mem_cons_of_mem _ hy))
    refine ⟨t, ?_, kept.trans (passed_elecTerm s x), ?_⟩
    · rw [List.foldl_cons]
      simp only
      rw [exec_electionMsg s x term (seen x List.mem_cons_self)]
      exact run
    · rw [cand, passed_elecCand, funext (passed_termsOnly s x).standing, lowest, lowest, List.foldl_cons]

/-- The state after the starter has announced a winner. -/
def announced (s : State) : State :=
  let u := s.setRegN .LDG_TERM (s.h .elecTerm) (s.h .elecCand - 1)
  (((u.setH .elecWin (s.h .elecCand)).setH .elecTerm 0).setH .presides 0 |>.addFld F.LDG_ELECT_CNT_COUNT 1).device 1033

theorem exec_electionAnnounce (term : s.h .elecTerm ≠ 0) (cand : s.h .elecCand ≠ 0) :
    exec .electionAnnounce s = .next (announced s) := if_neg (by simp [term, cand])

/-- Only the winner of an election that an event leaves as it is. -/
def winnerScope : Frame.Scope := ⟨.ldgG, [.elecWin], by decide, by decide⟩

theorem announced_elecWin : (announced s).h .elecWin = s.h .elecCand := by
  rw [announced, ((Frame.Kept.refl winnerScope _).device 1033).h .elecWin 0 0 0 (by decide)]
  change (((s.setH .elecWin _).setH .elecTerm 0).setH .presides 0).h .elecWin = _
  rw [Events.h_setH_id_ne _ (by decide), Events.h_setH_id_ne _ (by decide), State.h_setH_same]

theorem announced_electCount :
    (announced s).fld F.LDG_ELECT_CNT_COUNT = (s.fld F.LDG_ELECT_CNT_COUNT + 1) % 2 ^ 32 := by
  rw [announced, ((Frame.Kept.refl winnerScope _).device 1033).fld F.LDG_ELECT_CNT_COUNT 0 0 0 (by decide),
    State.addFld, Panel.fld_setFld_same _ _ _ _ _ _ (by decide)]
  exact congrArg (fun n => (n + 1) % 2 ^ 32)
    (Campanile.fld_setRegN_ne (id := .LDG_TERM) s F.LDG_ELECT_CNT_COUNT 0 0 0 (by decide) (s.h .elecTerm)
      (s.h .elecCand - 1) 0 0)

end Sys2Proof.Lodges
end

section
/-!
SUPPORT. Statement O38 of the lodges (R403..R405).
-/
namespace Sys2Proof.Lodges

open Sys2Proof Sys2Proof.Machine

/-- Settles O38 (R404, R405), by induction on the list: the message carries the lowest standing lodge it has met. -/
theorem electionNamesTheLowestStandingSite : Obligations.ElectionNamesTheLowestStandingSite := by
  unfold Obligations.ElectionNamesTheLowestStandingSite
  intro l s term fresh seen ⟨y, hy, up⟩
  obtain ⟨t, run, kept, cand⟩ := electionMsgs l s term seen
  have named := (lowest_le_standing s.standing hy up (s.h .elecCand)).1
  obtain ⟨w, hw, stands, is⟩ := (lowest_cases s.standing l (s.h .elecCand)).resolve_left fun e => named (e.trans fresh)
  refine ⟨t, w, run, hw, stands, fun z hz hup => ?_, cand.trans is, announced t,
    exec_electionAnnounce t (by rwa [kept]) (by rwa [cand]), (announced_elecWin t).trans (cand.trans is),
    announced_electCount t⟩
  have := (lowest_le_standing s.standing hz hup (s.h .elecCand)).2
  omega

end Sys2Proof.Lodges
end

section
/-!
SUPPORT. Fields of registers beside a write of another field, or of another register of its array.
-/
namespace Sys2Proof.Frame

open Sys2Proof Sys2Proof.Machine

/-- A write of `g` leaves the field `f` as it is, for every entry. -/
abbrev Apart (f g : Fld) : Prop := f.lo + f.w ≤ 64 ∧ (g.r = f.r → f.lo + f.w ≤ g.lo ∨ g.lo + g.w ≤ f.lo)

variable (s : State) {f g : Fld} (w i j w' i' j' v : Nat) (b : Bool)

theorem fld_setFld_of_index_ne (h : ¬ (w' = w ∧ i' = i ∧ j' = j)) :
    (s.setFld g v w' i' j').fld f w i j = s.fld f w i j := by
  have ne : (⟨g.r, w', i', j'⟩ : RegKey) ≠ ⟨f.r, w, i, j⟩ := by simpa using fun _ => not_and.1 h
  rw [State.fld, State.setFld, State.setRegN, State.regN, s.reg_setReg_ne _ _ _ _ _ _ _ _ _ ne]
  rfl

theorem fld_setFld_of_apart (h : Apart f g) : (s.setFld g v w' i' j').fld f w i j = s.fld f w i j := by
  obtain ⟨hf, disjoint⟩ := h
  by_cases hr : g.r = f.r
  · by_cases hi : w' = w ∧ i' = i ∧ j' = j
    · obtain ⟨rfl, rfl, rfl⟩ := hi
      exact Campanile.fld_setFld_disjoint s f g w' i' j' hr hf (disjoint hr) v
    · exact fld_setFld_of_index_ne s _ _ _ _ _ _ _ hi
  · exact Campanile.fld_setFld_ne s f g w i j hr v w' i' j'

theorem flag_setFlag_of_index_ne (h : ¬ (w' = w ∧ i' = i ∧ j' = j)) :
    (s.setFlag g b w' i' j').flag f w i j = s.flag f w i j := congrArg (· == 1) (fld_setFld_of_index_ne s _ _ _ _ _ _ _ h)

theorem flag_setFld_of_apart (h : Apart f g) : (s.setFld g v w' i' j').flag f w i j = s.flag f w i j :=
  congrArg (· == 1) (fld_setFld_of_apart s _ _ _ _ _ _ _ h)

theorem flag_setFlag_of_apart (h : Apart f g) : (s.setFlag g b w' i' j').flag f w i j = s.flag f w i j :=
  flag_setFld_of_apart s _ _ _ _ _ _ _ h

theorem flag_setFlag_same (h : f.lo + f.w ≤ 64 ∧ 0 < f.w) : (s.setFlag f b w i j).flag f w i j = b := by
  cases b
  · exact Panel.flag_setFlag_false s f w i j h.1
  · exact Campanile.flag_setFlag_true s f w i j h.2 h.1

end Sys2Proof.Frame
end

section
/-!
SUPPORT, for O41. What a function's usability rests on, and USABLE as it follows (R451, R455, R457).
-/
namespace Sys2Proof.Pcie

open Sys2Proof Sys2Proof.Machine Sys2Proof.Frame

/-- The registers of the PCI Express block, which what follows a change of usability leaves alone. -/
def scope : Scope := ⟨.pcie, [], by decide, by decide⟩

variable (s : State) (f g e : Nat)

/-! ### One function follows (R455) -/

/-- The state with USABLE set, before its event and the stall of the queue pairs. -/
def shown : State := s.setFlag F.PCIE_FN_STAT_USABLE (s.usableNow f) 0 f

theorem usableFollow_kept : Kept scope (if s.usableNow f == s.flag F.PCIE_FN_STAT_USABLE 0 f then s else shown s f)
    (s.usableFollow f) := by
  unfold State.usableFollow
  extract_lets now t
  split
  · exact .refl _ _
  · have raised : Kept scope (shown s f) t := (Kept.refl _ _).device _
    exact .ite _ raised (raised.qpsStall f)

theorem usableFollow_flag {x : Fld} (w i : Nat) (hx : x.r.row.block = .pcie) (h : Apart x F.PCIE_FN_STAT_USABLE) :
    (s.usableFollow f).flag x w i = s.flag x w i := by
  rw [(usableFollow_kept s f).flag x w i 0 hx]
  split
  · rfl
  · exact flag_setFlag_of_apart _ _ _ _ _ _ _ _ h

theorem usableFollow_usable : (s.usableFollow f).flag F.PCIE_FN_STAT_USABLE 0 f = s.usableNow f := by
  rw [(usableFollow_kept s f).flag _ 0 f 0 rfl]
  split
  case isTrue same => exact (eq_of_beq same).symm
  case isFalse => exact flag_setFlag_same _ _ _ _ _ (by decide)

theorem usableFollow_usable_ne (h : f ≠ g) :
    (s.usableFollow f).flag F.PCIE_FN_STAT_USABLE 0 g = s.flag F.PCIE_FN_STAT_USABLE 0 g := by
  rw [(usableFollow_kept s f).flag _ 0 g 0 rfl]
  split
  · rfl
  · exact flag_setFlag_of_index_ne _ _ _ _ _ _ _ _ fun e => h e.2.1

theorem usableFollow_usableNow : (s.usableFollow f).usableNow g = s.usableNow g := by
  unfold State.usableNow
  rw [usableFollow_flag s f (x := F.PCIE_EP_STAT_LINK_UP) _ _ rfl (by decide),
    usableFollow_flag s f (x := F.PCIE_FN_CFG_EN) _ _ rfl (by decide),
    usableFollow_flag s f (x := F.PCIE_FN_STAT_BME) _ _ rfl (by decide),
    usableFollow_flag s f (x := F.PCIE_FN_STAT_D3HOT) _ _ rfl (by decide),
    usableFollow_flag s f (x := F.PCIE_FN_STAT_FLR) _ _ rfl (by decide),
    usableFollow_flag s f (x := F.PCIE_EP_CTL_IDE_REQ) _ _ rfl (by decide),
    usableFollow_flag s f (x := F.PCIE_EP_STAT_IDE_SECURE) _ _ rfl (by decide)]

/-! ### Both functions of an endpoint follow -/

theorem endpointFollow_flag {x : Fld} (w i : Nat) (hx : x.r.row.block = .pcie) (h : Apart x F.PCIE_FN_STAT_USABLE) :
    (s.endpointFollow e).flag x w i = s.flag x w i :=
  (usableFollow_flag _ _ w i hx h).trans (usableFollow_flag s _ w i hx h)

theorem endpointFollow_usable (h : f / 2 = e) :
    (s.endpointFollow e).flag F.PCIE_FN_STAT_USABLE 0 f = s.usableNow f := by
  unfold State.endpointFollow
  rcases (by omega : f = 2 * e + 1 ∨ f = 2 * e) with rfl | rfl
  · rw [usableFollow_usable, usableFollow_usableNow]
  · rw [usableFollow_usable_ne _ _ _ (by omega), usableFollow_usable]

theorem usableNow_of_linkDown (h : s.flag F.PCIE_EP_STAT_LINK_UP 0 (f / 2) = false) : s.usableNow f = false := by
  simp [State.usableNow, h]

theorem usableNow_of_flr (h : s.flag F.PCIE_FN_STAT_FLR 0 f = true) : s.usableNow f = false := by
  simp [State.usableNow, h]

theorem usableNow_of_insecure (req : s.flag F.PCIE_EP_CTL_IDE_REQ 0 (f / 2) = true)
    (lost : s.flag F.PCIE_EP_STAT_IDE_SECURE 0 (f / 2) = false) : s.usableNow f = false := by
  simp [State.usableNow, req, lost]

/-! ### Resets, an IDE failure and a change by the host -/

/-- The status of a function at its defaults. -/
def defaults (flr : Bool) : State :=
  s.setFlag F.PCIE_FN_STAT_BME false 0 f |>.setFlag F.PCIE_FN_STAT_D3HOT false 0 f
    |>.setFlag F.PCIE_FN_STAT_MSIX_EN false 0 f |>.setFlag F.PCIE_FN_STAT_FLR flr 0 f

theorem fnReset_regs (flr : Bool) : (s.fnReset f flr).regs = (defaults s f flr).regs := rfl

theorem fnReset_fuses (flr : Bool) : (s.fnReset f flr).fuses = (defaults s f flr).fuses := rfl

theorem flag_of_regs {s t : State} (regs : t.regs = s.regs) (fuses : t.fuses = s.fuses) (x : Fld) (w i : Nat) :
    t.flag x w i = s.flag x w i := by
  unfold State.flag State.fld State.regN State.reg State.initial State.fuse
  rw [regs, fuses]

theorem fnReset_flag {x : Fld} (w i : Nat) (flr : Bool) (h : Apart x F.PCIE_FN_STAT_BME ∧ Apart x F.PCIE_FN_STAT_D3HOT ∧
    Apart x F.PCIE_FN_STAT_MSIX_EN ∧ Apart x F.PCIE_FN_STAT_FLR) : (s.fnReset f flr).flag x w i = s.flag x w i := by
  obtain ⟨hb, hd, hm, hf⟩ := h
  rw [flag_of_regs (fnReset_regs s f flr) (fnReset_fuses s f flr), defaults, flag_setFlag_of_apart _ _ _ _ _ _ _ _ hf,
    flag_setFlag_of_apart _ _ _ _ _ _ _ _ hm, flag_setFlag_of_apart _ _ _ _ _ _ _ _ hd,
    flag_setFlag_of_apart _ _ _ _ _ _ _ _ hb]

theorem fnReset_flr (flr : Bool) : (s.fnReset f flr).flag F.PCIE_FN_STAT_FLR 0 f = flr := by
  rw [flag_of_regs (fnReset_regs s f flr) (fnReset_fuses s f flr), defaults, flag_setFlag_same _ _ _ _ _ (by decide)]

/-- R451. A reset of an endpoint takes its link down and leaves neither function usable. -/
theorem endpointReset_down : (s.endpointReset e).flag F.PCIE_EP_STAT_LINK_UP 0 e = false ∧
    ∀ f, f / 2 = e → (s.endpointReset e).flag F.PCIE_FN_STAT_USABLE 0 f = false := by
  unfold State.endpointReset
  extract_lets was t u
  have down_t : t.flag F.PCIE_EP_STAT_LINK_UP 0 e = false := by
    rw [show t = State.setFlag _ F.PCIE_EP_STAT_IDE_SECURE false 0 e from rfl, flag_setFlag_of_apart _ _ _ _ _ _ _ _ (by decide)]
    exact flag_setFlag_same _ _ _ _ _ (by decide)
  have down_u : u.flag F.PCIE_EP_STAT_LINK_UP 0 e = false := by
    rw [(Kept.ite (σ := scope) (s := t) _ ((Kept.refl _ _).device _) (.refl _ _)).flag _ 0 e 0 rfl, down_t]
  have down : ((u.fnReset (2 * e) false).fnReset (2 * e + 1) false).flag F.PCIE_EP_STAT_LINK_UP 0 e = false := by
    rw [fnReset_flag _ _ _ _ _ (by decide), fnReset_flag _ _ _ _ _ (by decide), down_u]
  refine ⟨(endpointFollow_flag _ _ _ _ rfl (by decide)).trans down, fun f hf => ?_⟩
  rw [endpointFollow_usable _ _ _ hf, usableNow_of_linkDown _ _ (by rw [hf, down])]

theorem endpointReset_both : (s.endpointReset e).flag F.PCIE_EP_STAT_LINK_UP 0 e = false ∧
    (s.endpointReset e).flag F.PCIE_FN_STAT_USABLE 0 (2 * e) = false ∧
    (s.endpointReset e).flag F.PCIE_FN_STAT_USABLE 0 (2 * e + 1) = false := by
  obtain ⟨down, usable⟩ := endpointReset_down s e
  exact ⟨down, usable _ (by omega), usable _ (by omega)⟩

/-- The endpoint after an IDE failure, before its functions follow. -/
def insecure : State :=
  let t := s.setFlag F.PCIE_EP_STAT_IDE_SECURE false 0 e |>.setFlag F.PCIE_EP_STAT_IDE_FAIL true 0 e
  if s.flag F.PCIE_EP_STAT_IDE_FAIL 0 e then t else t.device (1948 + e)

theorem insecure_kept : Kept scope
    (s.setFlag F.PCIE_EP_STAT_IDE_SECURE false 0 e |>.setFlag F.PCIE_EP_STAT_IDE_FAIL true 0 e) (insecure s e) :=
  .ite _ (.refl _ _) ((Kept.refl _ _).device _)

theorem insecure_fail : (insecure s e).flag F.PCIE_EP_STAT_IDE_FAIL 0 e = true := by
  rw [(insecure_kept s e).flag _ 0 e 0 rfl]
  exact flag_setFlag_same _ _ _ _ _ (by decide)

theorem insecure_secure : (insecure s e).flag F.PCIE_EP_STAT_IDE_SECURE 0 e = false := by
  rw [(insecure_kept s e).flag _ 0 e 0 rfl, flag_setFlag_of_apart _ _ _ _ _ _ _ _ (by decide)]
  exact flag_setFlag_same _ _ _ _ _ (by decide)

theorem insecure_req : (insecure s e).flag F.PCIE_EP_CTL_IDE_REQ 0 e = s.flag F.PCIE_EP_CTL_IDE_REQ 0 e := by
  rw [(insecure_kept s e).flag _ 0 e 0 rfl, flag_setFlag_of_apart _ _ _ _ _ _ _ _ (by decide),
    flag_setFlag_of_apart _ _ _ _ _ _ _ _ (by decide)]

/-- The state after the host's change, before the functions follow. -/
def hostChange (bme d3hot flr secure : Bool) : State :=
  s.setFlag F.PCIE_FN_STAT_BME bme 0 f |>.setFlag F.PCIE_FN_STAT_D3HOT d3hot 0 f
    |>.setFlag F.PCIE_FN_STAT_FLR (flr && s.flag F.PCIE_FN_STAT_FLR 0 f) 0 f
    |>.setFlag F.PCIE_EP_STAT_IDE_SECURE secure 0 (f / 2)

theorem hostChange_usableNow (bme d3hot flr secure : Bool) : (hostChange s f bme d3hot flr secure).usableNow f =
    (s.flag F.PCIE_EP_STAT_LINK_UP 0 (f / 2) && s.flag F.PCIE_FN_CFG_EN 0 f && bme && !d3hot &&
      !(flr && s.flag F.PCIE_FN_STAT_FLR 0 f) && (!s.flag F.PCIE_EP_CTL_IDE_REQ 0 (f / 2) || secure)) := by
  simp (disch := decide) only [State.usableNow, hostChange, flag_setFlag_of_apart, flag_setFlag_same]

theorem hostChange_flag {x : Fld} (w i : Nat) (bme d3hot flr secure : Bool)
    (h : Apart x F.PCIE_FN_STAT_BME ∧ Apart x F.PCIE_FN_STAT_D3HOT ∧ Apart x F.PCIE_FN_STAT_FLR ∧
      Apart x F.PCIE_EP_STAT_IDE_SECURE) :
    (hostChange s f bme d3hot flr secure).flag x w i = s.flag x w i := by
  obtain ⟨hb, hd, hf, hs⟩ := h
  simp only [hostChange, flag_setFlag_of_apart _ _ _ _ _ _ _ _ hb, flag_setFlag_of_apart _ _ _ _ _ _ _ _ hd,
    flag_setFlag_of_apart _ _ _ _ _ _ _ _ hf, flag_setFlag_of_apart _ _ _ _ _ _ _ _ hs]

end Sys2Proof.Pcie
end

section
/-!
SUPPORT. Statement O41 of the functions (R451, R455, R457).
-/
namespace Sys2Proof.Pcie

open Sys2Proof Sys2Proof.Machine

/-- Settles O41 (R451, R455, R457): USABLE follows its conditions, and each cause leaves one of them false. -/
theorem functionIsUsableOnlyUnderItsConditions : Obligations.FunctionIsUsableOnlyUnderItsConditions := by
  unfold Obligations.FunctionIsUsableOnlyUnderItsConditions
  intro e f s _ _
  refine ⟨fun w g => ⟨_, rfl, endpointReset_both s e⟩, ⟨_, rfl, endpointReset_both s e⟩, ⟨_, rfl, ?_, ?_⟩,
    ⟨(insecure s e).endpointFollow e, rfl, ?_, fun req => ?_⟩, fun bme d3 flr sec =>
      ⟨(hostChange s f bme d3 flr sec).endpointFollow (f / 2), rfl, ?_⟩⟩
  · rw [usableFollow_flag _ _ _ _ rfl (by decide), fnReset_flr]
  · rw [usableFollow_usable, usableNow_of_flr _ _ (fnReset_flr s f true)]
  · rw [endpointFollow_flag _ _ _ _ rfl (by decide), insecure_fail]
  · have lost (g : Nat) (hg : g / 2 = e) :
        ((insecure s e).endpointFollow e).flag F.PCIE_FN_STAT_USABLE 0 g = false := by
      rw [endpointFollow_usable _ _ _ hg]
      exact usableNow_of_insecure _ _ (by rw [hg, insecure_req, req]) (by rw [hg, insecure_secure])
    exact ⟨lost _ (by omega), lost _ (by omega)⟩
  · rw [endpointFollow_usable _ _ _ rfl, hostChange_usableNow, endpointFollow_flag _ _ _ _ rfl (by decide),
      endpointFollow_flag _ _ _ _ rfl (by decide), endpointFollow_flag _ _ _ _ rfl (by decide),
      hostChange_flag _ _ _ _ _ _ _ _ (by decide), hostChange_flag _ _ _ _ _ _ _ _ (by decide),
      hostChange_flag _ _ _ _ _ _ _ _ (by decide)]

end Sys2Proof.Pcie
end

section
/-!
SUPPORT, for O43. What a locked part answers to its debug registers, and its memories after an erase (R485, R486).
-/
namespace Sys2Proof.Debug

open Sys2Proof Sys2Proof.Machine Sys2Proof.Frame

/-- DBG_STAT and POWER-ON held: what an unlock rests on, and no load or plot given up writes. -/
def scope : Scope := ⟨.dbgG, [.porHeld], by decide, by decide⟩

variable {s t : State}

theorem dbgLocked_of_kept (k : Kept scope s t) : t.dbgLocked = s.dbgLocked := by
  rw [State.dbgLocked, State.dbgLocked, k.flag _ 0 0 0 rfl, k.flag _ 0 0 0 rfl]

/-! ### The front ends and the core debug block of a locked part (R485) -/

section
variable (locked : s.dbgLocked = true)
include locked

/-- R481, R485. A scan of a locked part leaves its capture behind and nothing else. -/
theorem dbgScan_of_locked (dr : Nat) : s.dbgScan dr = s.setH .jtagTdo s.dbgCapture :=
  if_pos (.inr (.inr locked))

theorem dbgAccWrite_of_locked (v : Nat) (op : bitsOf v 0 2 ≠ 0) : s.dbgAccWrite v =
    (s.setFlag F.DBG_ACC_CTL_TOUCH (bitOf v 2)).setFld F.DBG_ACC_STAT_STATUS 9 := by
  have still : (s.setFlag F.DBG_ACC_CTL_TOUCH (bitOf v 2)).dbgLocked = true := by
    rw [State.dbgLocked, flag_setFlag_of_apart _ _ _ _ _ _ _ _ (by decide),
      flag_setFlag_of_apart _ _ _ _ _ _ _ _ (by decide)]
    exact locked
  exact (if_neg op).trans (if_pos still)

variable (w i : Nat)

theorem coreCtl_of_locked (v : Nat) (ipar : Bool) (par : Option Nat) : s.coreCtl w i v ipar par = .next (s.dbgIgn w i) :=
  if_pos (by simp [locked])

theorem regTransfer_of_locked (v : Nat) : s.regTransfer w i v = .next (s.dbgIgn w i) := if_pos locked

theorem imemWrite_of_locked (d : Nat) : s.imemWrite w i d = s.dbgIgn w i := if_pos (by simp [locked])

theorem patchWrite_of_locked (n v : Nat) (data : Bool) {who : Requester} (other : who ≠ .lodge w) :
    s.patchWrite w n data v who = s.dbgIgn w 8 := if_pos (by simp [locked, other])

end

/-! ### An unlock request starts the erase (R486) -/

theorem setLoad_kept (k : Kept scope s t) (st : Nat) : Kept scope s (t.setLoad st) :=
  .ite _ k ((k.setFld (by decide) _ _ _ _).device _)

theorem loadsAbandon_kept (s : State) : Kept scope s s.loadsAbandon := by
  unfold State.loadsAbandon
  extract_lets t
  have blanked : Kept scope s t := Kept.foldS (fun _ _ k => .ite _ (k.plotBlank _ _) k) _ (.refl _ _)
  have alone : Kept scope s { t.setH .loadWait 0 with loadInit := [] } :=
    (blanked.setH (x := .loadWait) (by decide) 0 0 0 0).other rfl rfl rfl
  exact .ite _ (setLoad_kept alone 0) blanked

/-- A locked part that has begun to erase. -/
def erasing (s : State) : State := (s.setFlag F.DBG_STAT_ERASING true).loadsAbandon

theorem unlockGo_of_locked (locked : s.dbgLocked = true) (idle : s.flag F.DBG_STAT_ERASING = false) :
    s.unlockGo = erasing s := if_pos (by simp [locked, idle])

theorem erasing_flag (s : State) : (erasing s).flag F.DBG_STAT_ERASING = true := by
  rw [erasing, (loadsAbandon_kept _).flag _ 0 0 0 rfl, flag_setFlag_same _ _ _ _ _ (by decide)]

theorem erasing_dbgLocked (s : State) : (erasing s).dbgLocked = s.dbgLocked := by
  rw [erasing, dbgLocked_of_kept (loadsAbandon_kept _), State.dbgLocked, State.dbgLocked,
    flag_setFlag_of_apart _ _ _ _ _ _ _ _ (by decide), flag_setFlag_of_apart _ _ _ _ _ _ _ _ (by decide)]

theorem erasing_porHeld (s : State) : (erasing s).hb .porHeld = s.hb .porHeld :=
  congrArg (· != 0) ((loadsAbandon_kept _).h .porHeld 0 0 0 (by decide))

/-! ### The erase completes (R486) -/

/-- The memories after an erase: what lies outside the part. -/
def erased (m : List Host.Cell) : List Host.Cell := m.filter fun c => decide (2 ^ 64 ≤ c.1)

theorem memGet_erased (m : List Host.Cell) {a : Nat} (h : a < 2 ^ 64) : memGet (erased m) a = 0 := by
  induction m with
  | nil => rfl
  | cons c m ih =>
    rw [erased, List.filter_cons]
    split
    case isTrue far =>
      have ne : a ≠ c.1 := fun e => absurd (of_decide_eq_true far) (by omega)
      exact (if_neg ne).trans ih
    case isFalse => exact ih

@[simp] theorem alarm_mem (s : State) (n ty : Nat) : (s.alarm n ty).mem = s.mem := by
  unfold State.alarm State.alarmSend
  extract_lets was t
  split <;> simp [t]

theorem fuseCheck_mem (s : State) : s.fuseCheck.mem = s.mem := by
  unfold State.fuseCheck
  split
  · exact (alarm_mem _ _ _).trans (by simp)
  · rfl

theorem coldReset_mem (src : Nat) (out : s.hb .porHeld = false) : (s.coldReset src).mem = erased s.mem := by
  rw [State.coldReset, if_neg (by simp [out]), fuseCheck_mem]
  simp only [State.resetCause, State.setFld_mem, State.satFld_mem, State.setH_mem]
  rfl

/-- The part after its erase, apart from what is undefined. -/
def opened (s : State) : State := s.setFlag F.DBG_STAT_UNLOCKED true |>.setFlag F.DBG_STAT_ERASING false

theorem opened_dbgLocked (s : State) : (opened s).dbgLocked = false := by
  have unlocked : (opened s).flag F.DBG_STAT_UNLOCKED = true := by
    rw [opened, flag_setFlag_of_apart _ _ _ _ _ _ _ _ (by decide), flag_setFlag_same _ _ _ _ _ (by decide)]
  rw [State.dbgLocked, unlocked, Bool.not_true, Bool.and_false]

theorem opened_erasing (s : State) : (opened s).flag F.DBG_STAT_ERASING = false :=
  flag_setFlag_same _ _ _ _ _ (by decide)

/-- R486. The end of an erase leaves the part unlocked, with every byte of its memories 0. -/
theorem unlockDone_erased (out : s.hb .porHeld = false) (run : s.flag F.DBG_STAT_ERASING = true) :
    s.unlockDone.dbgLocked = false ∧ s.unlockDone.flag F.DBG_STAT_ERASING = false ∧
      ∀ a, a < 2 ^ 64 → s.unlockDone.ldByte a = 0 := by
  unfold State.unlockDone
  rw [if_neg (by simp [run])]
  extract_lets key blank reset
  have mem : reset.mem = erased s.mem := coldReset_mem 5 out
  refine ⟨opened_dbgLocked reset, opened_erasing reset, fun a ha => ?_⟩
  change memGet reset.mem a = 0
  rw [mem, memGet_erased _ ha]

end Sys2Proof.Debug
end

section
/-!
SUPPORT. Statement O43 of the debug engine (R481, R485, R486).
-/
namespace Sys2Proof.Debug

open Sys2Proof Sys2Proof.Machine

/-- Settles O43 (R485, R486, R494, R495, R499), by the locked branch of each command and the state of an erase. -/
theorem lockedPartStaysClosed : Obligations.LockedPartStaysClosed := by
  unfold Obligations.LockedPartStaysClosed
  intro s locked
  refine ⟨fun dr => ?scan, fun v defined op => ?access, fun w i v defined => ?core, fun x n v who other defined => ?patch,
    fun idle out => ?unlock⟩
  case scan =>
    by_cases ir : s.tapIr = 0x20
    · exact ⟨_, (if_pos ir).trans (congrArg Host.Outcome.next (dbgScan_of_locked locked dr)), rfl, rfl, rfl, rfl, locked⟩
    · exact ⟨s, if_neg ir, rfl, rfl, rfl, rfl, locked⟩
  case access =>
    have refused := (Panel.wrOut_of_defined .DBG_ACC_CTL v (s.dbgAccWrite v.toNat) defined).trans
      (congrArg Host.Outcome.next (dbgAccWrite_of_locked locked _ op))
    exact ⟨refused, refused⟩
  case core =>
    refine ⟨(if_pos defined).trans (coreCtl_of_locked locked w i _ _ _),
      (if_pos defined).trans (coreCtl_of_locked locked w i _ _ _), regTransfer_of_locked locked w i _,
      congrArg Host.Outcome.next (imemWrite_of_locked locked w i _)⟩
  case patch =>
    refine (Panel.wrOut_of_defined .DBG_PATCH_DATA v (s.patchWrite x n true v.toNat who) defined).trans ?_
    rw [patchWrite_of_locked locked x n _ true other]
    rfl
  case unlock =>
    refine ⟨erasing s, congrArg Host.Outcome.next (unlockGo_of_locked locked idle), erasing_flag s,
      (erasing_dbgLocked s).trans locked, _, rfl, ?_⟩
    exact unlockDone_erased ((erasing_porHeld s).trans out) (erasing_flag s)

end Sys2Proof.Debug
end

section
/-!
SUPPORT, for O28. A word of a tower I/O port at its boundary (R303..R305).
-/
namespace Sys2Proof.TowerIo

open Sys2Proof Sys2Proof.Machine Sys2Proof.Frame

variable (s : State) (t g : Nat)

/-! ### A status bit and its event (R312) -/

@[simp] theorem raise_tio (c q : Nat) : (s.raise c q).tio = s.tio :=
  Campanile.raise_induction (P := fun u => u.tio = s.tio) (fun _ _ _ _ _ h => h) (fun _ _ _ _ _ _ _ h => h) rfl c q

/-- The word on the input pins and the pins driven: what an event leaves alone. -/
def pins : Scope := ⟨.prm, [.tioVal, .pinOut], by decide, by decide⟩

theorem tioFlag_cases (f : Fld) : s.tioFlag f t g = s ∨ s.tioFlag f t g = (s.setFlag f true t g).device (1920 + t) := by
  unfold State.tioFlag
  split
  · exact .inl rfl
  · exact .inr rfl

theorem tioFlag_tioOf (f : Fld) : (s.tioFlag f t g).tioOf t g = s.tioOf t g := by
  rcases tioFlag_cases s t g f with e | e <;> rw [e]
  exact congrArg (tget · (t, g) []) (raise_tio _ _ _)

theorem tioFlag_h (f : Fld) {k : Hid} (hk : k ∈ pins.hids) (w i : Nat) : (s.tioFlag f t g).h k w i = s.h k w i := by
  rcases tioFlag_cases s t g f with e | e <;> rw [e]
  exact ((Kept.refl pins _).device _).h k w i 0 hk

theorem tioFlag_lateCnt (f : Fld) (hf : f.r ≠ .TIO_GRP_LATE_CNT) :
    (s.tioFlag f t g).fld F.TIO_GRP_LATE_CNT_COUNT t g = s.fld F.TIO_GRP_LATE_CNT_COUNT t g := by
  rcases tioFlag_cases s t g f with e | e <;> rw [e]
  exact (Campanile.raise_fld _ _ _ _ _ (Campanile.notEvent_of_block (by decide)) _ _).trans
    (Campanile.fld_setFld_ne s F.TIO_GRP_LATE_CNT_COUNT f t g 0 hf _ _ _ _)

/-! ### A late word -/

/-- A late word is counted, and LATE is set. -/
def late : State := (s.addFld F.TIO_GRP_LATE_CNT_COUNT 1 t g).tioFlag F.TIO_GRP_STAT_LATE t g

theorem late_tioOf : (late s t g).tioOf t g = s.tioOf t g := tioFlag_tioOf _ t g _

theorem late_h {k : Hid} (hk : k ∈ pins.hids) (w i : Nat) : (late s t g).h k w i = s.h k w i := tioFlag_h _ t g _ hk w i

theorem late_lateCnt : (late s t g).fld F.TIO_GRP_LATE_CNT_COUNT t g = (s.fld F.TIO_GRP_LATE_CNT_COUNT t g + 1) % 2 ^ 32 :=
  (tioFlag_lateCnt _ t g _ (by decide)).trans (Panel.fld_setFld_same s F.TIO_GRP_LATE_CNT_COUNT _ t g 0 (by decide))

theorem fld_lt (f : Fld) (w i j : Nat) : s.fld f w i j < 2 ^ f.w := Nat.mod_lt _ (Nat.two_pow_pos _)

/-! ### An input port (R304) -/

variable (ts arrived : Time) (w : Nat) (rest : List (Time × Nat))

/-- The time at which the word of a time stamp is due. -/
def due : Time := ts + BitVec.ofNat 64 (s.regN .TIO_GRP_LAT t g)

/-- The word is presented and has left the port. -/
def presented (isLate : Bool) : State :=
  s.setTio t g rest |>.setH .tioVal w t g |>.setH .tioLateBit (b2n isLate) t g

theorem presented_tioOf (isLate : Bool) : (presented s t g w rest isLate).tioOf t g = rest := tget_tput_same _ _ _ _

theorem presented_tioVal (isLate : Bool) : (presented s t g w rest isLate).h .tioVal t g = w :=
  (Events.h_setH_id_ne _ (by decide) _ _ _ _ _ _ _).trans (State.h_setH_same _ _ _ _ _ _)

/-- The state after the oldest word of an input port has come due. -/
def afterDue : State :=
  let shown := presented s t g w rest (later arrived (due s t g ts))
  if later arrived (due s t g ts) then late shown t g else shown

variable {s t g ts w rest}

theorem exec_tioWordPresent_early (oldest : s.tioOf t g = (ts, w) :: rest) (runs : s.tioRuns t g false = true)
    (early : atOrAfter (s.pavTime (s.fld F.TIO_GRP_CFG_PAV t g)) (due s t g ts) = false) :
    exec (.tioWordPresent t g arrived) s = .next s := by
  change execTioWordPresent t g arrived s = _
  unfold execTioWordPresent
  rw [oldest]
  exact (if_pos runs).trans (if_pos (congrArg (!·) early))

theorem exec_tioWordPresent_due (oldest : s.tioOf t g = (ts, w) :: rest) (runs : s.tioRuns t g false = true)
    (reached : atOrAfter (s.pavTime (s.fld F.TIO_GRP_CFG_PAV t g)) (due s t g ts) = true) :
    exec (.tioWordPresent t g arrived) s = .next (afterDue s t g ts arrived w rest) := by
  change execTioWordPresent t g arrived s = _
  unfold execTioWordPresent afterDue
  rw [oldest, apply_ite Host.Outcome.next]
  exact (if_pos runs).trans (if_neg (Bool.eq_false_iff.1 (congrArg (!·) reached)))

theorem afterDue_shows : (afterDue s t g ts arrived w rest).tioOf t g = rest ∧
    (afterDue s t g ts arrived w rest).h .tioVal t g = w ∧
    (afterDue s t g ts arrived w rest).fld F.TIO_GRP_LATE_CNT_COUNT t g =
      (s.fld F.TIO_GRP_LATE_CNT_COUNT t g + b2n (later arrived (due s t g ts))) % 2 ^ 32 := by
  unfold afterDue
  generalize later arrived (due s t g ts) = isLate
  cases isLate
  · exact ⟨presented_tioOf s t g w rest _, presented_tioVal s t g w rest _,
      (Nat.mod_eq_of_lt (fld_lt s F.TIO_GRP_LATE_CNT_COUNT t g 0)).symm⟩
  · exact ⟨(late_tioOf _ t g).trans (presented_tioOf s t g w rest _),
      (late_h _ t g (by decide) t g).trans (presented_tioVal s t g w rest _), late_lateCnt _ t g⟩

/-! ### An output port (R305) -/

/-- R305. A word came later than 2.0 ns before its boundary. -/
def missed (s : State) (arrived boundary : Time) : Bool := later arrived (boundary - BitVec.ofNat 64 (s.nsUnits 2))

/-- The word is on the pins. -/
def driven (s : State) (t g w : Nat) (rest : List (Time × Nat)) : State :=
  (s.setTio t g rest).setH .pinOut ((s.setTio t g rest).tioPins t g w) t g |>.setH .pinOe 255 t g

/-- The state after the oldest word of an output port has reached its boundary. -/
def afterBoundary (s : State) (t g : Nat) (b arrived : Time) (w : Nat) (rest : List (Time × Nat)) : State :=
  if missed s arrived b then late (s.setTio t g rest) t g else driven s t g w rest

theorem exec_tioOutputWord (oldest : s.tioOf t g = (ts, w) :: rest) (runs : s.tioRuns t g true = true) :
    exec (.tioOutputWord t g arrived) s = .next (afterBoundary s t g ts arrived w rest) := by
  change execTioOutputWord t g arrived s = _
  unfold execTioOutputWord afterBoundary
  rw [oldest, apply_ite Host.Outcome.next]
  exact if_pos runs

theorem afterBoundary_tioOf : (afterBoundary s t g ts arrived w rest).tioOf t g = rest := by
  unfold afterBoundary
  split
  · exact (late_tioOf _ t g).trans (tget_tput_same _ _ _ _)
  · exact tget_tput_same _ _ _ _

theorem afterBoundary_missed (h : missed s arrived ts = true) :
    (afterBoundary s t g ts arrived w rest).h .pinOut t g = s.h .pinOut t g ∧
    (afterBoundary s t g ts arrived w rest).fld F.TIO_GRP_LATE_CNT_COUNT t g =
      (s.fld F.TIO_GRP_LATE_CNT_COUNT t g + 1) % 2 ^ 32 := by
  rw [afterBoundary, if_pos h]
  exact ⟨late_h _ t g (by decide) t g, late_lateCnt _ t g⟩

theorem afterBoundary_in_time (h : missed s arrived ts = false) :
    (afterBoundary s t g ts arrived w rest).h .pinOut t g = s.tioPins t g w ∧
    (afterBoundary s t g ts arrived w rest).fld F.TIO_GRP_LATE_CNT_COUNT t g = s.fld F.TIO_GRP_LATE_CNT_COUNT t g := by
  rw [afterBoundary, if_neg (by simp [h])]
  exact ⟨(Events.h_setH_id_ne _ (by decide) _ _ _ _ _ _ _).trans (State.h_setH_same _ _ _ _ _ _), rfl⟩

end Sys2Proof.TowerIo
end

section
/-!
SUPPORT. Statement O28 of tower I/O (R303..R305).
-/
namespace Sys2Proof.TowerIo

open Sys2Proof Sys2Proof.Machine

/-- Settles O28 (R303, R304, R305), by the states of a word that is early, due, in time for its boundary, or late. -/
theorem towerWordsKeepTheirTimes : Obligations.TowerWordsKeepTheirTimes := by
  unfold Obligations.TowerWordsKeepTheirTimes
  intro t g ts arrived w rest s oldest
  refine ⟨fun runs => ⟨exec_tioWordPresent_early arrived oldest runs, fun reached =>
      ⟨_, exec_tioWordPresent_due arrived oldest runs reached, afterDue_shows arrived⟩⟩, fun runs =>
    ⟨_, exec_tioOutputWord arrived oldest runs, afterBoundary_tioOf arrived, afterBoundary_missed arrived,
      afterBoundary_in_time arrived⟩⟩

end Sys2Proof.TowerIo
end

section
/-!
SUPPORT, for O29. The state of a fence (R327), and what a closed port is answered (R333).
-/
namespace Sys2Proof.Promenade

open Sys2Proof Sys2Proof.Machine Sys2Proof.Frame

/-- The registers of the network, which nothing that follows a fence writes. -/
def scope : Scope := ⟨.prm, [], by decide, by decide⟩

variable (s : State) (p : Nat)

/-! ### PRM_STAT.FENCE changes -/

theorem pwrFenced_kept {t : State} (k : Kept scope s t) : Kept scope s (t.pwrFenced p) :=
  .ite _ ((k.followH (by decide) _ _ _ _).srUpdate p) k

theorem setFence_kept (st : Nat) : Kept scope (s.setFld F.PRM_STAT_FENCE st p) (s.setFence p st) := by
  unfold State.setFence
  extract_lets t
  have shown : Kept scope (s.setFld F.PRM_STAT_FENCE st p) t := ((Kept.refl _ _).raiseLocal _ _).domeShow p
  exact .ite _ ((pwrFenced_kept _ p shown).twinLost p) shown

theorem setFence_fence {st : Nat} (h : st < 2 ^ 2) : (s.setFence p st).fld F.PRM_STAT_FENCE p = st := by
  rw [(setFence_kept s p st).fld _ p 0 0 rfl, Panel.fld_setFld_same _ _ _ _ _ _ (by decide)]
  exact Nat.mod_eq_of_lt h

/-! ### Writes of PRM_FENCE_CTL -/

variable {s p} {v : Nat}

/-- R327. A request with SCOPE PORTS: the fence drains, and the declarations at its ports have lost them. -/
theorem fenceWrite_request_ports (idle : s.fld F.PRM_STAT_FENCE p = 0) (req : bitOf v 0 = true) (ports : bitOf v 1 = true) :
    (s.fenceWrite p v).fld F.PRM_STAT_FENCE p = 1 := by
  unfold State.fenceWrite
  extract_lets st req' written draining node closed
  rw [if_pos idle, if_neg (by simp [req', req]), if_pos ports, ((Kept.refl scope _).capacityFault _ _).fld _ p 0 0 rfl]
  exact setFence_fence _ _ (by decide)

theorem fenceWrite_release_draining (draining : s.fld F.PRM_STAT_FENCE p = 1) (release : bitOf v 0 = false) :
    s.fenceWrite p v = s.setFlag F.PRM_STAT_WR_IGN true p := by
  unfold State.fenceWrite
  extract_lets st req
  have busy : st ≠ 0 := by simp [st, draining]
  exact (if_neg busy).trans ((if_pos draining).trans (if_neg (by simp [req, release])))

theorem fenceWrite_release_ports (fenced : s.fld F.PRM_STAT_FENCE p = 2) (ports : s.fld F.PRM_FENCE_CTL_SCOPE p = 1)
    (release : bitOf v 0 = false) : s.fenceWrite p v = (s.setRegN .PRM_FENCE_CTL (v % 4) p).setFence p 0 := by
  unfold State.fenceWrite
  extract_lets st req written draining node closed
  have busy : st ≠ 0 := by simp [st, fenced]
  have drained : st ≠ 1 := by simp [st, fenced]
  exact (if_neg busy).trans ((if_neg drained).trans ((if_neg (by simp [req, release])).trans
    (if_neg (by simp [node, ports]))))

theorem exec_fenceDrained (draining : s.fld F.PRM_STAT_FENCE p = 1) (drained : s.drained p (s.inScope p) = true)
    (empty : s.transitEmpty p = true) : exec (.fenceDrained p none) s = .next (s.setFence p 2) :=
  if_pos ⟨draining, drained, empty⟩

/-- R333. A closed port sends nothing. -/
theorem prmSend_of_closed (hp : p < 32) {port : Nat} (closed : s.portClosed p port = true) (w : List Word) :
    s.prmSend p port w = (.fenced, s) := if_pos ⟨hp, closed⟩

end Sys2Proof.Promenade
end

section
/-!
SUPPORT. Statement O29 of the fences (R327, R333).
-/
namespace Sys2Proof.Promenade

open Sys2Proof Sys2Proof.Machine

/-- Settles O29 (R327, R333), by the branch of the fence's table that each state and write take. -/
theorem fencesFollowTheirTable : Obligations.FencesFollowTheirTable := by
  unfold Obligations.FencesFollowTheirTable
  intro p v s hp defined
  have written : wrOut .PRM_FENCE_CTL v (s.fenceWrite p v.toNat) = .next (s.fenceWrite p v.toNat) :=
    Panel.wrOut_of_defined _ _ _ defined
  refine ⟨fun idle req ports => ⟨_, written, fenceWrite_request_ports idle req ports⟩, fun draining release =>
    written.trans (congrArg Host.Outcome.next (fenceWrite_release_draining draining release)),
    fun draining drained empty => ⟨_, exec_fenceDrained draining drained empty, setFence_fence _ _ (by decide)⟩,
    fun fenced ports release => ⟨_, written, ?_⟩, fun port w closed => prmSend_of_closed hp closed w⟩
  rw [fenceWrite_release_ports fenced ports release, setFence_fence _ _ (by decide)]

end Sys2Proof.Promenade
end

section
/-!
SUPPORT, for O30. The packet that a router refuses for an isolated target (R329), and who may isolate one.
-/
namespace Sys2Proof.Promenade

open Sys2Proof Sys2Proof.Machine

variable {s : State} {n i cls : Nat} {f : Flight}

/-- The input without the packet, and the packet refused. -/
def refusedDead (s : State) (n i : Nat) (f : Flight) : State :=
  (s.setPIn n i ((s.pIn n i).erase f)).prmRefuse n f.words .dead

/-- R329. A pavilion router refuses the oldest packet of a class when its destination is isolated. -/
theorem forward_isolated (hn : n < 32) (oldest : (s.pIn n i).find? (fun f => f.cls == cls) = some f)
    (isolated : s.isoAt n (pktDst f.words) = true) : s.forward n i cls = refusedDead s n i f := by
  have here : ¬ 32 ≤ n := by omega
  have masked : (s.setPIn n i ((s.pIn n i).erase f)).isoAt n (pktDst f.words) = true := isolated
  unfold State.forward
  rw [oldest]
  exact (if_neg here).trans (if_pos masked)

/-- Port 0 is no DMA channel's. -/
theorem ite_dma_port {α : Type} (c : Prop) [Decidable c] (q : Nat) (x : Nat → α) (y : α) :
    (if 80 ≤ (if c then q else 0) ∧ (if c then q else 0) < 112 then x (if c then q else 0) else y) =
      if c ∧ 80 ≤ q ∧ q < 112 then x q else y := by
  by_cases h : c <;> simp [h]

theorem exec_packetForward_isolated (hn : n < 32) (oldest : (s.pIn n i).find? (fun f => f.cls == cls) = some f)
    (isolated : s.isoAt n (pktDst f.words) = true) : exec (.packetForward n i cls none) s =
      .next (if i = localPort ∧ pktClass f.words ≠ 1 ∧ 80 ≤ pktPort f.words ∧ pktPort f.words < 112 then
          (refusedDead s n i f).dmaNext n ((pktPort f.words - 80) / 4) (pktPort f.words % 4)
        else refusedDead s n i f) := by
  refine congrArg Host.Outcome.next ?_
  unfold State.forwardOn
  rw [oldest, forward_isolated hn oldest isolated]
  refine (ite_dma_port _ _ (fun q => (refusedDead s n i f).dmaNext n ((q - 80) / 4) (q % 4)) _).trans ?_
  simp only [hn, true_and, and_assoc]

/-! ### The refusal -/

theorem prmCount_of_pavilion (hn : n < 32) (x : Fld) : s.prmCount x n = s.addFld x 1 n := if_pos hn

theorem prmRefuse_nonPosted (hn : n < 32) {w : List Word} (h : pktNonPosted w = true) : s.prmRefuse n w .dead =
    (s.addFld F.PRM_ERR_RSP_CNT_COUNT 1 n).prmPut n (pktResponse w n 127 3 0 false []) := by
  have counted : s.prmAnswer n 127 w 3 0 false [] = (s.prmCount F.PRM_ERR_RSP_CNT_COUNT n).prmPut n
      (pktResponse w n 127 3 0 false []) := if_pos h
  rw [prmCount_of_pavilion hn] at counted
  exact (if_pos h).trans counted

theorem prmRefuse_posted (hn : n < 32) {w : List Word} (h : pktNonPosted w = false) :
    s.prmRefuse n w .dead = s.addFld F.PRM_ABSORB_CNT_COUNT 1 n :=
  (if_neg (by simp [h])).trans (prmCount_of_pavilion hn _)

/-! ### The mask -/

theorem exec_isoMaskWrite_of_defined (p : Nat) {hi : Bool} {v : Word} (who : Requester)
    (defined : hi = true → RegId.defined .PRM_ISO (v.toNat * 2 ^ 32) = true) :
    exec (.isoMaskWrite p hi v who) s = .next (s.isoWrite p hi v who) :=
  if_neg (by simpa using defined)

theorem isoWrite_not_presiding (p : Nat) (hi : Bool) (v : Word) {who : Requester} (other : s.isPresiding who = false) :
    s.isoWrite p hi v who = s.setFlag F.PRM_STAT_WR_IGN true p := if_pos (by simp [other])

end Sys2Proof.Promenade
end

section
/-!
SUPPORT. Statement O30 of the isolated targets (R329).
-/
namespace Sys2Proof.Promenade

open Sys2Proof Sys2Proof.Machine

/-- Settles O30 (R329), by the branch of an isolated target and the refusal of each kind of packet. -/
theorem isolatedTargetsAnswerDead : Obligations.IsolatedTargetsAnswerDead := by
  unfold Obligations.IsolatedTargetsAnswerDead
  refine ⟨fun n i cls f s hn oldest isolated => exec_packetForward_isolated hn oldest isolated,
    fun n w s hn => ⟨prmRefuse_nonPosted hn, prmRefuse_posted hn⟩, fun p hi v who s other defined => ?_⟩
  rw [exec_isoMaskWrite_of_defined p who defined, isoWrite_not_presiding p hi v other]

end Sys2Proof.Promenade
end

section
/-!
SUPPORT, for O32. A data frame at a Lartum receiver (R335, R381).
-/
namespace Sys2Proof.Lartum

open Sys2Proof Sys2Proof.Machine

/-! ### What leaves the link sides and the input buffers alone -/

/-- `t` has the link sides and the input buffers of `s`. -/
def LinksKept (s t : State) : Prop := t.lrt = s.lrt ∧ t.prmIn = s.prmIn

theorem raise_linksKept (s : State) (c q : Nat) : LinksKept s (s.raise c q) :=
  Campanile.raise_induction (P := LinksKept s) (fun _ _ _ _ _ h => h) (fun _ _ _ _ _ _ _ h => h) ⟨rfl, rfl⟩ c q

theorem alarm_linksKept (s : State) (n ty : Nat) : LinksKept s (s.alarm n ty) := by
  unfold State.alarm
  extract_lets was t
  split <;> exact ⟨rfl, rfl⟩

theorem LinksKept.trans {s t u : State} (a : LinksKept s t) (b : LinksKept t u) : LinksKept s u :=
  ⟨b.1.trans a.1, b.2.trans a.2⟩

theorem bucketAdd_linksKept (s : State) (p b : Nat) : LinksKept s (s.bucketAdd p b) := by
  unfold State.bucketAdd
  extract_lets lvl
  split
  · exact (raise_linksKept ((s.setFld F.MEM_BKT_STAT_LEVEL 0 p b).satFld F.MEM_BKT_STAT_OVF 1 p b) p 472).trans
      (alarm_linksKept _ _ _)
  · exact ⟨rfl, rfl⟩

theorem sramCorrected_linksKept (s : State) (p : Nat) : LinksKept s (s.sramCorrected p) :=
  bucketAdd_linksKept (s.addFld F.MEM_SRAM_CE_CNT_COUNT 1 p) p 1

@[simp] theorem side_setSide (s : State) (n l : Nat) (x : LrtSide) : (s.setSide n l x).side n l = x := tget_tput_same _ _ _ _

/-! ### The branches of a receiver (R335) -/

variable {s : State} {n l : Nat} {f : LrtFrame}

/-- The link side with a NAK to send. -/
def naks (x : LrtSide) : LrtSide := { x with ctl := 2 }

/-- A frame written with a parity error, which a replay corrects. -/
def parityHit (s : State) (n l : Nat) : State := (if n < 32 then s.sramCorrected n else s).setSide n l (naks (s.side n l))

/-- The link side after the acknowledgement in a good frame. -/
def acked (s : State) (n l : Nat) (f : LrtFrame) : LrtSide := (s.side n l).ackTo (f.ack + 1)

theorem parityHit_kept : (parityHit s n l).side n l = naks (s.side n l) ∧ (parityHit s n l).prmIn = s.prmIn := by
  refine ⟨side_setSide _ _ _ _, ?_⟩
  unfold parityHit
  split
  · exact (sramCorrected_linksKept s n).2
  · rfl

section
variable (up : s.lrtState n l = 5) (carries : s.linkCarries n l = true)
include up carries

theorem frameRx_parity (par : f.par = true) : s.frameRx n l f = parityHit s n l :=
  (if_neg (by simp [up, carries])).trans (if_pos par)

theorem frameRx_badCrc (par : f.par = false) (bad : frameOk f = false) : s.frameRx n l f =
    (s.addFld F.LRT_LINK_CRC_CNT_COUNT 1 n l).setSide n l (naks (s.side n l)) :=
  (if_neg (by simp [up, carries])).trans ((if_neg (by simp [par])).trans (if_pos (by simp [bad])))

theorem frameRx_outOfSequence (par : f.par = false) (ok : frameOk f = true) (seq : f.seq ≠ (s.side n l).expect) :
    s.frameRx n l f = (s.setSide n l (acked s n l f)).setSide n l (naks (acked s n l f)) := by
  have gap : f.seq ≠ ((s.setSide n l (acked s n l f)).side n l).expect := by rw [side_setSide]; exact seq
  refine (if_neg (by simp [up, carries])).trans ((if_neg (by simp [par])).trans ((if_neg (by simp [ok])).trans
    ((if_pos gap).trans ?_)))
  exact congrArg (fun x => (s.setSide n l (acked s n l f)).setSide n l (naks x)) (side_setSide s n l _)

/-- A good frame with the expected SEQ, while no swap is under way, advances the expected SEQ. -/
theorem frameRx_expected (par : f.par = false) (ok : frameOk f = true) (seq : f.seq = (s.side n l).expect)
    (still : (s.side n l).swap = none) : ((s.frameRx n l f).side n l).expect = ((s.side n l).expect + 1) % 256 := by
  unfold State.frameRx
  rw [if_neg (by simp [up, carries]), if_neg (by simp [par]), if_neg (by simp [ok])]
  extract_lets a x c d e
  have here : x = acked s n l f := side_setSide s n l _
  have next : f.seq = x.expect := by rw [here]; exact seq
  have calm : x.swap = none := by rw [here]; exact still
  have delivered : e.lrt = d.lrt := by
    unfold e
    split
    · rfl
    · split
      · split <;> rfl
      · rfl
  rw [if_neg (not_not_intro next), calm]
  change (tget e.lrt (n, l) LrtSide.empty).expect = _
  rw [delivered]
  change (d.side n l).expect = _
  rw [show d.side n l = _ from side_setSide _ _ _ _, here]
  rfl

end
end Sys2Proof.Lartum
end

section
/-!
SUPPORT. Statement O32 of the links (R334, R335, R381).
-/
namespace Sys2Proof.Lartum

open Sys2Proof Sys2Proof.Machine

/-- Settles O32 (R334, R335, R381), by the branch that each kind of frame takes. -/
theorem lartumReceiverTakesFramesInOrder : Obligations.LartumReceiverTakesFramesInOrder := by
  unfold Obligations.LartumReceiverTakesFramesInOrder
  intro n l f s up carries
  refine ⟨fun par => ⟨_, rfl, ?_⟩, fun par bad => ⟨_, rfl, ?_⟩, fun par ok seq => ⟨_, rfl, ?_⟩,
    fun par ok seq still => ⟨_, rfl, frameRx_expected up carries par ok seq still⟩⟩
  · obtain ⟨side, buffers⟩ := parityHit_kept (s := s) (n := n) (l := l)
    rw [frameRx_parity up carries par, side]
    exact ⟨rfl, rfl, buffers⟩
  · rw [frameRx_badCrc up carries par bad, side_setSide]
    exact ⟨rfl, rfl, rfl, Panel.fld_setFld_same s F.LRT_LINK_CRC_CNT_COUNT _ n l 0 (by decide)⟩
  · rw [frameRx_outOfSequence up carries par ok seq, side_setSide]
    exact ⟨rfl, rfl, rfl, rfl⟩

end Sys2Proof.Lartum
end

section
/-!
SUPPORT, for O33. The states of an annex (R349, R351).
-/
namespace Sys2Proof.Annex

open Sys2Proof Sys2Proof.Machine Sys2Proof.Frame

/-- The registers of the annexes, which an event leaves alone. -/
def scope : Scope := ⟨.anx, [], by decide, by decide⟩

variable {s : State} {a st : Nat}

/-! ### A state is entered (R352) -/

theorem setAnx_state (h : st < 2 ^ 3) : (s.setAnx a st).anxState a = st := by
  unfold State.setAnx
  split
  case isTrue already => exact already
  case isFalse =>
    rw [State.anxState, ((Kept.refl scope _).device _).fld _ 0 a 0 rfl, Panel.fld_setFld_same _ _ _ _ _ _ (by decide)]
    exact Nat.mod_eq_of_lt h

theorem setAnx_rate : (s.setAnx a st).fld F.ANX_STAT_RATE 0 a = s.fld F.ANX_STAT_RATE 0 a := by
  unfold State.setAnx
  split
  · rfl
  · rw [((Kept.refl scope _).device _).fld _ 0 a 0 rfl, fld_setFld_of_apart _ _ _ _ _ _ _ _ (by decide)]

/-! ### The steps of Table 13.7 -/

/-- R349. Training is over at a rate capped by MAX_RATE. -/
def trained (s : State) (a rate : Nat) : State :=
  (s.setFld F.ANX_STAT_RATE (min rate (s.fld F.ANX_CFG_MAX_RATE 0 a)) 0 a).setAnx a 4

theorem exec_anxTrainingDone (rate : Nat) (h : s.anxState a = 3) :
    exec (.anxTrainingDone a rate) s = .next (trained s a rate) := if_pos h

theorem trained_rate {rate : Nat} (h : rate < 6) :
    (trained s a rate).fld F.ANX_STAT_RATE 0 a = min rate (s.fld F.ANX_CFG_MAX_RATE 0 a) := by
  rw [trained, setAnx_rate, Panel.fld_setFld_same _ _ _ _ _ _ (by decide)]
  exact Nat.mod_eq_of_lt (Nat.lt_of_le_of_lt (Nat.min_le_left _ _) (Nat.lt_trans h (by decide)))

theorem exec_anxParamDone (h : s.anxState a = 4) : exec (.anxParamDone a) s = .next (s.setAnx a 5) := if_pos h

theorem exec_anxIdentResponse_of_ne (w0 w1 w2 w3 : Word) (h : s.anxState a ≠ 5) :
    exec (.anxIdentResponse a w0 w1 w2 w3) s = .next s := if_neg h

/-- R351. A loss of the link before UP is a way back to DOWN, and nothing more. -/
theorem anxDown_before_up (on : 3 ≤ s.anxState a) (down : s.anxState a < 6) : s.anxDown a = s.setAnx a 2 := by
  unfold State.anxDown
  rw [if_neg (by omega)]
  exact if_neg (by omega)

end Sys2Proof.Annex
end

section
/-!
SUPPORT. Statement O33 of the annexes (R349, R351).
-/
namespace Sys2Proof.Annex

open Sys2Proof Sys2Proof.Machine

/-- Settles O33 (R349, R351), by the state that each step enters. -/
theorem annexRunsItsStates : Obligations.AnnexRunsItsStates := by
  unfold Obligations.AnnexRunsItsStates
  intro a s _
  refine ⟨fun rate hr training => ⟨_, exec_anxTrainingDone rate training, setAnx_state (by decide), trained_rate hr⟩,
    fun param => ⟨_, exec_anxParamDone param, setAnx_state (by decide)⟩,
    fun w0 w1 w2 w3 => exec_anxIdentResponse_of_ne w0 w1 w2 w3, fun on down => ⟨_, rfl, ?_⟩⟩
  rw [anxDown_before_up on down, setAnx_state (by decide)]

end Sys2Proof.Annex
end

section
/-!
SUPPORT, for O35. A load that fails (R354, R364, R365), and a GO (R367).
-/
namespace Sys2Proof.Loads

open Sys2Proof Sys2Proof.Machine Sys2Proof.Frame

/-- The registers of the load controller and where its load stands, which events and blanked plots leave alone. -/
def scope : Scope := ⟨.cfgG, [.loadSrc, .loadPav, .loadBackoff], by decide, by decide⟩

variable {s t : State} {st : Nat}

/-! ### A state is entered (R379) -/

theorem setLoad_state (h : st < 2 ^ 3) : (s.setLoad st).loadState = st := by
  unfold State.setLoad
  split
  case isTrue already => exact already
  case isFalse =>
    rw [State.loadState, ((Kept.refl scope _).device _).fld _ 0 0 0 rfl, Panel.fld_setFld_same _ _ _ _ _ _ (by decide)]
    exact Nat.mod_eq_of_lt h

theorem setLoad_fld {f : Fld} (hf : f.r.row.block = .cfgG) (h : Apart f F.CFG_LOAD_STAT_STATE) :
    (s.setLoad st).fld f = s.fld f := by
  unfold State.setLoad
  split
  · rfl
  · rw [((Kept.refl scope _).device _).fld f 0 0 0 hf, fld_setFld_of_apart _ _ _ _ _ _ _ _ h]

theorem setLoad_h {k : Hid} (hk : k ∈ scope.hids) : (s.setLoad st).h k = s.h k := by
  unfold State.setLoad
  split
  · rfl
  · rw [((Kept.refl scope _).device _).h k 0 0 0 hk]
    rfl

/-! ### The failure of an attempt (R354, R364) -/

variable (s) (code sect : Nat)

/-- The error is recorded, with its section where one failed. -/
def failNoted : State :=
  let t := (s.setFld F.CFG_LOAD_STAT_ERR code).device 1030
  if 8 ≤ code ∧ code ≤ 0xc then t.setRegN .CFG_FAIL_SECT (sect % 512) else t

/-- The plots that the attempt has written, cleared. -/
def failCleared : State :=
  foldS (fun (e : Nat × Nat) s => if s.hb .loadPlot e.1 e.2 then s.plotBlank e.1 e.2 else s) (failNoted s code sect).loadPlots
    (failNoted s code sect)

/-- The back-off doubles up to 8 s. -/
def nextBackoff (back : Nat) : Nat := if back = 0 then 1 else min 8000 (2 * back)

/-- The load goes back to HEADER, on the T4 flash. -/
def fallBack : State := { (failNoted s code sect).setH .loadSrc 1 with loadInit := [] }.setLoad 1

/-- The load backs off. -/
def backOff : State :=
  { (failCleared s code sect).setH .loadBackoff (nextBackoff ((failCleared s code sect).h .loadBackoff)) with
    loadInit := [] }.setLoad 5

theorem loadFail_eq : s.loadFail code sect =
    if (failNoted s code sect).h .loadSrc = 0 ∧ ¬ (failNoted s code sect).hb .loadPav ∧
        (failNoted s code sect).fld F.CFG_LOAD_CTL_SRC = 0 then fallBack s code sect
    else backOff s code sect := rfl

theorem failNoted_h {k : Hid} (hk : k ∈ scope.hids) : (failNoted s code sect).h k = s.h k := by
  have raised := ((Kept.refl scope (s.setFld F.CFG_LOAD_STAT_ERR code)).device 1030).h k 0 0 0 hk
  unfold failNoted
  extract_lets t
  split <;> exact raised

theorem failNoted_fld {f : Fld} (hf : f.r.row.block = .cfgG) (h : f.r ≠ .CFG_FAIL_SECT) :
    (failNoted s code sect).fld f = (s.setFld F.CFG_LOAD_STAT_ERR code).fld f := by
  have raised := ((Kept.refl scope (s.setFld F.CFG_LOAD_STAT_ERR code)).device 1030).fld f 0 0 0 hf
  unfold failNoted
  extract_lets t
  split
  · exact (Campanile.fld_setRegN_ne t f 0 0 0 h.symm (sect % 512) 0 0 0).trans raised
  · exact raised

variable {code}

theorem failNoted_err (hc : code < 2 ^ 8) : (failNoted s code sect).fld F.CFG_LOAD_STAT_ERR = code := by
  rw [failNoted_fld s code sect rfl (by decide), Panel.fld_setFld_same _ _ _ _ _ _ (by decide)]
  exact Nat.mod_eq_of_lt hc

theorem failCleared_kept : Kept scope (failNoted s code sect) (failCleared s code sect) :=
  Kept.foldS (fun _ _ k => .ite _ (k.plotBlank _ _) k) _ (.refl _ _)

theorem loadFail_fallsBack (src : s.h .loadSrc = 0) (full : s.hb .loadPav = false) (auto : s.fld F.CFG_LOAD_CTL_SRC = 0) :
    s.loadFail code sect = fallBack s code sect := by
  have pav : (failNoted s code sect).hb .loadPav = false := (congrArg (· != 0) (failNoted_h s code sect (by decide))).trans full
  have ctl : (failNoted s code sect).fld F.CFG_LOAD_CTL_SRC = 0 := by
    rw [failNoted_fld s code sect rfl (by decide), fld_setFld_of_apart _ _ _ _ _ _ _ _ (by decide), auto]
  rw [loadFail_eq, failNoted_h s code sect (by decide), if_pos ⟨src, by simp [pav], ctl⟩]

theorem loadFail_backsOff (src : s.h .loadSrc ≠ 0) : s.loadFail code sect = backOff s code sect := by
  rw [loadFail_eq, failNoted_h s code sect (by decide), if_neg fun both => src both.1]

theorem fallBack_shows (hc : code < 2 ^ 8) : (fallBack s code sect).loadState = 1 ∧
    (fallBack s code sect).h .loadSrc = 1 ∧ (fallBack s code sect).fld F.CFG_LOAD_STAT_ERR = code := by
  refine ⟨setLoad_state (by decide), (setLoad_h (by decide)).trans (State.h_setH_same _ _ _ _ _ _), ?_⟩
  exact (setLoad_fld rfl (by decide)).trans (failNoted_err s sect hc)

theorem backOff_shows (hc : code < 2 ^ 8) : (backOff s code sect).loadState = 5 ∧
    (backOff s code sect).fld F.CFG_LOAD_STAT_ERR = code ∧
    (backOff s code sect).h .loadBackoff = nextBackoff (s.h .loadBackoff) := by
  have cleared := failCleared_kept s (code := code) sect
  refine ⟨setLoad_state (by decide), ?_, ?_⟩
  · exact (setLoad_fld rfl (by decide)).trans ((cleared.fld F.CFG_LOAD_STAT_ERR 0 0 0 rfl).trans (failNoted_err s sect hc))
  · refine (setLoad_h (by decide)).trans ((State.h_setH_same _ _ _ _ _ _).trans ?_)
    rw [cleared.h .loadBackoff 0 0 0 (by decide), failNoted_h s code sect (by decide)]

variable {s}

theorem exec_loadError_idle (header : s.loadState ≠ 1) (load : s.loadState ≠ 2) : exec (.loadError code sect) s = .next s :=
  if_neg (by simp [header, load])

theorem exec_loadError_reading (h : s.loadState = 1 ∨ s.loadState = 2) :
    exec (.loadError code sect) s = .next (s.loadFail code sect) := if_pos h

/-! ### A GO (R367) -/

/-- The bits of CFG_LOAD_CTL that a write leaves. -/
def ctlWritten (s : State) (v : Nat) : State := s.setRegN .CFG_LOAD_CTL (v &&& 0x7e)

section
variable {v : Nat} (go : bitOf v 0 = true)
include go

theorem loadCtlWrite_other {who : Requester} (other : s.isPresiding who = false) :
    s.loadCtlWrite v who = (ctlWritten s v).setFlag F.CFG_LOAD_STAT_WR_IGN true :=
  (if_neg (by simp [go])).trans (if_neg (Bool.eq_false_iff.1 other))

theorem loadCtlWrite_presiding {who : Requester} (presides : s.isPresiding who = true) :
    s.loadCtlWrite v who = (ctlWritten s v).loadGo (bitsOf v 1 2) := (if_neg (by simp [go])).trans (if_pos presides)

end

theorem ctlWritten_loadState (v : Nat) : (ctlWritten s v).loadState = s.loadState :=
  Campanile.fld_setRegN_ne (id := .CFG_LOAD_CTL) s F.CFG_LOAD_STAT_STATE 0 0 0 (by decide) (v &&& 0x7e) 0 0 0

/-- A GO in HEADER, LOAD or STARTING starts nothing. -/
theorem loadGo_of_loading (op : Nat) (h : s.loadState = 1 ∨ s.loadState = 2 ∨ s.loadState = 3) :
    s.loadGo op = s.setFlag F.CFG_LOAD_STAT_WR_IGN true :=
  if_pos (by rcases h with h | h | h <;> rw [h] <;> decide)

/-- The state after a GO of the presiding lodge that starts nothing. -/
def goIgnored (s : State) (v : Nat) : State := (ctlWritten s v).setFlag F.CFG_LOAD_STAT_WR_IGN true

theorem goIgnored_shows (v : Nat) : (goIgnored s v).loadState = s.loadState ∧
    (goIgnored s v).flag F.CFG_LOAD_STAT_WR_IGN = true :=
  ⟨(fld_setFld_of_apart _ _ _ _ _ _ _ _ (by decide)).trans (ctlWritten_loadState v),
    flag_setFlag_same _ _ _ _ _ (by decide)⟩

end Sys2Proof.Loads
end

section
/-!
SUPPORT. Statement O35 of the configuration load (R354, R364, R365, R367).
-/
namespace Sys2Proof.Loads

open Sys2Proof Sys2Proof.Machine

/-- Settles O35 (R354, R364, R365, R367), by the states of an attempt that falls back, one that backs off, and a GO. -/
theorem loadErrorsFallBackOrBackOff : Obligations.LoadErrorsFallBackOrBackOff := by
  unfold Obligations.LoadErrorsFallBackOrBackOff
  intro code sect s hc
  refine ⟨exec_loadError_idle sect, fun reading => ⟨fun src full auto => ⟨fallBack s code sect, ?_, fallBack_shows s sect hc⟩,
    fun src => ⟨backOff s code sect, ?_, backOff_shows s sect hc⟩⟩, fun v who go defined => ?_⟩
  · rw [exec_loadError_reading sect reading, loadFail_fallsBack s sect src full auto]
  · rw [exec_loadError_reading sect reading, loadFail_backsOff s sect src]
  · have written : exec (.loadGoFull v who) s = .next (s.loadCtlWrite v.toNat who) :=
      Panel.wrOut_of_defined _ _ _ defined
    refine ⟨fun other => written.trans (congrArg Host.Outcome.next (loadCtlWrite_other go other)), fun presides busy =>
      ⟨goIgnored s v.toNat, written.trans (congrArg Host.Outcome.next ?_), goIgnored_shows v.toNat⟩⟩
    rw [loadCtlWrite_presiding go presides, loadGo_of_loading _ (by rwa [ctlWritten_loadState]), goIgnored]

end Sys2Proof.Loads
end

section
/-!
SUPPORT. Statement O40 of the collector (R428, R429).
-/
namespace Sys2Proof.Telemetry

open Sys2Proof Sys2Proof.Machine

/-- Type 0 is active, one write of it is in flight, and the register of its count holds a bit above the field. -/
def wideCount : State := ((State.reset.setRegN .TEL_ALM_CNT (2 ^ 32)).setBit .TEL_ALM_ACT 0 true).setH .almSent 1

/-- What the collector makes of it. -/
def wideCountTaken : State :=
  ((wideCount.alarmRecord 0 1 0 (wideCount.hTime .almTime)).dropsRx 0).setH .almTaken 1

theorem exec_alarmRecordRx_wideCount : exec (.alarmRecordRx 0 0) wideCount = .next wideCountTaken := by
  have fresh : ¬ (wideCount.h .almSent 0 0 = 0 ∨ wideCount.hb .almTaken 0 0 = true) := by decide
  change execAlarmRecordRx 0 0 wideCount = _
  rw [execAlarmRecordRx, if_neg fresh, show wideCount.h .almSent = 1 by decide, show wideCount.h .almDrops = 0 by decide]
  rfl

/-- Only the COUNT field of the register is added to. -/
theorem wideCountTaken_cnt : wideCountTaken.regN .TEL_ALM_CNT = 2 ^ 32 + 1 := by decide

/-- Refutes O40: over every state the whole register TEL_ALM_CNT need not be the sum of its COUNT field and the write, for
a register that holds a bit above COUNT keeps it. -/
theorem not_alarmRecordsAreTakenOnce : ¬ Obligations.AlarmRecordsAreTakenOnce := by
  unfold Obligations.AlarmRecordsAreTakenOnce
  intro h
  obtain ⟨-, counted⟩ := h 0 0 wideCount (by decide)
  obtain ⟨t, run, -, -, cnt, -⟩ := counted (by decide) (by decide) (by decide)
  rw [exec_alarmRecordRx_wideCount] at run
  obtain rfl : wideCountTaken = t := Host.Outcome.next.inj run
  rw [wideCountTaken_cnt] at cnt
  revert cnt
  decide

end Sys2Proof.Telemetry
end

section
/-!
SUPPORT. Statement O51 of the event controllers (R261): the timer of a group runs on the time of its controller's node.
-/
namespace Sys2Proof.Events

open Sys2Proof Sys2Proof.Machine

/-- The replica of tower 0, at which the controller of the host endpoints counts, is 1,000 ps behind device time; the timer
of group 0 runs and expires at time 0. -/
def slowReplica : State :=
  (State.reset.setRegN .CAMP_TWR_TRIM_USER (2 ^ 32 - 4000)).setEv hevc .gstat 0 17 1 1

theorem slowReplica_times : atOrAfter slowReplica.time (slowReplica.hTime .evcExpiry hevc 0) = true ∧
    atOrAfter (slowReplica.nodeTime hevc) (slowReplica.hTime .evcExpiry hevc 0) = false := by decide

/-- The timer that has not expired at its node goes on. -/
theorem exec_coalTimerExpiry_slowReplica : exec (.coalTimerExpiry hevc 0) slowReplica = .next slowReplica := by
  change execCoalTimerExpiry hevc 0 slowReplica = _
  rw [execCoalTimerExpiry, if_neg (by rw [slowReplica_times.2]; decide)]

theorem slowReplica_timer : slowReplica.ev hevc .gstat 0 17 1 = 1 ∧
    (slowReplica.timerExpire hevc 0).ev hevc .gstat 0 17 1 = 0 := by decide

/-- Refutes O51: a timer whose expiry device time has reached has not expired while the replica of its node is behind. -/
theorem not_eventCommandsComplete : ¬ Obligations.EventCommandsComplete := by
  unfold Obligations.EventCommandsComplete
  rintro ⟨-, timer, -⟩
  have run := timer hevc 0 slowReplica slowReplica_times.1
  rw [exec_coalTimerExpiry_slowReplica] at run
  have same : slowReplica = slowReplica.timerExpire hevc 0 := Host.Outcome.next.inj run
  have on := slowReplica_timer.1
  rw [same, slowReplica_timer.2] at on
  exact absurd on (by decide)

end Sys2Proof.Events
end

section
/-!
SUPPORT, for O53. A load whose staged register values name a plot's own status (R366): the values are applied before the
plots are released, so the released state stands.
-/
namespace Sys2Proof.Loads

open Sys2Proof Sys2Proof.Machine Sys2Proof.Frame

/-! ### Sections read for pavilion 0, with a staged value -/

/-- One section of plain frames for the four plots of pavilion 0. -/
def plainSect (body : List Word) : ImgSect := ⟨1, false, 1, 15, 0, body⟩

/-- What is staged: 0 for CFG_PLOT_STAT of plot 3 of pavilion 0. -/
def staged : List (Nat × Nat × Word) := [(0, 0x264, 0)]

/-- The load of pavilion 0 reads its sections. -/
def reading : State :=
  { (State.reset.setFld F.CFG_LOAD_STAT_STATE 2).setH .loadMask 1 with loadInit := staged }

theorem reading_loadState : reading.loadState = 2 := by decide

section
variable (body : List Word)

theorem sectTargets_plainSect : sectTargets (plainSect body) 1 = [0] := by
  change indicesWhere 32 (fun p => bitOf 1 p && bitOf 1 p) = [0]
  decide

theorem coverage_plainSect : coverage 1 [plainSect body] = true := by
  have each (p q : Nat) : ([plainSect body].filter fun x => x.kind == 1 && bitOf x.targets p && bitOf x.plots q).length =
      if bitOf 1 p && bitOf 15 q then 1 else 0 := by
    rw [List.filter_cons]
    change (if (bitOf 1 p && bitOf 15 q) = true then _ else _ : List ImgSect).length = _
    split <;> rfl
  simp only [coverage, each]
  decide

variable {body} (full : body.length = 1024 * (4 * plotFrames))
include full

theorem sectFrames_plainSect : (sectFrames (plainSect body)).isSome = true := by
  have four : popcount 4 15 = 4 := by decide
  have whole : body.length = 1024 * (popcount 4 15 * plotFrames) := by rw [four, full]
  exact congrArg Option.isSome (if_pos whole)

theorem firstBad_plainSect (s : State) (mask : Nat) : s.firstBad mask 0 [plainSect body] = none :=
  if_pos (if_pos (sectFrames_plainSect full))

end

/-! ### What applying the section leaves -/

/-- Dome 0 not initialised, and the mask of the load. -/
def loadScope : Scope := ⟨.prm, [.domeReady, .loadMask], by decide, by decide⟩

/-- The staged values, the mask and the dome stand as they did. -/
structure Standing (t : State) : Prop where
  kept : Kept loadScope reading t
  init : t.loadInit = staged

variable {t : State}

namespace Standing

theorem domeRuns (h : Standing t) : t.domeRuns 0 = false := by
  have ready : t.hb .domeReady 0 = false :=
    (congrArg (· != 0) (h.kept.h .domeReady 0 0 0 (by decide))).trans (by decide)
  rw [State.domeRuns, ready, Bool.false_and]

theorem loadMask (h : Standing t) : t.h .loadMask = 1 := (h.kept.h .loadMask 0 0 0 (by decide)).trans (by decide)

theorem loadPlots (h : Standing t) : t.loadPlots = [(0, 0), (0, 1), (0, 2), (0, 3)] := by
  rw [State.loadPlots, h.loadMask]
  decide

theorem stBytes (h : Standing t) (a : Nat) (bytes : List Byte) : Standing (t.stBytes a bytes) :=
  ⟨h.kept.other rfl rfl rfl, h.init⟩

theorem cfgPut (h : Standing t) (a : Nat) (bytes : List Byte) : Standing (t.cfgPut 0 a bytes) := by
  rw [State.cfgPut, if_neg (by simp [h.domeRuns])]
  exact h

theorem foldS {α : Type} {f : α → State → State} (hf : ∀ a t, Standing t → Standing (f a t)) (l : List α) :
    Standing t → Standing (Machine.foldS f l t) := Domes.foldS_keeps hf l

theorem writePlot (h : Standing t) (q : Nat) (frames : List (List Word)) : Standing (t.writePlot 0 q frames) := by
  unfold State.writePlot
  refine foldS (fun e t h => ?_) _ ⟨h.kept.setH (by decide) _ _ _ _, h.init⟩
  extract_lets bytes u
  have stored : Standing u := h.stBytes _ _
  split
  · exact stored.cfgPut _ _
  · exact stored

theorem frameTable (h : Standing t) (q : Nat) : Standing (t.frameTable 0 q) := by
  unfold State.frameTable
  exact ((foldS (fun _ _ h => h.stBytes _ _) _ h).stBytes _ _).cfgPut _ _

theorem setPlot (h : Standing t) (q : Nat) : Standing (t.setPlot 0 q 3) := by
  refine ⟨h.kept.setPlot 0 q 3, ?_⟩
  unfold State.setPlot
  split
  · exact h.init
  · refine Campanile.raise_induction (P := fun u => u.loadInit = staged) (fun _ _ _ _ _ h => h)
      (fun _ _ _ _ _ _ _ h => h) ?_ _ _
    exact h.init

theorem writeSect (h : Standing t) (body : List Word) : Standing (t.writeSect 1 (plainSect body)) := by
  unfold State.writeSect
  rw [sectTargets_plainSect]
  exact foldS (fun (e : Nat × Nat) _ h => h.writePlot e.1 _) _ h

theorem storedBytes (h : Standing t) (sects : List ImgSect) : Standing (t.storedBytes sects) :=
  ⟨h.kept.setRegN (by decide) _ _ _ _, h.init⟩

end Standing

/-! ### The two orders -/

/-- The section applied. -/
def applied (body : List Word) : State :=
  (foldS (fun x t => t.writeSect (reading.h .loadMask) x) [plainSect body] reading).storedBytes [plainSect body]

theorem standing_applied (body : List Word) : Standing (applied body) := by
  have mask : reading.h .loadMask = 1 := by decide
  unfold applied
  rw [mask]
  exact (Standing.writeSect ⟨.refl _ _, rfl⟩ body).storedBytes _

/-- A plot released after a load. -/
def release (e : Nat × Nat) (t : State) : State := (t.frameTable e.1 e.2).setPlot e.1 e.2 3

theorem setPlot_state {p q st : Nat} (h : st < 2 ^ 3) : (t.setPlot p q st).fld F.CFG_PLOT_STAT_STATE p q = st := by
  unfold State.setPlot
  split
  case isTrue already => exact already
  case isFalse =>
    refine (Campanile.raise_fld _ F.CFG_PLOT_STAT_STATE p q 0 (Campanile.notEvent_of_block (by decide)) _ _).trans ?_
    rw [Panel.fld_setFld_same _ _ _ _ _ _ (by decide)]
    exact Nat.mod_eq_of_lt h

/-- The plots released, in their order, from a state. -/
theorem released_state : (foldS release [(0, 0), (0, 1), (0, 2), (0, 3)] t).fld F.CFG_PLOT_STAT_STATE 0 3 = 3 :=
  setPlot_state (t := (foldS release [(0, 0), (0, 1), (0, 2)] t).frameTable 0 3) (by decide)

theorem standing_released (h : Standing t) : Standing (foldS release [(0, 0), (0, 1), (0, 2), (0, 3)] t) :=
  have each (q : Nat) {u : State} (h : Standing u) : Standing (release (0, q) u) := (h.frameTable q).setPlot q
  each 3 (each 2 (each 1 (each 0 h)))

/-- The start time is chosen and the load is STARTING. -/
def starting (t : State) : State := (t.setH .loadTs t.startTime).setLoad 3

theorem starting_plotState (p q : Nat) :
    (starting t).fld F.CFG_PLOT_STAT_STATE p q = t.fld F.CFG_PLOT_STAT_STATE p q := by
  unfold starting State.setLoad
  split
  · rfl
  · refine (Campanile.raise_fld _ F.CFG_PLOT_STAT_STATE p q 0 (Campanile.notEvent_of_block (by decide)) _ _).trans ?_
    exact fld_setFld_of_apart _ _ _ _ _ _ _ _ (by decide)

/-- The staged value, applied, is the status of the plot. -/
theorem initApply_plotState (h : t.loadInit = staged) : t.initApply.fld F.CFG_PLOT_STAT_STATE 0 3 = 0 := by
  have found : Block.cfgP.find 0x264 = some ⟨.CFG_PLOT_STAT, 3, 0, false⟩ := by decide
  unfold State.initApply
  rw [h]
  extract_lets l u plls
  have written : u = t.setReg .CFG_PLOT_STAT 0 0 3 := by
    unfold u l staged
    rw [Machine.foldS, Machine.foldS]
    simp only [found]
    rw [if_neg (by decide)]
    rfl
  have none_pll : plls.eraseDups = [] := by decide
  rw [none_pll, written, Machine.foldS]
  change bitsOf ((t.setReg .CFG_PLOT_STAT 0 0 3).reg .CFG_PLOT_STAT 0 3).toNat 1 3 = 0
  rw [State.reg_setReg_same]
  decide

end Sys2Proof.Loads
end

section
/-!
SUPPORT. Statement O53 of the configuration load (R366).
-/
namespace Sys2Proof.Loads

open Sys2Proof Sys2Proof.Machine

/-- LOAD_SECTIONS_DONE: the staged values are applied, and the plots released after them. -/
theorem exec_loadSectionsDone_reading {body : List Word} (full : body.length = 1024 * (4 * plotFrames)) :
    exec (.loadSectionsDone [plainSect body]) reading =
      .next (starting (foldS release (applied body).loadPlots (applied body).initApply)) := by
  change execLoadSectionsDone _ _ = _
  have mask : reading.h .loadMask = 1 := by decide
  unfold execLoadSectionsDone
  rw [if_neg (not_not_intro reading_loadState)]
  extract_lets m
  rw [firstBad_plainSect full]
  refine if_neg ?_
  rw [show m = 1 from mask, coverage_plainSect]
  decide

/-- Refutes O53: values staged for CFG_PLOT_STAT are applied before the plots are released, not after. -/
theorem not_configurationCommandsComplete : ¬ Obligations.ConfigurationCommandsComplete := by
  unfold Obligations.ConfigurationCommandsComplete
  rintro ⟨-, -, -, -, -, sectionsDone, -⟩
  obtain ⟨body, full⟩ : ∃ body : List Word, body.length = 1024 * (4 * plotFrames) :=
    ⟨List.replicate _ 0, List.length_replicate⟩
  have mask : reading.h .loadMask = 1 := by decide
  have claimed := sectionsDone [plainSect body] (applied body) _ reading reading_loadState
    (firstBad_plainSect full _ _) (by rw [mask, coverage_plainSect]) rfl rfl
  rw [exec_loadSectionsDone_reading full] at claimed
  have same := congrArg (fun t : State => t.fld F.CFG_PLOT_STAT_STATE 0 3) (Host.Outcome.next.inj claimed)
  rw [(standing_applied body).loadPlots] at same
  have first := (starting_plotState 0 3).trans (released_state (t := (applied body).initApply))
  have last := (starting_plotState 0 3).trans (initApply_plotState (standing_released (standing_applied body)).init)
  exact absurd (first.symm.trans (same.trans last)) (by decide)

end Sys2Proof.Loads
end

section
/-!
SUPPORT, for O46. The commands of the fabric under the conditions in which they act (R83, R87, R289..R296, R304..R307).
-/
namespace Sys2Proof.Fabric

open Sys2Proof Sys2Proof.Machine

variable {s : State} {p k : Nat}

/-! ### Clocks and crossings -/

theorem exec_pllRelockDone (seeks : s.pllSeeks p k = true) : exec (.pllRelockDone p k) s = .next
    ((s.setFlag F.CFG_PLL_STAT_RELOCKING false p k |>.setFlag F.CFG_PLL_STAT_LOCK true p k).clocksMoved p) := if_pos seeks

/-- R290. One output whose phase repeats every 16 beats is enough. -/
theorem exec_pllAlignDone (lock : s.flag F.CFG_PLL_STAT_LOCK p k = true) (whole : ∃ j, j < 4 ∧
      ratioWhole (bitsOf (s.h .pllCfg p k) 0 10,
        (bitsOf (s.h .pllCfg p k) 10 4 + 1) * bitsOf (s.h .pllDiv p k) (8 * j) 8) = true) :
    exec (.pllAlignDone p k) s = .next ((s.setFlag F.CFG_PLL_STAT_ALIGNED true p k).clocksMoved p) := by
  obtain ⟨j, hj, repeats⟩ := whole
  have some_output : ((List.range 4).any fun j => ratioWhole (bitsOf (s.h .pllCfg p k) 0 10,
      (bitsOf (s.h .pllCfg p k) 10 4 + 1) * bitsOf (s.h .pllDiv p k) (8 * j) 8)) = true :=
    List.any_eq_true.2 ⟨j, List.mem_range.2 hj, repeats⟩
  exact if_pos (Bool.and_eq_true_iff.2 ⟨lock, some_output⟩)

/-- R312. A loss that is not the first raises no event. -/
theorem exec_fabricPllLockLoss_again (lost : s.flag F.CFG_PLL_STAT_LOSS p k = true) : exec (.fabricPllLockLoss p k) s =
    .next (((s.setFlag F.CFG_PLL_STAT_LOSS true p k).setFlag F.CFG_PLL_STAT_LOCK false p k
      |>.setFlag F.CFG_PLL_STAT_ALIGNED false p k).clocksMoved p) := by
  change execFabricPllLockLoss p k s = _
  simp only [execFabricPllLockLoss, lost, if_true]

theorem exec_resetNetDeassert {n : Nat} (released : s.flag F.CFG_RST_SW p n = false)
    (loaded : s.flag F.CFG_RST_WARM p n = true → s.loadingPav p = false) (calm : s.fabricResets p n = false) :
    exec (.resetNetDeassert p n) s = .next (s.setH .rstNet 0 p n) := by
  have held : ¬ (s.flag F.CFG_RST_SW p n = true ∨ (s.flag F.CFG_RST_WARM p n = true ∧ s.loadingPav p = true) ∨
      s.fabricResets p n = true) := by
    rintro (sw | ⟨warm, loading⟩ | res)
    · simp [released] at sw
    · simp [loaded warm] at loading
    · simp [calm] at res
  exact if_neg held

/-! ### Stream ports (R299) -/

theorem exec_sampleRelease {i : Nat} {f} {t : State} (held : s.releasePop p i = some (f, t)) :
    exec (.sampleRelease p i none) s =
      .next ((t.feedsFrame p i f.xs).sportFrame p i f (f.ts + BitVec.ofNat 64 (s.entRelease p i))) := by
  change execSampleRelease p i none s = _
  simp only [execSampleRelease, held]

theorem exec_primitivePresent {i w0 w1 x : Nat} {t : State} (held : s.primPop p i = some (w0, w1, x, t)) :
    exec (.primitivePresent p i) s = .next ((t.feedsPrim p i w0 w1).sportPrim p i w0 w1) := by
  change execPrimitivePresent p i s = _
  rw [execPrimitivePresent, held]

/-! ### Tower I/O -/

variable {t g w : Nat} {ts arrived : Time} {rest : List (Time × Nat)}

theorem exec_tioInputWord (runs : s.tioRuns t g false = true) (word : Nat) : exec (.tioInputWord t g ts word) s =
    .next (s.setTio t g (s.tioOf t g ++ [(ts, if s.flag F.TIO_GRP_CFG_LVDS t g then
      lvdsIn (s.tioR t g) (word % 2 ^ (8 * s.tioR t g)) else word % 2 ^ (8 * s.tioR t g))])) := if_pos runs

theorem exec_tioWordPresent_in_time (oldest : s.tioOf t g = (ts, w) :: rest) (runs : s.tioRuns t g false = true)
    (reached : atOrAfter (s.pavTime (s.fld F.TIO_GRP_CFG_PAV t g)) (TowerIo.due s t g ts) = true)
    (early : later arrived (TowerIo.due s t g ts) = false) : exec (.tioWordPresent t g arrived) s =
      .next (s.setTio t g rest |>.setH .tioVal w t g |>.setH .tioLateBit 0 t g) := by
  rw [TowerIo.exec_tioWordPresent_due arrived oldest runs reached, TowerIo.afterDue, early]
  rfl

theorem exec_tioWstb_word (runs : s.tioRuns t g true = true) (n : Nat) : exec (.tioWstb t g n (some w)) s =
    .next (s.setTio t g (s.tioOf t g ++ [(s.tioBoundary t g n, w % 2 ^ (8 * s.tioR t g))])) := if_pos runs

theorem exec_tioOutputWord_in_time (oldest : s.tioOf t g = (ts, w) :: rest) (runs : s.tioRuns t g true = true)
    (early : TowerIo.missed s arrived ts = false) : exec (.tioOutputWord t g arrived) s =
      .next (TowerIo.driven s t g w rest) := by
  rw [TowerIo.exec_tioOutputWord arrived oldest runs, TowerIo.afterBoundary, if_neg (by simp [early])]

end Sys2Proof.Fabric
end

section
/-!
SUPPORT. Statement O46 of the fabric.
-/
namespace Sys2Proof.Fabric

open Sys2Proof Sys2Proof.Machine

/-- Settles O46 (11_fabric.md), by the branch that each command takes under its condition. -/
theorem fabricCommandsComplete : Obligations.FabricCommandsComplete := by
  unfold Obligations.FabricCommandsComplete
  exact ⟨fun _ _ _ => rfl, fun _ _ _ => exec_pllRelockDone, fun _ _ _ => exec_pllAlignDone,
    fun _ _ _ => exec_fabricPllLockLoss_again, fun _ _ _ => rfl, fun _ _ _ _ h => if_pos h,
    fun _ _ _ => exec_resetNetDeassert, fun _ _ _ h => if_pos h, fun _ _ _ _ _ => exec_sampleRelease,
    fun _ _ _ _ _ _ _ => exec_primitivePresent, fun _ _ _ _ => Panel.wrOut_of_defined _ _ _,
    fun _ _ word _ _ runs => exec_tioInputWord runs word, fun _ _ _ _ _ _ _ => exec_tioWordPresent_in_time,
    fun _ _ n _ _ runs => exec_tioWstb_word runs n, fun _ _ _ _ _ _ _ => exec_tioOutputWord_in_time⟩

end Sys2Proof.Fabric
end

section
/-!
SUPPORT, for O45. The commands of ingest under the conditions in which they act (R62, R73, R74, R90, R120).
-/
namespace Sys2Proof.Gatehouse

open Sys2Proof Sys2Proof.Machine

/-! ### Commits -/

section
variable {p i : Nat} {twin : Bool} {c : Commit} {s t : State}

/-- The copies of a commit that are on their way. -/
def inFlight (k : CommitCopy) : Bool := k.st == .flight

/-- The dome's answer to a commit that arrives: parity errors are met as the staging buffer is read (R381). -/
def atDome (s : State) (p i : Nat) (twin : Bool) (par : List (Nat × Nat)) (c : Commit) : CommitFate × State :=
  (s.stagingParity p par (s.commitIn p i c twin)).2.commitArrive (c.copy twin).pav
    (s.stagingParity p par (s.commitIn p i c twin)).1

/-- The stream after its copy has met a fate at the dome. -/
def metFate (p i : Nat) (twin : Bool) (t : State) : CommitFate → State
  | .waiting => t
  | .refused e => t.modStream p i fun x => x.onCopy twin inFlight fun k => { k with st := .answered e }
  | .writing ring ofs lines txn =>
    t.modStream p i fun x => x.onCopy twin inFlight fun k => ⟨k.pav, .writing, ring, ofs, lines, txn⟩

theorem exec_domeCommitArrive (par : List (Nat × Nat)) (oldest : (s.stream p i).firstCommit twin inFlight = some c) :
    exec (.domeCommitArrive p i twin par) s =
      .next (metFate p i twin (atDome s p i twin par c).2 (atDome s p i twin par c).1) := by
  change execDomeCommitArrive p i twin par s = _
  unfold execDomeCommitArrive
  extract_lets ok
  simp only [show (s.stream p i).firstCommit twin ok = some c from oldest]
  change (match (atDome s p i twin par c).1 with | .waiting => _ | .refused e => _ | .writing ring ofs lines txn => _) = _
  cases (atDome s p i twin par c).1 with
  | waiting => rfl
  | refused e => rfl
  | writing ring ofs lines txn => rfl

theorem exec_domeCommitDone {e : Option Nat}
    (oldest : (s.stream p i).firstCommit twin (fun k => k.st == .writing && s.txnOver k.txn) = some c)
    (finished : s.commitFinish (c.copy twin).pav (c.copy twin).ring (s.commitIn p i c twin) (c.copy twin).ofs
      (c.copy twin).lines (c.copy twin).txn = some (e, t)) :
    exec (.domeCommitDone p i twin) s = .next (t.modStream p i fun x =>
      x.onCopy twin (fun k => k.st == .writing && s.txnOver k.txn) fun k => { k with st := .answered (e.getD 0) }) := by
  change execDomeCommitDone p i twin s = _
  unfold execDomeCommitDone
  extract_lets ok
  simp only [show (s.stream p i).firstCommit twin ok = some c from oldest, finished]
  rfl

theorem exec_commitErrorRx (status : Nat) : exec (.commitErrorRx p i twin status) s = .next (if status = 6
      then s.copyTimeout p i twin else s.answerRx p i twin (fun k => k.st == .flight) (fun _ => 8)) :=
  (apply_ite Host.Outcome.next _ _ _).symm

end

/-! ### XFL lanes -/

section
variable {t l : Nat} {s : State} (hdrs : List Nat)

theorem exec_xflBlockLock {uncorr : List Bool} (down : s.laneState t l = 1) (use : s.fld F.XCV_LANE_CFG_USE t l = 1)
    (rate : s.flag F.XCV_LANE_STAT_RATE_MISMATCH t l = false) (rx : s.flag F.XCV_LANE_CTL_RX_EN t l = true)
    (scan : s.scanning = false) (gained : lockGained hdrs = true) (aligned : s.cwAligned t l uncorr = true) :
    exec (.xflBlockLock t l hdrs uncorr) s = .next (s.setLaneState t l 2) :=
  if_pos ⟨down, use, by simp [rate], rx, by simp [scan], gained, aligned⟩

theorem exec_xflBlockLockLost_headers (locked : 2 ≤ s.laneState t l) (lost : lockLost hdrs = true) :
    exec (.xflBlockLockLost t l hdrs false) s = .next (s.laneFail t l) := if_pos ⟨locked, .inl lost⟩

theorem exec_xflBlockLockLost_cdr (locked : 2 ≤ s.laneState t l) :
    exec (.xflBlockLockLost t l hdrs true) s = .next ((s.cdrLost t l).laneFail t l) := if_pos ⟨locked, .inr rfl⟩

end
end Sys2Proof.Gatehouse
end

section
/-!
SUPPORT. Statement O45 of ingest.
-/
namespace Sys2Proof.Gatehouse

open Sys2Proof Sys2Proof.Machine

/-- Settles O45 (03_gatehouse.md), by the branch that each command takes under its condition. -/
theorem ingestCommandsComplete : Obligations.IngestCommandsComplete := by
  unfold Obligations.IngestCommandsComplete
  refine ⟨fun _ _ _ _ _ => Panel.wrOut_of_defined _ _ _, fun _ _ _ _ _ => Panel.wrOut_of_defined _ _ _, ?arrive,
    fun _ _ _ _ _ _ _ => exec_domeCommitDone, fun _ _ _ _ => rfl, fun _ _ status _ _ => exec_commitErrorRx status,
    fun _ _ _ => rfl, fun _ _ _ => rfl, fun _ _ _ => rfl, fun _ _ _ => rfl, fun _ _ _ => rfl, fun _ _ _ => rfl,
    fun _ _ _ => rfl, fun _ _ _ => rfl, fun _ _ _ _ _ => rfl, fun _ _ _ => rfl,
    fun _ _ _ => Panel.wrOut_of_defined _ _ _, fun _ _ _ => rfl, fun _ _ _ => rfl, fun _ _ _ _ => rfl,
    fun _ _ _ => rfl, fun _ _ _ h => if_pos h, fun _ _ hdrs _ _ => exec_xflBlockLock hdrs,
    fun _ _ hdrs _ locked => ⟨exec_xflBlockLockLost_headers hdrs locked, exec_xflBlockLockLost_cdr hdrs locked⟩,
    fun _ _ _ _ _ _ _ => rfl, fun _ _ _ => rfl⟩
  case arrive =>
    intro p i twin par c s oldest
    rw [exec_domeCommitArrive par oldest]
    change _ = (match atDome s p i twin par c with
      | (.waiting, t) => _ | (.refused e, t) => _ | (.writing ring ofs lines txn, t) => _)
    rcases atDome s p i twin par c with ⟨e | ⟨ring, ofs, lines, txn⟩ | _, t⟩ <;> rfl

end Sys2Proof.Gatehouse
end

section
/-!
SUPPORT, for O47. The commands of the domes and of their integrity under the conditions in which they act (R127..R134,
R394).
-/
namespace Sys2Proof.Domes

open Sys2Proof Sys2Proof.Machine

variable {p c : Nat} {s : State}

/-! ### Refresh (R130) -/

section
variable (runs : s.domeRuns p = true)
include runs

theorem exec_refreshInterval_ahead (ahead : 0 < s.h .domeRefAhead p c) : exec (.refreshInterval p c) s =
    .next (s.setH .domeRefAhead (s.h .domeRefAhead p c - 1) p c) := (if_neg (by simp [runs])).trans (if_pos ahead)

theorem exec_refreshInterval_due (even : s.h .domeRefAhead p c = 0)
    (allowed : s.h .domeRefDue p c < s.fld F.DOME_REF_CFG_POSTPONE_MAX p) :
    exec (.refreshInterval p c) s = .next (s.setH .domeRefDue (s.h .domeRefDue p c + 1) p c) :=
  (if_neg (by simp [runs])).trans ((if_neg (by omega)).trans (if_pos allowed))

theorem exec_refreshInterval_forced (even : s.h .domeRefAhead p c = 0)
    (most : s.fld F.DOME_REF_CFG_POSTPONE_MAX p ≤ s.h .domeRefDue p c) :
    exec (.refreshInterval p c) s = .next (s.refreshOnce p c) :=
  (if_neg (by simp [runs])).trans ((if_neg (by omega)).trans (if_neg (by omega)))

end

/-! ### Queues and the patrol -/

theorem exec_panicAgeExpiry : exec (.panicAgeExpiry p c) s = .next (if (s.rqOf p c).any fun r => r.port == 2
      then s.setRq p c (ageFirst (s.rqOf p c)) else s.setWq p c (ageFirst (s.wqOf p c))) :=
  (apply_ite Host.Outcome.next _ _ _).symm

theorem exec_patrolRead {line : Nat} (found : List Nat) (on : s.flag F.DOME_CTL_PATROL_EN p = true)
    (next : line = s.h .domePatrol p) (turn : s.patrolTurn p (linePc line) = true) : exec (.patrolRead p found) s =
      .next (((s.lineMove p line false).eccLine p line ((s.lineMove p line false).lineKnown p line) found 0 64).2.setH
        .domePatrol ((line + 1) % 2 ^ 25) p) := by
  subst next
  exact if_pos (Bool.and_eq_true_iff.2 ⟨on, turn⟩)

end Sys2Proof.Domes
end

section
/-!
SUPPORT. Statement O47 of the domes and their integrity.
-/
namespace Sys2Proof.Domes

open Sys2Proof Sys2Proof.Machine

/-- Settles O47 (05_domes.md, 15_memory_integrity.md), by the branch that each command takes under its condition. -/
theorem domeAndIntegrityCommandsComplete : Obligations.DomeAndIntegrityCommandsComplete := by
  unfold Obligations.DomeAndIntegrityCommandsComplete
  exact ⟨fun _ _ _ => rfl, fun _ _ _ runs => ⟨exec_refreshInterval_ahead runs, exec_refreshInterval_due runs,
      exec_refreshInterval_forced runs⟩, fun _ _ _ h => if_neg h, fun _ _ _ => exec_panicAgeExpiry,
    fun _ _ _ _ => rfl, fun _ _ _ _ _ => rfl, fun _ _ found _ => exec_patrolRead found,
    fun _ _ _ => Panel.wrOut_of_defined _ _ _, fun _ _ h => if_pos h, fun _ _ h => if_pos h, fun _ _ h => if_neg h,
    fun _ _ _ _ => Panel.wrOut_of_defined _ _ _, fun _ _ _ _ => Panel.wrOut_of_defined _ _ _,
    fun _ _ _ h => if_pos h, fun _ _ _ => rfl, fun _ _ _ _ => Panel.wrOut_of_defined _ _ _, fun _ _ h => if_pos h,
    fun _ _ _ _ _ => rfl, fun _ _ _ _ => rfl, fun _ _ _ h => if_pos h, fun _ _ _ _ => rfl, fun _ _ _ h => if_pos h,
    fun _ _ _ => rfl⟩

end Sys2Proof.Domes
end

section
/-!
SUPPORT, for O48. The commands of acceptance, readout and queue pairs under the conditions in which they act (R143, R145,
R155, R161).
-/
namespace Sys2Proof.Readout

open Sys2Proof Sys2Proof.Machine

variable {q : Nat} {seq : Word} {d : QDesc} {s : State}

theorem exec_descriptorFetch (descs : List (List Word)) (on : s.qpState q = 1) (sound : (s.qp q).failing = false) :
    exec (.descriptorFetch q descs) s = .next (s.setQp q { s.qp q with
      fetched := (s.qp q).fetched ++ (descs.take (s.fetchRoom q)).map fun w => (⟨w, false, none, 0⟩ : QDesc) }) :=
  if_pos ⟨on, by simp [sound]⟩

/-! ### Descriptors (R155) -/

theorem exec_descNop (ready : s.descReady q seq 0 = some d) : exec (.descNop q seq) s = .next (s.descEnd q d 0 0 0) := by
  change execDescNop q seq s = _
  rw [execDescNop, ready]

theorem exec_descAccept (ready : s.descReady q seq 1 = some d)
    (room : s.accIn.length + (s.events.filter fun e => !e.building).length < 1024) : exec (.descAccept q seq) s =
      .next (({ s with accIn := s.accIn ++ [(⟨(d.words.drop 4).take 8, some (q, seq), none⟩ : AccIn)] } : State).putDesc q
        { d with started := true }) := by
  change execDescAccept q seq s = _
  rw [execDescAccept, ready]
  exact if_neg (Nat.not_le.2 room)

theorem exec_descPostBuf (ready : s.descReady q seq 2 = some d) :
    exec (.descPostBuf q seq) s = .next (s.putDesc q { d with started := true }) := by
  change execDescPostBuf q seq s = _
  rw [execDescPostBuf, ready]

theorem exec_descStreamCtl (ready : s.descReady q seq 3 = some d) :
    exec (.descStreamCtl q seq) s = .next (s.descStream q d) := by
  change execDescStreamCtl q seq s = _
  rw [execDescStreamCtl, ready]

theorem exec_descDomeRead (ready : s.descReady q seq 4 = some d) :
    exec (.descDomeRead q seq) s = .next (State.domeToHost q d (d.w 8 / 64) 0 s) := by
  change execDescDomeRead q seq s = _
  rw [execDescDomeRead, ready]

theorem exec_descDomeWrite {lines : List HostLine} (ready : s.descReady q seq 5 = some d)
    (whole : lines.length = d.w 8 / 64) :
    exec (.descDomeWrite q seq lines) s = .next (State.hostToDome q d lines 0 s) := by
  change execDescDomeWrite q seq lines s = _
  rw [execDescDomeWrite, ready]
  exact if_pos whole

/-- R155. HOLD_SET of a stream that is not assured sets the ring of its own dome alone. -/
theorem exec_descHoldSet_plain {u : State} (ready : s.descReady q seq 6 = some d)
    (ring : u = s.holdSetRing (d.w 4 / 256) (d.w 4) false (d.w 6 + d.w 7 * 2 ^ 32))
    (plain : u.entAssured (d.w 4 / 256) (d.w 4 % 256) = false) :
    exec (.descHoldSet q seq) s = .next (u.descEnd q d 0 0 0) := by
  change execDescHoldSet q seq s = _
  simp only [execDescHoldSet, ready, ← ring, plain, Bool.false_eq_true, if_false]

/-! ### Acceptance and event building -/

/-- R141. An accept has been journaled; one that came as a request is answered. -/
def accJournaled (s : State) (a : AccIn) (l : List AccIn) : State :=
  let u := (({ s with accIn := l } : State).accJournal a).rdoShow.jrnlWritten
  match a.req with
  | some (n, w) => u.prmAnswer n 120 w 0 0 false []
  | none => u

theorem exec_acceptJournaled {a : AccIn} {l : List AccIn} (oldest : s.accIn = a :: l) (held : s.jrnlOk = true)
    (room : (s.events.filter fun e => !e.building).length < 1024) :
    exec .acceptJournaled s = .next (accJournaled s a l) := by
  change Host.Outcome.next s.accAccepted = _
  unfold State.accAccepted
  rw [oldest]
  exact congrArg Host.Outcome.next (if_pos ⟨held, room⟩)

theorem exec_eventBuildStart {e : Event} (oldest : s.events.find? (fun e => !e.building) = some e)
    (slot : (s.events.filter fun e => e.building).length < 64) : exec .eventBuildStart s =
      .next (((s.onEvent e.num fun e => { e with building := true }).eventBuilt e.num).rdoShow) := by
  change execEventBuildStart s = _
  rw [execEventBuildStart, oldest]
  exact if_pos slot

end Sys2Proof.Readout
end

section
/-!
SUPPORT. Statement O48 of acceptance and readout.
-/
namespace Sys2Proof.Readout

open Sys2Proof Sys2Proof.Machine

/-- Settles O48 (06_accept_readout.md), by the branch that each command takes under its condition. -/
theorem readoutAndQueueCommandsComplete : Obligations.ReadoutAndQueueCommandsComplete := by
  unfold Obligations.ReadoutAndQueueCommandsComplete
  refine ⟨fun _ _ => rfl, fun _ _ _ _ => rfl, fun _ descs _ => exec_descriptorFetch descs, fun _ _ => rfl,
    fun _ _ => rfl, fun _ _ _ _ => exec_descNop, fun _ _ _ _ => exec_descAccept, fun _ _ _ _ => exec_descPostBuf,
    fun _ _ _ _ => exec_descStreamCtl, fun _ _ => rfl, fun _ _ _ _ => exec_descDomeRead,
    fun _ _ _ _ _ => exec_descDomeWrite, fun _ _ _ _ _ => exec_descHoldSet_plain, fun _ _ => rfl, fun _ _ _ => rfl,
    fun _ _ _ => rfl, fun _ _ => rfl, fun _ _ _ => rfl, fun _ _ _ _ => rfl, fun _ _ => rfl, fun _ _ _ => rfl,
    ?journaled, fun _ _ => exec_eventBuildStart, fun _ _ _ => rfl, fun _ _ _ => rfl, fun _ _ _ _ => rfl⟩
  case journaled =>
    rintro a l u s oldest held room rfl
    exact exec_acceptJournaled oldest held room

end Sys2Proof.Readout
end

section
/-!
SUPPORT, for O49. The commands of admission, telemetry and temperature under the conditions in which they act (R183..R192,
R436).
-/
namespace Sys2Proof.Admission

open Sys2Proof Sys2Proof.Machine

variable {s u : State}

/-! ### Effects at a boundary (R187, R190, R192) -/

theorem exec_admitEffect (kept : u = s.keptEffect) (pending : u.hb .admPending = true) (due : u.admDue = true) :
    exec .admitEffect s = .next ((u.setH .admPending 0 |>.setRegN .ADM_CMD_EFF (u.h .admEffect)).admEnd 0
      (u.admFigures (u.h .admPending - 1)).1 (u.admFigures (u.h .admPending - 1)).2) := by
  change Host.Outcome.next s.keptEffect.admitEffect = _
  rw [← kept]
  exact congrArg Host.Outcome.next (if_pos ⟨pending, due⟩)

theorem exec_releaseEffect (releasing : s.hb .admReleasing = true) (due : s.admDue = true) : exec .releaseEffect s =
    .next (((s.admFree (s.h .admReleasing - 1)).setH .admReleasing 0).admEnd 0
      (s.admFigures (s.h .admReleasing - 1)).1 (s.admFigures (s.h .admReleasing - 1)).2) := if_pos ⟨releasing, due⟩

theorem exec_reservationMove {i : Nat} {d : Decl} {p : Plan} (declared : tfind s.decls i = some d)
    (moves : d.next = some p) (reached : atOrAfter s.time (s.hTime .admMoveAt 0 i) = true) :
    exec (.reservationMove i) s =
      .next ((({ s with decls := tput s.decls i (⟨d.words, { p with w := d.plan.w }, none⟩ : Decl) } : State).domeRate
        d.words d.plan.lines p.lines).setRegN .ADM_D_GAP p.gapWord 0 i).jrnlWritten := by
  change execReservationMove i s = _
  simp only [execReservationMove, declared, moves, reached, if_true]

/-! ### Flits of a declaration (R183, R186) -/

section
variable {d sk sid : Nat} {formed delivered : Time}

theorem exec_rtFlitSend_stray (other : s.declFrom d sk sid = false) :
    exec (.rtFlitSend d sk sid formed delivered) s = .next (s.addFld F.ADM_STRAY_COUNT 1) := if_pos (by simp [other])

theorem exec_rtFlitSend_slot {n o : Nat} (own : s.declFrom d sk sid = true) (rewritten : s.flag F.ADM_STAT_RESTORE = false)
    (slot : s.ownSlot d formed = some (n, o)) :
    exec (.rtFlitSend d sk sid formed delivered) s = .next ((s.useSlot n o).lateFlit d formed delivered) := by
  change execRtFlitSend d sk sid formed delivered s = _
  rw [execRtFlitSend, if_neg (by simp [own]), if_neg (by simp [rewritten]), slot]

theorem lateFlit_in_time (soon : later delivered (formed + BitVec.ofNat 64 (s.regN .ADM_D_W 0 d)) = false) :
    s.lateFlit d formed delivered = s := if_neg (by simp [soon])

theorem lateFlit_late (late : later delivered (formed + BitVec.ofNat 64 (s.regN .ADM_D_W 0 d)) = true)
    (free : s.wasHeld formed = false) : s.lateFlit d formed delivered = s.addFld F.ADM_D_LATE_COUNT 1 0 d :=
  if_pos (by simp [late, free])

end

/-! ### Minutes at a temperature (R436) -/

section
variable {p : Nat}

theorem exec_lifeMinute_cool (h : signed 32 (s.h .thmCtl p) ≤ 340) : exec (.lifeMinute p) s = .next s := by
  change execLifeMinute p s = _
  simp only [execLifeMinute, if_neg (show ¬ 340 < signed 32 (s.h .thmCtl p) by omega),
    if_neg (show ¬ 400 < signed 32 (s.h .thmCtl p) by omega)]

theorem exec_lifeMinute_warm (lo : 340 < signed 32 (s.h .thmCtl p)) (hi : signed 32 (s.h .thmCtl p) ≤ 400) :
    exec (.lifeMinute p) s = .next (s.satFld F.THM_LIFE_85_MIN 1 p) := by
  change execLifeMinute p s = _
  simp only [execLifeMinute, if_pos lo, if_neg (show ¬ 400 < signed 32 (s.h .thmCtl p) by omega)]

theorem exec_lifeMinute_hot (h : 400 < signed 32 (s.h .thmCtl p)) : exec (.lifeMinute p) s =
    .next ((s.satFld F.THM_LIFE_85_MIN 1 p).satFld F.THM_LIFE_100_MIN 1 p) := by
  change execLifeMinute p s = _
  simp only [execLifeMinute, if_pos h, if_pos (show 340 < signed 32 (s.h .thmCtl p) by omega)]

end
end Sys2Proof.Admission
end

section
/-!
SUPPORT. Statement O49 of admission, telemetry and temperature.
-/
namespace Sys2Proof.Admission

open Sys2Proof Sys2Proof.Machine

/-- Settles O49 (07_admission.md, 17_telemetry_thermal.md), by the branch that each command takes under its condition. -/
theorem admissionTelemetryAndThermalCommandsComplete : Obligations.AdmissionTelemetryAndThermalCommandsComplete := by
  unfold Obligations.AdmissionTelemetryAndThermalCommandsComplete
  refine ⟨fun _ _ => rfl, fun _ _ => rfl, fun _ _ => rfl, fun _ _ => exec_admitEffect, fun _ => exec_releaseEffect,
    fun _ _ => Panel.wrOut_of_defined _ _ _, fun _ _ _ _ _ _ => ⟨exec_rtFlitSend_stray, ?inTime, ?late⟩,
    fun _ _ _ _ => exec_reservationMove, fun _ h => if_pos h, fun _ _ _ h => if_pos h, fun _ _ _ h => if_neg h,
    fun _ _ _ => rfl, fun _ _ _ => Panel.wrOut_of_defined _ _ _, fun _ _ _ _ _ => rfl, fun _ _ _ _ _ => rfl,
    fun _ _ => ⟨rfl, rfl⟩, fun _ _ _ => rfl, fun _ _ => Panel.wrOut_of_defined _ _ _,
    fun _ _ _ _ => Panel.wrOut_of_defined _ _ _, fun _ _ => rfl, fun _ _ _ => rfl,
    fun _ _ => ⟨exec_lifeMinute_cool, exec_lifeMinute_warm, exec_lifeMinute_hot⟩, fun _ _ => rfl,
    fun _ _ _ h => if_pos h⟩
  case inTime =>
    intro n o own rewritten slot soon
    rw [exec_rtFlitSend_slot own rewritten slot, lateFlit_in_time soon]
  case late =>
    intro n o own rewritten slot late free
    rw [exec_rtFlitSend_slot own rewritten slot, lateFlit_late late free]

end Sys2Proof.Admission
end

section
/-!
SUPPORT, for O50. The commands of Spires and schedulers under the conditions in which they act (R198, R203, R212, R224,
R241, R246), and the entries that start them from a launch queue (R47).
-/
namespace Sys2Proof.Spires

open Sys2Proof Sys2Proof.Machine

variable {p k x : Nat} {s u : State}

/-! ### Bundles (R198, R212) -/

/-- R198. A bundle without an AMO executes at once, whatever parity error stands where it does not read. -/
theorem exec_bundleIssue_of_run_any {stall : Nat} {par : Option Nat} {a : SOp} {b : VOp} (issues : s.issuer p k = some x)
    (stalled : u = s.addFld F.SPR_STALL_CNT_COUNT stall p k) (unhalted : u.haltBefore p k x = 0)
    (runs : u.issueOf p k x par = .run a b) (csr : a.undefinedCsr (u.ctx p k x) = false)
    (atomic : ∀ fn rd ra rb, a ≠ .amo fn rd ra rb) :
    exec (.bundleIssue p k false par stall) s = .next (u.bundleRun p k x a b 0) := by
  change execBundleIssue p k false par stall s = _
  simp only [execBundleIssue, issues, ← stalled, unhalted, State.bundleIssue, runs, csr]
  cases a with
  | amo fn rd ra rb => exact absurd rfl (atomic fn rd ra rb)
  | _ => rfl

/-- R212. A refetched line that passes its recorded CRC is stored; its context does not have the issue. -/
theorem exec_irefetchDone_stored {n : Nat} {bs : List Byte} (refetches : (s.ctx p k x).refetch = true)
    (line : n = (s.ctx p k x).pc / 8) (read : (s.imgLine p k n).1 = some bs)
    (counted : u = ((s.imgLine p k n).2.addFld F.SPR_IREFETCH_CNT_COUNT 1 p k |>.setCtx p k x
      { s.ctx p k x with refetch := false })) (sound : (crc32c bs).toNat = u.h .imemCrc p k n)
    (other : ((u.stBytes (imemBase p k + 64 * n) bs).sramCorrected p).issuer p k ≠ some x) :
    exec (.irefetchDone p k x) s = .next ((u.stBytes (imemBase p k + 64 * n) bs).sramCorrected p) := by
  change execIrefetchDone p k x s = _
  unfold execIrefetchDone
  rw [if_neg (not_not_intro refetches)]
  extract_lets m r t
  have here : m = n := line.symm
  have after : t = u := by rw [counted, ← here]
  have got : r.1 = some bs := by rw [← read, ← here]
  rw [got, after, here]
  simp only
  rw [if_pos sound]
  exact if_neg fun both => other both.1

/-! ### Waits and events (R203, R224) -/

theorem exec_waitConditionMet (waits : s.ctxState p k x = 2) (named : (s.ctx p k x).waitMask ≠ 0)
    (holds : s.waitHolds p k (s.ctx p k x).waitMask = true) :
    exec (.waitConditionMet p k x) s = .next (s.waitEnd p k x) := if_pos ⟨waits, named, holds⟩

theorem exec_waittTimeReached (waits : s.ctxState p k x = 2) (timed : (s.ctx p k x).waitMask = 0)
    (reached : atOrAfter (s.pavTime p) (s.ctx p k x).waitTime = true) :
    exec (.waittTimeReached p k x) s = .next (s.waitEnd p k x) := if_pos ⟨waits, timed, reached⟩

theorem exec_normalEventTaken (active : s.ctxState p k 0 = 1 ∨ s.ctxState p k 0 = 2) (enabled : (s.ctx p k 0).eie = true)
    (settled : (s.ctx p k 0).amo = false) (event : (s.evNext p k 0).isSome = true) : exec (.normalEventTaken p k) s =
      .next ((s.setCtx p k 0 { s.ctx p k 0 with
        epc := (s.ctx p k 0).pc, eie := false, inEvt := true, pc := s.fld F.SPR_VEC_NORMAL p k, refetch := false,
        waitMask := 0 }).setCtxState p k 0 1) :=
  if_pos ⟨active, enabled, by simp [settled], event⟩

/-! ### Entries of a launch queue (R47) -/

/-- What a SPIRE_START entry does: a start the Spire refuses is a target error. -/
def startEntry (p : Nat) (e : LqEntry) (s : State) : Bool × State :=
  let k := bitsOf (e.param 0) 0 3
  let x := bitsOf (e.param 0) 3 1
  let addr := bitsOf (e.param 1) 0 16
  if s.startOk p k x addr && !s.portClosed p (sprPort k x) && decide (s.power p < 2) then
    (true, s.sprStart p k x addr [BitVec.ofNat 32 (e.param 2)])
  else (false, s)

theorem exec_launchSpireStart (q : Nat) : exec (.launchSpireStart p q) s = .next (s.lqLaunch p q 1 (startEntry p)) := rfl

theorem startEntry_cases (e : LqEntry) : startEntry p e u = (false, u) ∨ startEntry p e u =
    (true, u.sprStart p (bitsOf (e.param 0) 0 3) (bitsOf (e.param 0) 3 1) (bitsOf (e.param 1) 0 16)
      [BitVec.ofNat 32 (e.param 2)]) := by
  unfold startEntry
  extract_lets k x addr
  split
  · exact .inr rfl
  · exact .inl rfl

theorem startEntry_started (e : LqEntry) (h : (startEntry p e u).1 = true) : (startEntry p e u).2 =
    u.sprStart p (bitsOf (e.param 0) 0 3) (bitsOf (e.param 0) 3 1) (bitsOf (e.param 1) 0 16) [BitVec.ofNat 32 (e.param 2)] := by
  rcases startEntry_cases (p := p) (u := u) e with refused | started
  · rw [refused] at h
    exact absurd h Bool.false_ne_true
  · rw [started]

theorem startEntry_refused (e : LqEntry) (h : (startEntry p e u).1 = false) : (startEntry p e u).2 = u := by
  rcases startEntry_cases (p := p) (u := u) e with refused | started
  · rw [refused]
  · rw [started] at h
    exact absurd h.symm Bool.false_ne_true

/-- What a TSK_POST entry does. -/
def postEntry (p : Nat) (e : LqEntry) (s : State) : Bool × State :=
  if s.portClosed p 115 || decide (2 ≤ s.power p) then (false, s)
  else
    let r := s.tskCommand p (tskRecord 1 0 (bitsOf (e.param 0) 0 10) (e.param 1) (e.param 2) 0)
    (r.1 == 0, r.2.2)

theorem exec_launchTskPost (q : Nat) : exec (.launchTskPost p q) s = .next (s.lqLaunch p q 2 (postEntry p)) := rfl

theorem postEntry_refused (e : LqEntry) (h : u.portClosed p 115 = true ∨ 2 ≤ u.power p) : postEntry p e u = (false, u) :=
  if_pos (by simpa using h)

theorem postEntry_taken (e : LqEntry) (reachable : u.portClosed p 115 = false) (on : u.power p < 2) : postEntry p e u =
    ((u.tskCommand p (tskRecord 1 0 (bitsOf (e.param 0) 0 10) (e.param 1) (e.param 2) 0)).1 == 0,
      (u.tskCommand p (tskRecord 1 0 (bitsOf (e.param 0) 0 10) (e.param 1) (e.param 2) 0)).2.2) :=
  if_neg (by simp [reachable, on])

/-! ### Delayed tasks become ready (R241, R243) -/

/-- The tasks that become ready in one cycle. -/
def dueTasks (s : State) (p : Nat) : List Task := ((s.tu p).delayed.filter fun t => atOrAfter (s.pavTime p) t.due).take 8

/-- A task takes its place in the order of acceptance. -/
def bySeq (l : List Task) (t : Task) : List Task :=
  l.takeWhile (fun x => x.seq < t.seq) ++ [t] ++ l.dropWhile (fun x => x.seq < t.seq)

theorem length_bySeq (l : List Task) (t : Task) : (bySeq l t).length = l.length + 1 := by
  have whole := congrArg List.length (List.takeWhile_append_dropWhile (p := fun x : Task => decide (x.seq < t.seq)) (l := l))
  rw [List.length_append] at whole
  simp only [bySeq, List.length_append, List.length_singleton]
  omega

theorem length_foldl_bySeq (ts l : List Task) : (ts.foldl bySeq l).length = l.length + ts.length := by
  induction ts generalizing l with
  | nil => rfl
  | cons t ts ih => rw [List.foldl_cons, ih, length_bySeq, List.length_cons]; omega

/-- The scheduler after its due tasks have become ready. -/
def readied (s : State) (p : Nat) : TskUnit :=
  { s.tu p with
    ready := (s.tu p).ready ++ (dueTasks s p).foldl bySeq []
    delayed := (s.tu p).delayed.filter fun t => !(dueTasks s p).any fun x => x.slot == t.slot }

theorem exec_delayReady (due : dueTasks s p ≠ []) : exec (.delayReady p) s = .next (s.setTu p 0 (readied s p)) := if_neg due

theorem tu_setTu (f : Nat) (v : TskUnit) : (s.setTu p f v).tu p = v := by
  rw [State.tu, Tasks.setTu_tsk, tget_tput_same]

theorem readied_lengths (due : dueTasks s p ≠ []) : (readied s p).delayed.length < (s.tu p).delayed.length ∧
    (s.tu p).ready.length < (readied s p).ready.length := by
  obtain ⟨t, ts, first⟩ := List.exists_cons_of_ne_nil due
  have mem : t ∈ dueTasks s p := first ▸ List.mem_cons_self
  have delayed : t ∈ (s.tu p).delayed := (List.mem_filter.1 (List.mem_of_mem_take mem)).1
  have leaves : (dueTasks s p).any (fun x => x.slot == t.slot) = true := List.any_eq_true.2 ⟨t, mem, beq_self_eq_true _⟩
  refine ⟨List.length_filter_lt_length_iff_exists.2 ⟨t, delayed, by simp [leaves]⟩, ?_⟩
  have positive := List.length_pos_iff.mpr due
  simp only [readied, List.length_append, length_foldl_bySeq, List.length_nil]
  omega

/-! ### Mailbox writes (R246) -/

theorem raise_tsk_mem (t : State) (c q : Nat) : (t.raise c q).tsk = t.tsk ∧ (t.raise c q).mem = t.mem :=
  Campanile.raise_induction (P := fun v => v.tsk = t.tsk ∧ v.mem = t.mem) (fun _ _ _ _ _ h => h)
    (fun _ _ _ _ _ _ _ h => h) ⟨rfl, rfl⟩ c q

/-- The scheduler without a mailbox write that it has handed over. -/
def handedOver (s : State) (p : Nat) (m : Nat × Nat × List Byte) : State :=
  { s with tsk := tput s.tsk p { s.tu p with mbox := (s.tu p).mbox.erase m } }

theorem mboxDone_of_found {t a : Nat} {bs : List Byte}
    (oldest : (s.tu p).mbox.find? (fun m => m.1 == t) = some (t, a, bs)) : s.mboxDone p t =
      ((((handedOver s p (t, a, bs)).stBytes a bs).resvHit (s.tgtMem p t).1 ((a - (s.tgtMem p t).2) / 64) p 115).local
        p (424 + t)) := by
  unfold State.mboxDone
  extract_lets v
  rw [oldest]
  rfl

theorem mboxDone_shows {t a : Nat} {bs : List Byte} (oldest : (s.tu p).mbox.find? (fun m => m.1 == t) = some (t, a, bs)) :
    ((s.mboxDone p t).tu p).mbox = (s.tu p).mbox.erase (t, a, bs) ∧ (s.mboxDone p t).mem = memSetList s.mem a bs := by
  rw [mboxDone_of_found oldest]
  obtain ⟨tsk, mem⟩ := raise_tsk_mem
    (((handedOver s p (t, a, bs)).stBytes a bs).resvHit (s.tgtMem p t).1 ((a - (s.tgtMem p t).2) / 64) p 115) p (424 + t)
  refine ⟨?_, mem⟩
  rw [State.tu, State.local, tsk]
  exact congrArg TskUnit.mbox (tget_tput_same s.tsk p { s.tu p with mbox := (s.tu p).mbox.erase (t, a, bs) } TskUnit.empty)

end Sys2Proof.Spires
end

section
/-!
SUPPORT. Statement O50 of Spires and schedulers.
-/
namespace Sys2Proof.Spires

open Sys2Proof Sys2Proof.Machine

/-- Settles O50 (08_spire.md, 09_task_scheduler.md), by the branch that each command takes under its condition. -/
theorem spireAndTaskCommandsComplete : Obligations.SpireAndTaskCommandsComplete := by
  unfold Obligations.SpireAndTaskCommandsComplete
  refine ⟨fun _ _ _ _ => Panel.wrOut_of_defined _ _ _, fun _ _ _ => rfl, fun _ _ _ => rfl, fun _ _ _ _ => rfl,
    fun _ _ _ _ _ => Panel.wrOut_of_defined _ _ _, fun _ _ _ _ => rfl, fun _ _ _ _ _ _ _ _ _ => exec_bundleIssue_of_run_any,
    fun _ _ _ _ _ _ => rfl, fun _ _ _ => rfl, fun _ _ _ _ _ _ _ => exec_irefetchDone_stored,
    fun _ _ _ _ _ _ _ _ => rfl,
    fun p q s => ⟨startEntry p, fun e _ => startEntry_started e, fun e _ => startEntry_refused e, exec_launchSpireStart q⟩,
    fun p q s => ⟨postEntry p, fun e _ => postEntry_refused e, fun e _ => postEntry_taken e, exec_launchTskPost q⟩,
    fun _ _ _ _ => exec_waitConditionMet, fun _ _ _ _ => exec_waittTimeReached, fun _ _ _ _ => rfl,
    fun _ _ _ => exec_normalEventTaken, fun _ _ _ => rfl, fun _ _ => rfl, fun _ _ _ => rfl, fun _ _ _ _ => rfl,
    fun _ _ _ _ _ => rfl, fun _ _ _ _ _ _ => rfl, fun _ _ _ _ _ => rfl, ?delay,
    fun _ _ _ => Panel.wrOut_of_defined _ _ _, fun _ _ _ _ => Panel.wrOut_of_defined _ _ _, fun _ _ _ => rfl,
    fun _ _ => rfl, fun _ _ => rfl, fun _ _ => rfl, fun _ _ _ _ _ oldest => ⟨_, rfl, mboxDone_shows oldest⟩,
    fun _ _ _ => rfl⟩
  case delay =>
    intro p s some_due
    have due : dueTasks s p ≠ [] := by simpa [dueTasks, List.take_eq_nil_iff] using some_due
    refine ⟨_, exec_delayReady due, ?_⟩
    rw [tu_setTu]
    exact readied_lengths due

end Sys2Proof.Spires
end

section
/-!
SUPPORT, for O52. The commands of the network, the links and the annexes under the conditions in which they act (R327,
R336, R340, R349).
-/
namespace Sys2Proof.Promenade

open Sys2Proof Sys2Proof.Machine

variable {s : State}

theorem exec_anxBackoffExpiry {a : Nat} (down : (s.anxFollow a).anxState a = 2)
    (on : (s.anxFollow a).flag F.ANX_CFG_EN 0 a = true) : exec (.anxBackoffExpiry a) s =
      .next (((s.anxFollow a).satFld F.ANX_STAT_ATTEMPTS 1 0 a).setAnx a 3) := if_pos ⟨down, on⟩

theorem exec_lctlSwapAck {n l : Nat} (first : Nat) {w : LrtSwap} (swap : (s.side n l).swap = some w) :
    exec (.lctlSwapAck n l first) s =
      .next (s.setSide n l { s.side n l with swap := some { w with first := some (first % 256) }, ctl := 0 }) := by
  change execLctlSwapAck n l first s = _
  rw [execLctlSwapAck, swap]

theorem exec_fenceDrained_plot {p q : Nat} (draining : s.h .plotFence p q = 1) (drained : s.drained p (plotPort q) = true) :
    exec (.fenceDrained p (some q)) s = .next (s.plotFenced p q) := if_pos ⟨draining, drained⟩

end Sys2Proof.Promenade
end

section
/-!
SUPPORT. Statement O52 of the network, the links and the annexes.
-/
namespace Sys2Proof.Promenade

open Sys2Proof Sys2Proof.Machine

/-- Settles O52 (12_promenade.md, 13_lartum_annex.md), by the branch that each command takes under its condition. -/
theorem networkAndLinkCommandsComplete : Obligations.NetworkAndLinkCommandsComplete := by
  unfold Obligations.NetworkAndLinkCommandsComplete
  exact ⟨fun _ _ _ => Panel.wrOut_of_defined _ _ _, fun _ _ => exec_anxBackoffExpiry, fun _ _ _ h => if_pos h,
    fun _ _ h => if_pos h, fun _ _ _ _ _ _ h => if_pos h, fun _ _ h => if_pos h, fun _ _ => rfl, fun _ _ _ => rfl,
    fun _ _ _ => rfl, fun _ _ _ h => if_pos h, fun _ _ _ _ => rfl, fun _ _ _ h => if_neg h, fun _ _ _ _ _ _ => rfl,
    fun _ _ _ _ _ => rfl, fun _ _ _ _ => rfl, fun _ _ _ _ _ => rfl, fun _ _ first _ _ => exec_lctlSwapAck first,
    fun _ _ _ _ => rfl, fun _ _ _ _ => rfl, fun _ _ _ _ _ => rfl, fun _ _ _ => rfl, fun _ _ _ _ _ => rfl,
    fun _ _ _ _ => rfl, fun _ _ _ _ => rfl, fun _ _ _ _ => rfl, fun _ _ _ => rfl, fun _ _ _ => rfl,
    fun _ _ _ _ _ => ⟨rfl, rfl⟩, fun _ _ _ _ _ => rfl, fun _ _ => rfl, fun _ _ => rfl, fun _ _ => rfl,
    fun _ _ _ _ h => if_pos h, fun _ _ _ => Panel.wrOut_of_defined _ _ _, fun _ _ _ => Panel.wrOut_of_defined _ _ _,
    fun _ _ _ => ⟨exec_fenceDrained, exec_fenceDrained_plot⟩, fun _ _ _ => ⟨fun h => if_pos h, fun h => if_pos h⟩,
    fun p _ _ who _ => exec_isoMaskWrite_of_defined p who, fun _ _ _ => rfl, fun _ _ _ _ => rfl⟩

end Sys2Proof.Promenade
end

section
/-!
SUPPORT, for O54. The commands of lodges, elections and resets under the conditions in which they act: an instruction of a
lodge and a debug step (R398, R491), the elections (R404), the journal (R406, R408) and start-up (R419).
-/
namespace Sys2Proof.Lodges

open Sys2Proof Sys2Proof.Machine Sys2Proof.Frame

/-! ### One instruction of a lodge (R398) -/

section
variable (c : LodgeCore) (ins pc : Nat) (v : Option Word)

/-- The core after an arithmetic or control-flow instruction. -/
def executed (c : LodgeCore) (ins : Nat) : Option Word → Nat → LodgeCore
  | some v, pc => { c.setR (bitsOf ins 7 5) v with pc := pc }
  | none, pc => { c with pc := pc }

@[simp] theorem executed_pc : (executed c ins v pc).pc = pc := by
  cases v <;> rfl

theorem setR_csr (r : Nat) (w : Word) : (c.setR r w).csr = c.csr := by
  unfold LodgeCore.setR
  split
  · rfl
  · split <;> rfl

theorem executed_inFast : (executed c ins v pc).inFast = c.inFast := by
  cases v with
  | none => rfl
  | some w =>
    change (c.setR (bitsOf ins 7 5) w).inFast = c.inFast
    unfold LodgeCore.inFast LodgeCore.c
    rw [setR_csr]

/-- The destination register holds the value, in the bank in use. -/
theorem executed_r {w : Word} (value : v = some w) (dest : bitsOf ins 7 5 ≠ 0) :
    (executed c ins v pc).r (bitsOf ins 7 5) = w := by
  subst value
  have bank := executed_inFast c ins pc (some w)
  rw [LodgeCore.r, if_neg dest, bank]
  change (if c.inFast = true then tget (c.setR (bitsOf ins 7 5) w).f _ 0 else tget (c.setR (bitsOf ins 7 5) w).x _ 0) = w
  unfold LodgeCore.setR
  rw [if_neg dest]
  cases fast : c.inFast
  · exact tget_tput_same _ _ _ _
  · exact tget_tput_same _ _ _ _

end

variable {s t : State} {x ins next cycles : Nat} {f0 f1 fd : Word} {ext v : Option Word}

/-- The opcodes that are neither system instructions nor accesses to memory. -/
theorem lodgeExec_plain (plain : ins % 128 ∉ [0x73, 0x03, 0x23, 0x2f])
    (runs : (s.lodge x).arith ins (((s.lodge x).pc + 4) % 2 ^ 32) = some (v, next)) :
    s.lodgeExec x ins 4 fd ext none = .done (s.setLodge x (executed (s.lodge x) ins v next)) := by
  unfold State.lodgeExec
  extract_lets c n
  split
  case h_1 op => simp [op] at plain
  case h_2 op => simp [op] at plain
  case h_3 op => simp [op] at plain
  case h_4 op => simp [op] at plain
  case h_5 =>
    rw [show c.arith ins n = some (v, next) from runs]
    cases v <;> rfl

/-- The state in which the counters of a core have advanced. -/
def ticked (s : State) (x cycles : Nat) : State := s.setLodge x ((s.lodge x).tick cycles)

theorem ticked_lodge : (ticked s x cycles).lodge x = (s.lodge x).tick cycles := tget_tput_same _ _ _ _

/-- The state after such an instruction. -/
def ran (s : State) (x ins next cycles : Nat) (v : Option Word) : State :=
  (ticked s x cycles).setLodge x (executed ((s.lodge x).tick cycles) ins v next)

theorem ran_lodge : (ran s x ins next cycles v).lodge x = executed ((s.lodge x).tick cycles) ins v next :=
  tget_tput_same _ _ _ _

theorem lodgeClean_none (a n : Nat) : s.lodgeClean x a n none = (false, s) := rfl

theorem lodgeRun_plain (through : s.h .haltReq x 8 0 = 2 ∨ s.lodgeBreak x = false)
    (fetched : (ticked s x cycles).lodgeFetch x (s.lodge x).pc f0 f1 = some (ins, 4))
    (plain : ins % 128 ∉ [0x73, 0x03, 0x23, 0x2f])
    (runs : ((s.lodge x).tick cycles).arith ins (((s.lodge x).pc + 4) % 2 ^ 32) = some (v, next)) :
    s.lodgeRun x f0 f1 fd ext cycles none = .next ((ran s x ins next cycles v).lodgeHaltTake x) := by
  have unbroken : ¬ (s.h .haltReq x 8 0 ≠ 2 ∧ s.lodgeBreak x = true) := by
    rintro ⟨ne, hit⟩
    rcases through with two | free
    · exact ne two
    · simp [free] at hit
  have does : (ticked s x cycles).lodgeExec x ins 4 fd ext none = .done (ran s x ins next cycles v) := by
    rw [lodgeExec_plain plain (by rw [ticked_lodge]; exact runs), ticked_lodge]
    rfl
  unfold State.lodgeRun
  rw [if_neg unbroken]
  extract_lets pc u r
  have done : r = .done (ran s x ins next cycles v) := by
    rw [← does]
    unfold r
    rw [show u.lodgeFetch x pc f0 f1 = some (ins, 4) from fetched]
    rfl
  rw [done]

theorem lodgeHaltTake_of_unasked (h : s.h .haltReq x 8 0 = 0) : s.lodgeHaltTake x = s := by
  have unasked : s.hb .haltReq x 8 0 = false := by rw [State.hb, h]; rfl
  exact if_neg (by simp [unasked])

theorem exec_lodgeInstruction (runs : s.lodgeRuns x = true) (unhalted : s.lodgeHalted x = false)
    (awake : s.hb .lodgeWfi x = false) (unasked : s.h .haltReq x 8 0 = 0) :
    exec (.lodgeInstruction x f0 f1 fd ext cycles none) s = s.lodgeRun x f0 f1 fd ext cycles none :=
  (if_neg (by simp [runs, unhalted, awake])).trans (if_neg (by simp [unasked]))

/-! ### A step of a halted lodge (R491) -/

theorem raise_lodges_mem (c q : Nat) : (s.raise c q).lodges = s.lodges ∧ (s.raise c q).mem = s.mem :=
  Campanile.raise_induction (P := fun u => u.lodges = s.lodges ∧ u.mem = s.mem) (fun _ _ _ _ _ h => h)
    (fun _ _ _ _ _ _ _ h => h) ⟨rfl, rfl⟩ c q

theorem siteLocal_cases (q : Nat) : s.siteLocal x q = s ∨ ∃ p, s.siteLocal x q = s.raise p q := by
  unfold State.siteLocal
  split
  · exact .inr ⟨_, rfl⟩
  · exact .inl rfl

/-- A lodge that has halted, before its pavilion's requests and sources follow. -/
def haltShown (s : State) (x cause : Nat) : State :=
  ((s.wdogSync x).setH .lodgeWfi 0 x).setFlag F.DBG_CORE_STAT_HALTED0 true x 8 |>.setFld F.DBG_CORE_STAT_CAUSE0 cause x 8
    |>.holderLeave x

/-- Reservations of the pavilion's lodge are dropped. -/
def resvDropped (s : State) (x : Nat) : State :=
  match s.pavAt x with
  | some p => s.resvLeave p 112
  | none => s

theorem resvDropped_frame : (resvDropped s x).lodges = s.lodges ∧ (resvDropped s x).mem = s.mem ∧
    (resvDropped s x).lodgeHalted x = s.lodgeHalted x := by
  unfold resvDropped
  split <;> exact ⟨rfl, rfl, rfl⟩

theorem lodgeHalt_eq (cause : Nat) : s.lodgeHalt x cause = (resvDropped (haltShown s x cause) x).siteLocal x 506 := rfl

theorem siteLocal_frame (q : Nat) : (s.siteLocal x q).lodges = s.lodges ∧ (s.siteLocal x q).mem = s.mem ∧
    (s.siteLocal x q).lodgeHalted x = s.lodgeHalted x := by
  rcases siteLocal_cases (s := s) (x := x) q with e | ⟨p, e⟩ <;> rw [e]
  · exact ⟨rfl, rfl, rfl⟩
  · obtain ⟨lodges, mem⟩ := raise_lodges_mem (s := s) p q
    exact ⟨lodges, mem, congrArg (· == 1)
      (Campanile.raise_fld s F.DBG_CORE_STAT_HALTED0 x 8 0 (Campanile.notEvent_of_block (by decide)) p q)⟩

theorem haltShown_halted (cause : Nat) : (haltShown s x cause).lodgeHalted x = true := by
  unfold haltShown State.holderLeave State.lodgeHalted
  rw [flag_setFlag_of_apart _ _ _ _ _ _ _ _ (by decide), flag_setFlag_of_apart _ _ _ _ _ _ _ _ (by decide),
    flag_setFld_of_apart _ _ _ _ _ _ _ _ (by decide), flag_setFlag_same _ _ _ _ _ (by decide)]

/-- R490. A lodge that halts keeps its core and its memory. -/
theorem lodgeHalt_frame (cause : Nat) : (s.lodgeHalt x cause).lodge x = s.lodge x ∧ (s.lodgeHalt x cause).mem = s.mem ∧
    (s.lodgeHalt x cause).lodgeHalted x = true := by
  obtain ⟨lodges, mem, halted⟩ := siteLocal_frame (s := resvDropped (haltShown s x cause) x) (x := x) 506
  obtain ⟨lodges', mem', halted'⟩ := resvDropped_frame (s := haltShown s x cause) (x := x)
  rw [lodgeHalt_eq]
  refine ⟨congrArg (tget · x _) (lodges.trans lodges'), mem.trans mem', halted.trans (halted'.trans (haltShown_halted cause))⟩

theorem lodgeHaltTake_of_stepped (h : s.h .haltReq x 8 0 = 2) (runs : s.lodgeRuns x = true) :
    s.lodgeHaltTake x = (s.lodgeHalt x 2).setH .haltReq 0 x 8 0 := by
  have asked : s.hb .haltReq x 8 0 = true := by rw [State.hb, h]; rfl
  rw [State.lodgeHaltTake, if_pos (by simp [asked, runs]), h]

theorem lodgeStep_shows (t : State) : (t.lodgeStep x).h .haltReq x 8 0 = 2 ∧ (t.lodgeStep x).lodgeHalted x = false := by
  refine ⟨State.h_setH_same _ _ _ _ _ _, ?_⟩
  change (t.lodgeUnhalt x false).lodgeHalted x = false
  unfold State.lodgeUnhalt State.lodgeHalted
  rw [flag_setFld_of_apart _ _ _ _ _ _ _ _ (by decide), flag_setFlag_same _ _ _ _ _ (by decide)]

/-! ### A debug step (R491) -/

section
variable {w i k : Nat} {n : Nat} {word : Word} {par : Option Nat}

/-- The value of a STEP. -/
theorem step_bits (step : n % 8 = 4) : bitOf n 0 = false ∧ bitOf n 1 = false ∧ bitOf n 2 = true := by
  simp only [bitOf, beq_eq_false_iff_ne, beq_iff_eq]
  omega

/-- DBG_CORE_CTL has taken the write. -/
def controlled (s : State) (w i n : Nat) : State := s.setRegN .DBG_CORE_CTL (n &&& 0x38) w i

theorem controlled_lodgeHalted : (controlled s w i n).lodgeHalted x = s.lodgeHalted x :=
  congrArg (· == 1) (Campanile.fld_setRegN_ne (id := .DBG_CORE_CTL) s F.DBG_CORE_STAT_HALTED0 x 8 0 (by decide) (n &&& 0x38) w i 0)

section
variable (unlocked : s.dbgLocked = false) (step : n % 8 = 4)
include unlocked step

theorem coreCtl_step_spire (hi : i < 8) (halted : (controlled s w i n).ctxState w i (bitsOf n 3 1) = 4) :
    s.coreCtl w i n false par = (controlled s w i n).sprStep w i (bitsOf n 3 1) false par := by
  obtain ⟨halt, resume, stepped⟩ := step_bits step
  have held : (controlled s w i n).coreHalted w i (bitsOf n 3 1) = true := by simp [State.coreHalted, hi, halted]
  unfold controlled at *
  simp [State.coreCtl, unlocked, halt, resume, stepped, hi, held]

theorem coreCtl_step_lodge (halted : s.lodgeHalted w = true) :
    s.coreCtl w 8 n false par = .next ((controlled s w 8 n).lodgeStep w) := by
  obtain ⟨halt, resume, stepped⟩ := step_bits step
  have held : (controlled s w 8 n).coreHalted w 8 0 = true := controlled_lodgeHalted.trans halted
  unfold controlled at *
  simp [State.coreCtl, unlocked, halt, resume, stepped, held]

end

/-- A step of a Spire runs nothing of a lodge. -/
theorem exec_dbgStep_spire (defined : RegId.defined .DBG_CORE_CTL word.toNat = true) (hi : i < 8)
    (done : s.coreCtl w i word.toNat false par = .next t) :
    exec (.dbgStep w i word false par f0 f1 fd ext cycles) s = .next t := by
  change execDbgStep w i word false par f0 f1 fd ext cycles s = _
  unfold execDbgStep
  rw [if_neg (by simp [defined]), done]
  exact if_neg fun h => by omega

end

section
variable {p k y : Nat} {a : SOp} {b : VOp} {par : Option Nat}

theorem sprStep_run (left : (s.ctxUnhalt p k y).ctxState p k y ≠ 0) (awake : (s.ctx p k y).haltFrom ≠ 2)
    (runs : (s.ctxUnhalt p k y).issueOf p k y par = .run a b)
    (csr : a.undefinedCsr ((s.ctxUnhalt p k y).ctx p k y) = false) (atomic : ∀ fn rd ra rb, a ≠ .amo fn rd ra rb) :
    s.sprStep p k y false par = .next (((s.ctxUnhalt p k y).bundleRun p k y a b 0).stepEnd p k y) := by
  have issued : (s.ctxUnhalt p k y).bundleIssue p k y false par = .next ((s.ctxUnhalt p k y).bundleRun p k y a b 0) := by
    simp only [State.bundleIssue, runs, csr]
    cases a with
    | amo fn rd ra rb => exact absurd rfl (atomic fn rd ra rb)
    | _ => rfl
  unfold State.sprStep
  extract_lets c u met
  rw [if_neg left, if_neg awake, issued]

theorem sprStep_waiting (left : (s.ctxUnhalt p k y).ctxState p k y ≠ 0) (waits : (s.ctx p k y).haltFrom = 2)
    (named : (s.ctx p k y).waitMask ≠ 0) : s.sprStep p k y false par =
      .next ((if (s.ctxUnhalt p k y).waitHolds p k (s.ctx p k y).waitMask then (s.ctxUnhalt p k y).waitEnd p k y
        else s.ctxUnhalt p k y).stepEnd p k y) := by
  unfold State.sprStep
  extract_lets c u met
  have holds : met = u.waitHolds p k c.waitMask := if_neg named
  rw [if_neg left, if_pos waits, holds]

end

/-- R491. A STEP of a halted lodge runs one instruction, which halts it again. -/
theorem exec_dbgStep_lodge {word : Word} {u : State} (defined : RegId.defined .DBG_CORE_CTL word.toNat = true)
    (unlocked : s.dbgLocked = false) (step : word.toNat % 8 = 4) (halted : s.lodgeHalted x = true)
    (stepped : u = (controlled s x 8 word.toNat).lodgeStep x) (on : u.lodgeRuns x = true)
    (fetched : (ticked u x cycles).lodgeFetch x (u.lodge x).pc f0 f1 = some (ins, 4))
    (plain : ins % 128 ∉ [0x73, 0x03, 0x23, 0x2f])
    (runs : ((u.lodge x).tick cycles).arith ins (((u.lodge x).pc + 4) % 2 ^ 32) = some (v, next)) :
    exec (.dbgStep x 8 word false none f0 f1 fd ext cycles) s =
      .next (((ran u x ins next cycles v).lodgeHalt x 2).setH .haltReq 0 x 8 0) := by
  have shows : u.h .haltReq x 8 0 = 2 ∧ u.lodgeHalted x = false := stepped ▸ lodgeStep_shows _
  obtain ⟨asked, free⟩ := shows
  have done : s.coreCtl x 8 word.toNat false none = .next u := stepped ▸ coreCtl_step_lodge unlocked step halted
  change execDbgStep x 8 word false none f0 f1 fd ext cycles s = _
  unfold execDbgStep
  rw [if_neg (by simp [defined]), done]
  refine (if_pos ⟨rfl, (step_bits step).2.2, halted, by simp [free], asked⟩).trans ?_
  rw [lodgeRun_plain (.inl asked) fetched plain runs,
    lodgeHaltTake_of_stepped (s := ran u x ins next cycles v) asked on]

/-- What such a step leaves. -/
theorem stepped_shows (u : State) : (((ran u x ins next cycles v).lodgeHalt x 2).setH .haltReq 0 x 8 0).lodge x =
      executed ((u.lodge x).tick cycles) ins v next ∧
    (((ran u x ins next cycles v).lodgeHalt x 2).setH .haltReq 0 x 8 0).lodgeHalted x = true ∧
    (((ran u x ins next cycles v).lodgeHalt x 2).setH .haltReq 0 x 8 0).mem = u.mem := by
  obtain ⟨lodge, mem, halted⟩ := lodgeHalt_frame (s := ran u x ins next cycles v) (x := x) 2
  exact ⟨lodge.trans ran_lodge, halted, mem⟩

/-! ### Failures and elections (R404, R411) -/

/-- What is known of lodges that left service. -/
def deadScope : Scope := ⟨.prm, [.lodgeDead], by decide, by decide⟩

theorem evRefresh_kept (k : Kept deadScope s t) (c : Nat) : Kept deadScope s (t.evRefresh c) := by
  refine Kept.foldS (fun g u k => ?_) _ k
  extract_lets w
  have settled : Kept deadScope s w :=
    .ite _ ((((k.setEv _ _ _ _ _ _).setEv _ _ _ _ _ _).setEv _ _ _ _ _ _ |>.setEv _ _ _ _ _ _).followH (by decide) _ _ _ _) k
  exact .ite _ ((settled.setEv _ _ _ _ _ _).setEv _ _ _ _ _ _) settled

/-- R411. A lodge that has not booted again is out of service. -/
theorem exec_lodgeRebootTimeout (down : s.lodgeRuns x = false) (opened : s.hb .faultOpen 3 x = true) :
    ∃ t, exec (.lodgeRebootTimeout x) s = .next t ∧ t.hb .lodgeDead x = true := by
  have noted : (s.setH .lodgeDead 1 x).hb .lodgeDead x = true := by rw [State.hb, State.h_setH_same]; rfl
  have kept {t : State} (k : Kept deadScope (s.setH .lodgeDead 1 x) t) : t.hb .lodgeDead x = true :=
    (congrArg (· != 0) (k.h .lodgeDead x 0 0 (by decide))).trans noted
  refine ⟨_, if_neg (by simp [down, opened]), kept ?_⟩
  split
  · exact evRefresh_kept (evRefresh_kept (.refl _ _) _) _
  · exact evRefresh_kept (.refl _ _) _

/-- R404. A lodge starts the election of a term: itself the candidate, if it stands. -/
def electionStarted (s : State) (x : Nat) : State :=
  let u := (s.stepDown x (s.regN .LDG_TERM x + 1)).setRegN .LDG_TERM (s.regN .LDG_TERM x + 1) x
  u.setH .elecTerm (s.regN .LDG_TERM x + 1) |>.setH .elecStart (x + 1) |>.setH .elecCand (if u.standing x then x + 1 else 0)

theorem exec_heartbeatTimeout_first (runs : s.lodgeRuns x = true) (none_presides : s.presSite = none)
    (fresh : s.h .elecTerm ≠ s.regN .LDG_TERM x + 1) : exec (.heartbeatTimeout x) s = .next (electionStarted s x) := by
  have term : ((s.stepDown x (s.regN .LDG_TERM x + 1)).setRegN .LDG_TERM (s.regN .LDG_TERM x + 1) x).h .elecTerm =
      s.h .elecTerm :=
    ((TermsOnly.stepDown s x _).trans (TermsOnly.setTerm _ _ x)).h .elecTerm 0 (by decide) (by decide)
  change execHeartbeatTimeout x s = _
  unfold execHeartbeatTimeout
  rw [if_neg (by simp [runs]), none_presides]
  exact if_neg fun same => fresh (term.symm.trans same)

theorem electionStarted_shows : (electionStarted s x).h .elecTerm = s.regN .LDG_TERM x + 1 ∧
    (electionStarted s x).h .elecStart = x + 1 ∧ (electionStarted s x).h .elecCand = if s.standing x then x + 1 else 0 := by
  unfold electionStarted
  extract_lets u
  have stands : u.standing x = s.standing x := ((TermsOnly.stepDown s x _).trans (TermsOnly.setTerm _ _ x)).standing x
  refine ⟨?_, ?_, ?_⟩
  · rw [Events.h_setH_id_ne _ (by decide), Events.h_setH_id_ne _ (by decide), State.h_setH_same]
  · rw [Events.h_setH_id_ne _ (by decide), State.h_setH_same]
  · rw [State.h_setH_same, stands]

theorem exec_electionMsg_stands (term : s.h .elecTerm ≠ 0) (seen : s.regN .LDG_TERM x ≤ s.h .elecTerm)
    (stands : s.standing x = true) : ∃ t, exec (.electionMsg x) s = .next t ∧
      t.h .elecCand = if s.h .elecCand = 0 ∨ x + 1 < s.h .elecCand then x + 1 else s.h .elecCand :=
  ⟨_, exec_electionMsg s x term seen, (passed_elecCand s x).trans (if_pos stands)⟩

theorem exec_heartbeatRx (presides : s.h .presiding ≠ 0) (seen : s.regN .LDG_TERM x ≤ s.h .hbTerm) :
    exec (.heartbeatRx x) s =
      .next ((s.setRegN .LDG_TERM (s.h .hbTerm) x).setView x (s.h .presiding - 1) (s.h .hbDep % 64) (s.h .hbDep / 64)) :=
  if_neg (by omega)

/-! ### The journal (R406, R408) -/

section
variable {y : Nat} (head : s.jrnlHead = some x)
include head

theorem exec_journalEntryWrite {term : Nat} (holder : s.jrnlHolder x = true) (present : term = s.regN .LDG_TERM x)
    (released : s.safeHold = false) :
    exec (.journalEntryWrite term) s = .next ((s.setH .jrnlCount (s.h .jrnlCount x + 1) x).jrnlBytes x) := by
  change execJournalEntryWrite term s = _
  rw [execJournalEntryWrite, head]
  exact if_pos ⟨holder, present, by simp [released]⟩

theorem exec_journalEntryHeld (holder : s.jrnlHolder y = true) (deputy : y ≠ x) :
    exec (.journalEntryHeld y) s = .next ((s.setH .jrnlCount (s.h .jrnlCount x) y).jrnlBytes y) := by
  change execJournalEntryHeld y s = _
  rw [execJournalEntryHeld, head]
  exact if_pos ⟨holder, deputy⟩

theorem exec_deputyCopyDone (filling : s.flag F.LDG_JRNL_STAT_FILLING y = true) (holder : s.jrnlHolder x = true) :
    exec (.deputyCopyDone y) s = .next ((s.setFlag F.LDG_JRNL_STAT_FILLING false y
      |>.setFlag F.LDG_JRNL_STAT_HOLDER true y |>.setH .jrnlCopy 1 y |>.setH .jrnlCount (s.h .jrnlCount x) y).jrnlWritten) := by
  change execDeputyCopyDone y s = _
  rw [execDeputyCopyDone, head]
  exact if_pos ⟨filling, holder⟩

end

/-! ### Self-test and start-up (R419) -/

/-- The self-test of one site is recorded. -/
def tested (failed : List (Nat × Nat)) (x : Nat) (s : State) : State :=
  match failed.find? fun e => e.1 == x with
  | some e =>
    (s.setFld F.LDG_SITE_STAT_SELFTEST 2 x |>.setFld F.LDG_SITE_STAT_FAIL_UNIT e.2 x
      |>.setFlag F.LDG_SITE_STAT_FAILED true x).setBit .LDG_FAILED x true
  | none => s.setFld F.LDG_SITE_STAT_SELFTEST 1 x

theorem tested_same (failed : List (Nat × Nat)) : (tested failed x s).fld F.LDG_SITE_STAT_SELFTEST x =
    if failed.any (fun e => e.1 == x) then 2 else 1 := by
  unfold tested
  split
  case h_1 e found =>
    have named : failed.any (fun e => e.1 == x) = true :=
      List.any_eq_true.2 ⟨e, List.mem_of_find?_eq_some found, List.find?_some (p := fun e : Nat × Nat => e.1 == x) found⟩
    rw [if_pos named, State.setBit, Campanile.fld_setRegN_ne _ F.LDG_SITE_STAT_SELFTEST x 0 0 (by decide),
      State.setFlag, fld_setFld_of_apart _ _ _ _ _ _ _ _ (by decide), fld_setFld_of_apart _ _ _ _ _ _ _ _ (by decide),
      Panel.fld_setFld_same _ _ _ _ _ _ (by decide)]
    rfl
  case h_2 found =>
    have unnamed : failed.any (fun e => e.1 == x) = false :=
      List.any_eq_false.2 fun e he => List.find?_eq_none.1 found e he
    rw [unnamed, if_neg Bool.false_ne_true, Panel.fld_setFld_same _ _ _ _ _ _ (by decide)]
    rfl

theorem tested_other (failed : List (Nat × Nat)) {y : Nat} (h : y ≠ x) :
    (tested failed y s).fld F.LDG_SITE_STAT_SELFTEST x = s.fld F.LDG_SITE_STAT_SELFTEST x := by
  have ne {g : Fld} (t : State) (n : Nat) : (t.setFld g n y).fld F.LDG_SITE_STAT_SELFTEST x =
      t.fld F.LDG_SITE_STAT_SELFTEST x := fld_setFld_of_index_ne _ _ _ _ _ _ _ _ fun e => h e.1
  unfold tested
  split
  · rw [State.setBit, Campanile.fld_setRegN_ne _ F.LDG_SITE_STAT_SELFTEST x 0 0 (by decide), State.setFlag, ne, ne, ne]
  · exact ne _ _

/-- The state after the self-test of every site. -/
def allTested (failed : List (Nat × Nat)) (s : State) : State := foldS (tested failed) (List.range 36) s

theorem exec_selfTestDone (failed : List (Nat × Nat)) : exec (.selfTestDone failed) s = .next (allTested failed s) := rfl

theorem allTested_selfTest (failed : List (Nat × Nat)) (hx : x < 36) :
    (allTested failed s).fld F.LDG_SITE_STAT_SELFTEST x = if failed.any (fun e => e.1 == x) then 2 else 1 := by
  refine Domes.foldS_establishes (f := tested failed)
    (P := fun t => t.fld F.LDG_SITE_STAT_SELFTEST x = if failed.any (fun e => e.1 == x) then 2 else 1)
    (fun _ => tested_same failed) (fun y t ht => ?_) (List.mem_range.2 hx) s
  by_cases h : y = x
  · subst h
    exact tested_same failed
  · exact (tested_other failed h).trans ht

theorem fuseCheck_kept (k : Kept Debug.scope s t) : Kept Debug.scope s t.fuseCheck :=
  .ite _ (((k.setFld (by decide) _ _ _ _).setFld (by decide) _ _ _ _).devAlarm _) k

theorem fuseCheck_time (s : State) : s.fuseCheck.time = s.time := by
  unfold State.fuseCheck
  split
  · exact Campanile.devAlarm_time _ _
  · rfl

/-- Fuses and the BOOT_MODE balls have been read, and device time starts. -/
def released (s : State) (mode : Nat) : State :=
  let k : RegKey := ⟨.CFG_BOOT, 0, 0, 0⟩
  let u := { s with fuses := tput s.fuses k (BitVec.ofNat 64 (setBitsOf (s.fuse k).toNat 0 2 mode)) }
  { u.setH .porHeld 0 with time := 0 }

theorem exec_powerOnRelease (mode : Nat) (held : s.hb .porHeld = true) :
    exec (.powerOnRelease mode) s = .next (released s mode).fuseCheck := if_neg (by simp [held])

theorem released_shows (mode : Nat) : (released s mode).fuseCheck.hb .porHeld = false ∧
    (released s mode).fuseCheck.mem = s.mem ∧ (released s mode).fuseCheck.time = 0 := by
  have out : (released s mode).h .porHeld = 0 := State.h_setH_same s .porHeld 0 0 0 0
  refine ⟨?_, Debug.fuseCheck_mem _, fuseCheck_time _⟩
  rw [State.hb, (fuseCheck_kept (.refl _ (released s mode))).h .porHeld 0 0 0 (by decide), out]
  rfl

end Sys2Proof.Lodges
end

section
/-!
SUPPORT. Statement O54 of the lodges and resets.
-/
namespace Sys2Proof.Lodges

open Sys2Proof Sys2Proof.Machine

/-- Settles O54 (16_lodge_recovery.md, 20_debug.md), by the branch that each command takes under its condition. -/
theorem lodgeAndResetCommandsComplete : Obligations.LodgeAndResetCommandsComplete := by
  unfold Obligations.LodgeAndResetCommandsComplete
  refine ⟨?fastEntry, ?interrupt, ?instruction, ?spireStep, ?lodgeStep, ?lockedStep, fun _ _ => rfl, fun _ _ => rfl,
    fun _ _ h => if_pos h, fun _ _ _ => rfl, fun _ _ _ h => if_neg (not_not_intro h), fun _ _ h => if_pos h,
    fun _ _ => exec_lodgeRebootTimeout, fun _ _ => rfl, fun _ => rfl, fun _ _ => exec_heartbeatRx,
    fun x s runs none_presides fresh => ⟨_, exec_heartbeatTimeout_first runs none_presides fresh, electionStarted_shows⟩,
    fun _ _ => exec_electionMsg_stands, fun s => exec_electionAnnounce s, fun _ _ => rfl,
    fun _ _ _ head => exec_journalEntryWrite head, fun _ _ _ head => exec_journalEntryHeld head,
    fun _ _ _ head => exec_deputyCopyDone head, fun _ => rfl,
    fun failed s => ⟨_, exec_selfTestDone failed, fun _ hx => allTested_selfTest failed hx⟩, fun _ _ h => if_neg h,
    fun _ _ _ => rfl, fun _ => rfl, fun _ => rfl,
    fun mode s held => ⟨_, exec_powerOnRelease mode held, released_shows mode⟩, fun _ => rfl, fun _ => rfl, fun _ => rfl,
    fun _ => rfl, fun _ _ => rfl, fun _ _ => rfl, fun _ _ _ => Panel.wrOut_of_defined _ _ _,
    fun _ _ _ => Panel.wrOut_of_defined _ _ _, fun _ _ => rfl⟩
  case fastEntry =>
    intro x s ready fie normal offered
    refine ⟨_, exec_lodgeFastEntry s x ready fie normal offered, ?_⟩
    rw [lodge_setLodge_same]
    exact ⟨fastEntry_pc _, fastEntry_inFast _⟩
  case interrupt =>
    intro x s ready normal offered enabled on
    exact if_pos (by simp [ready, normal, offered, enabled, on])
  case instruction =>
    rintro x pc ins next cycles f0 f1 fd ext v s runs unhalted awake unasked free fetched plain does rfl
    refine ⟨_, (exec_lodgeInstruction runs unhalted awake unasked).trans ((lodgeRun_plain (.inr free) fetched plain does).trans
      (congrArg Host.Outcome.next (lodgeHaltTake_of_unasked (s := ran s x ins pc cycles v) unasked))), ?_⟩
    rw [ran_lodge]
    exact ⟨executed_pc _ _ _ _, fun w value dest => executed_r _ _ _ _ value dest, rfl⟩
  case spireStep =>
    rintro w i x v par f0 f1 fd ext cycles a b o u s hi defined unlocked step rfl rfl halted rfl left
    have done := coreCtl_step_spire (par := par) unlocked step hi halted
    exact ⟨fun awake runs csr atomic => exec_dbgStep_spire defined hi (done.trans (sprStep_run left awake runs csr atomic)),
      fun waits named => exec_dbgStep_spire defined hi (done.trans (sprStep_waiting left waits named))⟩
  case lodgeStep =>
    rintro x pc ins next cycles v f0 f1 fd ext d u s defined unlocked step halted stepped on fetched plain does rfl
    refine ⟨_, exec_dbgStep_lodge defined unlocked step halted stepped on fetched plain does, ?_⟩
    obtain ⟨lodge, still, mem⟩ := stepped_shows (x := x) (ins := ins) (next := pc) (cycles := cycles) (v := d) u
    rw [lodge]
    exact ⟨executed_pc _ _ _ _, still, fun w value dest => executed_r _ _ _ _ value dest, mem.trans (stepped ▸ rfl)⟩
  case lockedStep =>
    intro w i v ipar par f0 f1 fd ext cycles s defined locked
    change execDbgStep w i v ipar par f0 f1 fd ext cycles s = _
    unfold execDbgStep
    rw [if_neg (by simp [defined]), Debug.coreCtl_of_locked locked]
    have still : (s.dbgIgn w i).lodgeHalted w = s.lodgeHalted w := Frame.flag_setFlag_of_apart _ _ _ _ _ _ _ _ (by decide)
    exact if_neg fun ⟨_, _, halted, free, _⟩ => free (still.trans halted)

end Sys2Proof.Lodges
end

section
/-!
SUPPORT, for O55. The outer interfaces where their commands act: halt, resume and register transfer (R489, R490, R494),
the lanes (R47, R449), PCI Express (R455, R457), the tower I/O pins (R302) and the timers of the GPIO units (R476).
-/
namespace Sys2Proof.Outer

open Sys2Proof Sys2Proof.Machine

variable {s : State} {w i e x c t q n : Nat} {v : Word}

/-! ### Core debug (R489, R490, R494) -/

theorem halt_bits (halt : n % 8 = 1) : bitOf n 0 = true ∧ bitOf n 1 = false ∧ bitOf n 2 = false := by
  simp only [bitOf, beq_eq_false_iff_ne, beq_iff_eq]
  omega

theorem resume_bits (resume : n % 8 = 2) : bitOf n 0 = false ∧ bitOf n 1 = true ∧ bitOf n 2 = false := by
  simp only [bitOf, beq_eq_false_iff_ne, beq_iff_eq]
  omega

theorem coreCtl_halt (ipar : Bool) (par : Option Nat) (unlocked : s.dbgLocked = false) (halt : n % 8 = 1) :
    s.coreCtl w i n ipar par =
      .next ((s.setRegN .DBG_CORE_CTL (n &&& 0x38) w i).coreHalt w i (if i < 8 then bitsOf n 3 1 else 0)) := by
  obtain ⟨halted, resume, step⟩ := halt_bits halt
  simp [State.coreCtl, unlocked, halted, resume, step]

theorem coreCtl_resume (ipar : Bool) (par : Option Nat) (unlocked : s.dbgLocked = false) (resume : n % 8 = 2)
    (held : (s.setRegN .DBG_CORE_CTL (n &&& 0x38) w i).coreHalted w i (if i < 8 then bitsOf n 3 1 else 0) = true) :
    s.coreCtl w i n ipar par =
      .next ((s.setRegN .DBG_CORE_CTL (n &&& 0x38) w i).coreResume w i (if i < 8 then bitsOf n 3 1 else 0)) := by
  obtain ⟨halt, resumed, step⟩ := resume_bits resume
  simp [State.coreCtl, unlocked, halt, resumed, step, held]

/-- A read of a register of a Spire whose context stands. -/
theorem regTransfer_read {d : Nat} (unlocked : s.dbgLocked = false) (defined : RegId.defined .DBG_CORE_REGSEL n = true)
    (cls : regClass i (bitsOf n 12 4) = true) (reads : bitOf n 16 = false) (hi : i < 8)
    (still : [0, 3, 4].contains ((s.setRegN .DBG_CORE_REGSEL n w i).ctxState w i (s.fld F.DBG_CORE_CTL_CTX w i)) = true)
    (data : (s.setRegN .DBG_CORE_REGSEL n w i).sprPeek w i (s.fld F.DBG_CORE_CTL_CTX w i) (bitsOf n 12 4)
      (bitsOf n 0 12) = some d) :
    s.regTransfer w i n = .next ((s.setRegN .DBG_CORE_REGSEL n w i).setRegN .DBG_CORE_REGDATA d w i) := by
  unfold State.regTransfer
  extract_lets idx cl y u held read word
  have readable : (if held = true then read else none) = some d := by
    rw [if_pos (show held = true from (if_pos hi).trans still)]
    exact (if_pos hi).trans data
  rw [if_neg (by simp [unlocked]), if_neg (by simp [defined, cl, cls]), readable]
  exact if_pos (by simp [reads])

/-! ### Lanes and pins (R47, R302, R449) -/

/-- What an XCV_STATE entry does. -/
def laneEntry (t : Nat) (e : LqEntry) (s : State) : Bool × State :=
  let l := bitsOf (e.param 0) 0 5
  let op := bitsOf (e.param 1) 0 4
  let use := s.fld F.XCV_LANE_CFG_USE t l
  let b := xcvOp op
  let v := s.regN .XCV_LANE_CTL t l
  let m : Word := BitVec.ofNat 32 (2 ^ b.1)
  if use = 2 ∨ use = 3 ∨ (use = 1 ∧ 4 ≤ op) then (false, s)
  else
    (true, (s.shotAdd ⟨.XCV_LANE_CTL, t, l, 0, false⟩ (BitVec.ofNat 32 v) (if b.2 then m else 0) m).xcvCtlSet t l
      (Machine.setBit v b.1 b.2))

theorem exec_launchXcvState : exec (.launchXcvState t q) s = .next (s.lqLaunch (towerNode t) q 4 (laneEntry t)) := rfl

theorem laneEntry_taken_iff (e : LqEntry) (u : State) : (laneEntry t e u).1 = true ↔
    u.fld F.XCV_LANE_CFG_USE t (bitsOf (e.param 0) 0 5) ≠ 2 ∧
      u.fld F.XCV_LANE_CFG_USE t (bitsOf (e.param 0) 0 5) ≠ 3 ∧
      (u.fld F.XCV_LANE_CFG_USE t (bitsOf (e.param 0) 0 5) = 1 → bitsOf (e.param 1) 0 4 < 4) := by
  have split_free (use op : Nat) :
      ¬ (use = 2 ∨ use = 3 ∨ (use = 1 ∧ 4 ≤ op)) ↔ use ≠ 2 ∧ use ≠ 3 ∧ (use = 1 → op < 4) := by omega
  rw [← split_free]
  unfold laneEntry
  extract_lets l op use b v m
  split
  case isTrue refused => exact ⟨fun h => absurd h Bool.false_ne_true, fun h => absurd refused h⟩
  case isFalse taken => exact ⟨fun _ => taken, fun _ => rfl⟩

theorem laneEntry_refused (e : LqEntry) (u : State) (h : (laneEntry t e u).1 = false) : (laneEntry t e u).2 = u := by
  revert h
  unfold laneEntry
  extract_lets l op use b v m
  split
  case isTrue refused => exact fun _ => rfl
  case isFalse taken => exact fun h => absurd h Bool.noConfusion

theorem exec_prbsCheckerLock (errs : Nat) (use : s.fld F.XCV_LANE_CFG_USE t i = 0)
    (prbs : s.flag F.XCV_LANE_CTL_PRBS_EN t i = true) (rx : s.flag F.XCV_LANE_CTL_RX_EN t i = true) :
    exec (.prbsCheckerLock t i errs) s =
      .next ((s.setFlag F.XCV_LANE_STAT_PRBS_LOCK true t i).satFld F.XCV_LANE_PRBS_ERR_COUNT errs t i) :=
  if_pos ⟨use, prbs, rx⟩

/-- What a PIN_DRIVE entry does. -/
def pinEntry (t : Nat) (e : LqEntry) (s : State) : Bool × State :=
  let g := bitsOf (e.param 0) 0 5
  let p := e.param 1
  if g < 18 ∧ s.flag F.TIO_GRP_CFG_OWNER t g then (false, s)
  else
    let may (b : Nat) : Bool := decide (g < 18) || s.gpioFunc ((if t = 0 then 0 else 48) + 8 * (g - 18) + b) == 15
    let take (v m old : Nat) : Nat :=
      foldS (fun b x => if bitOf m b && may b then Machine.setBit x b (bitOf v b) else x) (List.range 8) old
    (true, s.setH .pinOut (take (bitsOf p 0 8) (bitsOf p 8 8) (s.h .pinOut t g)) t g
      |>.setH .pinOe (take (bitsOf p 16 8) (bitsOf p 24 8) (s.h .pinOe t g)) t g)

theorem exec_launchPinDrive : exec (.launchPinDrive t q) s = .next (s.lqLaunch (towerNode t) q 5 (pinEntry t)) := rfl

theorem pinEntry_taken_iff (e : LqEntry) (u : State) : (pinEntry t e u).1 = true ↔
    ¬ (bitsOf (e.param 0) 0 5 < 18 ∧ u.flag F.TIO_GRP_CFG_OWNER t (bitsOf (e.param 0) 0 5) = true) := by
  unfold pinEntry
  extract_lets g p may take
  split
  case isTrue owned => exact ⟨fun h => absurd h Bool.false_ne_true, fun h => absurd owned h⟩
  case isFalse free => exact ⟨fun _ => free, fun _ => rfl⟩

/-! ### PCI Express (R455, R457) -/

theorem exec_pcieLinkChange_up {width gen : Nat} (en : s.flag F.PCIE_EP_CTL_EN 0 e = true)
    (widest : width ≤ s.fld F.PCIE_EP_CTL_MAXW 0 e) (latest : gen ≤ s.fld F.PCIE_EP_CTL_MAXGEN 0 e)
    (lanes : s.pcieLanes e width = true) (down : s.flag F.PCIE_EP_STAT_LINK_UP 0 e = false)
    (still : s.scanning = false) :
    exec (.pcieLinkChange e true width gen) s =
      .next ((s.setFld F.PCIE_EP_STAT_WIDTH width 0 e |>.setFld F.PCIE_EP_STAT_GEN gen 0 e
        |>.setFlag F.PCIE_EP_STAT_LINK_UP true 0 e |>.device (1948 + e)).endpointFollow e) :=
  if_pos ⟨en, widest, latest, lanes, by simp [down], by simp [still]⟩

/-- A failure that already stands raises nothing again. -/
theorem exec_ideFail_again (failed : s.flag F.PCIE_EP_STAT_IDE_FAIL 0 e = true) :
    exec (.ideFail e) s = .next
      ((s.setFlag F.PCIE_EP_STAT_IDE_SECURE false 0 e |>.setFlag F.PCIE_EP_STAT_IDE_FAIL true 0 e).endpointFollow e) :=
  congrArg (fun u : State => Host.Outcome.next (u.endpointFollow e)) (if_pos failed)

/-! ### Units of the GPIO engines (R476) -/

theorem exec_uartRxByte_good (byte : Byte) (en : s.flag F.GPIO_U_CFG_EN e x = true) (uart : x < 4) :
    exec (.uartRxByte e x byte false) s = .next (s.unitRxPush e x (BitVec.ofNat 32 (byte.toNat + 256 * b2n false))) :=
  if_pos ⟨en, if_pos uart⟩

theorem exec_uartRxByte_bad (byte : Byte) (en : s.flag F.GPIO_U_CFG_EN e x = true) (uart : x < 4) :
    exec (.uartRxByte e x byte true) s =
      .next ((s.unitRxPush e x (BitVec.ofNat 32 (byte.toNat + 256 * b2n true))).unitErr e x 2) :=
  if_pos ⟨en, if_pos uart⟩

/-- The delay of a capture, up to 8 ns. -/
def captureDelay (s : State) : Nat := (Config.freeWord s.free 0).toNat % (s.nsUnits 8 + 1)

theorem captureDelay_le : captureDelay s ≤ s.nsUnits 8 := Nat.le_of_lt_succ (Nat.mod_lt _ (Nat.succ_pos _))

theorem exec_timerCapture
    (capture : s.flag F.GPIO_U_CFG_EN e (12 + c) ∧ bitsOf (s.fld F.GPIO_U_CFG_MODE e (12 + c)) 0 2 = 1) :
    exec (.timerCapture e c) s = .next (({ s with free := s.free + 1 } : State).unitRxPush e (12 + c)
      (loWord (s.towerTime (4 * e) - BitVec.ofNat 64 (s.nsUnits 16) - BitVec.ofNat 64 (captureDelay s)))) :=
  if_pos capture

theorem exec_pwmPeriodEnd {l : List Word} (pwm : bitsOf (s.fld F.GPIO_U_CFG_MODE e (12 + c)) 0 2 = 2)
    (waiting : s.unitTx e (12 + c) = v :: l) :
    exec (.pwmPeriodEnd e c) s = .next ((s.setUnitTx e (12 + c) l).setH .unitWord (1 + v.toNat) e (12 + c)) := by
  change execPwmPeriodEnd e c s = _
  unfold execPwmPeriodEnd
  rw [if_pos pwm, waiting]

end Sys2Proof.Outer
end

section
/-!
SUPPORT. Statement O55 of 96_what_every_command_does.md: the outer-interface commands complete.
-/
namespace Sys2Proof.Outer

open Sys2Proof Sys2Proof.Machine

/-- Settles O55 (18_external_interfaces.md, 19_gpio.md, 20_debug.md), by what each command does under its condition. -/
theorem outerInterfaceCommandsComplete : Obligations.OuterInterfaceCommandsComplete := by
  unfold Obligations.OuterInterfaceCommandsComplete
  refine ⟨fun _ _ => rfl, fun _ _ => rfl, fun _ _ => rfl, fun _ _ => rfl, fun _ => rfl, fun _ => rfl, fun _ => rfl,
    fun _ => rfl, fun _ => rfl, fun _ => rfl, fun _ _ h => if_pos h, fun _ _ => Panel.wrOut_of_defined _ _ _,
    fun _ _ => Panel.wrOut_of_defined _ _ _, fun _ _ _ => rfl, fun _ => rfl, fun _ => rfl,
    fun w v s defined unlocked halt i => (if_pos defined).trans (coreCtl_halt false none unlocked halt),
    fun w i v s defined unlocked resume held => (if_pos defined).trans (coreCtl_resume false none unlocked resume held),
    fun _ _ _ _ => rfl, fun _ _ _ _ _ => regTransfer_read,
    fun _ _ _ => rfl, fun _ _ _ _ => rfl, fun _ _ _ _ _ => rfl, fun _ _ _ _ => rfl,
    fun _ _ _ _ _ _ => Panel.wrOut_of_defined _ _ _, fun _ _ _ _ => Panel.wrOut_of_defined _ _ _,
    fun _ _ _ _ => rfl, fun _ _ errs _ => exec_prbsCheckerLock errs,
    fun t _ _ => ⟨laneEntry t, laneEntry_taken_iff, laneEntry_refused, exec_launchXcvState⟩,
    fun _ _ _ _ => exec_pcieLinkChange_up, fun _ _ => rfl, fun _ _ _ _ _ _ => rfl, fun _ _ => rfl,
    fun _ _ => exec_ideFail_again, fun _ _ _ => ⟨rfl, rfl, rfl⟩, fun _ _ _ => rfl,
    fun _ _ _ => Panel.wrOut_of_defined _ _ _, fun _ _ h => if_pos h, fun _ _ _ => ⟨rfl, rfl⟩, fun _ _ => rfl,
    fun _ _ _ _ _ => rfl, fun _ _ => rfl, fun _ _ _ _ => rfl, fun _ _ _ => rfl, fun _ _ => rfl, fun _ _ _ => rfl,
    fun t _ _ => ⟨pinEntry t, pinEntry_taken_iff, exec_launchPinDrive⟩, fun _ _ _ _ => Panel.wrOut_of_defined _ _ _,
    fun _ _ _ _ => rfl, fun _ _ _ => rfl, fun _ _ _ _ => rfl,
    fun _ _ byte _ en uart => ⟨exec_uartRxByte_good byte en uart, exec_uartRxByte_bad byte en uart⟩,
    fun _ _ s capture => ⟨captureDelay s, captureDelay_le, exec_timerCapture capture⟩,
    fun _ _ _ _ _ => exec_pwmPeriodEnd⟩

end Sys2Proof.Outer
end

section
/-!
SUPPORT, for O44. Where the effect of a value is defined (R9): the write of a register then answers, the debug registers of
a core among them (R491, R494), and so do a packet, an atomic, a host access and a launched write that carry it.
-/
namespace Sys2Proof.Writes

open Sys2Proof Sys2Proof.Machine

variable {s u : State} {r : RegRef} {d : DWord} {v : Word} {who : Requester} {w i n x : Nat}

/-! ### Core debug registers (R491, R494) -/

theorem ranges_of_coreDebug {id : RegId} (block : id.row.block = .dbgC) : id.ranges = [] := by
  unfold RegId.ranges
  split
  case h_46 => rfl
  all_goals exact absurd block (by decide)

/-- The reserved bits that a value keeps clear are clear in its low word. -/
theorem defined_low {id : RegId} {m : Nat} (block : id.row.block = .dbgC) (defined : id.defined m = true) (k : Nat) :
    id.defined (m % 2 ^ k) = true := by
  have clear : m &&& id.rsv = 0 := by
    simp only [RegId.defined, Bool.and_eq_true, beq_iff_eq] at defined
    exact defined.1
  have low : m % 2 ^ k &&& id.rsv = 0 := by
    refine Nat.eq_of_testBit_eq fun b => ?_
    have bit := congrArg (·.testBit b) clear
    simp only [Nat.testBit_and, Nat.zero_testBit, Nat.testBit_mod_two_pow] at bit ⊢
    rw [Bool.and_assoc, bit, Bool.and_false]
  simp [RegId.defined, ranges_of_coreDebug block, low]

theorem coreCtl_answers (ipar : Bool) (par : Option Nat) (unstepped : 8 ≤ i ∨ bitOf n 2 = false) :
    ∃ t, s.coreCtl w i n ipar par = .next t := by
  unfold State.coreCtl
  extract_lets halt resume step x t₁ t₂
  split
  · exact ⟨_, rfl⟩
  split
  · exact ⟨_, rfl⟩
  split
  · exact ⟨_, rfl⟩
  split
  · exact ⟨_, rfl⟩
  split
  case isTrue stepped spire =>
    rcases unstepped with lodge | clear
    · omega
    · exact absurd clear (by simpa [step] using stepped)
  · exact ⟨_, rfl⟩

theorem regTransfer_answers (defined : RegId.defined .DBG_CORE_REGSEL n = true) (cls : regClass i (bitsOf n 12 4) = true)
    (taken : bitOf n 16 = false ∨ pokeDefined i (bitsOf n 12 4) (bitsOf n 0 12) (s.regN .DBG_CORE_REGDATA w i) = true) :
    ∃ t, s.regTransfer w i n = .next t := by
  have data : (s.setRegN .DBG_CORE_REGSEL n w i).regN .DBG_CORE_REGDATA w i = s.regN .DBG_CORE_REGDATA w i :=
    Gatehouse.regN_setRegN_ne _ (by decide) _ _ _ _ _ _ _
  unfold State.regTransfer
  extract_lets idx c y t held read word
  split
  · exact ⟨_, rfl⟩
  rw [if_neg (by simp [defined, c, cls])]
  split
  · exact ⟨_, rfl⟩
  split
  · exact ⟨_, rfl⟩
  case isFalse writes =>
    have poke : pokeDefined i c idx word = true := by
      rcases taken with reads | poke
      · exact absurd reads (by simpa using writes)
      · unfold word t
        rwa [data]
    rw [if_neg (by simp [poke])]
    exact ⟨_, rfl⟩

theorem wrOut_answers {id : RegId} (t : State) (defined : id.defined v.toNat = true) : ∃ t', wrOut id v t = .next t' :=
  ⟨t, Panel.wrOut_of_defined _ _ _ defined⟩

theorem loWord_toNat : (loWord d).toNat = d.toNat % 2 ^ 32 := BitVec.toNat_setWidth ..

theorem bitOf_low {b : Nat} (m : Nat) (h : b + 1 ≤ 32) : bitOf (m % 2 ^ 32) b = bitOf m b :=
  congrArg (· == 1) (Panel.bitsOf_mod_two_pow m b 1 32 h)

theorem dbgCoreWrite_answers (block : r.id.row.block = .dbgC) (defined : s.setDefined r d = true) :
    ∃ t, s.dbgCoreWrite r.w r.i r.id r.j d who = .next t := by
  obtain ⟨id, w, i, j, hi⟩ := r
  have value : id.defined d.toNat = true := by
    simp only [State.setDefined, Bool.and_eq_true] at defined
    exact defined.1
  have low : id.defined (loWord d).toNat = true := loWord_toNat ▸ defined_low block value 32
  unfold State.dbgCoreWrite
  extract_lets v
  split
  case h_1 => exact ⟨_, rfl⟩
  case h_2 => exact ⟨_, rfl⟩
  case h_3 =>
    split
    · exact ⟨_, rfl⟩
    · exact wrOut_answers _ low
  case h_4 =>
    split
    · exact ⟨_, rfl⟩
    · exact wrOut_answers _ low
  case h_5 _ e =>
    obtain rfl : id = .DBG_CORE_CTL := e
    rw [if_pos low]
    refine coreCtl_answers _ _ ?_
    rw [loWord_toNat, bitOf_low _ (by decide)]
    simpa [State.setDefined, value] using defined
  case h_6 _ e =>
    obtain rfl : id = .DBG_CORE_REGSEL := e
    obtain ⟨cls, taken⟩ : regClass i (bitsOf d.toNat 12 4) = true ∧ (bitOf d.toNat 16 = false ∨
        pokeDefined i (bitsOf d.toNat 12 4) (bitsOf d.toNat 0 12) (s.regN .DBG_CORE_REGDATA w i) = true) := by
      simpa [State.setDefined, value] using defined
    refine regTransfer_answers low ?_ ?_
    all_goals rw [loWord_toNat]
    · rwa [Panel.bitsOf_mod_two_pow _ _ _ _ (by decide)]
    · rwa [bitOf_low _ (by decide), Panel.bitsOf_mod_two_pow _ _ _ _ (by decide),
        Panel.bitsOf_mod_two_pow _ _ _ _ (by decide)]
  case h_7 => exact ⟨_, rfl⟩
  case h_8 =>
    split
    · exact ⟨_, rfl⟩
    · exact wrOut_answers _ low

/-! ### A register takes its value (R7, R9) -/

theorem regSet_answers (defined : s.setDefined r d = true) : ∃ t, s.regSet r d who = some t := by
  have value : r.id.defined d.toNat = true := by
    simp only [State.setDefined, Bool.and_eq_true] at defined
    exact defined.1
  unfold State.regSet
  rw [if_neg (by simp [value])]
  cases block : r.id.row.block
  case dbgC =>
    obtain ⟨t, done⟩ := dbgCoreWrite_answers (who := who) block defined
    exact ⟨t, by rw [done]⟩
  all_goals exact ⟨_, rfl⟩

theorem refWrite_answers (defined : s.refDefined r (s.shotMask r v who) = true) : ∃ t, s.refWrite r v who = some t := by
  unfold State.refDefined at defined
  unfold State.refWrite
  extract_lets word
  split
  case isTrue hi =>
    rw [if_pos hi] at defined
    exact regSet_answers defined
  case isFalse lo =>
    rw [if_neg lo] at defined
    split
    · exact ⟨_, rfl⟩
    case isFalse iso =>
      split
      · exact ⟨_, rfl⟩
      case isFalse single =>
        refine regSet_answers ?_
        simpa [iso, single] using defined

theorem regWrite_answers (defined : s.writeDefined x v who = true) : ∃ st t, s.regWrite x v who = some (st, t) := by
  unfold State.writeDefined at defined
  unfold State.regWrite
  split
  · exact ⟨_, _, rfl⟩
  case h_2 o found =>
    extract_lets st
    split
    · exact ⟨_, _, rfl⟩
    cases o with
    | none => exact ⟨_, _, rfl⟩
    | some r =>
      rw [found] at defined
      obtain ⟨t, done⟩ := refWrite_answers defined
      exact ⟨.ok, t, congrArg (Option.map (Status.ok, ·)) done⟩

end Sys2Proof.Writes
end

section
/-!
SUPPORT, for O44. The accesses that carry values: a packet (R315, R330), a host access (R453), a launched write (R48, R52)
and a write of a register whose bits hold what they are given (R8).
-/
namespace Sys2Proof.Writes

open Sys2Proof Sys2Proof.Machine

variable {s u t : State} {r : RegRef} {d : DWord} {v a b : Word} {who : Requester} {n x : Nat} {vs pkt : List Word}
  {fab : Status}

/-! ### Writes of words (R522) -/

theorem regWrites_single (defined : s.writeDefined x v who = true) :
    ∃ st t, s.regWrite x v who = some (st, t) ∧ State.regWrites who [v] x s = some (st, t) := by
  obtain ⟨st, t, done⟩ := regWrite_answers defined
  refine ⟨st, t, done, ?_⟩
  unfold State.regWrites
  rw [done]
  by_cases ok : st = .ok
  · subst ok
    rfl
  · exact if_pos ok

/-- Every value that the words at x may give a register has a defined effect. -/
def AllDefined (x len : Nat) : Prop := ∀ (i : Nat) (r : RegRef) (t : State), i < len →
  t.findReg (x + 4 * i) = some (some r) → r.id ≠ .DBG_CORE_CTL ∧ r.id ≠ .DBG_CORE_REGSEL ∧ ∀ d, r.id.defined d = true

theorem AllDefined.tail {len : Nat} (all : AllDefined x (len + 1)) : AllDefined (x + 4) len := fun i r t hi found =>
  all (i + 1) r t (by omega) (by rwa [show x + 4 * (i + 1) = x + 4 + 4 * i by omega])

theorem setDefined_of_plain (ctl : r.id ≠ .DBG_CORE_CTL) (sel : r.id ≠ .DBG_CORE_REGSEL)
    (all : ∀ d, r.id.defined d = true) : s.setDefined r d = true := by
  unfold State.setDefined
  rw [all, Bool.true_and]
  split
  case h_1 e => exact absurd e ctl
  case h_2 e => exact absurd e sel
  case h_3 => rfl

theorem refDefined_of_plain (ctl : r.id ≠ .DBG_CORE_CTL) (sel : r.id ≠ .DBG_CORE_REGSEL)
    (all : ∀ d, r.id.defined d = true) : s.refDefined r v = true := by
  unfold State.refDefined
  split
  · exact setDefined_of_plain ctl sel all
  · rw [setDefined_of_plain ctl sel all, Bool.or_true]

theorem AllDefined.head {len : Nat} (all : AllDefined x (len + 1)) : s.writeDefined x v who = true := by
  unfold State.writeDefined
  split
  case h_1 r found =>
    obtain ⟨ctl, sel, any⟩ := all 0 r s (Nat.succ_pos _) found
    exact refDefined_of_plain ctl sel any
  case h_2 => rfl

theorem AllDefined.regWrites (all : AllDefined x vs.length) : ∃ y, State.regWrites who vs x s = some y := by
  induction vs generalizing x s with
  | nil => exact ⟨_, rfl⟩
  | cons v vs ih =>
    obtain ⟨st, t, done⟩ := regWrite_answers (s := s) (who := who) (v := v) all.head
    unfold State.regWrites
    rw [done]
    by_cases ok : st = .ok
    · obtain ⟨y, rest⟩ := ih (s := t) all.tail
      exact ⟨y, (if_neg (by simp [ok])).trans rest⟩
    · exact ⟨_, if_pos ok⟩

/-! ### A WRITE at its target (R315) -/

theorem serveRegWrite_of_words (words : ∃ y, State.regWrites (s.pktWho pkt) vs x s = some y) :
    ∃ z, s.serveRegWrite n pkt x vs = some z := by
  obtain ⟨y, written⟩ := words
  unfold State.serveRegWrite
  extract_lets port bad
  clear_value port
  split
  · exact ⟨_, rfl⟩
  cases port with
  | some y => exact ⟨_, rfl⟩
  | none => exact ⟨_, congrArg (Option.map _) written⟩

/-- A port that takes the words of a packet. -/
theorem serveRegWrite_of_port {y : Nat × State} (found : s.findReg x = some (some r)) (reach : s.regReach x = .ok)
    (taken : s.portWrite n pkt r vs = some y) : ∃ z, s.serveRegWrite n pkt x vs = some z := by
  unfold State.serveRegWrite
  extract_lets port bad
  have answers : port = some y := by
    unfold port
    rw [found]
    exact (if_pos reach).trans taken
  rw [answers]
  split
  · exact ⟨_, rfl⟩
  · exact ⟨_, rfl⟩

/-- The ports that take a packet as a whole. -/
def TakesWhole (r : RegRef) (pkt vs : List Word) : Prop := r.id = .TSK_CMD_PORT ∨ r.id = .RDO_ACC_PORT ∨
  (r.i = 0 ∧ vs.length = 8 ∧ (r.id = .TEL_LOG_PORT ∨ r.id = .TEL_TRC_PORT)) ∨
  (r.i = 0 ∧ r.id = .TEL_INTAKE ∧ pktClass pkt = 3)

theorem portWrite_of_takesWhole (whole : TakesWhole r pkt vs) : ∃ y, s.portWrite n pkt r vs = some y := by
  obtain ⟨id, w, i, j, hi⟩ := r
  rcases whole with e | e | ⟨base, eight, e | e⟩ | ⟨base, e, records⟩
  · obtain rfl : id = .TSK_CMD_PORT := e
    exact ⟨_, rfl⟩
  · obtain rfl : id = .RDO_ACC_PORT := e
    exact ⟨_, rfl⟩
  · obtain rfl : id = .TEL_LOG_PORT := e
    obtain rfl : i = 0 := base
    exact ⟨_, if_pos eight⟩
  · obtain rfl : id = .TEL_TRC_PORT := e
    obtain rfl : i = 0 := base
    exact ⟨_, if_pos eight⟩
  · obtain rfl : id = .TEL_INTAKE := e
    obtain rfl : i = 0 := base
    exact ⟨_, if_pos records⟩

theorem addrOk_of_local {adr : Nat} (space : adr / 2 ^ 45 = 2) : addrOk adr = true := by
  unfold addrOk
  rw [space]
  rfl

theorem serveWrite_unreached (unreached : u.nodeReach n pkt ≠ .ok) : ∃ z, u.serveWrite n pkt fab = some z :=
  ⟨_, if_pos unreached⟩

section
variable (reach : u.nodeReach n pkt = .ok)
include reach

theorem serveWrite_reserved (reserved : addrOk (pktAddr pkt) = false) : ∃ z, u.serveWrite n pkt fab = some z :=
  ⟨_, (if_neg (by simp [reach])).trans (if_pos (by simp [reserved]))⟩

theorem serveWrite_local {base rs off : Nat} (space : pktAddr pkt / 2 ^ 45 = 2)
    (mem : u.localAt n (pktAddr pkt) = .mem base rs off) :
    u.serveWrite n pkt fab = some (served .ok
      (foldS (fun l s => s.resvHit rs l (pktSrc pkt) (pktPort pkt)) (linesOf off (4 * (pktPayload pkt).length))
        (u.stBytes (base + off) (wordsBytes (pktPayload pkt))))) := by
  unfold State.serveWrite
  simp only [reach, addrOk_of_local space, space, mem, ne_eq, not_true_eq_false, if_false, Bool.not_true,
    Bool.false_eq_true]

variable (whole : addrOk (pktAddr pkt) = true)
include whole

theorem serveWrite_register (space : pktAddr pkt / 2 ^ 45 = 1) :
    u.serveWrite n pkt fab = u.serveRegWrite n pkt (pktAddr pkt % 2 ^ 26) (pktPayload pkt) := by
  unfold State.serveWrite
  simp only [reach, whole, space, ne_eq, not_true_eq_false, if_false, Bool.not_true, Bool.false_eq_true]

theorem serveWrite_dome (space : pktAddr pkt / 2 ^ 45 = 0) : ∃ z, u.serveWrite n pkt fab = some z := by
  unfold State.serveWrite
  simp only [reach, whole, space, ne_eq, not_true_eq_false, if_false, Bool.not_true, Bool.false_eq_true]
  exact ⟨_, rfl⟩

theorem serveWrite_unit (space : pktAddr pkt / 2 ^ 45 = 2) : ∃ z, u.serveWrite n pkt fab = some z := by
  unfold State.serveWrite
  simp only [reach, whole, space, ne_eq, not_true_eq_false, if_false, Bool.not_true, Bool.false_eq_true]
  cases u.localAt n (pktAddr pkt) <;> exact ⟨_, rfl⟩

theorem serveWrite_beyond (space : 2 < pktAddr pkt / 2 ^ 45) : ∃ z, u.serveWrite n pkt fab = some z := by
  obtain ⟨m, e⟩ : ∃ m, pktAddr pkt / 2 ^ 45 = m + 3 := ⟨_, (Nat.sub_add_cancel space).symm⟩
  unfold State.serveWrite
  simp only [reach, whole, e, ne_eq, not_true_eq_false, if_false, Bool.not_true, Bool.false_eq_true]
  exact ⟨_, rfl⟩

end

/-- What is not carried to the register space answers. -/
theorem serveWrite_of_elsewhere
    (elsewhere : pktAddr pkt / 2 ^ 45 ≠ 1 ∨ u.nodeReach n pkt ≠ .ok ∨ addrOk (pktAddr pkt) = false) :
    ∃ z, u.serveWrite n pkt fab = some z := by
  by_cases reach : u.nodeReach n pkt = .ok
  case neg => exact serveWrite_unreached reach
  cases whole : addrOk (pktAddr pkt)
  case false => exact serveWrite_reserved reach whole
  have other : pktAddr pkt / 2 ^ 45 ≠ 1 := by simpa [reach, whole] using elsewhere
  rcases Nat.lt_trichotomy (pktAddr pkt / 2 ^ 45) 1 with dome | register | above
  · exact serveWrite_dome reach whole (Nat.lt_one_iff.mp dome)
  · exact absurd register other
  · rcases Nat.lt_or_eq_of_le (Nat.succ_le_of_lt above) with beyond | unit
    · exact serveWrite_beyond reach whole beyond
    · exact serveWrite_unit reach whole unit.symm

theorem serveWrite_of_register (served : ∃ z, u.serveRegWrite n pkt (pktAddr pkt % 2 ^ 26) (pktPayload pkt) = some z) :
    ∃ z, u.serveWrite n pkt fab = some z := by
  by_cases register : u.nodeReach n pkt = .ok ∧ addrOk (pktAddr pkt) = true ∧ pktAddr pkt / 2 ^ 45 = 1
  · obtain ⟨reach, whole, space⟩ := register
    exact serveWrite_register (fab := fab) reach whole space ▸ served
  · refine serveWrite_of_elsewhere ?_
    by_cases space : pktAddr pkt / 2 ^ 45 = 1
    case neg => exact .inl space
    by_cases reach : u.nodeReach n pkt = .ok
    case neg => exact .inr (.inl reach)
    exact .inr (.inr (Bool.eq_false_iff.mpr fun whole => register ⟨reach, whole, space⟩))

/-- A WRITE answers where its words have a defined effect, its port takes them, or it names no register. -/
theorem serveWrite_answers
    (h : pktAddr pkt / 2 ^ 45 ≠ 1 ∨ u.nodeReach n pkt ≠ .ok ∨ addrOk (pktAddr pkt) = false ∨
      (∃ v, pktPayload pkt = [v] ∧ u.writeDefined (pktAddr pkt % 2 ^ 26) v (u.pktWho pkt) = true) ∨
      (∃ r, u.findReg (pktAddr pkt % 2 ^ 26) = some (some r) ∧ u.regReach (pktAddr pkt % 2 ^ 26) = .ok ∧
        TakesWhole r pkt (pktPayload pkt)) ∨
      AllDefined (pktAddr pkt % 2 ^ 26) (pktPayload pkt).length) : ∃ z, u.serveWrite n pkt fab = some z := by
  rcases h with other | unreached | reserved | ⟨v, single, defined⟩ | ⟨r, found, reach, whole⟩ | all
  · exact serveWrite_of_elsewhere (.inl other)
  · exact serveWrite_unreached unreached
  · exact serveWrite_of_elsewhere (.inr (.inr reserved))
  · obtain ⟨st, t, -, written⟩ := regWrites_single defined
    exact serveWrite_of_register (serveRegWrite_of_words ⟨_, single ▸ written⟩)
  · obtain ⟨y, taken⟩ := portWrite_of_takesWhole (s := u) (n := n) whole
    exact serveWrite_of_register (serveRegWrite_of_port found reach taken)
  · exact serveWrite_of_register (serveRegWrite_of_words all.regWrites)

theorem exec_prmWrite {z : Served} (rx : (s.pRx n).contains pkt = true) (posted : pktClass pkt ≠ 1) (op : pktOp pkt = 2)
    (taken : u = s.setPRx n ((s.pRx n).erase pkt)) (done : u.serveWrite n pkt fab = some z) :
    exec (.prmWrite n pkt fab) s = .next (z.finish n pkt 0) := by
  subst taken
  refine (if_pos ⟨rx, posted, op⟩).trans ?_
  exact congrArg (fun o : Option Served => outOf (o.map fun y => y.finish n pkt 0)) done

/-! ### An ATOMIC at its target (R330) -/

theorem amoReg_answers (x : Nat) (h : n < 2 ∨ (s.regRead x false).1 ≠ .ok ∨ (n = 8 ∧ (s.regRead x false).2.1 ≠ a) ∨
      (∃ r, s.findReg x = some (some r) ∧ amoReadOnly r.id = true) ∨
      (s.regRead x false).2.2.writeDefined x (amoNew n (s.regRead x false).2.1 a b) who = true) :
    ∃ z, s.amoReg x n a b who = some z := by
  unfold State.amoReg
  extract_lets rd ro
  split
  · exact ⟨_, rfl⟩
  split
  · exact ⟨_, rfl⟩
  split
  · exact ⟨_, rfl⟩
  case isFalse whole read changes =>
    rcases h with small | unread | ⟨cas, differs⟩ | ⟨r, found, only⟩ | defined
    · exact absurd small whole
    · exact absurd unread read
    · exact absurd (by simp [cas, rd, differs]) changes
    · exact absurd (by simp [ro, found, only]) changes
    · obtain ⟨st, t, done⟩ := regWrite_answers defined
      exact ⟨_, congrArg (Option.map _) done⟩

theorem serveAtomic_of_register {data : Word}
    (served : ∃ z, u.amoReg (pktAddr pkt % 2 ^ 26) (pktAfn pkt) ((pktPayload pkt).getD 0 0) ((pktPayload pkt).getD 1 0)
      (u.pktWho pkt) = some z) : ∃ z, u.serveAtomic n pkt fab data = some z := by
  obtain ⟨z, done⟩ := served
  unfold State.serveAtomic
  extract_lets adr fn a b st
  split
  · exact ⟨_, rfl⟩
  split
  · exact ⟨_, rfl⟩
  generalize adr / 2 ^ 45 = k
  rcases k with - | - | - | k
  · exact ⟨_, rfl⟩
  · exact ⟨z, done⟩
  · cases u.localAt n adr <;> exact ⟨_, rfl⟩
  · exact ⟨_, rfl⟩

theorem serveAtomic_of_elsewhere {data : Word}
    (elsewhere : pktAddr pkt / 2 ^ 45 ≠ 1 ∨ u.nodeReach n pkt ≠ .ok ∨ addrOk (pktAddr pkt) = false) :
    ∃ z, u.serveAtomic n pkt fab data = some z := by
  unfold State.serveAtomic
  extract_lets adr fn a b st
  split
  · exact ⟨_, rfl⟩
  split
  · exact ⟨_, rfl⟩
  case isFalse reached kept =>
    have other : adr / 2 ^ 45 ≠ 1 := by
      rcases elsewhere with other | unreached | reserved
      · exact other
      · exact absurd unreached reached
      · exact absurd (show (!addrOk adr) = true by rw [reserved]; rfl) kept
    generalize adr / 2 ^ 45 = k at other
    rcases k with - | - | - | k
    · exact ⟨_, rfl⟩
    · exact absurd rfl other
    · cases u.localAt n adr <;> exact ⟨_, rfl⟩
    · exact ⟨_, rfl⟩

theorem serveAtomic_local {base rs off : Nat} {data : Word} (reach : u.nodeReach n pkt = .ok)
    (space : pktAddr pkt / 2 ^ 45 = 2) (mem : u.localAt n (pktAddr pkt) = .mem base rs off) {y : Word × State}
    (does : y = u.amoMem rs off (pktAfn pkt) ((pktPayload pkt).getD 0 0) ((pktPayload pkt).getD 1 0)
      (BitVec.ofNat 32 (u.ldN (base + off) 4)) (pktSrc pkt) (pktPort pkt) fun t v => t.stBytes (base + off) (wordBytes v)) :
    u.serveAtomic n pkt fab data = some ⟨.ok, false, 0, [y.1], y.2, false⟩ := by
  subst does
  unfold State.serveAtomic
  extract_lets adr fn a b st
  rw [if_neg (by simp [st, reach]), if_neg (by simp [adr, addrOk_of_local space]), show adr / 2 ^ 45 = 2 from space]
  simp only [show u.localAt n adr = .mem base rs off from mem]
  rfl

/-- An ATOMIC answers where the word it writes has a defined effect, or it writes none. -/
theorem serveAtomic_answers {data : Word} (adr : Nat) (addr : adr = pktAddr pkt % 2 ^ 26)
    (fst : a = (pktPayload pkt).getD 0 0) (snd : b = (pktPayload pkt).getD 1 0)
    (h : pktAddr pkt / 2 ^ 45 ≠ 1 ∨ u.nodeReach n pkt ≠ .ok ∨ addrOk (pktAddr pkt) = false ∨ pktAfn pkt < 2 ∨
      (u.regRead adr false).1 ≠ .ok ∨ (pktAfn pkt = 8 ∧ (u.regRead adr false).2.1 ≠ a) ∨
      (∃ r, u.findReg adr = some (some r) ∧ amoReadOnly r.id = true) ∨
      (u.regRead adr false).2.2.writeDefined adr (amoNew (pktAfn pkt) (u.regRead adr false).2.1 a b) (u.pktWho pkt) =
        true) : ∃ z, u.serveAtomic n pkt fab data = some z := by
  subst addr fst snd
  rcases h with other | unreached | reserved | register
  · exact serveAtomic_of_elsewhere (.inl other)
  · exact serveAtomic_of_elsewhere (.inr (.inl unreached))
  · exact serveAtomic_of_elsewhere (.inr (.inr reserved))
  · exact serveAtomic_of_register (amoReg_answers _ register)

theorem exec_prmAtomic {z : Served} {data : Word} (rx : (s.pRx n).contains pkt = true) (posted : pktClass pkt ≠ 1)
    (op : pktOp pkt = 3) (taken : u = s.setPRx n ((s.pRx n).erase pkt)) (done : u.serveAtomic n pkt fab data = some z) :
    exec (.prmAtomic n pkt fab data) s = .next (z.finish n pkt 1) := by
  subst taken
  refine (if_pos ⟨rx, posted, op⟩).trans ?_
  exact congrArg (fun o : Option Served => outOf (o.map fun y => y.finish n pkt 1)) done

/-! ### A host access (R453) -/

theorem exec_bar0Access_read (f : Nat) (ep : Bool) (aligned : x % 4 = 0) :
    exec (.bar0Access f x 4 false ep vs) s = .next (if (State.regReads false 1 x s).1 = .ok
      then (State.regReads false 1 x s).2.2 else (State.regReads false 1 x s).2.2.barBad f) :=
  congrArg outOf (if_neg (by simp [aligned]))

theorem exec_bar0Access_write {f : Nat} {st : Status} (aligned : x % 4 = 0)
    (done : State.regWrites (.host f) [v] x s = some (st, t)) :
    exec (.bar0Access f x 4 true false [v]) s = .next (if st = .ok then t else t.barBad f) := by
  refine (congrArg outOf (if_neg (by simp [aligned]))).trans ?_
  exact congrArg (fun o : Option (Status × State) => outOf (o.map fun q => if q.1 = .ok then q.2 else q.2.barBad f)) done

/-! ### A register that holds what it is given (R8) -/

/-- Registers whose write has no effect beyond their bits. -/
def plainRegs : List RegId :=
  [.PRM_FENCE_TMO, .GATE_COMMIT_TMO, .MEM_BKT_CFG, .XFL_LOCAL_TAG, .ADM_DECL_W, .EVC_FB_TMO, .THM_CFG, .ETH_MAX_FRAME]

theorem regSet_plain (plain : r.id ∈ plainRegs) (defined : r.id.defined d.toNat = true) :
    s.regSet r d who = some (s.rwWrite r d) := by
  obtain ⟨id, w, i, j, hi⟩ := r
  refine (if_neg (by simp [defined])).trans ?_
  simp only [plainRegs, List.mem_cons, List.not_mem_nil, or_false] at plain
  rcases plain with rfl | rfl | rfl | rfl | rfl | rfl | rfl | rfl <;> rfl

theorem plain_row (plain : r.id ∈ plainRegs) : r.id.row.pair = false ∧ r.id ≠ .PRM_ISO ∧ roReg r.id = false := by
  have all : ∀ id ∈ plainRegs, id.row.pair = false ∧ id ≠ .PRM_ISO ∧ roReg id = false := by decide
  exact all _ plain

theorem toNat_zeroExtend : (v.zeroExtend 64).toNat = v.toNat := by
  rw [BitVec.zeroExtend, BitVec.toNat_setWidth]
  omega

theorem refWrite_plain (plain : r.id ∈ plainRegs) (lo : r.hi = false)
    (defined : r.id.defined (s.shotMask r v who).toNat = true) :
    s.refWrite r v who = some (s.rwWrite r ((s.shotMask r v who).zeroExtend 64)) := by
  obtain ⟨single, iso, -⟩ := plain_row plain
  unfold State.refWrite
  extract_lets word
  rw [if_neg (by simp [lo]), if_neg (by simpa using iso), if_neg (by simp [single])]
  exact regSet_plain plain (by rwa [toNat_zeroExtend])

theorem shotMask_of_none (free : s.shotsAt r = []) : s.shotMask r v who = v := by
  unfold State.shotMask
  split
  · rfl
  · rw [free]
    rfl

theorem shotMask_launch (h q : Nat) : s.shotMask r v (.launch h q) = v := rfl

theorem exec_registerWrite (st : Status) (done : s.regWrite x v who = some (st, t)) :
    exec (.registerWrite x v who) s = .next t :=
  congrArg (fun o : Option (Status × State) => outOf (o.map Prod.snd)) done

theorem regWrite_unreached (absent : s.regReach x ≠ .ok ∨ s.findReg x = none ∨ s.findReg x = some none) :
    ∃ st, s.regWrite x v who = some (st, s) := by
  unfold State.regWrite
  split
  · exact ⟨_, rfl⟩
  case h_2 o found =>
    extract_lets st
    split
    · exact ⟨_, rfl⟩
    case isFalse reached =>
      rcases absent with unreached | none | hole
      · exact absurd unreached reached
      · exact absurd (found.symm.trans none) (Option.some_ne_none o)
      · obtain rfl : o = .none := Option.some.inj (found.symm.trans hole)
        exact ⟨_, rfl⟩

theorem regWrite_found (found : s.findReg x = some (some r)) (reach : s.regReach x = .ok)
    (done : s.refWrite r v who = some t) : s.regWrite x v who = some (.ok, t) := by
  unfold State.regWrite
  rw [found]
  exact (if_neg fun unreached => unreached reach).trans (congrArg (Option.map (Status.ok, ·)) done)

end Sys2Proof.Writes
end

section
/-!
SUPPORT, for O44. A launched write (R48..R52): its entry leaves the queue whether its target took it or not, and the batch
ends where the next entry is not of its time.
-/
namespace Sys2Proof.Writes

open Sys2Proof Sys2Proof.Machine

variable {s t u : State} {h q kind : Nat} {e : LqEntry} {r : RegRef}

/-! ### The queue after a launch -/

theorem raise_lq (c n : Nat) : (s.raise c n).lq = s.lq :=
  Campanile.raise_induction (P := fun u => u.lq = s.lq) (fun _ _ _ _ _ h => h) (fun _ _ _ _ _ _ _ h => h) rfl c n

theorem lqLeave_lqOf (result : Nat) : (s.lqLeave h q e result).lqOf h q = (s.lqOf h q).drop 1 := tget_tput_same _ _ _ _

theorem addFld_lqOf (f : Fld) (m w i j : Nat) : (s.addFld f m w i j).lqOf h q = s.lqOf h q := rfl

theorem setFlag_lqOf (f : Fld) (b : Bool) (w i j : Nat) : (s.setFlag f b w i j).lqOf h q = s.lqOf h q := rfl

theorem setH_lqOf (k : Hid) (v w i j : Nat) : (s.setH k v w i j).lqOf h q = s.lqOf h q := rfl

theorem raise_lqOf (c n : Nat) : (s.raise c n).lqOf h q = s.lqOf h q := congrArg (tget · (h, q) []) (raise_lq c n)

theorem launched_lqOf (late : Bool) : (Campanile.launched s h q e late).lqOf h q = (s.lqOf h q).drop 1 := by
  unfold Campanile.launched
  extract_lets left noted counted
  have left_queue : left.lqOf h q = (s.lqOf h q).drop 1 := (addFld_lqOf _ _ _ _ _).trans (lqLeave_lqOf _)
  have noted_queue : noted.lqOf h q = left.lqOf h q := (setH_lqOf _ _ _ _ _).trans (setH_lqOf _ _ _ _ _)
  have counted_queue : counted.lqOf h q = noted.lqOf h q := by
    unfold counted
    split
    · exact (setFlag_lqOf _ _ _ _ _).trans (addFld_lqOf _ _ _ _ _)
    · rfl
  rw [← left_queue, ← noted_queue, ← counted_queue]
  split
  · obtain ⟨c, n, raised⟩ := Campanile.lqEvent_eq_raise counted h q
    rw [raised, raise_lqOf]
  · rfl

/-- What is done once the target has refused entry e. -/
def rejected (s : State) (h q : Nat) (e : LqEntry) : State :=
  (s.lqLeave h q e 3 |>.addFld F.CAMP_LQ_DISCARD_COUNT 1 h q).lqErr F.CAMP_LQ_STAT_TARGET_ERR h q

theorem lqErr_lqOf (f : Fld) : (s.lqErr f h q).lqOf h q = s.lqOf h q := by
  cases shown : s.flag f h q
  · obtain ⟨c, n, raised⟩ := Campanile.lqErr_of_clear s h q f shown
    rw [raised, raise_lqOf, setFlag_lqOf]
  · rw [Campanile.lqErr_of_set s h q f shown]

theorem rejected_lqOf : (rejected s h q e).lqOf h q = (s.lqOf h q).drop 1 := by
  rw [rejected, lqErr_lqOf, addFld_lqOf, lqLeave_lqOf]

section
variable (head : s.lqHead h q kind = some e) (kept : (s.lqIsLate h q e && bitOf e.w2 4) = false)
include head kept

theorem lqLaunch_of_refused {act : LqEntry → State → Bool × State} (refused : act e s = (false, t)) :
    s.lqLaunch h q kind act = rejected t h q e := by
  simp [State.lqLaunch, head, kept, refused, rejected]

/-- An entry that acts leaves its queue, whatever its target answers. -/
theorem lqLaunch_lqOf (ok : Bool) (same : t.lqOf h q = s.lqOf h q) :
    (s.lqLaunch h q kind fun _ _ => (ok, t)).lqOf h q = (s.lqOf h q).drop 1 := by
  cases ok
  · rw [lqLaunch_of_refused head kept rfl, rejected_lqOf, same]
  · rw [Campanile.lqLaunch_of_taken _ _ _ _ _ _ _ head kept rfl, launched_lqOf, same]

end

/-! ### The write of an entry (R51, R52) -/

/-- The window, the reach and the register that a launched write needs. -/
theorem lqWrite_refused {x : Nat} (at_x : x = (lqWindow h).1 + e.param 0 % 2 ^ 24)
    (off : (lqWindow h).2 ≤ e.param 0 % 2 ^ 24 ∨ s.regReach x ≠ .ok ∨ s.findReg x = none ∨ s.findReg x = some none ∨
      ∃ r, s.findReg x = some (some r) ∧ roReg r.id = true) : s.lqWrite h q e = some (false, s) := by
  subst at_x
  unfold State.lqWrite
  extract_lets o x
  split
  · rfl
  case isFalse inside =>
    rcases off with out | unreached | none | hole | ⟨r, found, only⟩
    · exact absurd (.inl out) inside
    · exact absurd (.inr unreached) inside
    · rw [show s.findReg x = _ from none]
    · rw [show s.findReg x = _ from hole]
    · rw [show s.findReg x = _ from found]
      exact if_pos only

/-- The word of a register that a launched write replaces. -/
def wordOf (s : State) (r : RegRef) : Word := if r.hi then hiWord (s.regVal r) else loWord (s.regVal r)

/-- The masked word that an entry gives a register. -/
def entryWord (old : Word) (e : LqEntry) : Word :=
  (old &&& ~~~BitVec.ofNat 32 (e.param 2)) ||| (BitVec.ofNat 32 (e.param 1) &&& BitVec.ofNat 32 (e.param 2))

/-- The state in which a launched write is remembered for its cycle. -/
def shotState (s : State) (r : RegRef) (e : LqEntry) : State :=
  s.shotAdd r (wordOf s r) (BitVec.ofNat 32 (e.param 1)) (BitVec.ofNat 32 (e.param 2))

theorem lqWrite_taken {x : Nat} (at_x : x = (lqWindow h).1 + e.param 0 % 2 ^ 24)
    (inside : e.param 0 % 2 ^ 24 < (lqWindow h).2) (reach : s.regReach x = .ok) (found : s.findReg x = some (some r))
    (written : roReg r.id = false)
    (done : (shotState s r e).refWrite r (entryWord (wordOf s r) e) (.launch h q) = some t) :
    s.lqWrite h q e = some (true, t) := by
  subst at_x
  unfold State.lqWrite
  extract_lets o x
  have served : ¬ ((lqWindow h).2 ≤ o ∨ s.regReach x ≠ .ok) := by
    rintro (out | unreached)
    · exact Nat.not_le_of_lt inside out
    · exact unreached reach
  rw [if_neg served, show s.findReg x = _ from found]
  refine (if_neg (by simp [written])).trans ?_
  exact congrArg (Option.map (true, ·)) done

theorem lqWrite_answers {x : Nat} (at_x : x = (lqWindow h).1 + e.param 0 % 2 ^ 24)
    (defined : ∀ r, s.findReg x = some (some r) → roReg r.id = false →
      (shotState s r e).refDefined r (entryWord (wordOf s r) e) = true) : ∃ y, s.lqWrite h q e = some y := by
  by_cases off : (lqWindow h).2 ≤ e.param 0 % 2 ^ 24 ∨ s.regReach x ≠ .ok ∨ s.findReg x = none ∨
      s.findReg x = some none ∨ ∃ r, s.findReg x = some (some r) ∧ roReg r.id = true
  · exact ⟨_, lqWrite_refused at_x off⟩
  · simp only [not_or, Nat.not_le, Decidable.not_not, not_exists, not_and, Bool.not_eq_true] at off
    obtain ⟨inside, reach, present, whole, written⟩ := off
    obtain ⟨r, found⟩ : ∃ r, s.findReg x = some (some r) := by
      cases o : s.findReg x with
      | none => exact absurd o present
      | some o' => cases o' with
        | none => exact absurd o whole
        | some r => exact ⟨r, rfl⟩
    obtain ⟨t, done⟩ := refWrite_answers (who := .launch h q) (defined r found (written r found))
    exact ⟨_, lqWrite_taken at_x inside reach found (written r found) done⟩

/-! ### The batch (R52) -/

theorem lqWriteHead_of_write {y : Bool × State} (kept : (s.lqIsLate h q e && bitOf e.w2 4) = false)
    (done : s.lqWrite h q e = some y) : s.lqWriteHead h q e = some (s.lqLaunch h q 7 fun _ _ => y) :=
  (if_neg (by simp [kept])).trans (congrArg (Option.map _) done)

theorem lqWriteHead_answers {x : Nat} (at_x : x = (lqWindow h).1 + e.param 0 % 2 ^ 24)
    (defined : ∀ r, s.findReg x = some (some r) → roReg r.id = false →
      (shotState s r e).refDefined r (entryWord (wordOf s r) e) = true) : ∃ t, s.lqWriteHead h q e = some t := by
  obtain ⟨y, done⟩ := lqWrite_answers (h := h) (q := q) at_x defined
  unfold State.lqWriteHead
  split
  · exact ⟨_, rfl⟩
  · exact ⟨_, congrArg (Option.map _) done⟩

/-- A batch of one write, after which the queue holds no write of the same time that may act. -/
theorem exec_launchRegWrite (head : s.lqHead h q 7 = some e) (done : s.lqWriteHead h q e = some t)
    (last : ∀ e' l, t.lqOf h q = e' :: l → e'.kind ≠ 7 ∨ e'.time ≠ e.time ∨ t.flag F.CAMP_LQ_CTL_EN h q = false) :
    exec (.launchRegWrite h q) s = .next t := by
  have batch : State.lqBatch h q e.time (15 + 1) s = some t := by
    unfold State.lqBatch
    simp only [head, ne_eq, not_true_eq_false, if_false, done]
    split
    case h_1 e' l queue =>
      refine if_neg ?_
      rintro ⟨write, time, on⟩
      rcases last e' l queue with other | later | off
      · exact other write
      · exact later time
      · exact absurd on (by simp [off])
    case h_2 => rfl
  change execLaunchRegWrite h q s = _
  unfold execLaunchRegWrite
  rw [head]
  exact congrArg outOf batch

/-- The same for a write that meets its target, where the queue behind the entry is known. -/
theorem exec_launchRegWrite_single {l : List LqEntry} {ok : Bool} (head : s.lqHead h q 7 = some e)
    (queue : s.lqOf h q = e :: l) (kept : (s.lqIsLate h q e && bitOf e.w2 4) = false)
    (last : ∀ e' l', l = e' :: l' → e'.kind ≠ 7 ∨ e'.time ≠ e.time) (done : s.lqWrite h q e = some (ok, t))
    (same : t.lqOf h q = s.lqOf h q) :
    exec (.launchRegWrite h q) s = .next (s.lqLaunch h q 7 fun _ _ => (ok, t)) := by
  refine exec_launchRegWrite head (lqWriteHead_of_write kept done) fun e' l' rest => ?_
  rw [lqLaunch_lqOf head kept ok same, queue] at rest
  exact (last e' l' rest).imp_right .inl

/-! ### Time (R35, R38) -/

theorem exec_epochSampled_noted (selected : s.fld F.CAMP_STAT_SRC < 2) (mode : s.fld F.CAMP_CTL_EPOCH_MODE = 0) :
    exec .epochSampled s = .next (s.setFlag F.CAMP_STAT_EPOCH_SEEN true |>.setReg .CAMP_EPOCH_TIME s.time) :=
  (if_neg (by omega)).trans ((if_neg (by omega)).trans (if_neg (by omega)))

theorem exec_epochSampled_steps (selected : s.fld F.CAMP_STAT_SRC < 2) (mode : s.fld F.CAMP_CTL_EPOCH_MODE = 1) :
    exec .epochSampled s = .next ((((s.setFlag F.CAMP_STAT_EPOCH_SEEN true |>.setReg .CAMP_EPOCH_TIME s.time).pass
      65536).stepTo (BitVec.ofNat 64 (s.regN .CAMP_EPOCH_VAL % 2 ^ 48 * 65536))).setFld F.CAMP_CTL_EPOCH_MODE 2) :=
  (if_neg (by omega)).trans (if_pos mode)

theorem exec_stepApply (en : s.flag F.CAMP_CTL_STEP_EN = true) (some_left : s.reg .CAMP_SLEW_REM ≠ 0) :
    exec .stepApply s = .next ((s.stepTo (s.time + s.reg .CAMP_SLEW_REM)).setReg .CAMP_SLEW_REM 0
      |>.setFlag F.CAMP_STAT_SLEWING false) :=
  if_pos (by simpa [en] using some_left)

theorem exec_lqForward (waiting : s.lqOf h q ≠ []) (en : s.flag F.CAMP_LQ_CTL_EN h q = true) :
    exec (.lqForward h q) s = .next (s.setH .lqForwarded 1 h q) := by
  change execLqForward h q s = _
  unfold execLqForward
  cases queue : s.lqOf h q with
  | nil => exact absurd queue waiting
  | cons e l => exact if_pos en

end Sys2Proof.Writes
end

section
/-!
SUPPORT. Statement O44 of 96_what_every_command_does.md: the register, time and launch-queue commands complete.
-/
namespace Sys2Proof.Writes

open Sys2Proof Sys2Proof.Machine

/-- Settles O44 (00_scope.md, 01_panel.md, 02_campanile.md, 12_promenade.md, R453), by what a write whose effect is defined
answers and what each command does under its condition. -/
theorem registerAndTimeCommandsComplete : Obligations.RegisterAndTimeCommandsComplete := by
  unfold Obligations.RegisterAndTimeCommandsComplete
  refine ⟨fun _ _ _ _ _ _ h => if_pos h, fun _ _ _ _ _ h => if_pos h, ?write, ?writeLocal, ?atomic, ?atomicLocal,
    ⟨fun f _ ep _ _ => exec_bar0Access_read f ep, ?hostWrite⟩, ?launch, ?launchAny, fun _ _ _ _ => rfl,
    fun _ _ _ _ _ _ _ => rfl, fun _ _ => Panel.wrOut_of_defined _ _ _,
    fun _ selected => ⟨exec_epochSampled_noted selected, exec_epochSampled_steps selected⟩, fun _ => rfl,
    fun _ => exec_stepApply, fun _ off => if_neg (by simp [off]), fun _ _ _ => rfl, fun _ _ => rfl, fun _ _ _ _ => rfl,
    fun _ _ _ => exec_lqForward, fun _ _ _ => rfl, fun _ _ _ => rfl, fun _ _ _ => rfl, fun _ _ _ _ => rfl,
    fun _ _ _ _ => rfl, fun _ _ => rfl, fun _ _ _ => Panel.wrOut_of_defined _ _ _, fun _ => rfl, fun _ _ => rfl,
    ?defined, ?unreached, ?plain⟩
  case write =>
    intro n pkt fab u s rx posted op taken h
    obtain ⟨z, done⟩ := serveWrite_answers (fab := fab) h
    exact ⟨z, done, exec_prmWrite rx posted op taken done⟩
  case writeLocal =>
    intro n base rs off pkt fab u s rx posted op taken reach space mem
    exact exec_prmWrite rx posted op taken (serveWrite_local reach space mem)
  case atomic =>
    intro n x pkt fab data a b u s rx posted op taken addr fst snd h
    obtain ⟨z, done⟩ := serveAtomic_answers (fab := fab) (data := data) x addr fst snd h
    exact ⟨z, done, exec_prmAtomic rx posted op taken done⟩
  case atomicLocal =>
    rintro n base rs off pkt fab data a b y u s rx posted op taken rfl rfl reach space mem does
    exact exec_prmAtomic rx posted op taken (serveAtomic_local reach space mem does)
  case hostWrite =>
    intro f x v s aligned defined
    obtain ⟨st, t, done, written⟩ := regWrites_single defined
    exact ⟨st, t, done, exec_bar0Access_write aligned written⟩
  case launch =>
    intro h q x e l s head queue at_x kept last
    refine ⟨fun off => exec_launchRegWrite_single head queue kept last (lqWrite_refused at_x off) rfl, ?_⟩
    rintro r d m inside reach found lo plain rfl rfl defined
    have word : wordOf s r = loWord (s.regVal r) := if_neg (by simp [lo])
    have done := refWrite_plain (s := shotState s r e) (who := .launch h q) (v := entryWord (wordOf s r) e) plain lo
      (by rw [shotMask_launch, word]; exact defined)
    have written := lqWrite_taken at_x inside reach found (plain_row plain).2.2 done
    simp only [shotMask_launch, shotState, word] at written
    exact exec_launchRegWrite_single head queue kept last written rfl
  case launchAny =>
    intro h q x e s head at_x defined
    obtain ⟨t, done⟩ := lqWriteHead_answers (q := q) at_x fun r found written => defined r _ _ _ found written rfl rfl rfl
    exact ⟨t, done, exec_launchRegWrite head done⟩
  case defined =>
    intro x v who s defined
    obtain ⟨st, t, done⟩ := regWrite_answers defined
    have answers := exec_registerWrite st done
    exact ⟨st, t, done, answers, answers, answers⟩
  case unreached =>
    intro x v who s absent
    obtain ⟨st, done⟩ := regWrite_unreached (v := v) (who := who) absent
    exact exec_registerWrite st done
  case plain =>
    intro x r v who s found reach lo free defined plain
    have mask := shotMask_of_none (v := v) (who := who) free
    have done := refWrite_plain (v := v) (who := who) plain lo (by rwa [mask])
    rw [mask] at done
    exact exec_registerWrite _ (regWrite_found found reach done)

end Sys2Proof.Writes
end

section
/-!
O2 and O56 settled.
-/
namespace Sys2Proof.Panel

open Sys2Proof Sys2Proof.Machine

/-- The identity registers are single words, and not the isolation word of a node. -/
theorem identity_row : ∀ id ∈ [RegId.SITE_ID, .TWR_ID], id.row.pair = false ∧ id ≠ .PRM_ISO := by decide

/-- R8. No bit of an identity register takes a value. -/
theorem regSet_identity {r : RegRef} (identity : r.id ∈ [RegId.SITE_ID, .TWR_ID]) {d : DWord}
    (defined : r.id.defined d.toNat = true) (s : State) (who : Requester) : s.regSet r d who = some s := by
  obtain ⟨id, w, i, j, hi⟩ := r
  refine (if_neg (by simp [defined])).trans ?_
  simp only [List.mem_cons, List.not_mem_nil, or_false] at identity
  rcases identity with rfl | rfl <;> rfl

theorem refWrite_identity {r : RegRef} (identity : r.id ∈ [RegId.SITE_ID, .TWR_ID]) (lo : r.hi = false) {v : Word}
    {who : Requester} {s : State} (defined : r.id.defined (s.shotMask r v who).toNat = true) :
    s.refWrite r v who = some s := by
  obtain ⟨single, iso⟩ := identity_row _ identity
  unfold State.refWrite
  extract_lets word
  rw [if_neg (by simp [lo]), if_neg (by simpa using iso), if_neg (by simp [single])]
  exact regSet_identity identity (by rwa [Writes.toNat_zeroExtend]) s who

/-- Settles O2 (R8, R520), by the write of a register none of whose bits takes a value. -/
theorem readOnlyWriteIsIgnored : Obligations.ReadOnlyWriteIsIgnored := by
  unfold Obligations.ReadOnlyWriteIsIgnored
  intro x r v who s found reach lo identity defined
  exact Writes.exec_registerWrite _ (Writes.regWrite_found found reach (refWrite_identity identity lo defined))

theorem step_cons {c : Instr} {rest : List Instr} {s : State} (front : s.pending = c :: rest) :
    step s = exec c { s with pending := rest } := by
  rw [step, front]

theorem step_nil {s : State} (idle : s.pending = []) : step s = .next s.idle := by
  rw [step, idle]

/-- Settles O56 (R2, R37), by the two forms of the queue, and the passing of time while the accumulator is empty. -/
theorem stepRunsTheFrontCommand : Obligations.StepRunsTheFrontCommand := by
  unfold Obligations.StepRunsTheFrontCommand
  refine ⟨fun c rest s front => step_cons front, fun s idle => ⟨step_nil idle, fun still => ?_⟩⟩
  rw [Campanile.pass_of_empty s 1 still]
  rfl

end Sys2Proof.Panel
end

section
/-!
SUPPORT, for O57 and O58. Registers and memory after POWER-ON and COLD resets (R10, R11, R17, R137, R418).
-/
namespace Sys2Proof.Resets

open Sys2Proof Sys2Proof.Machine

variable {s t : State}

/-! ### The registers at reset -/

/-- Where a name bears no fuse, no fuse bit is added to its registers. -/
theorem fuse_reset_of_apart {k : RegKey} (folly : k.id ≠ .CFG_FOLLY_FUSE) (site : k.id ≠ .SITE_ID) :
    State.reset.fuse k = 0 := by
  have apart (id : RegId) (w : Nat) (ne : k.id ≠ id) : (⟨id, w, 0, 0⟩ : RegKey) ≠ k :=
    fun e => ne (congrArg RegKey.id e).symm
  simp [State.fuse, State.reset, State.resetFuses, tget, tfind, apart, folly, site]

/-- R11. A register whose POWER-ON value is its Reset column, with fuse bits that it does not have, holds that column. -/
theorem regN_reset {id : RegId} {w i j n : Nat} (apart : id ≠ .CFG_FOLLY_FUSE ∧ id ≠ .SITE_ID)
    (column : State.reset.initial ⟨id, w, i, j⟩ = id.row.reset ||| State.reset.fuse ⟨id, w, i, j⟩)
    (value : id.row.reset.toNat = n) : State.reset.regN id w i j = n := by
  have reg : State.reset.reg id w i j = id.row.reset := by
    refine column.trans ?_
    rw [fuse_reset_of_apart apart.1 apart.2]
    exact BitVec.or_zero
  rw [State.regN, reg, value]

theorem fld_reset {f : Fld} {w i j n : Nat} (apart : f.r ≠ .CFG_FOLLY_FUSE ∧ f.r ≠ .SITE_ID)
    (column : State.reset.initial ⟨f.r, w, i, j⟩ = f.r.row.reset ||| State.reset.fuse ⟨f.r, w, i, j⟩)
    (value : bitsOf f.r.row.reset.toNat f.lo f.w = n) : State.reset.fld f w i j = n := by
  rw [State.fld, regN_reset apart column rfl, value]

/-! ### Memory -/

/-- A byte that no entry lists reads 0. -/
theorem memGet_of_not_listed {m : List Host.Cell} {a : Nat} (absent : ∀ c ∈ m, c.1 ≠ a) : memGet m a = 0 := by
  induction m with
  | nil => rfl
  | cons c m ih =>
    have head : ¬ a = c.1 := fun e => absent c List.mem_cons_self e.symm
    exact (if_neg head).trans (ih fun c' listed => absent c' (List.mem_cons_of_mem _ listed))

/-- What a reset leaves undefined lies above the domes. -/
theorem undefMemories_above (seed : Nat) : ∀ r ∈ undefMemories seed, 2 ^ 41 ≤ r.base := by
  unfold undefMemories
  simp only [List.forall_mem_cons]
  exact ⟨Nat.le_refl _, by omega, by omega, by omega, fun r none => absurd none List.not_mem_nil⟩

theorem undefAt_undefMemories (seed : Nat) {a : Nat} (below : a < 2 ^ 41) : undefAt (undefMemories seed) a = none := by
  refine List.find?_eq_none.mpr fun r listed covers => ?_
  have above := undefMemories_above seed r listed
  simp only [Bool.and_eq_true, decide_eq_true_eq] at covers
  omega

/-- R137. A byte of a dome reads 0 where host memory alone is listed and only the memories that a reset leaves undefined
are. -/
theorem ldByte_dome_of_blank {seed p a : Nat} (undef : s.undef = undefMemories seed)
    (host : ∀ c ∈ s.mem, 2 ^ 64 ≤ c.1) (pav : p < 32) (inside : a < 2 ^ 35) : s.ldByte (domeBase p + a) = 0 := by
  have below : domeBase p + a < 2 ^ 40 := by
    unfold domeBase
    omega
  unfold State.ldByte
  rw [undef, undefAt_undefMemories seed (by omega)]
  exact memGet_of_not_listed fun c listed e => absurd (host c listed) (by omega)

/-! ### The registers after a reset (R10, R11) -/

/-- R11. What a COLD reset leaves of a listed register: the bits that it keeps, and the POWER-ON value in the others. -/
theorem tfind_regsAfter_cold (s : State) (k : RegKey) : tfind (s.regsAfter true fun _ => true) k =
    (tfind s.regs k).bind fun v => if k.id.row.coldKeep = 0 then none
      else some ((v &&& k.id.row.coldKeep) ||| (s.initial k &&& ~~~k.id.row.coldKeep)) := by
  unfold State.regsAfter
  generalize s.regs = regs
  induction regs with
  | nil => rfl
  | cons e regs ih =>
    obtain ⟨x, v⟩ := e
    simp only [RegId.kept, Bool.not_true, Bool.false_eq_true, if_false, if_true, List.filterMap_cons] at ih ⊢
    by_cases same : x = k
    · subst same
      by_cases fresh : x.id.row.coldKeep = 0
      · simp only [fresh, if_true] at ih ⊢
        rw [ih]
        cases tfind regs x <;> simp [tfind]
      · simp only [fresh, if_false, tfind, if_true, Option.bind_some]
    · have skip : tfind ((x, v) :: regs) k = tfind regs k := if_neg same
      rw [skip, ← ih]
      by_cases fresh : x.id.row.coldKeep = 0
      · simp only [fresh, if_true]
      · simp only [fresh, if_false]
        exact if_neg same

/-- The POWER-ON values depend on the fuses alone. -/
theorem initial_of_fuses (fuses : t.fuses = s.fuses) (k : RegKey) : t.initial k = s.initial k := by
  unfold State.initial State.fuse
  rw [fuses]

theorem and_or_and_not (v m : DWord) : (v &&& m) ||| (v &&& ~~~m) = v := by
  rw [← BitVec.and_or_distrib_left, BitVec.or_not_self, BitVec.and_allOnes]

/-- R10, R11. A register after a COLD reset. -/
theorem reg_of_regsAfter_cold (regs : t.regs = s.regsAfter true fun _ => true) (fuses : t.fuses = s.fuses) (id : RegId)
    (w i j : Nat) : t.reg id w i j =
      (s.reg id w i j &&& id.row.coldKeep) ||| (s.initial ⟨id, w, i, j⟩ &&& ~~~id.row.coldKeep) := by
  unfold State.reg
  rw [regs, tfind_regsAfter_cold, initial_of_fuses fuses]
  cases tfind s.regs ⟨id, w, i, j⟩ with
  | none => exact (and_or_and_not _ _).symm
  | some v =>
    by_cases fresh : id.row.coldKeep = 0
    · simp only [Option.bind_some, fresh, if_true]
      rw [show ~~~(0 : DWord) = BitVec.allOnes 64 from rfl, BitVec.and_allOnes, show (0 : DWord) = 0#64 from rfl,
        BitVec.and_zero, BitVec.zero_or]
    · simp only [Option.bind_some, fresh, if_false]

/-! ### POWER-ON and COLD (R17, R137, R418, R506) -/

theorem host_of_blankPart : ∀ c ∈ s.blankPart.mem, 2 ^ 64 ≤ c.1 := by
  intro c listed
  simpa using (List.mem_filter.mp listed).2

/-- What a COLD reset leaves before it notes the rate of the block and its own cause. -/
def coldPart (s : State) : State :=
  { s.blankPart with
    regs := s.regsAfter true fun _ => true
    hid := hidAfter s.hid true fun _ => true }

/-- R10. That state with the rate of the block, and the error of a load that the reset ends. -/
def coldStart (s : State) : State :=
  ((coldPart s).setH .campFreq ((coldPart s).fld F.CAMP_REF_CFG_FREQ_KHZ)).setFld F.CFG_LOAD_STAT_STATE 0 |>.setFld
    F.CFG_LOAD_STAT_ERR (if s.loading then 0x0e else 0)

theorem fuseBad_of_fuses (fuses : t.fuses = s.fuses) : t.fuseBad = s.fuseBad := by
  unfold State.fuseBad State.siteFolly State.follyFuse State.fuse
  rw [fuses]

theorem coldReset_of_good_map (src : Nat) (released : s.hb .porHeld = false) (good : s.fuseBad = false) :
    s.coldReset src = (coldStart s).resetCause 1 src := by
  have kept : ((coldStart s).resetCause 1 src).fuseBad = false := (fuseBad_of_fuses rfl).trans good
  unfold State.coldReset
  rw [if_neg (by simp [released])]
  exact if_neg (by rw [Bool.not_eq_true]; exact kept)

theorem reg_resetCause (type src : Nat) {id : RegId} (other : id ≠ .LDG_RST_CAUSE) (w i j : Nat) :
    (s.resetCause type src).reg id w i j = s.reg id w i j := by
  unfold State.resetCause State.satFld
  rw [Campanile.reg_setFld_ne _ _ other.symm, Campanile.reg_setFld_ne _ _ other.symm,
    Campanile.reg_setFld_ne _ _ other.symm]

theorem reg_coldStart {id : RegId} (other : id ≠ .CFG_LOAD_STAT) (w i j : Nat) :
    (coldStart s).reg id w i j =
      (s.reg id w i j &&& id.row.coldKeep) ||| (s.initial ⟨id, w, i, j⟩ &&& ~~~id.row.coldKeep) := by
  unfold coldStart
  rw [Campanile.reg_setFld_ne _ _ other.symm, Campanile.reg_setFld_ne _ _ other.symm, State.reg_setH]
  exact reg_of_regsAfter_cold (t := coldPart s) rfl rfl id w i j

/-- The bits kept under a mask are the old ones. -/
theorem and_of_masked (v x m : DWord) : ((v &&& m) ||| (x &&& ~~~m)) &&& m = v &&& m := by
  ext b hb
  simp only [BitVec.getElem_and, BitVec.getElem_or, BitVec.getElem_not]
  cases m[b] <;> simp

/-- A field that a COLD reset keeps as a whole. -/
theorem fld_coldStart {f : Fld} (other : f.r ≠ .CFG_LOAD_STAT)
    (kept : f.r.row.coldKeep.extractLsb' f.lo f.w = BitVec.allOnes f.w) (w i j : Nat) :
    (coldStart s).fld f w i j = s.fld f w i j := by
  have field (v : DWord) : bitsOf v.toNat f.lo f.w = (v.extractLsb' f.lo f.w).toNat := by
    rw [BitVec.extractLsb'_toNat, Nat.shiftRight_eq_div_pow, bitsOf]
  have masked (v : DWord) : v.extractLsb' f.lo f.w = (v &&& f.r.row.coldKeep).extractLsb' f.lo f.w := by
    rw [BitVec.extractLsb'_and, kept, BitVec.and_allOnes]
  unfold State.fld State.regN
  rw [field, field, reg_coldStart other, masked, and_of_masked, ← masked]

/-- R418. The record of a reset. -/
theorem fld_resetCause (type src : Nat) : (s.resetCause type src).fld F.LDG_RST_CAUSE_TYPE = type % 8 ∧
    (s.resetCause type src).fld F.LDG_RST_CAUSE_SRC = src % 16 ∧
    (s.resetCause type src).fld F.LDG_RST_CAUSE_COUNT = satAdd 65535 (s.fld F.LDG_RST_CAUSE_COUNT) 1 := by
  unfold State.resetCause State.satFld
  have type_src : Frame.Apart F.LDG_RST_CAUSE_TYPE F.LDG_RST_CAUSE_SRC := by decide
  have type_count : Frame.Apart F.LDG_RST_CAUSE_TYPE F.LDG_RST_CAUSE_COUNT := by decide
  have src_count : Frame.Apart F.LDG_RST_CAUSE_SRC F.LDG_RST_CAUSE_COUNT := by decide
  have count_src : Frame.Apart F.LDG_RST_CAUSE_COUNT F.LDG_RST_CAUSE_SRC := by decide
  have count_type : Frame.Apart F.LDG_RST_CAUSE_COUNT F.LDG_RST_CAUSE_TYPE := by decide
  refine ⟨?_, ?_, ?_⟩
  · rw [Frame.fld_setFld_of_apart _ _ _ _ _ _ _ _ type_count, Frame.fld_setFld_of_apart _ _ _ _ _ _ _ _ type_src]
    exact Panel.fld_setFld_same s F.LDG_RST_CAUSE_TYPE _ _ _ _ (by decide)
  · rw [Frame.fld_setFld_of_apart _ _ _ _ _ _ _ _ src_count]
    exact Panel.fld_setFld_same _ F.LDG_RST_CAUSE_SRC _ _ _ _ (by decide)
  · rw [Frame.fld_setFld_of_apart _ _ _ _ _ _ _ _ count_src, Frame.fld_setFld_of_apart _ _ _ _ _ _ _ _ count_type]
    refine (Panel.fld_setFld_same _ F.LDG_RST_CAUSE_COUNT _ _ _ _ (by decide)).trans ?_
    exact Nat.mod_eq_of_lt (Nat.lt_of_le_of_lt (Nat.min_le_left _ _) (by decide))

end Sys2Proof.Resets
end

section
/-!
O57 and O58 settled.
-/
namespace Sys2Proof.Resets

open Sys2Proof Sys2Proof.Machine

/-- Settles O57 (R11, R137), register by register, from the Reset columns. -/
theorem resetStateHoldsTheResetColumns : Obligations.ResetStateHoldsTheResetColumns := by
  unfold Obligations.ResetStateHoldsTheResetColumns
  refine ⟨rfl, rfl, rfl, fun p a pav inside => ?domes, fun p => ?pavilion, fun p w => ?mask, fun h q => ⟨?queue, rfl⟩,
    fun x => ?watchdog, fun p i => ?stream⟩
  case domes =>
    exact ldByte_dome_of_blank (seed := 0) rfl (fun c listed => absurd listed List.not_mem_nil) pav inside
  case pavilion =>
    exact ⟨fld_reset (by decide) rfl rfl, fld_reset (by decide) rfl rfl, fld_reset (by decide) rfl rfl,
      fld_reset (by decide) rfl rfl, fld_reset (by decide) rfl rfl, regN_reset (by decide) rfl rfl,
      regN_reset (by decide) rfl rfl, regN_reset (by decide) rfl rfl, regN_reset (by decide) rfl rfl⟩
  case mask => exact regN_reset (by decide) rfl rfl
  case queue => exact congrArg (· == 1) (fld_reset (n := 1) (by decide) rfl rfl)
  case watchdog => exact regN_reset (by decide) rfl rfl
  case stream => exact fld_reset (by decide) rfl rfl

/-- Settles O58 (R10, R11, R17, R418, R506), by the state that each reset leaves. That a RST_N reset acts and ends in one
step and leaves zeros in the domes, and that it changes nothing while POWER-ON is held, is the model's reading of R137 and
R417 (log entry 113). -/
theorem coldResetLeavesTheResetColumn : Obligations.ColdResetLeavesTheResetColumn := by
  unfold Obligations.ColdResetLeavesTheResetColumn
  intro s
  have zeros {t : State} (undef : t.undef = undefMemories s.free) (mem : t.mem = s.blankPart.mem) (p a : Nat)
      (pav : p < 32) (inside : a < 2 ^ 35) : t.ldByte (domeBase p + a) = 0 :=
    ldByte_dome_of_blank undef (mem ▸ host_of_blankPart) pav inside
  refine ⟨⟨s.powerOn, rfl, fun _ _ _ _ => initial_of_fuses rfl _, rfl, rfl, zeros rfl rfl⟩,
    fun held => congrArg _ (if_pos held), fun released good => ?_⟩
  obtain ⟨type, src, count⟩ := fld_resetCause (s := coldStart s) 1 1
  refine ⟨(coldStart s).resetCause 1 1, congrArg _ (coldReset_of_good_map 1 released good), fun id w i j cause load => ?_,
    type, src, ?_, rfl, rfl, zeros rfl rfl⟩
  · rw [reg_resetCause _ _ cause, reg_coldStart load]
  · rw [count, fld_coldStart (by decide) (by decide)]

end Sys2Proof.Resets
end

section
/-!
SUPPORT, for O60. The form of memory and the queue as one predicate, and its rules for the shared forms of a function
(log entry 3, 95_what_each_step_holds.md).
-/
namespace Sys2Proof.Form

open Sys2Proof Sys2Proof.Machine

/-- Memory is in its canonical form, and the commands `cs` wait. -/
structure Held (cs : List Instr) (s : State) : Prop where
  canonical : s.Canonical
  pending : s.pending = cs

/-- A command that answers a next state answers one of that form, with the commands `cs` waiting. -/
def Ends (cs : List Instr) (o : Host.Outcome State Fault Refusal) : Prop := ∀ t, o = .next t → Held cs t

/-- What an operation that may not answer gives, it gives with that form. -/
def Gives {α : Type} (cs : List Instr) (state : α → State) (o : Option α) : Prop := ∀ x ∈ o, Held cs (state x)

/-- A lodge's bus access that answers, or is an access fault, leaves a state of that form. -/
def Answers (cs : List Instr) : LodgeBus → Prop
  | .ok _ t => Held cs t
  | .fault t => Held cs t
  | .undefined => True

/-- A lodge's instruction that has a defined effect leaves a state of that form. -/
def Performs (cs : List Instr) : LodgeRes → Prop
  | .done t => Held cs t
  | .trap _ _ t => Held cs t
  | .halt t => Held cs t
  | .undefined => True

variable {cs : List Instr} {s t u : State}

namespace Held

/-- What has the memory and the queue of a state has its form. -/
theorem frame (held : Held cs s) (mem : t.mem = s.mem) (pending : t.pending = s.pending) : Held cs t :=
  ⟨(congrArg (fun m => Memory.wf m = true) mem).mpr held.canonical, pending.trans held.pending⟩

/-- A choice of data that holds a state. -/
theorem ite_of {α : Type} (state : α → State) {c : Prop} {_ : Decidable c} {x y : α} (yes : Held cs (state x))
    (no : Held cs (state y)) : Held cs (state (if c then x else y)) := by
  split
  · exact yes
  · exact no

theorem ite {c : Prop} {_ : Decidable c} (yes : Held cs t) (no : Held cs u) : Held cs (if c then t else u) :=
  ite_of id yes no

theorem ite₂ {α : Type} {c : Prop} {_ : Decidable c} {x y : α × State} (yes : Held cs x.2) (no : Held cs y.2) :
    Held cs (if c then x else y).2 := ite_of Prod.snd yes no

theorem ite₃ {α β : Type} {c : Prop} {_ : Decidable c} {x y : α × β × State} (yes : Held cs x.2.2)
    (no : Held cs y.2.2) : Held cs (if c then x else y).2.2 := ite_of (fun x : α × β × State => x.2.2) yes no

/-- A fold over data that holds a state. -/
theorem foldS_of {α β : Type} (state : β → State) {f : α → β → β} {l : List α} {b : β} (held : Held cs (state b))
    (step : ∀ a b, Held cs (state b) → Held cs (state (f a b))) : Held cs (state (Machine.foldS f l b)) := by
  induction l generalizing b with
  | nil => exact held
  | cons a l ih => exact ih (step a b held)

theorem foldl_of {α β : Type} (state : β → State) {f : β → α → β} {l : List α} {b : β} (held : Held cs (state b))
    (step : ∀ b a, Held cs (state b) → Held cs (state (f b a))) : Held cs (state (l.foldl f b)) := by
  induction l generalizing b with
  | nil => exact held
  | cons a l ih => exact ih (step b a held)

theorem pair {α : Type} {a : α} (held : Held cs t) : Held cs (a, t).2 := held

theorem triple {α β : Type} {a : α} {b : β} (held : Held cs t) : Held cs (a, b, t).2.2 := held

/-- The state of a pair that is known part by part. -/
theorem snd {α : Type} {x : α × State} {a : α} (held : Held cs x.2) (e : x = (a, t)) : Held cs t := by
  subst e
  exact held

theorem snd₄ {α β γ : Type} {x : α × β × γ × State} {a : α} {b : β} {c : γ} (held : Held cs x.2.2.2)
    (e : x = (a, b, c, t)) : Held cs t := by
  subst e
  exact held

theorem foldS {α : Type} {f : α → State → State} {l : List α} (held : Held cs s)
    (step : ∀ a t, Held cs t → Held cs (f a t)) : Held cs (Machine.foldS f l s) := foldS_of id held step

theorem withTime (held : Held cs s) {now} : Held cs { s with time := now } := held.frame rfl rfl

theorem setReg (held : Held cs s) {id v w i j} : Held cs (s.setReg id v w i j) := held.frame rfl rfl
theorem setH (held : Held cs s) {k v w i j} : Held cs (s.setH k v w i j) := held.frame rfl rfl

theorem stBytes (held : Held cs s) {a vs} : Held cs (s.stBytes a vs) :=
  ⟨s.stBytes_wf a vs held.canonical, held.pending⟩

theorem clearBytes (held : Held cs s) {a n} : Held cs (s.clearBytes a n) :=
  ⟨s.clearBytes_wf a n held.canonical, held.pending⟩

end Held

namespace Gives

variable {α β : Type} {state : α → State} {o o' : Option α}

theorem none : Gives cs state none := nofun

theorem some {x : α} (held : Held cs (state x)) : Gives cs state (some x) := by
  rintro _ ⟨⟩
  exact held

theorem ite {c : Prop} {_ : Decidable c} (yes : Gives cs state o) (no : Gives cs state o') :
    Gives cs state (if c then o else o') := by
  split
  · exact yes
  · exact no

theorem map {f : β → α} {p : Option β} (gives : Gives cs (fun y => state (f y)) p) : Gives cs state (p.map f) := by
  intro x given
  obtain ⟨y, e, rfl⟩ := Option.mem_map.mp given
  exact gives y e

end Gives

namespace Ends

variable {o o' : Host.Outcome State Fault Refusal}

theorem next (held : Held cs s) : Ends cs (.next s) := by
  rintro _ ⟨⟩
  exact held

theorem fault {f : Fault} : Ends cs (.fault f) := nofun

theorem ite {c : Prop} {_ : Decidable c} (yes : Ends cs o) (no : Ends cs o') : Ends cs (if c then o else o') := by
  split
  · exact yes
  · exact no

theorem wrOut (held : Held cs s) {id v} : Ends cs (Machine.wrOut id v s) := .ite (.next held) .fault

theorem outOf {r : Option State} (gives : Gives cs id r) : Ends cs (Machine.outOf r) := by
  cases r with
  | none => exact .fault
  | some t => exact .next (gives t rfl)

end Ends

theorem Answers.ite {b b' : LodgeBus} {c : Prop} {_ : Decidable c} (yes : Answers cs b) (no : Answers cs b') :
    Answers cs (if c then b else b') := by
  split
  · exact yes
  · exact no

theorem Performs.ite {r r' : LodgeRes} {c : Prop} {_ : Decidable c} (yes : Performs cs r) (no : Performs cs r') :
    Performs cs (if c then r else r') := by
  split
  · exact yes
  · exact no

end Sys2Proof.Form
end

section
/-!
SUPPORT, for O60. The functions of Machine/Ops keep the form of memory, and the queue.
-/
namespace Sys2Proof.Form

open Sys2Proof Sys2Proof.Machine

variable {cs : List Instr} {s t u : State}

namespace Held

theorem setRegN (held : Held cs s) {id v w i j} : Held cs (s.setRegN id v w i j) := held.setReg

theorem setFld (held : Held cs s) {f v w i j} : Held cs (s.setFld f v w i j) := held.setRegN

theorem setFlag (held : Held cs s) {f b w i j} : Held cs (s.setFlag f b w i j) := held.setFld

theorem addFld (held : Held cs s) {f n w i j} : Held cs (s.addFld f n w i j) := held.setFld

theorem satFld (held : Held cs s) {f n w i j} : Held cs (s.satFld f n w i j) := held.setFld

theorem setBit (held : Held cs s) {id b v w i j} : Held cs (s.setBit id b v w i j) := held.setRegN

theorem takeFree (held : Held cs s) : Held cs s.takeFree.2 := held.frame rfl rfl

theorem stN (held : Held cs s) {a n v} : Held cs (s.stN a n v) := held.stBytes

theorem makeUndef (held : Held cs s) {a n} : Held cs (s.makeUndef a n) := by
  unfold State.makeUndef
  extract_lets s₁
  have held₁ : Held cs s₁ := held.clearBytes
  exact held₁.frame rfl rfl

end Held

end Sys2Proof.Form
end

section
/-!
SUPPORT, for O60. The functions of Machine/Place keep the form of memory, and the queue.
-/
namespace Sys2Proof.Form

open Sys2Proof Sys2Proof.Machine

variable {cs : List Instr} {s t u : State}

namespace Held

theorem setFreq (held : Held cs s) {khz} : Held cs (s.setFreq khz) := held.setH.setH.setH

end Held

end Sys2Proof.Form
end

section
/-!
SUPPORT, for O60. The functions of Machine/Alarm keep the form of memory, and the queue.
-/
namespace Sys2Proof.Form

open Sys2Proof Sys2Proof.Machine

variable {cs : List Instr} {s t u : State}

namespace Held

theorem alarmSend (held : Held cs s) {n ty} : Held cs (s.alarmSend n ty) := held.setH.setH.setH.setH

theorem alarm (held : Held cs s) {n ty} : Held cs (s.alarm n ty) := by
  unfold State.alarm
  extract_lets _ s₁
  have held₁ : Held cs s₁ := held.setH
  exact .ite held₁ held₁.setBit.setH.alarmSend

theorem devAlarm (held : Held cs s) {ty} : Held cs (s.devAlarm ty) := held.alarm

theorem faultStart (held : Held cs s) {kind id} : Held cs (s.faultStart kind id) := by
  unfold State.faultStart
  extract_lets _ s₁
  have held₁ : Held cs s₁ := held.setH
  exact .ite held (.ite held₁.devAlarm held₁)

theorem faultEnd (held : Held cs s) {kind id} : Held cs (s.faultEnd kind id) := .ite held.setH held

end Held

end Sys2Proof.Form
end

section
/-!
SUPPORT, for O60. The functions of Machine/Events keep the form of memory, and the queue.
-/
namespace Sys2Proof.Form

open Sys2Proof Sys2Proof.Machine

variable {cs : List Instr} {s t u : State}

namespace Held

theorem setEv (held : Held cs s) {c r i lo w v} : Held cs (s.setEv c r i lo w v) := held.setRegN

theorem evSettle (held : Held cs s) {c g} : Held cs (s.evSettle c g) := .ite held.setEv.setEv.setEv.setEv.setH held

theorem evCount (held : Held cs s) {c g n} : Held cs (s.evCount c g n) := by
  unfold State.evCount
  extract_lets _ s₁ _ s₂
  have held₁ : Held cs s₁ := .ite held.setH.setH.setEv held
  have held₂ : Held cs s₂ := held₁.setEv
  exact .ite held (.ite held₂.setEv held₂)

theorem raise (held : Held cs s) {c q} : Held cs (s.raise c q) := by
  unfold State.raise
  extract_lets s₁ s₂
  have held₁ : Held cs s₁ := held.setH
  have held₂ : Held cs s₂ := held₁.setEv
  exact .ite held₁.setH (.ite held₂ held₂.evCount)

theorem raiseLocal (held : Held cs s) {p q} : Held cs (s.local p q) := held.raise

theorem device (held : Held cs s) {q} : Held cs (s.device q) := held.raise

theorem setStack (held : Held cs s) {c t' st} : Held cs (s.setStack c t' st) := held.setH.setEv.setEv

theorem evClear (held : Held cs s) {c q} : Held cs (s.evClear c q) := by
  unfold State.evClear
  extract_lets s₁
  have held₁ : Held cs s₁ := held.setEv.setH
  exact .ite (held₁.frame rfl rfl) held₁

theorem ackTake (held : Held cs s) {c t' cls} : Held cs (s.ackTake c t' cls) := by
  unfold State.ackTake
  split
  · exact held
  · exact held.evClear.setStack.evSettle

theorem eoi (held : Held cs s) {c t' cls} : Held cs (s.eoi c t' cls) := by
  unfold State.eoi
  extract_lets _ s₁
  have held₁ : Held cs s₁ := held.setEv.setEv.setEv.setEv.setEv.raise
  exact .ite held (.ite held.setStack (.ite held₁.alarm (.ite held₁ held₁.devAlarm)))

theorem stkClear (held : Held cs s) {c t'} : Held cs (s.stkClear c t') := held.setStack.setEv

theorem fastLeave (held : Held cs s) {p k} : Held cs (s.fastLeave p k) := .ite held.eoi held

theorem holdSet (held : Held cs s) {c} : Held cs (s.holdSet c) := held.setEv.setEv

theorem holdRelease (held : Held cs s) {c} : Held cs (s.holdRelease c) := by
  unfold State.holdRelease
  extract_lets _
  refine .foldS held.setEv.setEv fun _ _ held => ?_
  extract_lets _ s₁
  have held₁ : Held cs s₁ := held.setH.setEv
  exact .ite held (.ite held₁ held₁.evCount)

theorem pendWrite (held : Held cs s) {c w v} : Held cs (s.pendWrite c w v) := by
  unfold State.pendWrite
  extract_lets _
  exact .foldS held.setRegN fun _ _ held => held.evSettle

theorem maskWrite (held : Held cs s) {c w v} : Held cs (s.maskWrite c w v) := by
  unfold State.maskWrite
  extract_lets _ s₁
  have held₁ : Held cs s₁ := by
    unfold s₁
    refine .foldS held.setRegN fun _ _ held => ?_
    extract_lets _
    exact .ite held.evCount held
  exact .foldS held₁ fun _ _ held => held.evSettle

theorem sgrpWrite (held : Held cs s) {c w v} : Held cs (s.sgrpWrite c w v) := by
  unfold State.sgrpWrite
  extract_lets _
  refine .foldS held.setReg fun _ _ held => ?_
  extract_lets _
  exact .ite held.setH held.setH

theorem timerExpire (held : Held cs s) {c g} : Held cs (s.timerExpire c g) := .ite held.setEv.setEv held

theorem timersStep (held : Held cs s) {new d} : Held cs (s.timersStep new d) :=
  .foldS held fun _ _ held => .foldS held fun _ _ held => .ite (.ite held (.ite held.timerExpire held)) held

theorem evMove (held : Held cs s) {c} : Held cs (s.evMove c) := by
  unfold State.evMove
  refine .foldS held fun _ _ held => ?_
  extract_lets s₁
  have held₁ : Held cs s₁ := held.setH
  exact .ite held₁.evCount held₁

theorem evRefresh (held : Held cs s) {c} : Held cs (s.evRefresh c) := by
  unfold State.evRefresh
  refine .foldS held fun _ _ held => ?_
  extract_lets s₁
  have held₁ : Held cs s₁ := held.evSettle
  exact .ite held₁.setEv.setEv held₁

theorem evRequests (held : Held cs s) {c} : Held cs (s.evRequests c) :=
  .foldS held fun _ _ held => held.setEv.setEv.setEv.setEv

theorem fallback (held : Held cs s) {c g} : Held cs (s.fallback c g) := by
  unfold State.fallback
  extract_lets _
  exact .ite (.ite (.ite held held.setEv.setEv.raise) held.setEv.setEv) held

end Held

end Sys2Proof.Form
end

section
/-!
SUPPORT, for O60. The functions of Machine/Pins keep the form of memory, and the queue.
-/
namespace Sys2Proof.Form

open Sys2Proof Sys2Proof.Machine

variable {cs : List Instr} {s t u : State}

namespace Held

theorem pinsPass (held : Held cs s) {n} : Held cs (s.pinsPass n) := by
  unfold State.pinsPass
  extract_lets _ _
  exact .ite held (held.frame rfl rfl)

end Held

end Sys2Proof.Form
end

section
/-!
SUPPORT, for O60. The functions of Machine/Campanile keep the form of memory, and the queue.
-/
namespace Sys2Proof.Form

open Sys2Proof Sys2Proof.Machine

variable {cs : List Instr} {s t u : State}

namespace Held

theorem slewAdd (held : Held cs s) {d} : Held cs (s.slewAdd d) := by
  unfold State.slewAdd
  extract_lets _
  exact held.setReg.setFlag

theorem pass (held : Held cs s) {n} : Held cs (s.pass n) := by
  unfold State.pass
  extract_lets s₁ _ _ _ _
  have held₁ : Held cs s₁ := held.pinsPass
  exact .ite (held₁.frame rfl rfl) (held₁.frame (by rfl) (by rfl)).setH.slewAdd

theorem lqSkip (held : Held cs s) {old new} : Held cs (s.lqSkip old new) := held.frame rfl rfl

theorem stepStreams (held : Held cs s) {new} : Held cs (s.stepStreams new) := held.frame rfl rfl

theorem stepTo (held : Held cs s) {new} : Held cs (s.stepTo new) := by
  unfold State.stepTo
  extract_lets d s₁ s₂
  have held₁ : Held cs s₁ := .ite held.lqSkip held
  have held₂ : Held cs s₂ := held₁.timersStep.stepStreams.setH
  have stepped (t : State) (held : Held cs t) :
      Held cs ({ t with time := new } |>.setFlag F.CAMP_STAT_STEP_DONE true |>.devAlarm 0x02) :=
    held.withTime.setFlag.devAlarm
  exact stepped _ held₂

theorem refFollow (held : Held cs s) {diff phase} : Held cs (s.refFollow diff phase) := by
  unfold State.refFollow
  extract_lets _
  split
  · exact held.setFld.setFlag
  · extract_lets s₁ s₂
    have held₁ : Held cs s₁ := held.setFld.setFlag
    have held₂ : Held cs s₂ := held₁.setFreq
    exact .ite (.ite held₁ held₁.slewAdd) (.ite held₂.slewAdd held₂)

theorem refShow (held : Held cs s) : Held cs s.refShow := .ite held.setRegN held.setRegN

theorem refChange (held : Held cs s) {a b raw phase} : Held cs (s.refChange a b raw phase) := by
  unfold State.refChange
  extract_lets _
  exact held.setFlag.setFlag.setH.refShow.refFollow

theorem freqWrite (held : Held cs s) {v} : Held cs (s.freqWrite v) := held.setReg

theorem campCtlWrite (held : Held cs s) {v} : Held cs (s.campCtlWrite v) := by
  unfold State.campCtlWrite
  extract_lets _ s₁ _
  have held₁ : Held cs s₁ := held.setReg
  exact .ite held₁.takeFree.refFollow held₁.refFollow

theorem xferCtlWrite (held : Held cs s) {v} : Held cs (s.xferCtlWrite v) := by
  unfold State.xferCtlWrite
  extract_lets s₁
  have held₁ : Held cs s₁ := held.setReg
  exact .ite held₁.setFld.setH.setH.setH (.ite held₁ held₁.setFlag)

theorem xferExchange (held : Held cs s) {t1 t2 t3 t4} : Held cs (s.xferExchange t1 t2 t3 t4) := by
  unfold State.xferExchange
  extract_lets _ _ _ _ _ _ _ s₁
  have held₁ : Held cs s₁ := held.setFlag.satFld
  exact .ite held₁.setH.setH.setH held₁.setH.setH.setH.setRegN.setRegN.slewAdd

theorem execEpochSampled (held : Held cs s) : Ends cs (execEpochSampled s) := by
  unfold Machine.execEpochSampled
  extract_lets _ _ s₁ _
  have held₁ : Held cs s₁ := held.setFlag.setReg
  exact .ite (.next held) (.ite (.next held₁.pass.stepTo.setFld) (.ite
    (.ite (.next held₁) (.next held₁.setFlag.devAlarm)) (.next held₁)))

theorem adjGo (held : Held cs s) : Held cs s.adjGo := held.slewAdd

theorem execStepApply (held : Held cs s) : Ends cs (execStepApply s) := by
  unfold Machine.execStepApply
  extract_lets _
  exact .ite (.next held.stepTo.setReg.setFlag) (.next held)

theorem trimMove (held : Held cs s) {k from_} : Held cs (s.trimMove k from_) := .ite held.setH held.setH.setH

theorem siteTrimWrite (held : Held cs s) {x v} : Held cs (s.siteTrimWrite x v) := by
  unfold State.siteTrimWrite
  extract_lets _
  exact held.setRegN.trimMove.setFlag.setFlag

theorem towerTrimWrite (held : Held cs s) {t' v} : Held cs (s.towerTrimWrite t' v) := by
  unfold State.towerTrimWrite
  extract_lets s₁ _ s₂
  have held₁ : Held cs s₁ := held.setRegN.trimMove
  have held₂ : Held cs s₂ := .ite held₁.refShow held₁
  exact .ite held₁ (.ite held₂.slewAdd held₂)

theorem setLq (held : Held cs s) {h q l} : Held cs (s.setLq h q l) := (held.frame (by rfl) (by rfl)).setFld

theorem lqErr (held : Held cs s) {f h q} : Held cs (s.lqErr f h q) := by
  unfold State.lqErr
  extract_lets s₁
  have held₁ : Held cs s₁ := held.setFlag
  exact .ite held (.ite held₁.raiseLocal held₁.device)

theorem lqEvent (held : Held cs s) {h q} : Held cs (s.lqEvent h q) :=
  .ite held.raiseLocal (.ite held.device held.device)

theorem lqPush (held : Held cs s) {h q w7} : Held cs (s.lqPush h q w7) := by
  unfold State.lqPush
  extract_lets s₁ _
  have held₁ : Held cs s₁ := held.setRegN
  exact .ite held₁.lqErr (.ite held₁.lqErr held₁.setLq)

theorem execLqForward (held : Held cs s) {h q} : Ends cs (execLqForward h q s) := by
  unfold Machine.execLqForward
  split
  · exact .next held
  · exact .ite (.next held.setH) (.next held)

theorem lqLeave (held : Held cs s) {h q e result} : Held cs (s.lqLeave h q e result) := by
  unfold State.lqLeave
  extract_lets _
  exact held.setLq.setH.setRegN.setReg

/-- A launch leaves what the action of its entry leaves. -/
theorem lqLaunch (held : Held cs s) {h q kind} {act : LqEntry → State → Bool × State}
    (acts : ∀ e t, Held cs t → Held cs (act e t).2) : Held cs (s.lqLaunch h q kind act) := by
  unfold State.lqLaunch
  split
  · exact held
  · next e _ =>
    extract_lets late
    refine .ite held.lqLeave.addFld ?_
    have acted := acts e s held
    generalize act e s = r at acted ⊢
    obtain ⟨ok, t⟩ := r
    have took : Held cs t := acted
    refine .ite ?_ took.lqLeave.addFld.lqErr
    extract_lets t₁ t₂ t₃
    have held₂ : Held cs t₂ := took.lqLeave.addFld.setH.setH
    have held₃ : Held cs t₃ := .ite held₂.addFld.setFlag held₂
    exact .ite held₃.lqEvent held₃

theorem execLaunchNop (held : Held cs s) {h q} : Ends cs (execLaunchNop h q s) :=
  .next (held.lqLaunch fun _ _ held => held)

theorem lqFlush (held : Held cs s) {h q} : Held cs (s.lqFlush h q) := by
  unfold State.lqFlush
  extract_lets _ s₁
  have held₁ : Held cs s₁ := held.setFlag
  split
  · exact held₁
  · exact held₁.setLq.lqLeave.addFld

theorem lqEnable (held : Held cs s) {h q en} : Held cs (s.lqEnable h q en) := by
  unfold State.lqEnable
  extract_lets _ s₁
  have held₁ : Held cs s₁ := held.setFlag
  exact .ite held₁.setLq held₁

theorem lqCtlWrite (held : Held cs s) {h q v} : Held cs (s.lqCtlWrite h q v) := by
  unfold State.lqCtlWrite
  extract_lets s₁
  have held₁ : Held cs s₁ := held.lqEnable
  exact .ite held₁.lqFlush held₁

theorem psampPush (held : Held cs s) {t' h q w} : Held cs (s.psampPush t' h q w) := by
  unfold State.psampPush
  extract_lets _
  exact .ite held.lqErr (held.frame rfl rfl)

theorem execLaunchPinSample (held : Held cs s) {t' q pins} : Ends cs (execLaunchPinSample t' q pins s) :=
  .next (held.lqLaunch fun _ _ held => held.psampPush)

theorem psampPop (held : Held cs s) {t'} : Held cs (s.psampPop t').2 := by
  unfold State.psampPop
  split
  · exact held
  · exact held.frame rfl rfl

end Held

end Sys2Proof.Form
end

section
/-!
SUPPORT, for O60. The functions of Machine/Integrity keep the form of memory, and the queue.
-/
namespace Sys2Proof.Form

open Sys2Proof Sys2Proof.Machine

variable {cs : List Instr} {s t u : State}

namespace Held

theorem bucketAdd (held : Held cs s) {p b} : Held cs (s.bucketAdd p b) := by
  unfold State.bucketAdd
  extract_lets _
  exact .ite held.setFld.satFld.raiseLocal.alarm held.setFld

theorem sramCorrected (held : Held cs s) {p} : Held cs (s.sramCorrected p) := held.addFld.bucketAdd

theorem sramUncorrectable (held : Held cs s) {p group addr} : Held cs (s.sramUncorrectable p group addr) :=
    held.addFld.setFld.setFld.setFlag.raiseLocal.alarm

theorem remapRefuse (held : Held cs s) {p e} : Held cs (s.remapRefuse p e) := held.setFld.raiseLocal

theorem remapWrite (held : Held cs s) {p v who} : Held cs (s.remapWrite p v who) := by
  unfold State.remapWrite
  extract_lets _ _ _ _ _
  exact .ite held.setFlag (.ite held.remapRefuse (.ite held.remapRefuse
    (.ite held.remapRefuse (.ite held.remapRefuse held.setFlag.setH.setH.setH))))

theorem setKeyState (held : Held cs s) {p k st} : Held cs (s.setKeyState p k st) := .ite held held.setFld.raiseLocal

theorem keyFlag (held : Held cs s) {f p k ty} : Held cs (s.keyFlag f p k ty) := by
  unfold State.keyFlag
  extract_lets _ s₁
  have held₁ : Held cs s₁ := held.setFlag.alarm
  exact .ite held₁ held₁.raiseLocal

theorem keyPagesWrite (held : Held cs s) {p k v} : Held cs (s.keyPagesWrite p k v) := held.setFld.setFld

theorem keyBump (held : Held cs s) {p k e} : Held cs (s.keyBump p k e) := by
  unfold State.keyBump
  extract_lets _ s₁ s₂
  have held₁ : Held cs s₁ := .foldS held fun _ _ held => held.setH
  have held₂ : Held cs s₂ := held₁.setH.setH
  exact .ite held.setH (.ite held₂.keyFlag held₂)

theorem keyWrite (held : Held cs s) {p k a} : Gives cs id (s.keyWrite p k a) := by
  unfold State.keyWrite
  split
  · exact .some held
  · exact .none
  · exact .ite .none (.some (.foldS held fun _ _ held => held.keyBump))

theorem keyExhaust (held : Held cs s) {p k a} : Held cs (s.keyExhaust p k a) := .ite held.keyFlag held

theorem keyTamper (held : Held cs s) {p k} : Held cs (s.keyTamper p k) := held.addFld.keyFlag

theorem keyLost (held : Held cs s) {p k} : Held cs (s.keyLost p k) := .ite held.setKeyState.alarm held

theorem memIgn (held : Held cs s) {p} : Held cs (s.memIgn p) := held.setFlag

theorem keySetup (held : Held cs s) {p k id j v who} : Held cs (s.keySetup p k id j v who) :=
  .ite held.memIgn (.ite held.keyPagesWrite held.setReg)

theorem keyW7 (held : Held cs s) {p k v who} : Held cs (s.keyW7 p k v who) := .ite held.memIgn held.setRegN.setFlag

theorem keyStart (held : Held cs s) {p k who} : Held cs (s.keyStart p k who) := by
  unfold State.keyStart
  extract_lets _ s₁
  have held₁ : Held cs s₁ := held.setFld
  exact .ite held.memIgn (.ite held₁.setKeyState held₁)

theorem keyRetire (held : Held cs s) {p k who} : Held cs (s.keyRetire p k who) := .ite held.memIgn held.setKeyState

theorem keyForget (held : Held cs s) {p k} : Held cs (s.keyForget p k) := held.frame rfl rfl

theorem keysShow (held : Held cs s) {p} : Held cs (s.keysShow p) := .foldS held fun _ _ held => held.setFld

end Held

end Sys2Proof.Form
end

section
/-!
SUPPORT, for O60. The functions of Machine/Dome keep the form of memory, and the queue.
-/
namespace Sys2Proof.Form

open Sys2Proof Sys2Proof.Machine

variable {cs : List Instr} {s t u : State}

namespace Held

theorem domeShow (held : Held cs s) {p} : Held cs (s.domeShow p) := held.setFld

theorem srUpdate (held : Held cs s) {p} : Held cs (s.srUpdate p) := by
  unfold State.srUpdate
  extract_lets _ s₁
  have held₁ : Held cs s₁ := .ite held.setH held
  exact .domeShow (.ite (.ite held₁.setH (.ite held₁.setH held₁)) (.ite held₁.setH held₁))

theorem setRq (held : Held cs s) {p c l} : Held cs (s.setRq p c l) := held.frame rfl rfl

theorem setWq (held : Held cs s) {p c l} : Held cs (s.setWq p c l) := held.frame rfl rfl

theorem setIssued (held : Held cs s) {p c l} : Held cs (s.setIssued p c l) := held.frame rfl rfl

theorem newTxn (held : Held cs s) {x} : Held cs (s.newTxn x).2 := by
  unfold State.newTxn
  extract_lets _ s₁
  have held₁ : Held cs s₁ := held.setH
  exact held₁.frame rfl rfl

theorem txnPart (held : Held cs s) {t' part hold poison bytes} : Held cs (s.txnPart t' part hold poison bytes) := by
  unfold State.txnPart
  split
  · exact held
  · extract_lets _
    exact held.frame rfl rfl

theorem txnDone (held : Held cs s) {t'} : Held cs (s.txnDone t') := held.frame rfl rfl

theorem batchEnter (held : Held cs s) {p c} : Held cs (s.batchEnter p c) := .ite held.setH held

theorem batchFollow (held : Held cs s) {p} : Held cs (s.batchFollow p) :=
  .foldS held fun _ _ held => .batchEnter (.ite held.setH held)

theorem domeEnq (held : Held cs s) {p r} : Held cs (s.domeEnq p r) := by
  unfold State.domeEnq
  extract_lets _ s₁
  have held₁ : Held cs s₁ := .ite held (held.frame rfl rfl)
  exact .ite held₁.setWq.batchEnter held.setRq

theorem domeStore (held : Held cs s) {p a bytes poison} : Held cs (s.domeStore p a bytes poison) := by
  unfold State.domeStore
  extract_lets _ s₁
  have held₁ : Held cs s₁ := by
    unfold s₁
    refine .foldS held fun _ _ held => ?_
    extract_lets _
    exact .ite held.setH (.ite held.setH held)
  exact held₁.stBytes

theorem nrfBank (held : Held cs s) {p c bank} : Held cs (s.nrfBank p c bank) := held.frame rfl rfl

theorem rowTouch (held : Held cs s) {p c bank row close} : Held cs (s.rowTouch p c bank row close) := by
  unfold State.rowTouch
  extract_lets s₁ _ s₂ s₃
  have held₁ : Held cs s₁ := held.nrfBank
  have held₂ : Held cs s₂ := held₁.setH
  have held₃ : Held cs s₃ := .ite held (.ite (held₂.frame (by rfl) (by rfl)).addFld held₁.setH)
  exact held₃.setH

theorem refreshOnce (held : Held cs s) {p c} : Held cs (s.refreshOnce p c) := by
  unfold State.refreshOnce
  extract_lets _ s₁
  have held₁ : Held cs s₁ := held.setH
  exact .ite held.setH (held₁.frame rfl rfl)

theorem capCount (held : Held cs s) {p c} : Held cs (s.capCount p c) := .ite held.setH held.setH.setH

theorem lineMove (held : Held cs s) {p line close} : Held cs (s.lineMove p line close) := held.rowTouch.capCount

theorem issueRead (held : Held cs s) {p c r} : Held cs (s.issueRead p c r) := by
  unfold State.issueRead
  extract_lets _ s₁
  have held₁ : Held cs s₁ := held.setRq.setIssued.rowTouch.capCount
  exact .ite held₁ held₁.setH

theorem issueWrite (held : Held cs s) {p c r} : Held cs (s.issueWrite p c r) := by
  unfold State.issueWrite
  extract_lets _ _ s₁
  have held₁ : Held cs s₁ := held.setWq.domeStore.txnPart.rowTouch.capCount
  exact .ite held₁.setH held₁

theorem schedIssue (held : Held cs s) {p c} : Held cs (s.schedIssue p c) := by
  unfold State.schedIssue
  extract_lets nrf limit rt
  clear_value rt
  refine .ite held (.ite held.setH.refreshOnce (.ite (held.frame rfl rfl) (.ite ?_ (.ite ?_ (.ite held ?_)))))
  · split
    · exact .ite held.issueWrite held.issueRead
    · exact held
  · split
    · exact held.issueWrite
    · exact held
  · split
    · exact held.issueRead
    · split
      · exact held.issueWrite
      · exact .ite held.setH.refreshOnce held

theorem eccWord (held : Held cs s) {p a known found down} : Held cs (s.eccWord p a known found down).2 := by
  unfold State.eccWord
  extract_lets e was s₁ s₂
  have held₁ : Held cs s₁ := held.addFld.setRegN.setFlag
  have held₂ : Held cs s₂ := .ite held₁ held₁.setH
  clear_value e
  split
  · exact held.addFld.setFlag.bucketAdd
  · exact .alarm (.ite held₂ held₂.raiseLocal)
  · exact held.addFld
  · exact held

theorem eccLine (held : Held cs s) {p line known found off len} :
    Held cs (s.eccLine p line known found off len).2 := by
  unfold State.eccLine
  extract_lets down
  exact .foldS_of Prod.snd held fun _ _ held => held.eccWord

theorem execPatrolRead (held : Held cs s) {p found} : Ends cs (execPatrolRead p found s) := by
  unfold Machine.execPatrolRead
  extract_lets _ _
  exact .ite (.next held.lineMove.eccLine.setH) (.next held)

theorem metaBack (held : Held cs s) {p x} : Held cs (s.metaBack p x) := .ite held.domeEnq held

theorem cacheUse (held : Held cs s) {p k l dirty} : Held cs (s.cacheUse p k l dirty) := by
  unfold State.cacheUse
  extract_lets c hit c'
  clear_value c'
  split
  · exact .ite (held.frame (by rfl) (by rfl)).metaBack (held.frame rfl rfl)
  · exact held

theorem cacheClean (held : Held cs s) {p} : Held cs (s.cacheClean p) := .ite held (held.frame rfl rfl)

theorem cacheUses (held : Held cs s) {p k ls} : Held cs (s.cacheUses p k ls) :=
  .foldS held fun _ _ held => held.cacheUse

theorem metaEnq (held : Held cs s) {p t' ls} : Held cs (s.metaEnq p t' ls) := .foldS held fun _ _ held => held.domeEnq

theorem keyTouch (held : Held cs s) {p k a write} : Held cs (s.keyTouch p k a write) := by
  unfold State.keyTouch
  extract_lets _ s₁
  have held₁ : Held cs s₁ := .foldS held fun _ _ held => held.lineMove
  exact held₁.cacheUses

theorem lineFlush (held : Held cs s) {p line} : Held cs (s.lineFlush p line) :=
  .foldS held fun _ _ held => held.issueWrite

theorem domeGet (held : Held cs s) {p a n} : Held cs (s.domeGet p a n).2.2 := by
  unfold State.domeGet
  extract_lets a' bytes r
  exact .foldS_of Prod.snd held fun _ _ held => held.lineMove.eccLine

theorem domePut (held : Held cs s) {p a bytes poison prm} : Held cs (s.domePut p a bytes poison prm) := by
  unfold State.domePut
  extract_lets _ s₁
  have held₁ : Held cs s₁ := by
    unfold s₁
    refine .foldS held fun _ _ held => ?_
    extract_lets s₂
    have held₂ : Held cs s₂ := held.lineFlush.lineMove
    exact .ite held₂ (held₂.frame rfl rfl)
  exact held₁.domeStore

theorem domeCtlWrite (held : Held cs s) {p v} : Held cs (s.domeCtlWrite p v) := held.setReg.srUpdate

theorem holdQueue (held : Held cs s) {l} : Held cs (s.holdQueue l) := .foldS held fun _ _ held => held.txnPart

theorem domeDrop (held : Held cs s) {p} : Held cs (s.domeDrop p) := by
  unfold State.domeDrop
  refine .foldS held fun _ _ held => ?_
  extract_lets _ _
  exact .foldS held.holdQueue.holdQueue.setRq.setWq.setH fun _ _ held => held.setH

theorem domeZero (held : Held cs s) {p} : Held cs (s.domeZero p) := by
  unfold State.domeZero
  extract_lets s₁
  have held₁ : Held cs s₁ := held.clearBytes
  exact held₁.frame rfl rfl

theorem commitRefuse (held : Held cs s) {p ring sub} : Held cs (s.commitRefuse p ring sub) := by
  unfold State.commitRefuse
  extract_lets s₁
  have held₁ : Held cs s₁ := held.addFld
  refine .ite held₁ ?_
  split
  · exact held₁.setFld
  · exact held₁.setFld

theorem ringFlag (held : Held cs s) {f p r} : Held cs (s.ringFlag f p r) := .ite held held.setFlag.raiseLocal

theorem ringKeyWrite (held : Held cs s) {p r ofs n} : Held cs (s.ringKeyWrite p r ofs n).2 := by
  unfold State.ringKeyWrite
  refine .foldl_of Prod.snd held fun _ _ held => .ite₂ held ?_
  extract_lets k a
  split
  · next t e => exact held.keyWrite t e
  · exact held.keyExhaust

theorem readsExpire (held : Held cs s) {p a} : Held cs (s.readsExpire p a) := held.frame rfl rfl

theorem idxStore (held : Held cs s) {p r a e} : Held cs (s.idxStore p r a e).2 := by
  unfold State.idxStore
  extract_lets k
  split
  · exact held.keyExhaust
  · next t written =>
    have kept : Held cs t := held.keyWrite t written
    exact .domePut (.ite kept.keyTouch kept)

theorem ringClear (held : Held cs s) {p r as} : Held cs (s.ringClear p r as).2 := by
  unfold State.ringClear
  refine .foldl_of Prod.snd held fun _ _ held => .ite₂ held ?_
  extract_lets _ x
  have stored : Held cs x.2 := held.idxStore
  exact .ite stored.readsExpire stored

theorem commitQueue (held : Held cs s) {p r ofs c} : Held cs (s.commitQueue p r ofs c).2 := by
  unfold State.commitQueue
  extract_lets _ _ _ _ _ _ _ _
  exact .foldS held.newTxn.metaEnq fun _ _ held => held.domeEnq

theorem commitArrive (held : Held cs s) {p c} : Held cs (s.commitArrive p c).2 := by
  unfold State.commitArrive
  refine .ite₂ held ?_
  split
  · exact .pair held.commitRefuse
  split
  · exact .pair held.commitRefuse
  extract_lets ofs s₁
  have held₁ : Held cs s₁ := .ite held.ringFlag held
  split
  · next t e => exact .pair (held₁.ringClear.snd e).commitRefuse
  · next t e =>
    have cleared : Held cs t := held₁.ringClear.snd e
    split
    · next u e => exact .pair (cleared.ringKeyWrite.snd e).commitRefuse
    · next u e =>
      extract_lets q
      have queued : Held cs q.2 := (cleared.ringKeyWrite.snd e).commitQueue
      exact .pair queued.setH

theorem ringUnbusy (held : Held cs s) {p r} : Held cs (s.ringUnbusy p r) := by
  unfold State.ringUnbusy
  extract_lets _ s₁
  have held₁ : Held cs s₁ := held.setH
  exact .ite held₁.setFlag held₁

theorem ringIndex (held : Held cs s) {p r twin pstart pn ofs n} :
    Held cs (s.ringIndex p r twin pstart pn ofs n).2 := by
  unfold State.ringIndex
  extract_lets _ _ s₁ s₂ s₃
  have held₁ : Held cs s₁.2 := held.idxStore
  have held₂ : Held cs s₂ := held₁.readsExpire
  have held₃ : Held cs s₃.2 := .ite₂ held.idxStore (.ite₂ held₁ (.ite held₂.ringFlag held₂))
  exact .ite₂ held₃.setRegN held₃

theorem commitFinish (held : Held cs s) {p r c ofs n t'} : Gives cs Prod.snd (s.commitFinish p r c ofs n t') := by
  unfold State.commitFinish
  split
  · exact .none
  · next x _ =>
    extract_lets s₁ s₂
    have held₁ : Held cs s₁ := held.txnDone.ringUnbusy
    have held₂ : Held cs s₂ := by
      unfold s₂
      split
      · exact held₁.cacheUses
      · exact held₁
    clear_value s₂
    refine .ite .none (.ite (.ite (.some (.pair held₁.commitRefuse)) (.some (.pair held₁.commitRefuse))) ?_)
    split
    · next t e => exact .some (.pair (held₂.ringIndex.snd e).addFld)
    · next t e => exact .some (.pair (held₂.ringIndex.snd e).commitRefuse)

theorem ringExpire (held : Held cs s) {p r} : Held cs (s.ringExpire p r) := held.frame rfl rfl

theorem ringCfgWrite (held : Held cs s) {p r v} : Held cs (s.ringCfgWrite p r v) := by
  unfold State.ringCfgWrite
  extract_lets _ _ s₁ s₂ _ s₃
  have held₁ : Held cs s₁ := held.setFld.setFld
  have held₂ : Held cs s₂ := held.setRegN
  have held₃ : Held cs s₃ := held₂.setFld
  exact .ite (.ite held.setFlag (.ite held₁ held₁.setFlag.setFlag)) (.ite
    (.ite held₃.setFlag.setRegN.setFlag.ringExpire held₃) held₂)

theorem ringZero (held : Held cs s) {p r} : Held cs (s.ringZero p r) := by
  unfold State.ringZero
  extract_lets _ _ s₁
  have held₁ : Held cs s₁ := held.clearBytes
  exact held₁.frame rfl rfl

theorem ringsZero (held : Held cs s) {sc} : Held cs (s.ringsZero sc) :=
  .foldS held fun _ _ held => .ite held.ringZero held

theorem ringWordWrite (held : Held cs s) {p r id v} : Held cs (s.ringWordWrite p r id v) :=
  .ite held.setFlag held.setReg

theorem periodLook (held : Held cs s) {p r pn} : Held cs (s.periodLook p r pn).2 := by
  unfold State.periodLook
  extract_lets _ _ _ _ _ _ _ s₁ s₂
  have held₁ : Held cs s₁.2.2 := .domeGet (.ite held.keyTouch held)
  have held₂ : Held cs s₂ := held₁
  exact .ite₂ held (.ite₂ held₂ (.ite₂ held₂ (.ite₂ held₂ held₂)))

theorem periodQueue (held : Held cs s) {p r pn e} : Held cs (s.periodQueue p r pn e).2 := by
  unfold State.periodQueue
  extract_lets _ _ _ _ _ _ _
  exact .foldS held.newTxn.metaEnq fun _ _ held => held.domeEnq

end Held

end Sys2Proof.Form
end

section
/-!
SUPPORT, for O60. The functions of Machine/Journal keep the form of memory, and the queue.
-/
namespace Sys2Proof.Form

open Sys2Proof Sys2Proof.Machine

variable {cs : List Instr} {s t u : State}

namespace Held

theorem jrnlWait (held : Held cs s) : Held cs s.jrnlWait := held.addFld

theorem jrnlBytes (held : Held cs s) {x} : Held cs (s.jrnlBytes x) := held.makeUndef

theorem jrnlWritten (held : Held cs s) : Held cs s.jrnlWritten := .foldS held fun _ _ held => .ite held.jrnlBytes held

end Held

end Sys2Proof.Form
end

section
/-!
SUPPORT, for O60. The functions of Machine/Admission keep the form of memory, and the queue.
-/
namespace Sys2Proof.Form

open Sys2Proof Sys2Proof.Machine

variable {cs : List Instr} {s t u : State}

namespace Held

theorem admCounts (held : Held cs s) : Held cs s.admCounts := held.setFld.setFld

theorem domeRate (held : Held cs s) {w sub add} : Held cs (s.domeRate w sub add) := .ite held.setFld held

theorem tioFollow (held : Held cs s) {i st} : Held cs (s.tioFollow i st) := by
  unfold State.tioFollow
  extract_lets _
  refine .foldS held fun _ _ held => ?_
  extract_lets _ s₁
  have held₁ : Held cs s₁ := held.setFlag
  exact .ite (.ite held₁.device held₁) held

theorem admState (held : Held cs s) {i st} : Held cs (s.admState i st) :=
  .ite held held.setFld.admCounts.device.tioFollow

theorem admWrite (held : Held cs s) {i w p} : Held cs (s.admWrite i w p) := by
  unfold State.admWrite
  extract_lets _ _
  exact (held.frame (by rfl) (by rfl)).domeRate.setRegN.setRegN.jrnlWritten

theorem admFree (held : Held cs s) {i} : Held cs (s.admFree i) := by
  unfold State.admFree
  extract_lets _
  split
  · exact held
  · exact (held.frame (by rfl) (by rfl)).domeRate.admState.admCounts.jrnlWritten

theorem admEnd (held : Held cs s) {reason w gap} : Held cs (s.admEnd reason w gap) :=
    held.setFld.setFlag.setRegN.setRegN.device

theorem admShow (held : Held cs s) {w gap} : Held cs (s.admShow w gap) := held.setFld.setFlag.setRegN.setRegN

theorem admBusy (held : Held cs s) : Held cs s.admBusy := held.setFld.setRegN.setRegN

theorem admAdmit (held : Held cs s) {i} : Held cs (s.admAdmit i) := by
  unfold State.admAdmit
  refine .ite held.admBusy (.ite held.admEnd ?_)
  split
  · exact held.admEnd
  · exact held.admWrite.admState.admCounts.admShow.setH.setH

theorem admQuery (held : Held cs s) {i} : Held cs (s.admQuery i) := by
  unfold State.admQuery
  refine .ite held.admBusy (.ite held.admEnd ?_)
  split
  · exact held.admEnd
  · exact held.admEnd

theorem admRelease (held : Held cs s) {i} : Held cs (s.admRelease i) := by
  unfold State.admRelease
  refine .ite held.admBusy (.ite held.admEnd ?_)
  split
  · exact held.admEnd
  · exact .ite held.admEnd held.admShow.setH.setH

theorem admitEffect (held : Held cs s) : Held cs s.admitEffect := by
  unfold State.admitEffect
  extract_lets _
  exact .ite held.setH.setRegN.admEnd held

theorem keptEffect (held : Held cs s) : Held cs s.keptEffect :=
  .ite (.setRegN (.foldS held fun _ _ held => held.setH)) held

theorem execReleaseEffect (held : Held cs s) : Ends cs (execReleaseEffect s) := by
  unfold Machine.execReleaseEffect
  extract_lets _
  exact .ite (.next held.admFree.setH.admEnd) (.next held)

theorem admSlot (held : Held cs s) : Held cs s.admSlot := held.setRegN

theorem admCfgWrite (held : Held cs s) {v} : Held cs (s.admCfgWrite v) := by
  unfold State.admCfgWrite
  extract_lets _ _ _ s₁ s₂
  have held₁ : Held cs s₁ := held.setRegN
  have held₂ : Held cs s₂ := .ite held₁.setFlag.setFlag held₁
  exact .ite held.setFlag held₂.admSlot

theorem useSlot (held : Held cs s) {n o} : Held cs (s.useSlot n o) := held.setH

theorem lateFlit (held : Held cs s) {d formed delivered} : Held cs (s.lateFlit d formed delivered) :=
  .ite held.addFld held

theorem execRtFlitSend (held : Held cs s) {d sk sid formed delivered} :
    Ends cs (execRtFlitSend d sk sid formed delivered s) := by
  unfold Machine.execRtFlitSend
  refine .ite (.next held.addFld) (.ite (.next held) ?_)
  split
  · exact .next held.useSlot.lateFlit
  · exact .ite (.next held.lateFlit) (.next held)

theorem admNote (held : Held cs s) {i code} : Held cs (s.admNote i code) := held.setFld.devAlarm.device

theorem admLost (held : Held cs s) {i} : Held cs (s.admLost i) := by
  unfold State.admLost
  extract_lets s₁
  have held₁ : Held cs s₁ := by
    unfold s₁
    split
    · exact held.frame rfl rfl
    · exact held
  exact held₁.admState

theorem admRecompute (held : Held cs s) {i code} : Held cs (s.admRecompute i code) := by
  unfold State.admRecompute
  split
  · exact held
  · extract_lets s₁ ans
    have held₁ : Held cs s₁ := held.admNote
    clear_value ans
    cases ans with
    | ok p =>
      refine .ite held₁.domeRate.admWrite.setH (.ite held₁.domeRate.admWrite.admShow.setH (.ite ?_ held₁.admLost))
      exact (held₁.frame (by rfl) (by rfl)).setH.admState
    | no r w => exact .ite held₁.admFree.setH (.ite held₁.admFree.setH.admEnd held₁.admLost)

theorem capacityFault (held : Held cs s) {code hit} : Held cs (s.capacityFault code hit) :=
  .foldS held fun _ _ held => held.admRecompute

theorem admDelayed (held : Held cs s) {decl} : Held cs (s.admDelayed decl) := .ite held.admNote held

theorem capacityBack (held : Held cs s) : Held cs s.capacityBack := by
  unfold State.capacityBack
  refine .foldS held fun _ _ held => ?_
  split
  · exact held
  · split
    · extract_lets _ _
      exact .ite (held.frame (by rfl) (by rfl)).domeRate.setRegN.devAlarm.admState.jrnlWritten held
    · exact held

theorem execReservationMove (held : Held cs s) {i} : Ends cs (execReservationMove i s) := by
  unfold Machine.execReservationMove
  split
  · split
    · extract_lets _ _
      exact .ite (.next (held.frame (by rfl) (by rfl)).domeRate.setRegN.jrnlWritten) (.next held)
    · exact .next held
  · exact .next held

theorem admWarm (held : Held cs s) {pending} : Held cs (s.admWarm pending) := by
  unfold State.admWarm
  extract_lets s₁
  have held₁ : Held cs s₁ := .ite held held.setH
  exact held₁.setFlag.admSlot

end Held

end Sys2Proof.Form
end

section
/-!
SUPPORT, for O60. The functions of Machine/Reserve keep the form of memory, and the queue.
-/
namespace Sys2Proof.Form

open Sys2Proof Sys2Proof.Machine

variable {cs : List Instr} {s t u : State}

namespace Held

theorem setResv (held : Held cs s) {t' l} : Held cs (s.setResv t' l) := held.frame rfl rfl

theorem resvSet (held : Held cs s) {t' line node port} : Held cs (s.resvSet t' line node port) := by
  unfold State.resvSet
  extract_lets _ _
  exact held.setResv

theorem resvHit (held : Held cs s) {t' line node port} : Held cs (s.resvHit t' line node port) := held.setResv

theorem resvDrop (held : Held cs s) {t' node port} : Held cs (s.resvDrop t' node port) := held.setResv

end Held

end Sys2Proof.Form
end

section
/-!
SUPPORT, for O60. The functions of Machine/Feed keep the form of memory, and the queue.
-/
namespace Sys2Proof.Form

open Sys2Proof Sys2Proof.Machine

variable {cs : List Instr} {s t u : State}

namespace Held

theorem sprIgn (held : Held cs s) {p k} : Held cs (s.sprIgn p k) := held.setFlag

theorem feedErr (held : Held cs s) {p k f e} : Held cs (s.feedErr p k f e) := held.setFld.raiseLocal

theorem feedCfgWrite (held : Held cs s) {p k f v} : Held cs (s.feedCfgWrite p k f v) := by
  unfold State.feedCfgWrite
  extract_lets _ s₁ s₂ _ _
  have held₁ : Held cs s₁ := .ite held held.sprIgn
  have held₂ : Held cs s₂ := held.setRegN
  exact .ite (.ite held₁ held₁.setFlag) (.ite held₂ (.ite held₂.feedErr
    held₂.setFlag.setFld.setFld.setRegN.setRegN.setRegN))

theorem feedSetupWrite (held : Held cs s) {p k f id v} : Held cs (s.feedSetupWrite p k f id v) :=
  .ite held.sprIgn held.setReg

theorem feedRidxWrite (held : Held cs s) {p k f v} : Held cs (s.feedRidxWrite p k f v) :=
  .ite held.setRegN held.sprIgn

theorem feedAck (held : Held cs s) {p k f} : Held cs (s.feedAck p k f) := by
  unfold State.feedAck
  extract_lets _
  exact .ite held held.setRegN

theorem feedDrop (held : Held cs s) {p k f} : Held cs (s.feedDrop p k f) := held.addFld.raiseLocal

theorem feedsMiss (held : Held cs s) {p i} : Held cs (s.feedsMiss p i) :=
  .foldS held fun _ _ held => .ite held.feedDrop held

theorem feedsShape (held : Held cs s) {p i n} : Held cs (s.feedsShape p i n) :=
  .foldS held fun _ _ held => .ite held held.feedErr

theorem feedStore (held : Held cs s) {p k a bytes} : Held cs (s.feedStore p k a bytes) :=
  .stBytes (.foldS held fun _ _ held => held.resvHit)

theorem feedFrame (held : Held cs s) {p k f xs} : Held cs (s.feedFrame p k f xs) := by
  unfold State.feedFrame
  extract_lets _ _ _
  exact .ite held.feedDrop held.feedStore.setRegN

theorem feedsFrame (held : Held cs s) {p i xs} : Held cs (s.feedsFrame p i xs) :=
  .foldS held fun _ _ held => .ite held.feedFrame held

theorem feedsPrim (held : Held cs s) {p i w0 w1} : Held cs (s.feedsPrim p i w0 w1) := by
  unfold State.feedsPrim
  refine .foldS held fun _ _ held => ?_
  extract_lets _ _
  exact .ite held.feedStore.setRegN held

end Held

end Sys2Proof.Form
end

section
/-!
SUPPORT, for O60. The functions of Machine/Gate keep the form of memory, and the queue.
-/
namespace Sys2Proof.Form

open Sys2Proof Sys2Proof.Machine

variable {cs : List Instr} {s t u : State}

namespace Held

theorem setStream (held : Held cs s) {p i x} : Held cs (s.setStream p i x) := held.frame rfl rfl

theorem modStream (held : Held cs s) {p i f} : Held cs (s.modStream p i f) := held.setStream

theorem setSst (held : Held cs s) {p i st} : Held cs (s.setSst p i st) := .ite held held.setFld.raiseLocal

theorem gateCount (held : Held cs s) {id p i} : Held cs (s.gateCount id p i) := by
  unfold State.gateCount
  extract_lets s₁ _
  have held₁ : Held cs s₁ := held.setRegN
  exact .ite held₁ held₁.setH.raiseLocal

theorem gateIgn (held : Held cs s) {p} : Held cs (s.gateIgn p) := .ite held held.setFlag.raiseLocal

theorem showFill (held : Held cs s) {p} : Held cs (s.showFill p) := held.setFld

theorem closeAll (held : Held cs s) {p i} : Held cs (s.closeAll p i) := by
  unfold State.closeAll
  extract_lets _
  exact held.modStream.showFill

theorem streamStop (held : Held cs s) {p i} : Held cs (s.streamStop p i) := held.closeAll.modStream

theorem streamRun (held : Held cs s) {p i} : Held cs (s.streamRun p i) := by
  unfold State.streamRun
  extract_lets _ _ _
  exact held.modStream.setH.setSst

theorem armFollow (held : Held cs s) {p i} : Held cs (s.armFollow p i) := .ite held.streamRun held

theorem dropFollow (held : Held cs s) {p i} : Held cs (s.dropFollow p i) := .ite held.streamStop.setSst held

theorem sourceFollow (held : Held cs s) {t' l eth} : Held cs (s.sourceFollow t' l eth) :=
  .foldS held fun _ _ held => .ite held.dropFollow.armFollow held

theorem gateShow (held : Held cs s) {p} : Held cs (s.gateShow p) := held.setFld

theorem drainFollow (held : Held cs s) {p i} : Held cs (s.drainFollow p i) := by
  unfold State.drainFollow
  extract_lets _
  exact .ite held.setSst.gateShow held.gateShow

theorem refuse (held : Held cs s) {p i reason} : Held cs (s.refuse p i reason) := by
  unfold State.refuse
  extract_lets _
  exact held.setFld.gateCount.modStream

theorem rewriteHeader (held : Held cs s) {k bytes} : Held cs (s.rewriteHeader k bytes) := held.domePut

theorem voidCopy (held : Held cs s) {p i c twin} : Held cs (s.voidCopy p i c twin) := by
  unfold State.voidCopy
  extract_lets _
  exact .ite held.rewriteHeader held

theorem accept (held : Held cs s) {p i c} : Held cs (s.accept p i c) := by
  unfold State.accept
  extract_lets _ _ _ s₁ s₂ _
  have held₁ : Held cs s₁ := held.rewriteHeader
  have held₂ : Held cs s₂ := .ite held (.ite held₁.rewriteHeader held₁)
  exact held₂.setRegN.modStream

theorem settle (held : Held cs s) {fuel p i} : Held cs (State.settle fuel s p i) := by
  induction fuel generalizing s with
  | zero => exact held
  | succ fuel ih =>
    unfold State.settle
    split
    · exact held.drainFollow
    · extract_lets s₁ r s₂
      have held₁ : Held cs s₁ := held.modStream
      have held₂ : Held cs s₂ := .ite held₁.accept held₁.voidCopy.voidCopy.refuse
      exact .ite (ih held₂.showFill) held

theorem decideAll (held : Held cs s) {p i} : Held cs (s.decideAll p i) := held.settle

theorem degrade (held : Held cs s) {p i} : Held cs (s.degrade p i) := .ite held held.setFlag.raiseLocal.alarm

theorem twinLost (held : Held cs s) {q} : Held cs (s.twinLost q) :=
  .ite (.foldS held fun _ _ held => .ite held.degrade held) held

theorem thermCount (held : Held cs s) {q} : Held cs (s.thermCount q) := .ite held.addFld held

theorem issue (held : Held cs s) {p i} : Held cs (s.issue p i) := by
  unfold State.issue
  extract_lets _ s₁ _ _ twin _ _ _
  have held₁ : Held cs s₁ := .ite held.degrade held
  clear_value twin
  split
  · exact held
  · extract_lets _ s₂ s₃ _
    have held₂ : Held cs s₂ := held₁.modStream
    have held₃ : Held cs s₃ := by
      unfold s₃
      refine .ite ?_ held₂
      split
      · exact held₂.thermCount.thermCount
      · exact held₂.thermCount
    exact .ite held₃.refuse.showFill.drainFollow held₂.modStream

theorem stagingParity (held : Held cs s) {p par c} : Held cs (s.stagingParity p par c).2 :=
  .foldS held fun _ _ held => held.sramUncorrectable

theorem execDomeCommitArrive (held : Held cs s) {p i twin par} : Ends cs (execDomeCommitArrive p i twin par s) := by
  unfold Machine.execDomeCommitArrive
  extract_lets _
  split
  · exact .next held
  · extract_lets _ s₁
    have held₁ : Held cs s₁.2 := held.stagingParity.commitArrive
    split
    · exact .next held₁
    · exact .next held₁.modStream
    · exact .next held₁.modStream

theorem execDomeCommitDone (held : Held cs s) {p i twin} : Ends cs (execDomeCommitDone p i twin s) := by
  unfold Machine.execDomeCommitDone
  extract_lets ok
  split
  · exact .next held
  · extract_lets k
    split
    · exact .next held
    · next e t finished => exact .next (Held.modStream (held.commitFinish _ finished))

theorem twinAcked (held : Held cs s) {p i twin ok reason} : Held cs (s.twinAcked p i twin ok reason) := by
  unfold State.twinAcked
  split
  · exact .ite held.setFlag.modStream held
  · exact held

theorem answerRx (held : Held cs s) {p i twin ok reason} : Held cs (s.answerRx p i twin ok reason) := by
  unfold State.answerRx
  extract_lets _ s₁
  have held₁ : Held cs s₁ := held.twinAcked
  split
  · extract_lets _ _ _
    exact held₁.voidCopy.modStream
  · exact held₁.modStream.decideAll.issue

theorem copyTimeout (held : Held cs s) {p i twin} : Held cs (s.copyTimeout p i twin) := by
  unfold State.copyTimeout
  extract_lets _
  split
  · exact held
  · extract_lets _ _
    exact held.modStream.decideAll.issue

theorem commitTimeout (held : Held cs s) {p i} : Held cs (s.commitTimeout p i) := by
  unfold State.commitTimeout
  extract_lets _ _
  split
  · exact held
  · extract_lets _
    exact .ite held held.modStream.decideAll

theorem fragClose (held : Held cs s) {p i} : Held cs (s.fragClose p i) := by
  unfold State.fragClose
  extract_lets _ s₁
  have held₁ : Held cs s₁ := by
    unfold s₁
    split
    · exact .ite held.modStream.showFill held
    · exact held
  exact held₁.issue

theorem streamFree (held : Held cs s) {p i} : Held cs (s.streamFree p i) :=
    held.setSst.setStream.setRegN.setRegN.setRegN.setRegN.setRegN.setRegN.setFlag.setFld

theorem codecTake (held : Held cs s) {p i at_} : Held cs (s.codecTake p i at_) := held.modStream

theorem codecCapture (held : Held cs s) {p i} : Held cs (s.codecCapture p i) := by
  unfold State.codecCapture
  extract_lets _ _
  exact .ite held held.codecTake

theorem enable (held : Held cs s) {p i} : Held cs (s.enable p i).2 := by
  unfold State.enable
  extract_lets _ s₁
  have held₁ : Held cs s₁ := .ite held.setRegN held
  exact .ite₂ held₁.codecTake.codecTake.setSst.feedsShape.armFollow.gateShow held₁

theorem disable (held : Held cs s) {p i} : Held cs (s.disable p i) := held.streamStop.setSst.drainFollow

theorem abort (held : Held cs s) {p i} : Held cs (s.abort p i) := by
  unfold State.abort
  extract_lets _
  exact .drainFollow (.showFill (.foldS held.modStream fun _ _ held => held.refuse))

theorem strmOp (held : Held cs s) {p i op} : Held cs (s.strmOp p i op).2 := by
  unfold State.strmOp
  extract_lets _
  exact .ite₂ held.enable (.ite₂ held.disable (.ite₂ held.setSst (.ite₂ held.setSst
    (.ite₂ held.streamFree.gateShow (.ite₂ held.abort held)))))

theorem strmCmd (held : Held cs s) {p i op} : Held cs (s.strmCmd p i op) := by
  unfold State.strmCmd
  extract_lets _
  exact .ite held.setFld held.strmOp.setFlag.setFld

theorem sentWrite (held : Held cs s) {p i w v} : Held cs (s.sentWrite p i w v) := by
  unfold State.sentWrite
  extract_lets _ _ _ s₁
  have held₁ : Held cs s₁ := held.setRegN.modStream
  exact .ite held.setRegN (.ite (.ite held₁ held₁.gateIgn) (.ite held.gateIgn (.ite held.setRegN.setH held.gateIgn)))

theorem gateCtlWrite (held : Held cs s) {p v} : Held cs (s.gateCtlWrite p v) := by
  unfold State.gateCtlWrite
  extract_lets _ _
  exact .gateShow (.foldS held.setFlag fun _ _ held => .ite held.armFollow (.ite held.disable held))

theorem slackRead (held : Held cs s) {p i} : Held cs (s.slackRead p i) := held.setRegN

theorem slackNote (held : Held cs s) {p i rel} : Held cs (s.slackNote p i rel) := by
  unfold State.slackNote
  extract_lets _ _
  exact .ite held.setRegN held

theorem frameArrive (held : Held cs s) {p i} : Held cs (s.frameArrive p i) := by
  unfold State.frameArrive
  extract_lets _
  split
  · exact held
  · extract_lets _ _ _ _ _ _ _ _ _ s₁ s₂
    have held₁ : Held cs s₁ := held.setStream.slackNote
    have held₂ : Held cs s₂ := .ite held₁.gateCount.feedsMiss held₁
    exact .ite held₂.gateCount held₂

theorem releasePop (held : Held cs s) {p i} : Gives cs Prod.snd (s.releasePop p i) := by
  unfold State.releasePop
  extract_lets x
  split
  · exact .none
  · exact .ite (.some held.setStream) .none

theorem releaseParity (held : Held cs s) {p i row} : Held cs (s.releaseParity p i row) := by
  unfold State.releaseParity
  split
  · exact held
  · exact held.modStream.sramUncorrectable

theorem primPop (held : Held cs s) {p i} : Gives cs (fun x => x.2.2.2) (s.primPop p i) := by
  unfold State.primPop
  extract_lets x
  split
  · exact .none
  · extract_lets due a sat valid w0 s₁
    have held₁ : Held cs s₁ := held.setStream
    exact .ite (.some (Held.ite held₁.addFld held₁)) .none

end Held

end Sys2Proof.Form
end

section
/-!
SUPPORT, for O60. The functions of Machine/Plots keep the form of memory, and the queue.
-/
namespace Sys2Proof.Form

open Sys2Proof Sys2Proof.Machine

variable {cs : List Instr} {s t u : State}

namespace Held

theorem setPlotLogic (held : Held cs s) {p q l} : Held cs (s.setPlotLogic p q l) := held.frame rfl rfl

theorem ffsInit (held : Held cs s) {p q} : Held cs (s.ffsInit p q) := by
  unfold State.ffsInit
  split
  · exact held.setPlotLogic
  · exact held

theorem plotEnter (held : Held cs s) {p q st} : Held cs (s.plotEnter p q st) := by
  unfold State.plotEnter
  extract_lets _ _ _
  exact .ite (.ite (held.frame rfl rfl) held.setPlotLogic) (.ite held.setPlotLogic held)

end Held

end Sys2Proof.Form
end

section
/-!
SUPPORT, for O60. The functions of Machine/Fabric keep the form of memory, and the queue.
-/
namespace Sys2Proof.Form

open Sys2Proof Sys2Proof.Machine

variable {cs : List Instr} {s t u : State}

namespace Held

theorem crossFault (held : Held cs s) {p e g} : Held cs (s.crossFault p e g) := .ite held held.setFlag.raiseLocal

theorem crossLost (held : Held cs s) {p e g} : Held cs (s.crossLost p e g) := by
  unfold State.crossLost
  extract_lets _
  exact .ite held (held.frame rfl rfl)

theorem crossLat (held : Held cs s) {p e g} : Held cs (s.crossLat p e g) := by
  unfold State.crossLat
  extract_lets _
  exact held.takeFree.setFld

theorem crossEval (held : Held cs s) {p e g} : Held cs (s.crossEval p e g) := by
  unfold State.crossEval
  extract_lets _ _ _ _ _ _ s₁ _ _ _ _ _ s₂ s₃
  have held₁ : Held cs s₁ := held.setFlag
  have held₂ : Held cs s₂ := .ite held₁.setFlag held₁
  have held₃ : Held cs s₃ := .ite held₂.crossFault held₂
  exact .ite held₃.setFld.crossLost (.ite held₃.setFld.setFlag (.ite held₃.crossLat.crossLost held₃))

theorem crossingsMove (held : Held cs s) : Held cs s.crossingsMove := by
  unfold State.crossingsMove
  refine .foldS held fun _ _ held => ?_
  extract_lets _ _ _
  split
  · extract_lets _ _
    exact .ite held (held.frame rfl rfl)
  · exact held

theorem fepEval (held : Held cs s) {p e} : Held cs (s.fepEval p e) := by
  unfold State.fepEval
  extract_lets _
  exact held.setFlag.setFlag

theorem clocksMoved (held : Held cs s) {p} : Held cs (s.clocksMoved p) := by
  unfold State.clocksMoved
  extract_lets s₁
  have held₁ : Held cs s₁ := .foldS held fun _ _ held => .ite held.crossEval held
  exact .foldS held₁ fun _ _ held => held.fepEval

theorem edgeFault (held : Held cs s) {p e} : Held cs (s.edgeFault p e) :=
  .foldS held fun _ _ held => held.crossFault.setFlag.setFld.crossLost

theorem edgeBack (held : Held cs s) {p e} : Held cs (s.edgeBack p e) :=
  .foldS held fun _ _ held => .ite held.crossEval held

theorem pllApply (held : Held cs s) {p k} : Held cs (s.pllApply p k) := by
  unfold State.pllApply
  extract_lets _ s₁
  have held₁ : Held cs s₁ := held.setFlag
  exact .ite held (.ite (.ite held₁ held₁.raiseLocal) held.setH.setH.setFlag.setFlag.setFlag.clocksMoved)

theorem execPllAlignDone (held : Held cs s) {p k} : Ends cs (execPllAlignDone p k s) := by
  unfold Machine.execPllAlignDone
  extract_lets _ _
  exact .ite (.next held.setFlag.clocksMoved) (.next held)

theorem execFabricPllLockLoss (held : Held cs s) {p k} : Ends cs (execFabricPllLockLoss p k s) := by
  unfold Machine.execFabricPllLockLoss
  extract_lets _ s₁ s₂
  have held₁ : Held cs s₁ := held.setFlag
  have held₂ : Held cs s₂ := .ite held₁ held₁.raiseLocal
  exact .next held₂.setFlag.setFlag.clocksMoved

theorem rstWrite (held : Held cs s) {p n v} : Held cs (s.rstWrite p n v) := by
  unfold State.rstWrite
  extract_lets s₁
  have held₁ : Held cs s₁ := held.setRegN
  exact .ite held₁.setH held₁

theorem sportTake (held : Held cs s) {p q t'} : Held cs (s.sportTake p q t') := by
  unfold State.sportTake
  extract_lets _ s₁
  have held₁ : Held cs s₁ := held.setH.setFlag
  split
  · exact held
  · extract_lets _
    exact .ite (.ite held₁ held₁.raiseLocal) held.setH

theorem sportFrame (held : Held cs s) {p i f t'} : Held cs (s.sportFrame p i f t') := by
  unfold State.sportFrame
  refine .foldS held fun _ _ held => ?_
  extract_lets s₁ _
  have held₁ : Held cs s₁ := held.sportTake
  exact held₁.frame rfl rfl

theorem sportPrim (held : Held cs s) {p i w0 w1} : Held cs (s.sportPrim p i w0 w1) := by
  unfold State.sportPrim
  refine .foldS held fun _ _ held => ?_
  extract_lets _
  exact .ite (held.frame rfl rfl) held

theorem execSampleRelease (held : Held cs s) {p i par} : Ends cs (execSampleRelease p i par s) := by
  unfold Machine.execSampleRelease
  split
  · exact .next held.releaseParity
  · exact .next held
  · next f t popped => exact .next (Held.feedsFrame (held.releasePop _ popped)).sportFrame

theorem execPrimitivePresent (held : Held cs s) {p i} : Ends cs (execPrimitivePresent p i s) := by
  unfold Machine.execPrimitivePresent
  split
  · exact .next held
  · next w0 w1 b t popped => exact .next (Held.feedsPrim (held.primPop _ popped)).sportPrim

theorem tioFlag (held : Held cs s) {f t' g} : Held cs (s.tioFlag f t' g) := .ite held held.setFlag.device

theorem tioSlot (held : Held cs s) {t' g b} : Held cs (s.tioSlot t' g b) := by
  unfold State.tioSlot
  extract_lets _ _
  exact held.setFld

theorem tioStop (held : Held cs s) {t' g} : Held cs (s.tioStop t' g) := by
  unfold State.tioStop
  extract_lets s₁
  have held₁ : Held cs s₁ := held.tioSlot.setFlag
  exact held₁.frame rfl rfl

theorem tioCfgWrite (held : Held cs s) {t' g v} : Held cs (s.tioCfgWrite t' g v) := by
  unfold State.tioCfgWrite
  extract_lets _ _ s₁ s₂ _ s₃ s₄ s₅
  have held₁ : Held cs s₁ := .ite held held.tioFlag
  have held₂ : Held cs s₂ := held.setRegN
  have held₃ : Held cs s₃ := held₂.setFld
  have held₄ : Held cs s₄ := .ite held₃.setRegN held₃
  have held₅ : Held cs s₅ := held₄.setFlag.setFlag.tioSlot
  exact .ite (.ite held₁ held₁.tioStop) (.ite held₂ (.ite (.ite held₅.setH held₅) held₄))

theorem tioWordWrite (held : Held cs s) {t' g id v} : Held cs (s.tioWordWrite t' g id v) :=
  .ite held.tioFlag held.setReg

theorem tioAnchorWrite (held : Held cs s) {t' v} : Held cs (s.tioAnchorWrite t' v) := .ite held held.setReg

theorem setTio (held : Held cs s) {t' g l} : Held cs (s.setTio t' g l) := held.frame rfl rfl

theorem execTioInputWord (held : Held cs s) {t' g ts word} : Ends cs (execTioInputWord t' g ts word s) := by
  unfold Machine.execTioInputWord
  extract_lets _ _
  exact .ite (.next held.setTio) (.next held)

theorem execTioWordPresent (held : Held cs s) {t' g arrived} : Ends cs (execTioWordPresent t' g arrived s) := by
  unfold Machine.execTioWordPresent
  extract_lets _
  split
  · exact .next held
  · extract_lets _ _ s₁
    have held₁ : Held cs s₁ := held.setTio.setH.setH
    exact .ite (.ite (.next held) (.ite (.next held₁.addFld.tioFlag) (.next held₁))) (.next held)

theorem execTioWstb (held : Held cs s) {t' g n word} : Ends cs (execTioWstb t' g n word s) := by
  unfold Machine.execTioWstb
  refine .ite ?_ (.next held)
  split
  · exact .next held.setTio
  · exact .next held

theorem execTioOutputWord (held : Held cs s) {t' g arrived} : Ends cs (execTioOutputWord t' g arrived s) := by
  unfold Machine.execTioOutputWord
  split
  · exact .next held
  · extract_lets s₁
    have held₁ : Held cs s₁ := held.setTio
    exact .ite (.ite (.next held₁.addFld.tioFlag) (.next held₁.setH.setH)) (.next held)

end Held

end Sys2Proof.Form
end

section
/-!
SUPPORT, for O60. The functions of Machine/DomeBus keep the form of memory, and the queue.
-/
namespace Sys2Proof.Form

open Sys2Proof Sys2Proof.Machine

variable {cs : List Instr} {s t u : State}

namespace Held

theorem domeKeyed (held : Held cs s) {p k ls} : Gives cs id (s.domeKeyed p k ls) := by
  unfold State.domeKeyed
  suffices ∀ (ls : List Nat) (o : Option State), Gives cs id o → Gives cs id (Machine.foldS _ ls o) from
    this ls _ (.some held)
  intro ls
  induction ls with
  | nil => exact fun _ gives => gives
  | cons l ls ih =>
    refine fun o gives => ih _ ?_
    cases o with
    | none => exact .none
    | some t => exact Held.keyWrite (gives t rfl)

theorem domeExhaust (held : Held cs s) {p k ls} : Held cs (s.domeExhaust p k ls) :=
  .foldS held fun _ _ held => held.keyExhaust

theorem domeRead (held : Held cs s) {p addr n} : Held cs (s.domeRead p addr n).2.2.2 := by
  unfold State.domeRead
  extract_lets a k ls st ks lost r
  have touched {l : List Nat} : Held cs (Machine.foldS (fun l s => s.keyTouch p k (64 * l) false) l s) :=
    .foldS held fun _ _ held => held.keyTouch
  split
  · exact held
  · exact touched.domeGet

theorem domeWrite (held : Held cs s) {p addr bytes poison node port} :
    Held cs (s.domeWrite p addr bytes poison node port).2 := by
  unfold State.domeWrite
  extract_lets _ _ _ _ _
  refine .ite₂ held ?_
  split
  · exact .pair held.domeExhaust
  · next t keyed =>
    extract_lets t₁
    have touched : Held cs t₁ := .foldS (held.domeKeyed t keyed) fun _ _ held => held.keyTouch
    exact .pair (.foldS touched.domePut fun _ _ held => held.resvHit)

theorem domeReadReq (held : Held cs s) {p addr n hint req} : Held cs (s.domeReadReq p addr n hint req).2 := by
  unfold State.domeReadReq
  extract_lets _ _ _ _ _ _ _ _
  split
  · exact held
  · refine .foldS held.newTxn.metaEnq fun _ _ held => ?_
    extract_lets _
    exact held.domeEnq

theorem domeWriteReq (held : Held cs s) {p addr bytes poison rt hint who req} :
    Held cs (s.domeWriteReq p addr bytes poison rt hint who req).2 := by
  unfold State.domeWriteReq
  extract_lets _ _ _ _ _ _ _
  refine .ite₂ held ?_
  split
  · exact .pair held.domeExhaust
  · next u keyed =>
    extract_lets t
    have numbered : Held cs t.2 := Held.newTxn (held.domeKeyed u keyed)
    exact .pair (.foldS numbered.metaEnq fun _ _ held => held.domeEnq.resvHit)

theorem domeAmoReq (held : Held cs s) {p addr hint plan who req} :
    Held cs (s.domeAmoReq p addr hint plan who req).2.2 := by
  unfold State.domeAmoReq
  extract_lets _ k l _ _ w _ _ _ _ _
  refine .ite₃ held ?_
  have keyed : Gives cs id (if w.stores then s.domeKeyed p k [l] else some s) := .ite held.domeKeyed (.some held)
  split
  · exact .triple held.domeExhaust
  · next u e =>
    extract_lets t s₁
    have numbered : Held cs t.2 := Held.newTxn (keyed u e)
    have held₁ : Held cs s₁ := numbered.metaEnq.domeEnq
    exact .triple (.ite held₁.domeEnq.resvHit held₁)

end Held

end Sys2Proof.Form
end

section
/-!
SUPPORT, for O60. The functions of Machine/Readout keep the form of memory, and the queue.
-/
namespace Sys2Proof.Form

open Sys2Proof Sys2Proof.Machine

variable {cs : List Instr} {s t u : State}

namespace Held

theorem ssetWrite (held : Held cs s) {k w v} : Held cs (s.ssetWrite k w v) := .ite held.setFlag held.setRegN

theorem rdoShow (held : Held cs s) : Held cs s.rdoShow := by
  unfold State.rdoShow
  extract_lets _
  exact held.setFld.setFld.setFld

theorem rdoEn (held : Held cs s) {en} : Held cs (s.rdoEn en) := held.setFlag.rdoShow

theorem evnumWrite (held : Held cs s) {v} : Held cs (s.evnumWrite v) := .ite held.setFlag held.setReg

theorem accPort (held : Held cs s) {words whole req} : Held cs (s.accPort words whole req).2 :=
  .ite₂ held (.ite₂ held.addFld.device (.ite₂ held.addFld (.ite₂ held.addFld.jrnlWait
    (held.frame (by rfl) (by rfl)).rdoShow)))

theorem accJournal (held : Held cs s) {a} : Held cs (s.accJournal a) := by
  unfold State.accJournal
  extract_lets _ _ _ s₁
  have held₁ : Held cs s₁ := (held.frame (by rfl) (by rfl)).setRegN
  exact .ite held₁ held₁.addFld

theorem onEvent (held : Held cs s) {num f} : Held cs (s.onEvent num f) := held.frame rfl rfl

theorem ringStart (held : Held cs s) {p stream twin pn ovr} : Held cs (s.ringStart p stream twin pn ovr).2 := by
  unfold State.ringStart
  split
  · exact held
  refine .ite₂ held ?_
  split
  · next t e => exact .pair (held.periodLook.snd e)
  · next t e => exact .pair (held.periodLook.snd e)
  · next t e => exact .pair (held.periodLook.snd e)
  · next t e => exact .pair (held.periodLook.snd e)
  · next t e => exact .pair (held.periodLook.snd e).periodQueue

theorem sectTwin (held : Held cs s) {x pn b ovr} : Held cs (s.sectTwin x pn b ovr).2 := by
  unfold State.sectTwin
  extract_lets _ _ _
  refine .ite₂ ?_ held
  split
  · next t e => exact .pair (held.ringStart.snd e)
  · next t e => exact .pair (held.ringStart.snd e)
  · next t e => exact .pair (held.ringStart.snd e)

theorem sectPeriod (held : Held cs s) {x pn ovr} : Held cs (s.sectPeriod x pn ovr).2 := by
  unfold State.sectPeriod
  refine .ite₂ held.sectTwin ?_
  split
  · next t e => exact .pair (held.ringStart.snd e)
  · next t e => exact .pair (held.ringStart.snd e)
  · next t e => exact (held.ringStart.snd e).sectTwin

theorem sectPeriods (held : Held cs s) {last ovr fuel x} : Held cs (State.sectPeriods last ovr fuel s x).2 := by
  induction fuel generalizing ovr s x with
  | zero => exact held
  | succ fuel ih =>
    unfold State.sectPeriods
    split
    · exact held
    · exact .ite₂ held (.ite₂ held.sectPeriod (ih held.sectPeriod))

theorem sectRead (held : Held cs s) {x d t'} : Held cs (s.sectRead x d t').2 := by
  unfold State.sectRead
  extract_lets s₁ s₂ _
  have held₁ : Held cs s₁ := held.txnDone
  have held₂ : Held cs s₂ := by
    unfold s₂
    split
    · exact .ite held₁ held₁.cacheUses
    · exact held₁
  split
  · exact held₂
  · exact held₂
  · exact .ite₂ held₂ held₂.sectTwin

theorem eventBuilt (held : Held cs s) {num} : Held cs (s.eventBuilt num) := by
  unfold State.eventBuilt
  split
  · extract_lets _
    exact .ite held.onEvent held
  · exact held

theorem execEventBuildStart (held : Held cs s) : Ends cs (execEventBuildStart s) := by
  unfold Machine.execEventBuildStart
  split
  · exact .next held
  · exact .ite (.next held.onEvent.eventBuilt.rdoShow) (.next held)

theorem putSect (held : Held cs s) {num x y} : Held cs (s.putSect num x y) := held.onEvent.eventBuilt

theorem sectGather (held : Held cs s) {num n ovr} : Held cs (s.sectGather num n ovr) := by
  unfold State.sectGather
  split
  · exact held
  · split
    · exact held
    · refine .ite held ?_
      split
      · exact held.putSect
      · extract_lets _ _
        exact .ite held held.sectPeriods.putSect

theorem ringReadDone (held : Held cs s) {p r pn} : Held cs (s.ringReadDone p r pn) := by
  unfold State.ringReadDone
  split
  · exact held
  · split
    · exact held
    · extract_lets _
      exact held.sectRead.putSect.sectGather

end Held

end Sys2Proof.Form
end

section
/-!
SUPPORT, for O60. The functions of Machine/Queues keep the form of memory, and the queue.
-/
namespace Sys2Proof.Form

open Sys2Proof Sys2Proof.Machine

variable {cs : List Instr} {s t u : State}

namespace Held

theorem setQp (held : Held cs s) {q x} : Held cs (s.setQp q x) := held.frame rfl rfl

theorem setQpState (held : Held cs s) {q st} : Held cs (s.setQpState q st) := by
  unfold State.setQpState
  extract_lets _ s₁
  have held₁ : Held cs s₁ := held.setFld
  exact .ite held₁.device held₁

theorem qpIgn (held : Held cs s) {q} : Held cs (s.qpIgn q) := held.setFlag

theorem dbWrite (held : Held cs s) {q} : Held cs (s.dbWrite q) := held.stBytes

theorem wakeWrite (held : Held cs s) {q b} : Held cs (s.wakeWrite q b) := held.stN

theorem cplWrite (held : Held cs s) {q d seq r} : Held cs (s.cplWrite q d seq r) := by
  unfold State.cplWrite
  extract_lets _ _ _ _ _ _ _ s₁
  have held₁ : Held cs s₁ := held.stBytes.setRegN.setRegN.dbWrite
  exact .ite held₁.device held₁

theorem acceptDone (held : Held cs s) {e} : Held cs (s.acceptDone e) := by
  unfold State.acceptDone
  split
  · exact held
  · extract_lets _
    exact held.setQp

theorem eventFinish (held : Held cs s) {e} : Held cs (s.eventFinish e) := by
  unfold State.eventFinish
  extract_lets s₁ s₂ s₃ s₄
  have held₁ : Held cs s₁ := held.frame rfl rfl
  have held₂ : Held cs s₂ := .ite held₁ held₁.setFld
  have held₃ : Held cs s₃ := held₂.addFld
  have held₄ : Held cs s₄ := .ite held₃.addFld.device held₃
  exact held₄.acceptDone.rdoShow.jrnlWritten

theorem eventSent (held : Held cs s) {e} : Held cs (s.eventSent e) :=
  .ite held.eventFinish (held.frame (by rfl) (by rfl)).acceptDone.jrnlWritten

theorem qpSettle (held : Held cs s) {q} : Held cs (s.qpSettle q) := by
  unfold State.qpSettle
  extract_lets _
  exact .ite held (.ite held.setQp.setQpState (.ite held.setQpState held))

theorem cplNext (held : Held cs s) {q} : Held cs (s.cplNext q) := by
  unfold State.cplNext
  extract_lets _
  split
  · exact held
  · extract_lets _
    split
    · exact held
    · extract_lets s₁ s₂
      have held₁ : Held cs s₁ := held.setQp.cplWrite
      have held₂ : Held cs s₂ := by
        unfold s₂
        split
        · exact held₁.eventFinish
        · exact held₁
      exact .ite held held₂.qpSettle.rdoShow.jrnlWritten

theorem dbFetch (held : Held cs s) {q tail head} : Held cs (s.dbFetch q tail head) := by
  unfold State.dbFetch
  extract_lets _ _ _
  exact .ite held (.ite held.setQp (.ite (.ite held.setQp.setQpState held.wakeWrite.setQp)
    (.ite (.ite held.wakeWrite.setQp held.setQp) held.setQp)))

theorem execDescriptorFetch (held : Held cs s) {q descs} : Ends cs (execDescriptorFetch q descs s) := by
  unfold Machine.execDescriptorFetch
  extract_lets _
  exact .ite (.next held.setQp) (.next held)

theorem nudge (held : Held cs s) {q} : Held cs (s.nudge q) := by
  unfold State.nudge
  extract_lets _
  exact .ite held.wakeWrite.setQp.setQpState held.addFld

theorem qpFail (held : Held cs s) {q} : Held cs (s.qpFail q) := .ite held.setQp.qpSettle held

theorem descAccept (held : Held cs s) {q} : Held cs (s.descAccept q) := by
  unfold State.descAccept
  extract_lets _ _
  split
  · exact held
  · extract_lets _ _ _ _
    exact .ite held (.ite held.setFld.setRegN.qpFail (.ite held (.ite held
      (.ite held (.ite held.jrnlWait held.setQp.setRegN.setRegN.dbWrite.rdoShow.jrnlWritten)))))

theorem putDesc (held : Held cs s) {q d} : Held cs (s.putDesc q d) := by
  unfold State.putDesc
  extract_lets _
  exact held.setQp

theorem descEnd (held : Held cs s) {q d status result result2} : Held cs (s.descEnd q d status result result2) :=
    held.putDesc

theorem execDescNop (held : Held cs s) {q seq} : Ends cs (execDescNop q seq s) := by
  unfold Machine.execDescNop
  split
  · exact .next held.descEnd
  · exact .next held

theorem execDescAccept (held : Held cs s) {q seq} : Ends cs (execDescAccept q seq s) := by
  unfold Machine.execDescAccept
  split
  · exact .ite (.next held) (.next (held.frame (by rfl) (by rfl)).putDesc)
  · exact .next held

theorem execDescPostBuf (held : Held cs s) {q seq} : Ends cs (execDescPostBuf q seq s) := by
  unfold Machine.execDescPostBuf
  split
  · exact .next held.putDesc
  · exact .next held

theorem strmApply (held : Held cs s) {q d} : Held cs (s.strmApply q d) := by
  unfold State.strmApply
  extract_lets _ _ _ s₁ _ _
  have held₁ : Held cs s₁ := .ite (.foldS held fun _ _ held => held.sentWrite) held
  exact held₁.strmCmd.descEnd

theorem descStream (held : Held cs s) {q d} : Held cs (s.descStream q d) := by
  unfold State.descStream
  extract_lets _
  exact .ite held (.ite (held.frame (by rfl) (by rfl)).putDesc held.strmApply)

theorem execDescStreamCtl (held : Held cs s) {q seq} : Ends cs (execDescStreamCtl q seq s) := by
  unfold Machine.execDescStreamCtl
  split
  · exact .next held.descStream
  · exact .next held

theorem strmCmdDone (held : Held cs s) {p} : Held cs (s.strmCmdDone p) := by
  unfold State.strmCmdDone
  extract_lets s₁
  have held₁ : Held cs s₁ := held.setFlag
  split
  · exact held₁
  · extract_lets s₂
    have held₂ : Held cs s₂ := held₁.frame rfl rfl
    split
    · exact held₂.strmApply
    · exact held₂

theorem domeToHost (held : Held cs s) {q d fuel n} : Held cs (State.domeToHost q d fuel n s) := by
  induction fuel generalizing n s with
  | zero => exact held.descEnd
  | succ fuel ih =>
    unfold State.domeToHost
    split
    · next t e => exact ih (held.domeRead.snd₄ e).stBytes
    · next t _ e => exact (held.domeRead.snd₄ e).descEnd

theorem execDescDomeRead (held : Held cs s) {q seq} : Ends cs (execDescDomeRead q seq s) := by
  unfold Machine.execDescDomeRead
  split
  · exact .next held.domeToHost
  · exact .next held

theorem hostToDome (held : Held cs s) {q d lines n} : Held cs (State.hostToDome q d lines n s) := by
  induction lines generalizing n s with
  | nil => exact held.descEnd
  | cons l ls ih =>
    unfold State.hostToDome
    extract_lets p r
    split
    · exact held.descEnd.qpFail
    · exact held.domeWrite.descEnd
    · split
      · next t e => exact ih (held.domeWrite.snd e)
      · next t _ e => exact (held.domeWrite.snd e).descEnd

theorem execDescDomeWrite (held : Held cs s) {q seq lines} : Ends cs (execDescDomeWrite q seq lines s) := by
  unfold Machine.execDescDomeWrite
  split
  · exact .ite (.next held.hostToDome) (.next held)
  · exact .next held

theorem holdSetRing (held : Held cs s) {p stream twin v} : Held cs (s.holdSetRing p stream twin v) := by
  unfold State.holdSetRing
  split
  · exact held.setRegN
  · exact held

theorem execDescHoldSet (held : Held cs s) {q seq} : Ends cs (execDescHoldSet q seq s) := by
  unfold Machine.execDescHoldSet
  split
  · extract_lets _ _ s₁ s₂
    have held₁ : Held cs s₁ := held.holdSetRing
    have held₂ : Held cs s₂ := .ite held₁.holdSetRing held₁
    exact .next held₂.descEnd
  · exact .next held

theorem eventDeliver (held : Held cs s) {q} : Held cs (s.eventDeliver q) := by
  unfold State.eventDeliver
  split
  · exact held
  · split
    · exact held
    · extract_lets _ _ _ _
      exact .ite held held.stBytes.putDesc.onEvent

theorem qpWordWrite (held : Held cs s) {q id v} : Held cs (s.qpWordWrite q id v) := .ite held.setReg held.qpIgn

theorem qpCfgWrite (held : Held cs s) {q v} : Held cs (s.qpCfgWrite q v) := by
  unfold State.qpCfgWrite
  extract_lets _ s₁ s₂
  have held₁ : Held cs s₁ := held.setFld
  have held₂ : Held cs s₂ := .ite held₁ held₁.qpIgn
  exact .ite held.setRegN (.ite (.ite held₂.setQpState.qpSettle held₂) held.qpIgn)

theorem qpRoWrite (held : Held cs s) {q} : Held cs (s.qpRoWrite q) := .ite held held.qpIgn

theorem qpEnable (held : Held cs s) {q db} : Held cs (s.qpEnable q db) := by
  unfold State.qpEnable
  extract_lets e s₁ _
  have held₁ : Held cs s₁ := held.setFld
  refine .ite held ?_
  split
  · exact held₁.setFlag
  · extract_lets _ _ s₂ _
    have held₂ : Held cs s₂ := held₁.setFlag.setRegN.setRegN.setRegN.setRegN
    exact .ite held₁.setFlag (.ite held₂.setQp.setQpState held₂.setQp.setQpState)

theorem recoverOne (held : Held cs s) {q e} : Held cs (s.recoverOne q e) := by
  unfold State.recoverOne
  extract_lets _ _ _ _
  exact .ite held.setRegN.setRegN.dbWrite held.cplWrite

theorem qpRecovered (held : Held cs s) {q slots} : Held cs (s.qpRecovered q slots) := by
  unfold State.qpRecovered
  extract_lets _ _ s₁ _ s₂
  have held₁ : Held cs s₁ := .foldS held fun _ _ held => held.recoverOne
  have held₂ : Held cs s₂ := held₁.setQp
  exact .ite held (.ite (.ite (.ite held₂.qpSettle held₂.setQpState) held) (.ite held.setQpState.qpSettle held))

theorem qpDisable (held : Held cs s) {q} : Held cs (s.qpDisable q) := by
  unfold State.qpDisable
  extract_lets s₁ _
  have held₁ : Held cs s₁ := held.setFlag
  exact .ite held₁ held₁.setQp.setQpState.qpSettle

theorem qpAbort (held : Held cs s) {q descs} : Held cs (s.qpAbort q descs) := by
  unfold State.qpAbort
  refine .ite held.qpDisable.qpIgn (.ite held ?_)
  refine .jrnlWritten (.foldS held fun _ _ held => ?_)
  extract_lets _ _
  exact held.setRegN.setRegN.cplWrite

theorem qpCtlWrite (held : Held cs s) {q v} : Held cs (s.qpCtlWrite q v) := by
  unfold State.qpCtlWrite
  extract_lets _ s₁ s₂ s₃
  have held₁ : Held cs s₁ := .ite held.qpIgn held
  have held₂ : Held cs s₂ := held₁.setFlag
  have held₃ : Held cs s₃ := held₁.qpDisable
  exact .ite (.ite held₂.setH held₂) (.ite held₃.setH held₃)

theorem eventsRestart (held : Held cs s) : Held cs s.eventsRestart := by
  unfold State.eventsRestart
  extract_lets _ _
  exact held.frame rfl rfl

theorem qpsStall (held : Held cs s) {f} : Held cs (s.qpsStall f) :=
  .foldS held fun _ _ held => .ite held.setQp.setQpState held

end Held

end Sys2Proof.Form
end

section
/-!
SUPPORT, for O60. The functions of Machine/Prm keep the form of memory, and the queue.
-/
namespace Sys2Proof.Form

open Sys2Proof Sys2Proof.Machine

variable {cs : List Instr} {s t u : State}

namespace Held

theorem setPIn (held : Held cs s) {n i l} : Held cs (s.setPIn n i l) := held.frame rfl rfl

theorem setPOut (held : Held cs s) {n o l} : Held cs (s.setPOut n o l) := held.frame rfl rfl

theorem setPRx (held : Held cs s) {n l} : Held cs (s.setPRx n l) := held.frame rfl rfl

theorem setPReq (held : Held cs s) {n l} : Held cs (s.setPReq n l) := held.frame rfl rfl

theorem prmPut (held : Held cs s) {n w} : Held cs (s.prmPut n w) := held.setPIn

theorem prmCount (held : Held cs s) {f n} : Held cs (s.prmCount f n) := .ite held.addFld held

theorem prmAnswer (held : Held cs s) {n port req status result poison payload} :
    Held cs (s.prmAnswer n port req status result poison payload) := by
  unfold State.prmAnswer
  extract_lets s₁
  have held₁ : Held cs s₁ := .ite held held.prmCount
  exact .ite held₁.prmPut held₁

theorem prmRefuse (held : Held cs s) {n w st} : Held cs (s.prmRefuse n w st) := .ite held.prmAnswer held.prmCount

theorem prmStray (held : Held cs s) {n port w} : Held cs (s.prmStray n port w).2 := .ite₂ held.addFld held

theorem prmSend (held : Held cs s) {n port w} : Held cs (s.prmSend n port w).2 := by
  unfold State.prmSend
  extract_lets w' s₁
  have held₁ : Held cs s₁ := .ite held.setPReq held
  refine .ite₂ held (.ite₂ (.ite₂ held.prmCount held.prmCount) ?_)
  split
  · next t e => exact .pair (held₁.prmStray.snd e).prmPut

theorem accAccepted (held : Held cs s) : Held cs s.accAccepted := by
  unfold State.accAccepted
  split
  · exact held
  · extract_lets s₁
    have held₁ : Held cs s₁ := (held.frame (by rfl) (by rfl)).accJournal.rdoShow.jrnlWritten
    refine .ite ?_ held
    split
    · exact held₁.prmAnswer
    · exact held₁

theorem forward (held : Held cs s) {n i cls} : Held cs (s.forward n i cls) := by
  unfold State.forward
  extract_lets go
  have gone {t : State} (held : Held cs t) {f o} : Held cs (go t f o) := held.setPOut
  split
  · exact held
  · extract_lets s₁ f rt s₂ f'
    have held₁ : Held cs s₁ := held.setPIn
    have held₂ : Held cs s₂ := .ite held₁.addFld held₁
    refine .ite (.ite (gone held₁) (.ite ?_ (gone held₁))) (.ite held₁.prmRefuse ?_)
    · split
      · exact gone held₁
      · split
        · exact gone held₁
        · exact held₁.prmRefuse
    · split
      · exact gone held₁
      · split
        · exact gone (.ite held₂.addFld held₂)
        · exact .prmRefuse (.ite held₂.alarm held₂)
        · exact held₂.prmRefuse

theorem alarmAck (held : Held cs s) {n ty} : Held cs (s.alarmAck n ty) := by
  unfold State.alarmAck
  extract_lets _ s₁
  have held₁ : Held cs s₁ := held.setH.setH
  exact .ite held₁.setBit.setH held₁.alarmSend

theorem prmResponse (held : Held cs s) {w} : Held cs (s.prmResponse w) := by
  unfold State.prmResponse
  extract_lets _ _ s₁ s₂
  have held₁ : Held cs s₁ := held.setPRx
  have held₂ : Held cs s₂ := held₁.setPReq
  exact .ite (.ite held₁.alarmAck held₁) (.ite (.ite held₂.prmCount held₂) (.ite held₁.prmCount held₁.prmCount))

theorem pwrFenced (held : Held cs s) {p} : Held cs (s.pwrFenced p) := .ite held.setH.srUpdate held

theorem setFence (held : Held cs s) {p st} : Held cs (s.setFence p st) := by
  unfold State.setFence
  extract_lets s₁
  have held₁ : Held cs s₁ := held.setFld.raiseLocal.domeShow
  exact .ite held₁.pwrFenced.twinLost held₁

theorem pavLost (held : Held cs s) {p} : Held cs (s.pavLost p) := held.twinLost.capacityFault

theorem fenceWrite (held : Held cs s) {p v} : Held cs (s.fenceWrite p v) := by
  unfold State.fenceWrite
  extract_lets _ _ s₁ s₂ _ s₃
  have held₁ : Held cs s₁ := held.setRegN
  have held₂ : Held cs s₂ := held₁.setFence
  have held₃ : Held cs s₃ := held.setRegN.setFence
  exact .ite (.ite held₁ (.ite held₂.capacityFault (.capacityFault (.foldS held₂ fun _ _ held => held.setH.setH))))
    (.ite (.ite held held.setFlag) (.ite held (.ite (.capacityBack (.foldS held₃ fun _ _ held => held.setH.setH))
      held₃)))

theorem fenceTmo (held : Held cs s) {p sc} : Held cs (s.fenceTmo p sc) := by
  unfold State.fenceTmo
  extract_lets _ _ _ _ _ s₁ s₂
  have held₁ : Held cs s₁ := .foldS held.setPReq.addFld.addFld.setPRx fun _ _ held => held.prmRefuse
  have held₂ : Held cs s₂ := .ite (.foldS held₁ fun _ _ held => held.txnDone.prmRefuse) held₁
  exact held₂.setFlag.raiseLocal

theorem setPlot (held : Held cs s) {p q st} : Held cs (s.setPlot p q st) := .ite held held.plotEnter.setFld.raiseLocal

theorem plotFenced (held : Held cs s) {p q} : Held cs (s.plotFenced p q) := held.setH.setPlot

theorem execFenceDrained (held : Held cs s) {p plot} : Ends cs (execFenceDrained p plot s) := by
  unfold Machine.execFenceDrained
  split
  · exact .ite (.next held.setFence) (.next held)
  · exact .ite (.next held.plotFenced) (.next held)

theorem execFenceTmoExpiry (held : Held cs s) {p plot} : Ends cs (execFenceTmoExpiry p plot s) := by
  unfold Machine.execFenceTmoExpiry
  split
  · exact .ite (.next held.fenceTmo.setFence) (.next held)
  · exact .ite (.next held.fenceTmo.plotFenced) (.next held)

theorem takeover (held : Held cs s) : Held cs s.takeover := held.setFlag.setFlag.eventsRestart

theorem nodeLost (held : Held cs s) {n} : Held cs (s.nodeLost n) := by
  unfold State.nodeLost
  extract_lets s₁ s₂
  have held₁ : Held cs s₁ := .ite held.takeover held
  have held₂ : Held cs s₂ := .foldS held₁ fun _ _ held => held.qpsStall
  exact .ite held.pavLost (.ite held₂.capacityFault held.capacityFault)

theorem isoSet (held : Held cs s) {p v} : Held cs (s.isoSet p v) := by
  unfold State.isoSet
  extract_lets _ _ _ _ _ s₁ s₂
  have held₁ : Held cs s₁ := .foldS held.setRegN fun _ _ held => held.nodeLost
  have held₂ : Held cs s₂ := .ite held₁.setFlag.setFlag held₁
  exact .ite held₂ held₂.capacityBack

theorem isoWrite (held : Held cs s) {p hi v who} : Held cs (s.isoWrite p hi v who) :=
  .ite held.setFlag (.ite held.isoSet (held.frame rfl rfl))

theorem isolate (held : Held cs s) {n on} : Held cs (s.isolate n on) := .foldS held fun _ _ held => held.isoSet

theorem launchPrmSend (held : Held cs s) {h q} : Held cs (s.launchPrmSend h q) := by
  unfold State.launchPrmSend
  extract_lets s₁
  have held₁ : Held cs s₁ := held.setH
  exact .ite (.ite held held.setH) (held₁.lqLaunch fun _ _ held => .ite₂ held held.prmSend)

end Held

end Sys2Proof.Form
end

section
/-!
SUPPORT, for O60. The functions of Machine/SubState keep the form of memory, and the queue.
-/
namespace Sys2Proof.Form

open Sys2Proof Sys2Proof.Machine

variable {cs : List Instr} {s t u : State}

namespace Held

theorem setSub (held : Held cs s) {step st} : Held cs (s.setSub step st) := held.setFld.setFld.device.jrnlWritten

theorem subAbandoned (held : Held cs s) {cause} : Held cs (s.subAbandoned cause) := held.setFld.setSub.devAlarm

theorem subTouched (held : Held cs s) {p} : Held cs (s.subTouched p) := .ite held.subAbandoned held

end Held

end Sys2Proof.Form
end

section
/-!
SUPPORT, for O60. The functions of Machine/Faults keep the form of memory, and the queue.
-/
namespace Sys2Proof.Form

open Sys2Proof Sys2Proof.Machine

variable {cs : List Instr} {s t u : State}

namespace Held

theorem subStart (held : Held cs s) {p} : Held cs (s.subStart p) := by
  unfold State.subStart
  extract_lets _ _ _ s₁ _ s₂ _
  have held₁ : Held cs s₁ := held.setFld.setFld.setFld.setRegN.setBit.setFlag
  have held₂ : Held cs s₂ := .ite held₁ held₁.setFld
  exact held₂.setH.setSub

theorem subAuto (held : Held cs s) : Held cs s.subAuto := by
  unfold State.subAuto
  refine .ite held ?_
  split
  · exact .ite held.subStart (.ite held held.setSub)
  · exact .ite held held.setSub

theorem candidate (held : Held cs s) {p onGo} : Held cs (s.candidate p onGo) :=
  .ite (.ite held held.setH.subAuto) held.setBit.setH.device.subAuto

theorem pavFault (held : Held cs s) {p} : Held cs (s.pavFault p) :=
  .ite held held.faultStart.devAlarm.subTouched.candidate

end Held

end Sys2Proof.Form
end

section
/-!
SUPPORT, for O60. The functions of Machine/Loads keep the form of memory, and the queue.
-/
namespace Sys2Proof.Form

open Sys2Proof Sys2Proof.Machine

variable {cs : List Instr} {s t u : State}

namespace Held

theorem fabRegWrite (held : Held cs s) {p id i j v} : Held cs (s.fabRegWrite p id i j v) := by
  unfold State.fabRegWrite
  extract_lets _ _
  split
  · exact .ite held.pllApply held
  · exact held.rstWrite
  · exact held.setReg.clocksMoved
  · exact held.setReg.crossEval
  · exact held.setReg.crossEval
  · exact held.setReg.fepEval
  · exact held.setReg.setFlag
  · exact held.setReg

theorem cfgPut (held : Held cs s) {p a bytes} : Held cs (s.cfgPut p a bytes) := .ite held.domePut held

theorem cfgGet (held : Held cs s) {p addr n} : Held cs (s.cfgGet p addr n).2 := by
  unfold State.cfgGet
  extract_lets _ _ _ _ _ s₁
  have held₁ : Held cs s₁.2.2 := .domeGet (.foldS held fun _ _ held => held.keyTouch)
  exact .ite₂ held held₁

theorem writePlot (held : Held cs s) {p q frames} : Held cs (s.writePlot p q frames) := by
  unfold State.writePlot
  extract_lets _
  refine .foldS held.setH fun _ _ held => ?_
  extract_lets _ s₁
  have held₁ : Held cs s₁ := held.stBytes
  exact .ite held₁.cfgPut held₁

theorem writeSect (held : Held cs s) {mask x} : Held cs (s.writeSect mask x) := by
  unfold State.writeSect
  extract_lets _
  refine .foldS held fun _ _ held => ?_
  split
  · exact .foldS held fun _ _ held => held.writePlot
  · exact held.frame rfl rfl
  · exact held.cfgPut

theorem frameTable (held : Held cs s) {p q} : Held cs (s.frameTable p q) := by
  unfold State.frameTable
  extract_lets s₁ _
  have held₁ : Held cs s₁ := .foldS held fun _ _ held => held.stBytes
  exact held₁.stBytes.cfgPut

theorem plotReady (held : Held cs s) {p q b} : Held cs (s.plotReady p q b) := held.setFlag.setBit

theorem plotFence (held : Held cs s) {p q} : Held cs (s.plotFence p q) := by
  unfold State.plotFence
  extract_lets _ _
  exact held.plotReady.setH.capacityFault

theorem plotBlank (held : Held cs s) {p q} : Held cs (s.plotBlank p q) := held.clearBytes.setPlot

theorem plotStart (held : Held cs s) {p q} : Held cs (s.plotStart p q) := by
  unfold State.plotStart
  extract_lets _
  exact held.setFld.setPlot.plotReady.setH

theorem plotErr (held : Held cs s) {p q code} : Held cs (s.plotErr p q code) := held.setFld.raiseLocal

theorem setLoad (held : Held cs s) {st} : Held cs (s.setLoad st) := .ite held held.setFld.device

theorem verStop (held : Held cs s) {p} : Held cs (s.verStop p) := held.setFld

theorem loadAttempt (held : Held cs s) : Held cs s.loadAttempt := by
  unfold State.loadAttempt
  extract_lets s₁
  have held₁ : Held cs s₁ := held.satFld.setH.setRegN
  exact (held₁.frame (by rfl) (by rfl)).setLoad

theorem loadStart (held : Held cs s) {pav mask} : Held cs (s.loadStart pav mask) := by
  unfold State.loadStart
  extract_lets _ s₁
  have held₁ : Held cs s₁ := by
    unfold s₁
    refine .foldS held.setH.setH fun _ _ held => ?_
    extract_lets s₂ s₃
    have held₂ : Held cs s₂ := .foldS held fun _ _ held => held.plotFence.setPlot
    have held₃ : Held cs s₃ := .foldS held₂ fun _ _ held => .ite held.setH held
    exact held₃.verStop
  exact held₁.loadAttempt

theorem loadGo (held : Held cs s) {op} : Held cs (s.loadGo op) := .ite held.setFlag (.ite held.setH held.loadStart)

theorem loadCtlWrite (held : Held cs s) {v who} : Held cs (s.loadCtlWrite v who) := by
  unfold State.loadCtlWrite
  extract_lets s₁
  have held₁ : Held cs s₁ := held.setRegN
  exact .ite held₁ (.ite held₁.loadGo held₁.setFlag)

theorem loadFail (held : Held cs s) {code sect} : Held cs (s.loadFail code sect) := by
  unfold State.loadFail
  extract_lets s₁ s₂ s₃ s₄ _ s₅
  have held₁ : Held cs s₁ := held.setFld.device
  have held₂ : Held cs s₂ := .ite held₁.setRegN held₁
  have held₃ : Held cs s₃ := held₂.setH
  have held₄ : Held cs s₄ := .foldS held₂ fun _ _ held => .ite held.plotBlank held
  have held₅ : Held cs s₅ := held₄.setH
  exact .ite (held₃.frame (by rfl) (by rfl)).setLoad (held₅.frame (by rfl) (by rfl)).setLoad

theorem execLoadHeaderDone (held : Held cs s) {w1 nsect} : Ends cs (execLoadHeaderDone w1 nsect s) := by
  unfold Machine.execLoadHeaderDone
  extract_lets s₁ _
  have held₁ : Held cs s₁ := held.setRegN
  exact .ite (.next held) (.ite (.next held₁.loadFail) (.next (.setLoad
    (.foldS held₁ fun _ _ held => .ite held.plotFenced held))))

theorem initApply (held : Held cs s) : Held cs s.initApply := by
  unfold State.initApply
  extract_lets _ s₁ _
  have held₁ : Held cs s₁ := by
    unfold s₁
    refine .foldS held fun _ _ held => ?_
    split
    · extract_lets s₂
      have held₂ : Held cs s₂ := held.fabRegWrite
      exact .ite held₂.setH.clocksMoved held₂
    · exact held
  exact .foldS (held₁.frame rfl rfl) fun _ _ held => held.pllApply

theorem storedBytes (held : Held cs s) {sects} : Held cs (s.storedBytes sects) := by
  unfold State.storedBytes
  extract_lets _
  exact held.setRegN

theorem execLoadSectionsDone (held : Held cs s) {sects} : Ends cs (execLoadSectionsDone sects s) := by
  unfold Machine.execLoadSectionsDone
  extract_lets _ s₁ s₂
  have held₁ : Held cs s₁ := .storedBytes (.foldS held fun _ _ held => held.writeSect)
  have held₂ : Held cs s₂ := .foldS held₁.initApply fun _ _ held => held.frameTable.setPlot
  refine .ite (.next held) ?_
  split
  · exact .next (.loadFail (.storedBytes (.foldS held fun _ _ held => held.writeSect)))
  · exact .ite (.next held₁.loadFail) (.next held₂.setH.setLoad)

theorem loadedShow (held : Held cs s) {p} : Held cs (s.loadedShow p) := held.setFlag

theorem execLoadStartTime (held : Held cs s) : Ends cs (execLoadStartTime s) := by
  unfold Machine.execLoadStartTime
  extract_lets s₁ s₂ _
  have held₁ : Held cs s₁ := .foldS held fun _ _ held => held.plotStart.setH
  have held₂ : Held cs s₂ := by
    unfold s₂
    refine .foldS held₁ fun _ _ held => ?_
    extract_lets _
    exact held.loadedShow.setFld
  exact .ite (.next held) (.next held₂.setFld.setFld.setFld.setH.setRegN.setLoad.capacityBack)

theorem verHalt (held : Held cs s) {p} : Held cs (s.verHalt p) := held.setFld.alarm.raiseLocal

theorem verGoto (held : Held cs s) {p n} : Held cs (s.verGoto p n) := by
  unfold State.verGoto
  split
  · exact held.setH
  · exact held.addFld.setFld

theorem execVerifierPassStart (held : Held cs s) {p bad domeBad} :
    Ends cs (execVerifierPassStart p bad domeBad s) := by
  unfold Machine.execVerifierPassStart
  extract_lets s₁ _ _
  have held₁ : Held cs s₁ := held.addFld.setFlag.raiseLocal
  exact .ite (.next held) (.ite (.next held.setFld.verGoto) (.ite (.next held)
    (.ite (.next held₁.verHalt) (.next held₁.domeGet.stBytes.setFld.verGoto))))

theorem verFind (held : Held cs s) {p n kind} : Held cs (s.verFind p n kind) := held.setRegN.alarm.raiseLocal

theorem execVerifierFrameRead (held : Held cs s) {p found stuck} :
    Ends cs (execVerifierFrameRead p found stuck s) := by
  unfold Machine.execVerifierFrameRead
  refine .ite (.next held) ?_
  split
  · exact .next held.verGoto
  · extract_lets _ _ _ _ s₁
    have held₁ : Held cs s₁ := by
      unfold s₁
      split
      · exact held
      · extract_lets s₂
        have held₂ : Held cs s₂ := held.domeGet.stBytes
        exact .ite held (.ite held₂.setFlag.verFind.pavFault (.ite held₂.addFld.setFlag.verFind.pavFault
          held₂.stBytes.addFld.verFind))
    exact .ite (.next held) (.next held₁.verGoto)

theorem verCtlWrite (held : Held cs s) {p v} : Held cs (s.verCtlWrite p v) := by
  unfold State.verCtlWrite
  extract_lets _ s₁
  have held₁ : Held cs s₁ := held.setRegN
  exact .ite held₁.verStop (.ite held₁.setFld held₁)

theorem plotGo (held : Held cs s) {p q} : Held cs (s.plotGo p q) := by
  unfold State.plotGo
  extract_lets _
  exact .ite held.setFlag (.ite held.plotErr held.plotFence.setPlot)

theorem plotFail (held : Held cs s) {p q code} : Held cs (s.plotFail p q code) := held.plotBlank.plotErr

theorem execPlotSectionDone (held : Held cs s) {p q sect} : Ends cs (execPlotSectionDone p q sect s) := by
  unfold Machine.execPlotSectionDone
  extract_lets _ s₁
  have held₁ : Held cs s₁ := held.cfgGet
  refine .ite (.next held) (.ite (.next held.plotFail) ?_)
  refine .ite (.next held₁.plotFail) ?_
  split
  · exact .ite (.next held₁.plotFail) (.ite (.next held₁.plotFail) (.next held₁.writePlot.frameTable.setPlot))
  · exact .next held₁.plotFail

theorem plotSetup (held : Held cs s) {p q id j v} : Held cs (s.plotSetup p q id j v) := .ite held.setReg held.setFlag

end Held

end Sys2Proof.Form
end

section
/-!
SUPPORT, for O60. The functions of Machine/Cells keep the form of memory, and the queue.
-/
namespace Sys2Proof.Form

open Sys2Proof Sys2Proof.Machine

variable {cs : List Instr} {s t u : State}

namespace Held

theorem ramPut (held : Held cs s) {p q k i v} : Held cs (s.ramPut p q k i v) := by
  unfold State.ramPut
  extract_lets _
  exact held.stN

theorem ffPut (held : Held cs s) {p q c b} : Held cs (s.ffPut p q c b) := by
  unfold State.ffPut
  extract_lets _
  exact held.setPlotLogic

theorem cellSettle (held : Held cs s) {p q c ins sr} : Held cs (s.cellSettle p q c ins sr) := by
  unfold State.cellSettle
  extract_lets _ _ _ _ s₁
  have held₁ : Held cs s₁ := held.setPlotLogic
  exact .ite held₁.ffPut held₁

theorem cellClock (held : Held cs s) {p q c ins ce sr} : Held cs (s.cellClock p q c ins ce sr) := by
  unfold State.cellClock
  extract_lets _
  exact .ite held.ffPut (.ite held.ffPut held)

theorem wireRoute (held : Held cs s) {p q w src} : Held cs (s.wireRoute p q w src) := by
  unfold State.wireRoute
  extract_lets _ _
  exact .ite held held.setPlotLogic

theorem outDrive (held : Held cs s) {p q b src} : Held cs (s.outDrive p q b src) := by
  unfold State.outDrive
  extract_lets _ _ s₁
  have held₁ : Held cs s₁ := held.setPlotLogic
  exact .ite held (.ite held₁.clocksMoved (.ite held₁.setH held₁))

theorem ramShow (held : Held cs s) {p q k portB cfg bytes} : Held cs (s.ramShow p q k portB cfg bytes) := by
  unfold State.ramShow
  extract_lets _ _ _ s₁ _
  have held₁ : Held cs s₁ := .foldS held fun _ _ held => .ite held.sramUncorrectable held
  exact held₁.setPlotLogic

theorem ramCycle (held : Held cs s) {p q k a b race} : Held cs (s.ramCycle p q k a b race) := by
  unfold State.ramCycle
  extract_lets _ _ _ _ _ _ _ _ s₁ s₂
  have held₁ : Held cs s₁ := .foldS held fun _ _ held => .ite held.ramPut held
  have held₂ : Held cs s₂ := .ite held₁.ramShow held₁
  exact .ite held₂.ramShow held₂

theorem sliceCycle (held : Held cs s) {p q k a b c sub} : Held cs (s.sliceCycle p q k a b c sub) := by
  unfold State.sliceCycle
  extract_lets _ _ _
  exact held.setPlotLogic

theorem designMove (held : Held cs s) {p q m} : Held cs (s.designMove p q m) := by
  unfold State.designMove
  split
  · exact held.wireRoute
  · exact .ite held.cellSettle held
  · exact .ite held.cellClock held
  · exact held.outDrive
  · exact .ite held.ramCycle held
  · exact .ite held.sliceCycle held

theorem designsMove (held : Held cs s) : Held cs s.designsMove := by
  unfold State.designsMove
  refine .foldS held fun _ _ held => ?_
  extract_lets _
  exact .ite (.foldS held.takeFree fun _ _ held => held.designMove) held

theorem idle (held : Held cs s) : Held cs s.idle := held.pass.designsMove.crossingsMove

end Held

end Sys2Proof.Form
end

section
/-!
SUPPORT, for O60. The functions of Machine/DomeRun keep the form of memory, and the queue.
-/
namespace Sys2Proof.Form

open Sys2Proof Sys2Proof.Machine

variable {cs : List Instr} {s t u : State}

namespace Held

theorem txnAnswer (held : Held cs s) {t'} : Held cs (s.txnAnswer t') := by
  unfold State.txnAnswer
  extract_lets s₁
  have held₁ : Held cs s₁ := held.txnDone
  split
  · exact held
  · extract_lets s₂
    have held₂ : Held cs s₂ := by
      unfold s₂
      split
      · exact .ite held₁ held₁.cacheUses
      · exact held₁
    split
    · exact held
    · exact .ite held (.ite held₁.prmAnswer held₂.prmAnswer)

theorem txnsAnswer (held : Held cs s) {p} : Held cs (s.txnsAnswer p) :=
  .foldS held fun _ _ held => .ite held.txnAnswer held

theorem lineReadDone (held : Held cs s) {p c found tag} : Held cs (s.lineReadDone p c found tag) := by
  unfold State.lineReadDone
  split
  · exact held
  · extract_lets s₁ _
    have held₁ : Held cs s₁.2 := held.setIssued.eccLine
    split
    · exact held₁.txnPart
    · extract_lets s₂
      have held₂ : Held cs s₂ := .ite held₁.setH.keyLost held₁
      exact .ite held₂.txnPart (.txnPart (.ite held₁.keyTamper held₁))

end Held

end Sys2Proof.Form
end

section
/-!
SUPPORT, for O60. The functions of Machine/Lartum keep the form of memory, and the queue.
-/
namespace Sys2Proof.Form

open Sys2Proof Sys2Proof.Machine

variable {cs : List Instr} {s t u : State}

namespace Held

theorem setSide (held : Held cs s) {n l x} : Held cs (s.setSide n l x) := held.frame rfl rfl

theorem lrtEvent (held : Held cs s) {n} : Held cs (s.lrtEvent n) := .ite held.raiseLocal held.device

theorem prmLink (held : Held cs s) {n l up width} : Held cs (s.prmLink n l up width) := by
  unfold State.prmLink
  extract_lets _
  exact .ite (.ite held held.setRegN.raiseLocal) held

theorem lrtAlarm (held : Held cs s) {n ty} : Held cs (s.lrtAlarm n ty) := held.alarm

theorem setLrt (held : Held cs s) {n l st} : Held cs (s.setLrt n l st) := .ite held held.setFld.lrtEvent

theorem linkFault (held : Held cs s) {n l known} : Held cs (s.linkFault n l known) := by
  unfold State.linkFault
  extract_lets s₁ s₂ _ s₃
  have held₁ : Held cs s₁ := .ite held held.faultStart.lrtAlarm
  have held₂ : Held cs s₂ := held₁.candidate
  have held₃ : Held cs s₃ := .ite held₂.subTouched held₂
  exact .ite (.ite held₃.pavFault held₃) held₁

theorem lrtDown (held : Held cs s) {n l} : Held cs (s.lrtDown n l) := by
  unfold State.lrtDown
  extract_lets _ _ _ _ s₁ s₂ _
  have held₁ : Held cs s₁ := held.setSide.setFld.setFlag.setRegN.setLrt.prmLink
  have held₂ : Held cs s₂ := .ite held₁.edgeFault held₁
  exact .ite (.linkFault (.ite held₂ held₂.capacityFault)) held₂

theorem lrtDetect (held : Held cs s) {n l} : Held cs (s.lrtDetect n l) := by
  unfold State.lrtDetect
  extract_lets _ _
  exact .ite held.satFld.setFld.setSide.setLrt held

theorem sideRetrain (held : Held cs s) {n l cap widen} : Held cs (s.sideRetrain n l cap widen) := by
  unfold State.sideRetrain
  extract_lets _ _
  exact held.setSide.setFlag.setH.setLrt

theorem bothSides (held : Held cs s) {n l cond f} (side : ∀ t n l, Held cs t → Held cs (f t n l)) :
    Held cs (s.bothSides n l cond f) := by
  unfold State.bothSides
  extract_lets t
  have near : Held cs t := side s n l held
  split
  · exact .ite (side t _ _ near) near
  · exact near

theorem lrtRetrain (held : Held cs s) {n l cap widen} : Held cs (s.lrtRetrain n l cap widen) :=
  held.bothSides fun _ _ _ held => held.sideRetrain

theorem laneTest (held : Held cs s) {n l pass} : Held cs (s.laneTest n l pass) := by
  unfold State.laneTest
  extract_lets _ _ s₁ s₂ _ s₃
  have held₁ : Held cs s₁ := held.setSide
  have held₂ : Held cs s₂ := .ite held₁.setH.setH.jrnlWritten held₁
  have held₃ : Held cs s₃ := held₂.setRegN
  exact .ite held (.ite held₃.lrtDown held₃.setLrt)

theorem advertise (held : Held cs s) {n l lanes cap next} : Held cs (s.advertise n l lanes cap next) := by
  unfold State.advertise
  extract_lets s₁ _ _
  have held₁ : Held cs s₁ := held.setRegN
  refine .ite held ?_
  split
  · exact held₁.lrtDown
  · exact held₁.setSide.setRegN.setFld.setLrt

theorem lrtUpNow (held : Held cs s) {n l} : Held cs (s.lrtUpNow n l) := by
  unfold State.lrtUpNow
  extract_lets _ _ _ _ _ s₁ s₂ s₃ s₄
  have held₁ : Held cs s₁ := held.setSide.setH.setH.setFld.setFld.setFld.setFld.setH
  have held₂ : Held cs s₂ := .ite held₁ held₁.jrnlWritten
  have held₃ : Held cs s₃ := held₂.setLrt.prmLink.faultEnd
  have held₄ : Held cs s₄ := .ite held₃.edgeBack held₃
  exact .ite held₄.capacityBack (.ite held₄.capacityFault held₄)

theorem lrtCheck (held : Held cs s) {n l width lanes} : Held cs (s.lrtCheck n l width lanes) := by
  unfold State.lrtCheck
  extract_lets _ _ _ s₁
  have held₁ : Held cs s₁ := held.setFld.setH.lrtEvent
  exact .ite held (.ite (.ite held.setSide held.lrtUpNow) (.ite held₁.setH.lrtDown held₁.setSide.setLrt))

theorem lrtMark (held : Held cs s) {n l lanes} : Held cs (s.lrtMark n l lanes) :=
  .jrnlWritten (held.bothSides fun _ _ _ held => held.setH.setRegN)

theorem lrtStep (held : Held cs s) {n l} : Held cs (s.lrtStep n l) := by
  unfold State.lrtStep
  extract_lets w s₁ s₂
  have held₁ : Held cs s₁ := .lrtAlarm (held.bothSides fun _ _ _ held => held.addFld)
  have held₂ : Held cs s₂ := held₁.bothSides fun _ _ _ held => held.setFld.setH.sideRetrain.setH.prmLink
  exact .ite held₁.lrtDown held₂.jrnlWritten.capacityFault

theorem swapStart (held : Held cs s) {n l f} : Held cs (s.swapStart n l f) := by
  unfold State.swapStart
  extract_lets _
  split
  · exact .ite held.setSide.setFlag held.lrtStep
  · exact held.lrtStep

theorem lanesFail (held : Held cs s) {n l lanes} : Held cs (s.lanesFail n l lanes) := by
  unfold State.lanesFail
  extract_lets inUse s₁ x
  have held₁ : Held cs s₁ := held.lrtMark
  clear_value inUse
  refine .ite (.ite held₁.lrtStep held₁) ?_
  split
  · exact .ite held₁.setSide.setFlag.swapStart held₁.setSide
  · split
    · exact held₁
    · exact held₁.swapStart
    · exact .ite held₁.lrtStep held₁.setSide.swapStart

theorem swapReq (held : Held cs s) {n l f sp} : Held cs (s.swapReq n l f sp) := .ite held.setSide.setFlag held

theorem execLctlSwapAck (held : Held cs s) {n l first} : Ends cs (execLctlSwapAck n l first s) := by
  unfold Machine.execLctlSwapAck
  extract_lets _
  split
  · exact .next held.setSide
  · exact .next held

theorem swapMap (held : Held cs s) {n l w} : Held cs (s.swapMap n l w) := by
  unfold State.swapMap
  extract_lets _
  exact held.setRegN.setFlag

theorem swapDone (held : Held cs s) {n l w} : Held cs (s.swapDone n l w) := by
  unfold State.swapDone
  extract_lets s₁ s₂ s₃ x
  have held₁ : Held cs s₁ := held.bothSides fun _ _ _ held => held.setH.swapMap.addFld.setFld.lrtEvent
  have held₂ : Held cs s₂ := held₁.lrtAlarm
  have held₃ : Held cs s₃ := by
    unfold s₃
    split
    · exact held₂.setSide
    · exact held₂
  split
  · exact held₃.setSide
  · exact held₃.setSide.swapStart

theorem swapBad (held : Held cs s) {n l w} : Held cs (s.swapBad n l w) := by
  unfold State.swapBad
  extract_lets _ _
  exact held.lrtMark.setSide.setFlag.swapStart

theorem linkDeliver (held : Held cs s) {m l f} : Held cs (s.linkDeliver m l f) := by
  unfold State.linkDeliver
  extract_lets _
  exact held.setPIn

theorem frameRx (held : Held cs s) {n l f} : Held cs (s.frameRx n l f) := by
  unfold State.frameRx
  extract_lets _ s₁ _ s₂ s₃ s₄ _
  have held₁ : Held cs s₁ := held.setSide
  have held₂ : Held cs s₂ := .foldS held₁ fun _ _ held => held.satFld
  have held₃ : Held cs s₃ := held₂.setSide
  have held₄ : Held cs s₄ := by
    unfold s₄
    split
    · exact held₃
    · split
      · exact .ite held₃.linkDeliver held₃
      · exact held₃
  refine .ite held (.ite (.setSide (.ite held.sramCorrected held)) ?_)
  refine .ite held.addFld.setSide (.ite held₁.setSide ?_)
  split
  · split
    · exact held₄
    · exact .ite held₄ (.ite held₄.swapBad (.ite held₄.swapDone held₄.setSide))
  · exact held₄

theorem nak (held : Held cs s) {n l seq} : Held cs (s.nak n l seq) := by
  unfold State.nak
  extract_lets _ _ _ _ s₁
  have held₁ : Held cs s₁ := .foldS held.setSide.addFld fun _ _ held => held.admDelayed
  exact .ite held (.ite held₁.lrtRetrain held₁)

theorem ctlResend (held : Held cs s) {n l} : Held cs (s.ctlResend n l) := by
  unfold State.ctlResend
  extract_lets _
  split
  · exact .ite held.setSide held
  · exact held

theorem lrtEn (held : Held cs s) {n l en} : Held cs (s.lrtEn n l en) := by
  unfold State.lrtEn
  extract_lets s₁
  have held₁ : Held cs s₁ := held.setFlag
  exact .ite held₁ held₁.lrtDown

theorem lrtRetrainWrite (held : Held cs s) {n l widen} : Held cs (s.lrtRetrainWrite n l widen) :=
  .ite held.lrtRetrain held

theorem lrtPrst (held : Held cs s) {n l} : Held cs (s.lrtPrst n l) := by
  unfold State.lrtPrst
  extract_lets _ s₁ _ s₂ _ _
  have held₁ : Held cs s₁ := held.lrtDown
  have held₂ : Held cs s₂ := .ite held₁ held₁.setH.setH
  exact held₂.setSide

theorem lrtCtlWrite (held : Held cs s) {n l v who} : Held cs (s.lrtCtlWrite n l v who) := by
  unfold State.lrtCtlWrite
  extract_lets s₁
  have held₁ : Held cs s₁ := held.lrtEn
  exact .ite held.setFlag (.ite held₁.lrtPrst (.ite held₁.lrtRetrainWrite (.ite held₁.lrtRetrainWrite held₁)))

theorem lrtThrWrite (held : Held cs s) {n l v who} : Held cs (s.lrtThrWrite n l v who) :=
  .ite held.setRegN held.setFlag

theorem requeue (held : Held cs s) {n o l} : Held cs (s.requeue n o l) := by
  unfold State.requeue
  extract_lets _
  exact .foldS held.setPOut fun _ _ held => held.setPIn

theorem rtDelivered (held : Held cs s) {n w} : Held cs (s.rtDelivered n w) := by
  unfold State.rtDelivered
  extract_lets _ _
  exact .ite held.lateFlit held

theorem sendFlit (held : Held cs s) {n o f} : Held cs (s.sendFlit n o f) := by
  unfold State.sendFlit
  extract_lets _ _ _ s₁ s₂
  have held₁ : Held cs s₁ := held.setPOut.setH
  have held₂ : Held cs s₂ := .ite held₁ held₁.rtDelivered
  split
  · extract_lets _
    exact held₁.setSide
  · refine .ite held₂ (.ite held₂.setPRx ?_)
    refine .ite ?_ (held₂.frame rfl rfl)
    split
    · exact held₂.setPIn
    · exact held₂

theorem slotFlit (held : Held cs s) {n o owners} : Held cs (s.slotFlit n o owners) := by
  unfold State.slotFlit
  refine .ite held ?_
  split
  · exact held.sendFlit.useSlot
  · exact held

theorem arbitrate (held : Held cs s) {n o} : Held cs (s.arbitrate n o) := by
  unfold State.arbitrate
  extract_lets _ _ _ _ _ _ _ _ s₁ _ _ _ _
  have held₁ : Held cs s₁ := held.requeue.setH.setH.setH.setH
  refine .ite held₁.slotFlit (.ite ?_ ?_)
  · split
    · exact held₁.sendFlit.setH
    · exact held₁
  · refine .ite ?_ ?_
    · split
      · exact held₁.sendFlit.setH
      · exact held₁
    · split
      · exact held₁.sendFlit
      · exact held₁

theorem reinject (held : Held cs s) {n e} : Held cs (s.reinject n e) := by
  unfold State.reinject
  extract_lets _ _ _ _ _ _ _ _ _
  exact .ite held held.setSide.setPOut.addFld.setPOut

end Held

end Sys2Proof.Form
end

section
/-!
SUPPORT, for O60. The functions of Machine/Xfl keep the form of memory, and the queue.
-/
namespace Sys2Proof.Form

open Sys2Proof Sys2Proof.Machine

variable {cs : List Instr} {s t u : State}

namespace Held

theorem setLane (held : Held cs s) {t' l x} : Held cs (s.setLane t' l x) := held.frame rfl rfl

theorem modLane (held : Held cs s) {t' l f} : Held cs (s.modLane t' l f) := held.setLane

theorem laneBit (held : Held cs s) {f t' l} : Held cs (s.laneBit f t' l) := .ite held held.setFlag.device

theorem setLaneState (held : Held cs s) {t' l st} : Held cs (s.setLaneState t' l st) := by
  unfold State.setLaneState
  extract_lets _ s₁ s₂
  have held₁ : Held cs s₁ := held.setFld.device
  have held₂ : Held cs s₂ := .ite held₁.setFlag held₁
  exact .ite held (.ite held₂.sourceFollow held₂)

theorem laneDown (held : Held cs s) {t' l} : Held cs (s.laneDown t' l) := by
  unfold State.laneDown
  extract_lets s₁ _
  have held₁ : Held cs s₁ := .ite held.faultStart.alarm held
  exact held₁.setLaneState.setFlag.modLane

theorem laneTry (held : Held cs s) {t' l} : Held cs (s.laneTry t' l) := held.satFld.modLane.setLaneState

theorem laneFail (held : Held cs s) {t' l} : Held cs (s.laneFail t' l) := held.laneDown.modLane

theorem anchorUse (held : Held cs s) {t' l} : Held cs (s.anchorUse t' l) := by
  unfold State.anchorUse
  extract_lets _ _ _ s₁
  have held₁ : Held cs s₁ := .foldS held.modLane fun _ _ held => held.setH
  exact .ite held₁.setRegN held₁

theorem laneEn (held : Held cs s) {t' l en} : Held cs (s.laneEn t' l en) := by
  unfold State.laneEn
  extract_lets _ s₁
  have held₁ : Held cs s₁ := held.setFlag
  exact .ite held₁.anchorUse.laneTry (.ite held₁.laneDown.faultEnd.modLane held₁)

theorem laneRetrain (held : Held cs s) {t' l} : Held cs (s.laneRetrain t' l) := by
  unfold State.laneRetrain
  extract_lets s₁
  have held₁ : Held cs s₁ := held.laneDown.modLane
  exact .ite held₁.laneTry held₁

theorem laneCtlWrite (held : Held cs s) {t' l v} : Held cs (s.laneCtlWrite t' l v) := by
  unfold State.laneCtlWrite
  extract_lets s₁
  have held₁ : Held cs s₁ := held.laneEn
  exact .ite held₁.laneRetrain held₁

theorem cdrLost (held : Held cs s) {t' l} : Held cs (s.cdrLost t' l) := .ite held.device held

theorem execXflBlockLockLost (held : Held cs s) {t' l hdrs cdr} : Ends cs (execXflBlockLockLost t' l hdrs cdr s) := by
  unfold Machine.execXflBlockLockLost
  extract_lets s₁
  have held₁ : Held cs s₁ := .ite held.cdrLost held
  exact .ite (.next held₁.laneFail) (.next held₁)

theorem laneFrame (held : Held cs s) {t' l eth ts nxt xs gap crc} :
    Held cs (s.laneFrame t' l eth ts nxt xs gap crc) := by
  unfold State.laneFrame
  refine .foldS held fun _ _ held => ?_
  extract_lets _
  exact .ite (.ite held.setH held.modStream) held

theorem slotRx (held : Held cs s) {t' l n eth bad ts nxt x} : Held cs (s.slotRx t' l n eth bad ts nxt x) := by
  unfold State.slotRx
  extract_lets _ _ _
  exact .ite held.setLane held.setLane.laneFrame

theorem slotsRx (held : Held cs s) {t' l n eth bad stamp start xs} :
    Held cs (s.slotsRx t' l n eth bad stamp start xs) :=
  .foldS held fun _ _ held => held.slotRx

theorem payloadRx (held : Held cs s) {t' l bs bad stamp} : Held cs (s.payloadRx t' l bs bad stamp) := by
  unfold State.payloadRx
  extract_lets _ _ _ s₁ s₂
  have held₁ : Held cs s₁ := .ite held.laneBit held
  have held₂ : Held cs s₂ := held₁.modLane
  exact .ite held.slotsRx (.ite held (.ite held₂.slotsRx held₂))

theorem identRx (held : Held cs s) {t' l bs} : Held cs (s.identRx t' l bs) := by
  unfold State.identRx
  extract_lets _ _ _ _ s₁ s₂
  have held₁ : Held cs s₁ := held.setReg.setRegN.setFlag.modLane
  have held₂ : Held cs s₂ := .ite held₁.laneBit held₁
  exact .ite held₂.laneBit.sourceFollow held₂

theorem timeRx (held : Held cs s) {t' l bs stamp} : Held cs (s.timeRx t' l bs stamp) := by
  unfold State.timeRx
  extract_lets _ _ _ _ s₁ _
  have held₁ : Held cs s₁ := held.modLane
  refine .ite held₁ ?_
  split
  · exact .ite held₁.xferExchange.modLane (.ite held₁ held₁.modLane)
  · exact held₁.modLane

theorem sfCounts (held : Held cs s) {t' l bs good stamp} : Held cs (s.sfCounts t' l bs good stamp) := held.modLane

theorem sfShow (held : Held cs s) {t' l bs good corr uncorr} : Held cs (s.sfShow t' l bs good corr uncorr) := by
  unfold State.sfShow
  extract_lets s₁ s₂ s₃
  have held₁ : Held cs s₁ := held.addFld.addFld
  have held₂ : Held cs s₂ := .ite held₁.laneBit held₁
  have held₃ : Held cs s₃ := .ite held₂.setFld held₂
  exact .ite held₃ held₃.addFld.laneBit

theorem laneAdvance (held : Held cs s) {t' l bs good} : Held cs (s.laneAdvance t' l bs good) := by
  unfold State.laneAdvance
  extract_lets _
  exact .ite held.setLaneState (.ite held.setFld.faultEnd.modLane.setLaneState held)

theorem sfRx (held : Held cs s) {t' l bs corr uncorr} : Held cs (s.sfRx t' l bs corr uncorr) := by
  unfold State.sfRx
  extract_lets _ _ _ s₁ _ s₂ s₃
  have held₁ : Held cs s₁ := held.sfShow.sfCounts
  have held₂ : Held cs s₂ := .ite held₁.payloadRx held₁
  have held₃ : Held cs s₃ := .ite held₂.identRx (.ite held₂.timeRx held₂)
  exact .ite held (.ite held₁.laneFail held₃.laneAdvance)

theorem sfTx (held : Held cs s) {t' l} : Held cs (s.sfTx t' l) := by
  unfold State.sfTx
  extract_lets _ _ _
  refine .ite held (.ite held.modLane ?_)
  split
  · extract_lets _ _ _ s₁ _ _
    have held₁ : Held cs s₁ := .foldS held fun _ _ held => held.setH.setH
    exact held₁.setLane

theorem laneCfgWrite (held : Held cs s) {t' l v} : Held cs (s.laneCfgWrite t' l v) := .ite held held.setRegN

theorem ethSource (held : Held cs s) {t' id w2 w3 off slots} : Held cs (s.ethSource t' id w2 w3 off slots) := by
  unfold State.ethSource
  extract_lets _ _ _ _ _ _ _ _ _ s₁ _
  have held₁ : Held cs s₁ := held.setH.setH.setH.sourceFollow.modLane
  exact .ite (.foldS held₁ fun _ _ held => held.slotRx) held₁

end Held

end Sys2Proof.Form
end

section
/-!
SUPPORT, for O60. The functions of Machine/External keep the form of memory, and the queue.
-/
namespace Sys2Proof.Form

open Sys2Proof Sys2Proof.Machine

variable {cs : List Instr} {s t u : State}

namespace Held

theorem xcvIgn (held : Held cs s) {t' l} : Held cs (s.xcvIgn t' l) := held.setFlag

theorem rateFollow (held : Held cs s) {t' l} : Held cs (s.rateFollow t' l) := by
  unfold State.rateFollow
  extract_lets _ _ _ _ s₁
  have held₁ : Held cs s₁ := held.setFlag
  exact .ite held₁.device held₁

theorem xcvCfgErr (held : Held cs s) {t' l} : Held cs (s.xcvCfgErr t' l) := .ite held held.setFlag.device

theorem xcvCfgWrite (held : Held cs s) {t' l v} : Held cs (s.xcvCfgWrite t' l v) := by
  unfold State.xcvCfgWrite
  extract_lets _ _
  exact .ite held.xcvIgn (.ite held.xcvCfgErr held.setRegN.rateFollow)

theorem xcvCtlSet (held : Held cs s) {t' l v} : Held cs (s.xcvCtlSet t' l v) := by
  unfold State.xcvCtlSet
  extract_lets _ _ s₁ s₂
  have held₁ : Held cs s₁ := held.setRegN
  have held₂ : Held cs s₂ := .ite held₁.setFlag held₁
  exact .ite held₂.setRegN held₂

theorem xcvCtlWrite (held : Held cs s) {t' l v} : Held cs (s.xcvCtlWrite t' l v) := .ite held.xcvIgn held.xcvCtlSet

theorem xcvTxeqWrite (held : Held cs s) {t' l v} : Held cs (s.xcvTxeqWrite t' l v) := by
  unfold State.xcvTxeqWrite
  extract_lets _
  exact .ite held.xcvIgn held.setRegN

theorem xcvQuadWrite (held : Held cs s) {t' q v} : Held cs (s.xcvQuadWrite t' q v) := by
  unfold State.xcvQuadWrite
  extract_lets _ _ s₁ s₂
  have held₁ : Held cs s₁ := held.setRegN
  have held₂ : Held cs s₂ := .ite held.setRegN (.ite held₁ (.foldS held₁ fun _ _ held => held.xcvIgn))
  exact .foldS held₂ fun _ _ held => held.rateFollow

theorem xcvRefWrite (held : Held cs s) {t' q v} : Held cs (s.xcvRefWrite t' q v) :=
  .foldS held.setRegN fun _ _ held => held.rateFollow

theorem ppmWindow (held : Held cs s) {t' q ppm} : Held cs (s.ppmWindow t' q ppm) := by
  unfold State.ppmWindow
  extract_lets _ _
  exact held.setH.setFld.setFlag.setFlag

theorem usableFollow (held : Held cs s) {f} : Held cs (s.usableFollow f) := by
  unfold State.usableFollow
  extract_lets _ s₁
  have held₁ : Held cs s₁ := held.setFlag.device
  exact .ite held (.ite held₁ held₁.qpsStall)

theorem endpointFollow (held : Held cs s) {e} : Held cs (s.endpointFollow e) := held.usableFollow.usableFollow

theorem fnReset (held : Held cs s) {f flr} : Held cs (s.fnReset f flr) := by
  unfold State.fnReset
  extract_lets s₁
  have held₁ : Held cs s₁ := held.setFlag.setFlag.setFlag.setFlag
  exact held₁.frame rfl rfl

theorem endpointReset (held : Held cs s) {e} : Held cs (s.endpointReset e) := by
  unfold State.endpointReset
  extract_lets _ s₁ s₂
  have held₁ : Held cs s₁ := held.setFld.setFld.setFlag.setFlag
  have held₂ : Held cs s₂ := .ite held₁.device held₁
  exact held₂.fnReset.fnReset.endpointFollow

theorem execPcieLinkChange (held : Held cs s) {e up width gen} : Ends cs (execPcieLinkChange e up width gen s) :=
  .ite (.next held.endpointReset) (.ite (.next held.setFld.setFld.setFlag.device.endpointFollow) (.next held))

theorem execIdeFail (held : Held cs s) {e} : Ends cs (execIdeFail e s) := by
  unfold Machine.execIdeFail
  extract_lets _ s₁
  have held₁ : Held cs s₁ := held.setFlag.setFlag
  exact .next (.endpointFollow (.ite held₁ held₁.device))

theorem epCtlWrite (held : Held cs s) {e v} : Held cs (s.epCtlWrite e v) := by
  unfold State.epCtlWrite
  extract_lets s₁
  have held₁ : Held cs s₁ := held.setRegN
  exact .ite held₁.endpointFollow held₁.endpointReset

theorem fnCfgWrite (held : Held cs s) {f v} : Held cs (s.fnCfgWrite f v) := by
  unfold State.fnCfgWrite
  extract_lets _ _ s₁
  have held₁ : Held cs s₁ := .ite held.setFlag held
  exact held₁.setRegN.usableFollow

theorem hostFail (held : Held cs s) {q} : Held cs (s.hostFail q) := by
  unfold State.hostFail
  split
  · exact held.qpFail
  · exact held

theorem execHostCompletionRx (held : Held cs s) {f q res} : Ends cs (execHostCompletionRx f q res s) := by
  unfold Machine.execHostCompletionRx
  split
  · exact .next held
  · exact .next held.addFld.hostFail
  · exact .next held.hostFail

theorem ethDown (held : Held cs s) {t'} : Held cs (s.ethDown t') := by
  unfold State.ethDown
  extract_lets _ s₁
  have held₁ : Held cs s₁ := held.setFlag.setFlag.setH.setLane
  exact .sourceFollow (.ite held₁.device held₁)

theorem ethCtlWrite (held : Held cs s) {t' v} : Held cs (s.ethCtlWrite t' v) := by
  unfold State.ethCtlWrite
  extract_lets _ _ s₁ s₂
  have held₁ : Held cs s₁ := held.setRegN.setFld
  have held₂ : Held cs s₂ := held.setRegN
  exact .ite (.ite held₁ held₁.device) (.ite held₂.ethDown.setFlag held₂)

theorem execEthLinkDown (held : Held cs s) {t' cdr} : Ends cs (execEthLinkDown t' cdr s) := by
  unfold Machine.execEthLinkDown
  extract_lets s₁
  have held₁ : Held cs s₁ := by
    unfold s₁
    split
    · exact held.cdrLost
    · exact held
  exact .next held₁.ethDown

theorem secRx (held : Held cs s) {t' sec} : Held cs (s.secRx t' sec).2 := by
  unfold State.secRx
  split
  · exact held
  · exact .ite₂ held held.setRegN

theorem ethData (held : Held cs s) {t' off bs} : Held cs (s.ethData t' off bs) := by
  unfold State.ethData
  extract_lets _ _
  exact .ite held.addFld.ethSource held.addFld

theorem ethRx (held : Held cs s) {t' bs fcs sec} : Held cs (s.ethRx t' bs fcs sec) := by
  unfold State.ethRx
  extract_lets s₁
  have held₁ : Held cs s₁.2 := held.secRx
  exact .ite held (.ite held.addFld (.ite held (.ite held.setFlag (.ite (.ite held₁.addFld held₁.ethData)
    (.ite held.addFld held.ethData)))))

theorem pnFollow (held : Held cs s) {t'} : Held cs (s.pnFollow t') := by
  unfold State.pnFollow
  extract_lets _ _ s₁
  have held₁ : Held cs s₁ := held.setFlag
  exact .ite held₁.device held₁

theorem pnUse (held : Held cs s) {t'} : Held cs (s.pnUse t') := by
  unfold State.pnUse
  extract_lets _ _ s₁ s₂
  have held₁ : Held cs s₁ := held.setRegN
  have held₂ : Held cs s₂ := .ite held₁.setFlag.device held₁
  exact .ite held held₂.pnFollow

theorem secCtlWrite (held : Held cs s) {t' v} : Held cs (s.secCtlWrite t' v) := held.setRegN.pnFollow

theorem saWrite (held : Held cs s) {t' id i j v} : Held cs (s.saWrite t' id i j v) :=
  .ite held.setFlag held.setReg.pnFollow

theorem farmSend (held : Held cs s) {d} : Held cs (s.farmSend d) := by
  unfold State.farmSend
  extract_lets _ _
  refine .ite held ?_
  split
  · exact held
  · extract_lets _ _ _ s₁
    have held₁ : Held cs s₁ := (held.frame (by rfl) (by rfl)).addFld.pnUse
    exact .ite held (.ite held₁.setRegN.addFld.eventSent held₁.onEvent)

end Held

end Sys2Proof.Form
end

section
/-!
SUPPORT, for O60. The functions of Machine/Spire keep the form of memory, and the queue.
-/
namespace Sys2Proof.Form

open Sys2Proof Sys2Proof.Machine

variable {cs : List Instr} {s t u : State}

namespace Held

theorem setCtx (held : Held cs s) {p k x c} : Held cs (s.setCtx p k x c) := held.frame rfl rfl

theorem sprShow (held : Held cs s) {p k} : Held cs (s.sprShow p k) := by
  unfold State.sprShow
  extract_lets _
  exact held.setFld

theorem setCtxState (held : Held cs s) {p k x st} : Held cs (s.setCtxState p k x st) := held.setRegN.sprShow

theorem sprStart (held : Held cs s) {p k x addr args} : Held cs (s.sprStart p k x addr args) := by
  unfold State.sprStart
  extract_lets _ _ _
  exact held.setCtx.setH.setCtxState

theorem sprStartWrite (held : Held cs s) {p k v} : Held cs (s.sprStartWrite p k v) := by
  unfold State.sprStartWrite
  extract_lets _
  exact .ite held.sprStart held.setFlag

theorem ctxFault (held : Held cs s) {p k x cause} : Held cs (s.ctxFault p k x cause) := by
  unfold State.ctxFault
  extract_lets _ _ s₁
  have held₁ : Held cs s₁ := held.setRegN.setCtx.setCtxState.raiseLocal
  exact .ite held₁.fastLeave held₁

theorem ctxEnd (held : Held cs s) {p k x} : Held cs (s.ctxEnd p k x) := by
  unfold State.ctxEnd
  extract_lets _ s₁
  have held₁ : Held cs s₁ := held.setCtx.setCtxState
  exact .ite held₁.fastLeave held₁

theorem sprClrf (held : Held cs s) {p k x} : Held cs (s.sprClrf p k x) := .ite held.setCtxState held

theorem sprEn (held : Held cs s) {p k en} : Held cs (s.sprEn p k en) := .ite held.sprIgn held.setFlag.sprShow

theorem dmaEnd (held : Held cs s) {p k c err} : Held cs (s.dmaEnd p k c err) := by
  unfold State.dmaEnd
  extract_lets s₁
  have held₁ : Held cs s₁ := held.setFlag.setFlag.setFld.setH.setH.setH
  exact .ite held₁.raiseLocal held₁

theorem dmaNext (held : Held cs s) {p k c} : Held cs (s.dmaNext p k c) := by
  unfold State.dmaNext
  extract_lets _ s₁
  have held₁ : Held cs s₁.2 := held.prmSend
  exact .ite held (.ite held₁.setH held₁.dmaEnd)

theorem forwardOn (held : Held cs s) {n i cls} : Held cs (s.forwardOn n i cls) := by
  unfold State.forwardOn
  extract_lets _ s₁
  have held₁ : Held cs s₁ := held.forward
  exact .ite held₁.dmaNext held₁

theorem bufParity (held : Held cs s) {n i cls row} : Held cs (s.bufParity n i cls row) := by
  unfold State.bufParity
  split
  · exact held
  · extract_lets _ s₁
    have held₁ : Held cs s₁ := held.setPIn
    exact .ite held₁.sramUncorrectable held₁

theorem execPacketForward (held : Held cs s) {n i cls par} : Ends cs (execPacketForward n i cls par s) := by
  unfold Machine.execPacketForward
  split
  · exact .next held.forwardOn
  · exact .next held.bufParity.forwardOn

theorem dmaStop (held : Held cs s) {p k c} : Held cs (s.dmaStop p k c) := by
  unfold State.dmaStop
  extract_lets _
  exact .ite (.ite held.dmaEnd held.setH) held

theorem dmaCtlWrite (held : Held cs s) {p k c v} : Held cs (s.dmaCtlWrite p k c v) := by
  unfold State.dmaCtlWrite
  extract_lets _ s₁ s₂ _
  have held₁ : Held cs s₁ := .ite held.dmaStop held
  have held₂ : Held cs s₂ := held₁.setRegN.setFld
  exact .ite (.ite held₁.sprIgn (.ite held₂.setFlag.setH.setH.setH.dmaNext held₂.dmaEnd)) held₁.setRegN

end Held

end Sys2Proof.Form
end

section
/-!
SUPPORT, for O60. The functions of Machine/Tasks keep the form of memory, and the queue.
-/
namespace Sys2Proof.Form

open Sys2Proof Sys2Proof.Machine

variable {cs : List Instr} {s t u : State}

namespace Held

theorem setTu (held : Held cs s) {p f u'} : Held cs (s.setTu p f u') := by
  unfold State.setTu
  extract_lets _ _ _ _
  exact .foldS (held.frame (by rfl) (by rfl)).setFld.setFld.setFld.setFld.setFld.setFlag fun _ _ held => held.setRegN

theorem tskIgn (held : Held cs s) {p} : Held cs (s.tskIgn p) := held.setFlag

theorem cplPush (held : Held cs s) {p f r} : Held cs (s.cplPush p f r) := by
  unfold State.cplPush
  extract_lets _ _ s₁ _ s₂ s₃
  have held₁ : Held cs s₁ := held.setTu
  have held₂ : Held cs s₂ := .ite held₁.raiseLocal held₁
  have held₃ : Held cs s₃ := .ite held₂.raiseLocal held₂
  exact .ite held₃.setFlag.raiseLocal held₃

theorem tskComplete (held : Held cs s) {p t' target status} : Held cs (s.tskComplete p t' target status) := by
  unfold State.tskComplete
  extract_lets s₁ s₂ _ _
  have held₁ : Held cs s₁ := .ite held.addFld held
  have held₂ : Held cs s₂ := .ite held₁.addFld held₁
  exact .ite held₂.setTu (.ite held₂.cplPush held₂.setTu)

theorem tskTargetDone (held : Held cs s) {p t' status} : Held cs (s.tskTargetDone p t' status) := by
  unfold State.tskTargetDone
  extract_lets _ s₁
  have held₁ : Held cs s₁ := held.frame rfl rfl
  split
  · exact held
  · extract_lets s₂
    have held₂ : Held cs s₂ := .ite held₁ held₁.setH.setH
    exact held₂.tskComplete

theorem cplPop (held : Held cs s) {p} : Held cs (s.cplPop p).2 := by
  unfold State.cplPop
  extract_lets _
  split
  · exact held
  · extract_lets s₁ s₂
    have held₁ : Held cs s₁ := .foldS held fun _ _ held => held.setRegN
    have held₂ : Held cs s₂ := by
      unfold s₂
      split
      · exact held₁.setTu
      · exact held₁.setTu.cplPush
    exact held₂

theorem cplThrWrite (held : Held cs s) {p v} : Held cs (s.cplThrWrite p v) := by
  unfold State.cplThrWrite
  extract_lets _ _ s₁
  have held₁ : Held cs s₁ := held.setFld
  exact .ite held₁.raiseLocal held₁

theorem tskPost (held : Held cs s) {p flow word arg due} : Held cs (s.tskPost p flow word arg due).2.2 := by
  unfold State.tskPost
  extract_lets _ _ _ _ s₁
  have held₁ : Held cs s₁ := .ite held.addFld held
  split
  · exact held
  · split
    · exact held.raiseLocal
    · extract_lets _
      exact .ite₃ (.ite₃ held.raiseLocal held.setTu.addFld) held₁.setTu.addFld

theorem tskDrop (held : Held cs s) {p t'} : Held cs (s.tskDrop p t') := by
  unfold State.tskDrop
  extract_lets _ _
  exact (held.frame (by rfl) (by rfl)).tskComplete

theorem tskForceEnd (held : Held cs s) {p k} : Held cs (s.tskForceEnd p k) := .ite held.setH held.ctxEnd.tskTargetDone

theorem tskCancel (held : Held cs s) {p flow tag pcancel} : Held cs (s.tskCancel p flow tag pcancel).2.2 := by
  unfold State.tskCancel
  extract_lets _ _
  split
  · exact held.tskDrop
  · split
    · exact .ite₃ held.tskForceEnd held
    · exact .ite₃ held (.ite₃ held held)

theorem tskCommand (held : Held cs s) {p w} : Held cs (s.tskCommand p w).2.2 := by
  unfold State.tskCommand
  extract_lets _ _ s₁
  have held₁ : Held cs s₁.2.2 := by
    unfold s₁
    split
    · exact held
    · split
      · exact held
      · split
        · exact held.tskPost
        · exact held.tskPost
        · exact held.tskCancel
  exact .ite₃ held₁ held₁.addFld

theorem tskRegCommit (held : Held cs s) {p v} : Held cs (s.tskRegCommit p v) := by
  unfold State.tskRegCommit
  extract_lets _ _ s₁
  have held₁ : Held cs s₁ := held.setRegN.tskCommand.setFld
  exact .ite held₁.setFld held₁

theorem tskPort (held : Held cs s) {p words whole} : Held cs (s.tskPort p words whole).2 := by
  unfold State.tskPort
  extract_lets _
  exact .ite₂ held.tskCommand held.addFld

theorem execDelayReady (held : Held cs s) {p} : Ends cs (execDelayReady p s) := by
  unfold Machine.execDelayReady
  extract_lets _ _ _
  exact .ite (.next held) (.next held.setTu)

theorem tskCtlWrite (held : Held cs s) {p v} : Held cs (s.tskCtlWrite p v) := by
  unfold State.tskCtlWrite
  extract_lets _ _ s₁ s₂
  have held₁ : Held cs s₁ := held.setFlag
  have held₂ : Held cs s₂ := .ite held₁.tskIgn held₁.setFld
  exact held₂.setTu

theorem tskFlowWrite (held : Held cs s) {p f v} : Held cs (s.tskFlowWrite p f v) := by
  unfold State.tskFlowWrite
  extract_lets _ _ _ s₁
  have held₁ : Held cs s₁ := held.setFld
  exact .ite held.tskIgn (.ite (.ite held₁.setRegN (.ite held₁.tskIgn held₁.setRegN)) held.setRegN)

theorem tskCancelAll (held : Held cs s) {p f} : Held cs (s.tskCancelAll p f) := by
  unfold State.tskCancelAll
  extract_lets _
  exact .ite held (.foldS held.setFlag.setH fun _ _ held => held.tskDrop)

theorem tskFlowCmd (held : Held cs s) {p v} : Held cs (s.tskFlowCmd p v) := .ite held.tskCancelAll held

theorem ldgDone (held : Held cs s) {p} : Held cs (s.ldgDone p) := held.tskTargetDone

theorem tskDispatch (held : Held cs s) {p} : Held cs (s.tskDispatch p) := by
  unfold State.tskDispatch
  extract_lets u pick
  clear_value pick
  split
  · exact held
  · split
    · extract_lets event u' s₁
      have held₁ : Held cs s₁ := held.setTu.addFld.setH
      exact .ite held₁ held₁.sprStart
    · exact held

theorem mboxDone (held : Held cs s) {p t'} : Held cs (s.mboxDone p t') := by
  unfold State.mboxDone
  extract_lets _
  split
  · exact held
  · extract_lets _ _
    exact (held.frame (by rfl) (by rfl)).stBytes.resvHit.raiseLocal

theorem spireFail (held : Held cs s) {p k} : Held cs (s.spireFail p k) := by
  unfold State.spireFail
  extract_lets _ _
  exact held.faultStart.faultEnd.setH.setFlag.setFlag.tskTargetDone.sprShow.alarm.subTouched

theorem sprFault (held : Held cs s) {p k x cause} : Held cs (s.sprFault p k x cause) := by
  unfold State.sprFault
  extract_lets s₁ s₂ s₃
  have held₁ : Held cs s₁ := held.ctxFault
  have held₂ : Held cs s₂ := by
    unfold s₂
    split
    · exact held₁.setH
    · exact held₁
  have held₃ : Held cs s₃ := .ite held₂.setH.tskTargetDone held₁
  exact .ite held₃.spireFail held₃

theorem sprEnd (held : Held cs s) {p k x} : Held cs (s.sprEnd p k x) := by
  unfold State.sprEnd
  extract_lets s₁
  have held₁ : Held cs s₁ := held.ctxEnd
  exact .ite held₁.setH.tskTargetDone held₁

theorem tskEndNow (held : Held cs s) {p k} : Held cs (s.tskEndNow p k) := .ite held.setH.ctxEnd.tskTargetDone held

theorem sprCrst (held : Held cs s) {p k} : Held cs (s.sprCrst p k) := by
  unfold State.sprCrst
  extract_lets _ _ s₁ _ _
  have held₁ : Held cs s₁ := .foldS (held.frame (by rfl) (by rfl)).setCtxState.setCtxState.setH fun _ _ held =>
    held.dmaStop
  exact held₁.setH.tskTargetDone.setStack.setRegN

end Held

end Sys2Proof.Form
end

section
/-!
SUPPORT, for O60. The functions of Machine/Annex keep the form of memory, and the queue.
-/
namespace Sys2Proof.Form

open Sys2Proof Sys2Proof.Machine

variable {cs : List Instr} {s t u : State}

namespace Held

theorem setAnx (held : Held cs s) {a st} : Held cs (s.setAnx a st) := .ite held held.setFld.device

theorem anxFollow (held : Held cs s) {a} : Held cs (s.anxFollow a) := by
  unfold State.anxFollow
  extract_lets lost
  have gone : Held cs (lost s) := .ite held.nodeLost held
  exact .ite held.setAnx (.ite gone.setAnx (.ite held.setAnx held))

theorem anxDown (held : Held cs s) {a} : Held cs (s.anxDown a) := by
  unfold State.anxDown
  extract_lets _ s₁
  have held₁ : Held cs s₁ := held.setAnx
  exact .ite held (.ite held₁.nodeLost held₁)

theorem anxCfgWrite (held : Held cs s) {a v} : Held cs (s.anxCfgWrite a v) := by
  unfold State.anxCfgWrite
  extract_lets s₁
  have held₁ : Held cs s₁ := held.setReg.anxFollow
  exact .ite held₁ held₁.anxDown

theorem execAnxBackoffExpiry (held : Held cs s) {a} : Ends cs (execAnxBackoffExpiry a s) := by
  unfold Machine.execAnxBackoffExpiry
  extract_lets s₁
  have held₁ : Held cs s₁ := held.anxFollow
  exact .ite (.next held₁.satFld.setAnx) (.next held₁)

theorem execAnxIdentResponse (held : Held cs s) {a w0 w1 w2 w3} : Ends cs (execAnxIdentResponse a w0 w1 w2 w3 s) := by
  unfold Machine.execAnxIdentResponse
  extract_lets _
  exact .ite (.next held.setRegN.setRegN.setRegN.setRegN.setFld.setAnx.isolate.capacityBack) (.next held)

theorem anxPacket (held : Held cs s) {a w} : Held cs (s.anxPacket a w) := by
  unfold State.anxPacket
  extract_lets s₁
  split
  · exact held
  · extract_lets w' s₂
    have held₂ : Held cs s₂ := .ite held.setPReq held
    refine .ite held (.ite held.addFld.prmRefuse (.ite (.ite held.prmAnswer held.prmCount) ?_))
    split
    · next t e => exact (held₂.prmStray.snd e).prmPut

end Held

end Sys2Proof.Form
end

section
/-!
SUPPORT, for O60. The functions of Machine/Panel keep the form of memory, and the queue.
-/
namespace Sys2Proof.Form

open Sys2Proof Sys2Proof.Machine

variable {cs : List Instr} {s t u : State}

namespace Held

theorem setMap (held : Held cs s) {map} : Held cs (s.setMap map) := by
  unfold State.setMap
  extract_lets _
  exact .foldS held.setRegN fun _ _ held => held.anxFollow

theorem mapApply (held : Held cs s) : Held cs s.mapApply := by
  unfold State.mapApply
  extract_lets _ _
  exact .ite held (.ite held.setFld.setFlag.setH held.setFld)

theorem pmapCtlWrite (held : Held cs s) {v who} : Held cs (s.pmapCtlWrite v who) := .ite held.mapApply held

theorem mapDone (held : Held cs s) : Held cs s.mapDone := by
  unfold State.mapDone
  extract_lets s₁
  have held₁ : Held cs s₁ := held.setFlag.setMap
  exact .ite held (.ite held₁.setH.loadGo held₁)

end Held

end Sys2Proof.Form
end

section
/-!
SUPPORT, for O60. The functions of Machine/Thermal keep the form of memory, and the queue.
-/
namespace Sys2Proof.Form

open Sys2Proof Sys2Proof.Machine

variable {cs : List Instr} {s t u : State}

namespace Held

theorem pwrGo (held : Held cs s) {p} : Held cs (s.pwrGo p) := by
  unfold State.pwrGo
  extract_lets _ _ s₁ s₂
  have held₁ : Held cs s₁ := held.setFlag
  have held₂ : Held cs s₂ := .ite held₁.setH.setH held₁
  exact .ite (.ite (.foldS held₁ fun _ _ held => held.plotFence.setPlot) (.ite held₁.fenceWrite held₁.pwrFenced))
    held₂.setH.srUpdate

theorem setPower (held : Held cs s) {p st} : Held cs (s.setPower p st) := by
  unfold State.setPower
  extract_lets s₁
  have held₁ : Held cs s₁ := held.setFlag
  exact .ite held₁ held₁.setFld.raiseLocal

theorem pwrWrite (held : Held cs s) {p v who} : Held cs (s.pwrWrite p v who) := by
  unfold State.pwrWrite
  extract_lets _ _ s₁ s₂
  have held₁ : Held cs s₁ := held.setFld.setFld
  have held₂ : Held cs s₂ := .ite held₁.setH held₁
  exact .ite held.setFlag (.ite held.setFld.raiseLocal (.ite held₂ held₂.pwrGo))

theorem pwrDone (held : Held cs s) {p} : Held cs (s.pwrDone p) := by
  unfold State.pwrDone
  extract_lets _ _ s₁ s₂ s₃ s₄ s₅
  have held₁ : Held cs s₁ := .foldS held fun _ _ held => held.plotReady.setH.plotBlank
  have held₂ : Held cs s₂ := .ite (.foldS held₁ fun _ _ held => held.edgeFault) held
  have held₃ : Held cs s₃ := .ite held₂.setH.makeUndef.domeShow held₂
  have held₄ : Held cs s₄ := .ite (.foldS held₃ fun _ _ held => held.edgeBack) held₃
  have held₅ : Held cs s₅ := .ite held₄.fenceWrite held₄
  exact .ite held held₅.setPower

theorem thmFlag (held : Held cs s) {f p} : Held cs (s.thmFlag f p) := .ite held held.setFlag.raiseLocal

theorem thermalTrip (held : Held cs s) {p} : Held cs (s.thermalTrip p) := by
  unfold State.thermalTrip
  extract_lets s₁ s₂
  have held₁ : Held cs s₁ := held.thmFlag.alarm.setH
  have held₂ : Held cs s₂ := .ite held₁.setFld.pwrGo.pavLost held₁
  exact held₂.pavFault

theorem sensor (held : Held cs s) {p i r} : Held cs (s.sensor p i r) := by
  unfold State.sensor
  extract_lets _ _ s₁
  have held₁ : Held cs s₁ := held.setFld.setFlag
  exact .ite held₁.alarm.thmFlag held₁

theorem sensorSample (held : Held cs s) {p rs} : Held cs (s.sensorSample p rs) := by
  unfold State.sensorSample
  extract_lets s₁ _ _ s₂ _ s₃ _ _ s₄
  have held₁ : Held cs s₁ := .foldS held fun _ _ held => held.sensor
  have held₂ : Held cs s₂ := held₁.setH.setFld.setFld
  have held₃ : Held cs s₃ := .ite (.ite held₂ held₂.thmFlag.alarm) (.ite held₂.setFlag held₂)
  have held₄ : Held cs s₄ := held₃.setH
  exact .ite held₄.thermalTrip held₄

theorem follySample (held : Held cs s) {x rs} : Held cs (s.follySample x rs) := by
  unfold State.follySample
  refine .ite held (.foldS held fun _ _ held => ?_)
  extract_lets _
  exact held.setH

theorem execLifeMinute (held : Held cs s) {p} : Ends cs (execLifeMinute p s) := by
  unfold Machine.execLifeMinute
  extract_lets _ s₁
  have held₁ : Held cs s₁ := .ite held.satFld held
  exact .next (.ite held₁.satFld held₁)

theorem domeThermal (held : Held cs s) {p} : Held cs (s.domeThermal p) := by
  unfold State.domeThermal
  extract_lets _ _ _ s₁
  have held₁ : Held cs s₁ := held.setFld.alarm.raiseLocal.srUpdate
  exact .ite held (.ite held₁.capacityFault (.ite held₁.capacityBack held₁))

theorem channelFault (held : Held cs s) {p c} : Held cs (s.channelFault p c) := by
  unfold State.channelFault
  extract_lets _ _
  exact .ite held held.setBit.alarm.raiseLocal.domeShow.twinLost.capacityFault.pavFault

end Held

end Sys2Proof.Form
end

section
/-!
SUPPORT, for O60. The functions of Machine/Recovery keep the form of memory, and the queue.
-/
namespace Sys2Proof.Form

open Sys2Proof Sys2Proof.Machine

variable {cs : List Instr} {s t u : State}

namespace Held

theorem siteLocal (held : Held cs s) {x q} : Held cs (s.siteLocal x q) := by
  unfold State.siteLocal
  split
  · exact held.raiseLocal
  · exact held

theorem wdogSync (held : Held cs s) {x} : Held cs (s.wdogSync x) := held.setH.setH

theorem wdogReload (held : Held cs s) {x} : Held cs (s.wdogReload x) := held.setH.setH.setH

theorem wdogCtlWrite (held : Held cs s) {x v} : Held cs (s.wdogCtlWrite x v) := held.wdogSync.setRegN

theorem holderLeave (held : Held cs s) {x} : Held cs (s.holderLeave x) := held.setFlag.setFlag

theorem resvLeave (held : Held cs s) {node port} : Held cs (s.resvLeave node port) := held.frame rfl rfl

theorem lodgeReset (held : Held cs s) {x} : Held cs (s.lodgeReset x) := by
  unfold State.lodgeReset
  extract_lets _ _ _ s₁
  have held₁ : Held cs s₁ :=
    (held.frame (by rfl) (by rfl)).setFld.setH.setH.setH.setRegN.setStack.wdogReload.holderLeave
  split
  · exact held₁.setStack.resvLeave.tskTargetDone
  · exact held₁

theorem lodgeFault (held : Held cs s) {x} : Held cs (s.lodgeFault x) := .ite held held.faultStart.devAlarm

theorem lodgeCrash (held : Held cs s) {x cause} : Held cs (s.lodgeCrash x cause) := by
  unfold State.lodgeCrash
  extract_lets s₁ s₂
  have held₁ : Held cs s₁ := held.satFld.setFld
  have held₂ : Held cs s₂ := .ite held₁.setH held₁
  exact held₂.lodgeFault.lodgeReset

theorem lodgeHalt (held : Held cs s) {x cause} : Held cs (s.lodgeHalt x cause) := by
  unfold State.lodgeHalt
  extract_lets _ s₁ s₂
  have held₁ : Held cs s₁ := held.wdogSync.setH.setFlag.setFld.holderLeave
  have held₂ : Held cs s₂ := by
    unfold s₂
    split
    · exact held₁.resvLeave
    · exact held₁
  exact held₂.siteLocal

theorem lodgeBoot (held : Held cs s) {x src} : Held cs (s.lodgeBoot x src) := by
  unfold State.lodgeBoot
  extract_lets s₁ s₂ s₃ s₄ s₅
  have held₁ : Held cs s₁ := held.setFld.setFld.setFld.setH
  have held₂ : Held cs s₂ := held₁.frame rfl rfl
  have held₃ : Held cs s₃ := .ite held₂.setH.siteLocal held₂
  have held₄ : Held cs s₄ := .ite held₃.setFlag.jrnlWritten held₃
  have held₅ : Held cs s₅ := held₄.faultEnd
  exact .ite held (.ite held₅.lodgeHalt held₅)

theorem execLodgeBootFail (held : Held cs s) {x err} : Ends cs (execLodgeBootFail x err s) := by
  unfold Machine.execLodgeBootFail
  extract_lets _
  exact .ite (.next held) (.next held.setFld.setFld.satFld.setH)

theorem execLodgeRebootTimeout (held : Held cs s) {x} : Ends cs (execLodgeRebootTimeout x s) := by
  unfold Machine.execLodgeRebootTimeout
  extract_lets s₁
  have held₁ : Held cs s₁ := held.setH
  refine .ite (.next held) (.next ?_)
  split
  · exact held₁.evRefresh.evRefresh
  · exact held₁.evRefresh

theorem setView (held : Held cs s) {x pres d0 d1} : Held cs (s.setView x pres d0 d1) := by
  unfold State.setView
  extract_lets _ _
  exact .ite held held.setRegN.siteLocal

theorem holdersFollow (held : Held cs s) {x d0 d1} : Held cs (s.holdersFollow x d0 d1) :=
  .foldS held fun _ _ held => .ite held (.ite (.ite held held.setFlag) (.ite held.setH.holderLeave held))

theorem heartbeat (held : Held cs s) : Held cs s.heartbeat := by
  unfold State.heartbeat
  extract_lets _ _ _ s₁
  have held₁ : Held cs s₁ := held.setH.setH.setH.setView
  exact .ite held (.ite held₁.holdersFollow held₁)

theorem stepDown (held : Held cs s) {x term} : Held cs (s.stepDown x term) := .ite held.setH held

theorem execHeartbeatRx (held : Held cs s) {x} : Ends cs (execHeartbeatRx x s) := by
  unfold Machine.execHeartbeatRx
  extract_lets _ _
  exact .ite (.next held) (.next held.setRegN.setView)

theorem execHeartbeatTimeout (held : Held cs s) {x} : Ends cs (execHeartbeatTimeout x s) := by
  unfold Machine.execHeartbeatTimeout
  extract_lets _ s₁ s₂ _
  have held₁ : Held cs s₁ := by
    unfold s₁
    split
    · exact .ite held held.lodgeFault
    · exact held
  have held₂ : Held cs s₂ := held₁.stepDown.setRegN
  exact .ite (.next held) (.ite (.next (.ite held₂.setH held₂)) (.next held₂.setH.setH.setH))

theorem execElectionMsg (held : Held cs s) {x} : Ends cs (execElectionMsg x s) := by
  unfold Machine.execElectionMsg
  extract_lets _ s₁
  have held₁ : Held cs s₁ := held.stepDown.setRegN
  exact .ite (.next held) (.ite (.next held₁.setH) (.next held₁))

theorem execElectionAnnounce (held : Held cs s) : Ends cs (execElectionAnnounce s) := by
  unfold Machine.execElectionAnnounce
  extract_lets _ _
  exact .ite (.next held) (.next held.setRegN.setH.setH.setH.addFld.device)

theorem placement (held : Held cs s) : Held cs s.placement := by
  unfold State.placement
  extract_lets _ s₁
  have held₁ : Held cs s₁ := by
    unfold s₁
    refine .foldS held fun _ _ held => ?_
    extract_lets _
    split
    · exact .ite held held.setMap
    · exact held
  exact .foldS held₁ fun _ _ held => .ite held.isolate.pavFault held

theorem loadBegin (held : Held cs s) : Held cs s.loadBegin := .ite held.loadStart held

theorem jrnlCreate (held : Held cs s) {x} : Held cs (s.jrnlCreate x) := by
  unfold State.jrnlCreate
  extract_lets _ s₁
  have held₁ : Held cs s₁ := .foldS held.setH fun _ _ held => .ite held.setH.setH.setFlag held
  exact held₁.jrnlWritten.setView.placement.loadBegin

theorem execJournalEntryWrite (held : Held cs s) {term} : Ends cs (execJournalEntryWrite term s) := by
  unfold Machine.execJournalEntryWrite
  split
  · exact .ite (.next held.setH.jrnlBytes) (.next held)
  · exact .next held

theorem execJournalEntryHeld (held : Held cs s) {y} : Ends cs (execJournalEntryHeld y s) := by
  unfold Machine.execJournalEntryHeld
  split
  · exact .ite (.next held.setH.jrnlBytes) (.next held)
  · exact .next held

theorem execDeputyCopyDone (held : Held cs s) {y} : Ends cs (execDeputyCopyDone y s) := by
  unfold Machine.execDeputyCopyDone
  split
  · exact .ite (.next held.setFlag.setFlag.setH.setH.jrnlWritten) (.next held)
  · exact .next held

theorem safeHoldEnter (held : Held cs s) : Held cs s.safeHoldEnter := by
  unfold State.safeHoldEnter
  extract_lets _
  exact .ite held (.foldS held.setFlag.device.devAlarm fun _ _ held => .ite held.setSst held)

theorem execSelfTestDone (held : Held cs s) {failed} : Ends cs (execSelfTestDone failed s) := by
  unfold Machine.execSelfTestDone
  refine .next (.foldS held fun _ _ held => ?_)
  split
  · exact held.setFld.setFld.setFlag.setBit
  · exact held.setFld

end Held

end Sys2Proof.Form
end

section
/-!
SUPPORT, for O60. The functions of Machine/LodgeCsr keep the form of memory, and the queue.
-/
namespace Sys2Proof.Form

open Sys2Proof Sys2Proof.Machine

variable {cs : List Instr} {s t u : State}

namespace Held

theorem setLodge (held : Held cs s) {x c} : Held cs (s.setLodge x c) := held.frame rfl rfl

end Held

end Sys2Proof.Form
end

section
/-!
SUPPORT, for O60. The functions of Machine/SpireRun keep the form of memory, and the queue.
-/
namespace Sys2Proof.Form

open Sys2Proof Sys2Proof.Machine

variable {cs : List Instr} {s t u : State}

namespace Held

theorem dmaWrite (held : Held cs s) {p k c r v} : Held cs (s.dmaWrite p k c r v) :=
  .ite held.dmaCtlWrite (.ite (.ite held.setFlag held) held.setReg)

theorem csrWrite (held : Held cs s) {p k n v} : Held cs (s.csrWrite p k n v) := .ite held.dmaWrite held

theorem vRun (held : Held cs s) {p k op o} : Held cs (s.vRun p k op o).2 := by
  unfold State.vRun
  extract_lets _ _
  split
  · exact held
  · exact held
  · exact held.stBytes
  · exact held
  · exact held
  · exact held
  · exact held
  · exact held
  · extract_lets _
    exact held
  · exact held
  · exact held
  · extract_lets _ _ _
    exact held
  · exact held
  · exact held

theorem sRun (held : Held cs s) {p k x op o c amo} : Held cs (s.sRun p k x op o c amo).2 := by
  unfold State.sRun
  split
  · exact held
  · exact held
  · exact held
  · extract_lets _
    exact held
  · exact held
  · exact held
  · exact held
  · exact held.stN
  · exact held
  · exact held
  · exact held
  · exact held
  · exact held
  · exact held
  · exact held
  · exact held
  · exact held.stN
  · extract_lets _
    exact held
  · exact held.csrWrite
  · exact held
  · exact held
  · exact held
  · exact held
  · exact held.raiseLocal
  · exact held.feedAck
  · exact held
  · exact held

theorem csrRace (held : Held cs s) {a b o v c} : Held cs (s.csrRace a b o v c).2 := by
  unfold State.csrRace
  extract_lets s₁
  have held₁ : Held cs s₁.2 := held.takeFree
  split
  · exact .ite₂ held₁ held
  · extract_lets _
    exact .ite₂ held held₁
  · exact held

theorem bundleDo (held : Held cs s) {p k x a b amo} : Held cs (s.bundleDo p k x a b amo) := by
  unfold State.bundleDo
  extract_lets o s₁ v r₁ r₂ n c _
  have held₁ : Held cs r₂.2 := held.addFld.vRun.sRun.csrRace
  split
  · exact .ite held₁.setCtx held₁.setCtx.setCtxState
  · exact .ite held₁.setCtx held₁.setCtx.setCtxState
  · exact held₁.setCtx
  · exact held₁.setCtx

theorem waitEnd (held : Held cs s) {p k x} : Held cs (s.waitEnd p k x) := by
  unfold State.waitEnd
  extract_lets _ _
  exact held.setCtx.setCtxState

theorem execWaitConditionMet (held : Held cs s) {p k x} : Ends cs (execWaitConditionMet p k x s) := by
  unfold Machine.execWaitConditionMet
  extract_lets _
  exact .ite (.next held.waitEnd) (.next held)

theorem execWaittTimeReached (held : Held cs s) {p k x} : Ends cs (execWaittTimeReached p k x s) := by
  unfold Machine.execWaittTimeReached
  extract_lets _
  exact .ite (.next held.waitEnd) (.next held)

theorem execNormalEventTaken (held : Held cs s) {p k} : Ends cs (execNormalEventTaken p k s) := by
  unfold Machine.execNormalEventTaken
  extract_lets _ _
  exact .ite (.next held.setCtx.setCtxState) (.next held)

theorem sprLoad (held : Held cs s) {p k} : Held cs (s.sprLoad p k) := by
  unfold State.sprLoad
  extract_lets _
  exact .ite held.sprIgn held.setFlag.setFlag

end Held

end Sys2Proof.Form
end

section
/-!
SUPPORT, for O60. The functions of Machine/SpireExec keep the form of memory, and the queue.
-/
namespace Sys2Proof.Form

open Sys2Proof Sys2Proof.Machine

variable {cs : List Instr} {s t u : State}

namespace Held

theorem ctxHalt (held : Held cs s) {p k x cause} : Held cs (s.ctxHalt p k x cause) := by
  unfold State.ctxHalt
  extract_lets _ _ _
  exact held.setCtx.setRegN.setBit.setH.setCtxState.raiseLocal

theorem ctxUnhalt (held : Held cs s) {p k x} : Held cs (s.ctxUnhalt p k x) := by
  unfold State.ctxUnhalt
  extract_lets _ s₁
  have held₁ : Held cs s₁ := held.setRegN.setCtxState
  exact .ite held₁.tskEndNow held₁

theorem haltTake (held : Held cs s) {p k x} : Held cs (s.haltTake p k x) := by
  unfold State.haltTake
  extract_lets _ _
  exact .ite held (.ite held.setH (.ite held held.ctxHalt))

theorem bundleRun (held : Held cs s) {p k x a b amo} : Held cs (s.bundleRun p k x a b amo) := by
  unfold State.bundleRun
  extract_lets _ _ s₁
  have held₁ : Held cs s₁ := .foldS held.bundleDo fun _ _ held => held.resvHit
  exact .ite held₁.sprEnd held₁

theorem amoIssue (held : Held cs s) {p k x a b fn rd ra rb} : Held cs (s.amoIssue p k x a b fn rd ra rb) := by
  unfold State.amoIssue
  extract_lets _ _ _ _ s₁
  have held₁ : Held cs s₁.2 := held.prmSend
  exact .ite held.bundleRun (.ite held₁.setCtx held₁.setCtx.sprFault)

theorem dmemParity (held : Held cs s) {p k a} : Held cs (s.dmemParity p k a) := held.addFld.sramUncorrectable

theorem bundleIssue (held : Held cs s) {p k x ipar par} : Ends cs (s.bundleIssue p k x ipar par) := by
  unfold State.bundleIssue
  extract_lets _
  refine .ite (.ite (.next held.sprFault.sramUncorrectable) (.next held.setCtx)) ?_
  split
  · extract_lets s₁
    have held₁ : Held cs s₁ := held.sprFault
    exact .next (.ite held₁.dmemParity held₁)
  · exact .next (.ite held.ctxHalt held.sprFault)
  · refine .ite .fault ?_
    split
    · exact .next held.amoIssue
    · exact .next held.bundleRun

theorem execBundleIssue (held : Held cs s) {p k ipar par stall} : Ends cs (execBundleIssue p k ipar par stall s) := by
  unfold Machine.execBundleIssue
  extract_lets s₁
  have held₁ : Held cs s₁ := held.addFld
  split
  · exact .next held
  · extract_lets _
    exact .ite (.next held₁.ctxHalt) held₁.bundleIssue

theorem amoResponse (held : Held cs s) {p k x status v} : Held cs (s.amoResponse p k x status v) := by
  unfold State.amoResponse
  extract_lets _
  refine .ite held (.ite held.sprFault ?_)
  split
  · extract_lets s₁
    have held₁ : Held cs s₁ := held.bundleRun
    exact .ite held₁.tskEndNow held₁
  · exact held

theorem imgLine (held : Held cs s) {p k n} : Held cs (s.imgLine p k n).2 := by
  unfold State.imgLine
  extract_lets _
  exact held.domeRead

theorem imgCopy (held : Held cs s) {p k ns} : Held cs (State.imgCopy p k ns s).2 := by
  induction ns generalizing s with
  | nil => exact held
  | cons n ns ih =>
    unfold State.imgCopy
    split
    · next t e => exact ih (held.imgLine.snd e).stBytes.setH
    · next t e => exact .pair (held.imgLine.snd e)

theorem sprLoadDone (held : Held cs s) {p k} : Held cs (s.sprLoadDone p k) := by
  unfold State.sprLoadDone
  extract_lets s₁ _ s₂
  have held₁ : Held cs s₁ := held.setFlag
  have held₂ : Held cs s₂.2 := (held₁.frame (by rfl) (by rfl)).clearBytes.imgCopy
  exact .ite held (.ite held₂.setFlag held₂.makeUndef.setFlag)

theorem execIrefetchDone (held : Held cs s) {p k x} : Ends cs (execIrefetchDone p k x s) := by
  unfold Machine.execIrefetchDone
  extract_lets _ _ _ s₁
  have held₁ : Held cs s₁ := held.imgLine.addFld.setCtx
  refine .ite (.next held) ?_
  split
  · extract_lets s₂
    have held₂ : Held cs s₂ := held₁.stBytes.sramCorrected
    exact .ite (.ite held₂.bundleIssue (.next held₂)) (.next held₁.sprFault.sramUncorrectable)
  · exact .next held₁.sprFault.sramUncorrectable

theorem dmaPacket (held : Held cs s) {p k c n status poison data} :
    Held cs (s.dmaPacket p k c n status poison data) := by
  unfold State.dmaPacket
  extract_lets _ _ _ _ _ _ _ s₁ s₂
  have held₁ : Held cs s₁ := .ite held (.foldS held.stBytes fun _ _ held => held.resvHit)
  have held₂ : Held cs s₂ := held₁.setH
  exact .ite held (.ite held.dmaEnd (.ite (.dmaEnd (.ite held.dmemParity held)) (.ite held₂.dmaEnd held₂.dmaNext)))

theorem execLaunchSpireStart (held : Held cs s) {p q} : Ends cs (execLaunchSpireStart p q s) :=
  .next (held.lqLaunch fun _ _ held => .ite₂ (.pair held.sprStart) held)

theorem execLaunchTskPost (held : Held cs s) {p q} : Ends cs (execLaunchTskPost p q s) :=
  .next (held.lqLaunch fun _ _ held => .ite₂ held (.pair held.tskCommand))

end Held

end Sys2Proof.Form
end

section
/-!
SUPPORT, for O60. The functions of Machine/Debug keep the form of memory, and the queue.
-/
namespace Sys2Proof.Form

open Sys2Proof Sys2Proof.Machine

variable {cs : List Instr} {s t u : State}

namespace Held

theorem linksDown (held : Held cs s) : Held cs s.linksDown := by
  unfold State.linksDown
  extract_lets s₁ s₂
  have held₁ : Held cs s₁ := .foldS held fun _ _ held => .ite held.laneFail held
  have held₂ : Held cs s₂ := .foldS held₁ fun _ _ held => .ite held.ethDown held
  exact .foldS held₂ fun _ _ held => .ite held.endpointReset held

theorem tapUpdate (held : Held cs s) {ir} : Held cs (s.tapUpdate ir) := by
  unfold State.tapUpdate
  extract_lets _ s₁
  have held₁ : Held cs s₁ := held.setH
  exact .ite held₁.linksDown held₁

theorem tapBoundary (held : Held cs s) {ir dr} : Held cs (s.tapBoundary ir dr) := by
  unfold State.tapBoundary
  split
  · exact held.tapUpdate
  · extract_lets s₁
    have held₁ : Held cs s₁ := held.setH.setH
    exact .ite (held₁.frame rfl rfl) held

theorem dbgComplete (held : Held cs s) {i status v} : Held cs (s.dbgComplete i status v) := by
  unfold State.dbgComplete
  extract_lets _ s₁ s₂ s₃
  have held₁ : Held cs s₁ := held.setH.setH
  have held₂ : Held cs s₂ := held₁.setH
  have held₃ : Held cs s₃ := held₁.setFld.setFlag
  exact .ite (.ite held₂.setH held₂) (.ite held₃.setRegN held₃)

theorem dbgIssue (held : Held cs s) {i} : Held cs (s.dbgIssue i) := by
  unfold State.dbgIssue
  extract_lets _ s₁
  have held₁ : Held cs s₁.2 := held.prmSend
  exact .ite held₁.setH held₁.dbgComplete

theorem dbgNext (held : Held cs s) : Held cs s.dbgNext := by
  unfold State.dbgNext
  extract_lets s₁
  have held₁ : Held cs s₁ := .ite held.dbgIssue held
  exact .ite held (.ite held₁.dbgIssue held₁)

theorem dbgAsk (held : Held cs s) {i op addr data} : Held cs (s.dbgAsk i op addr data) := held.setH.setH.setH.dbgNext

theorem dbgScan (held : Held cs s) {dr} : Held cs (s.dbgScan dr) := by
  unfold State.dbgScan
  extract_lets _ s₁
  have held₁ : Held cs s₁ := held.setH
  exact .ite held₁ (.ite held₁.setH held₁.setH.dbgAsk)

theorem dbgAccWrite (held : Held cs s) {v} : Held cs (s.dbgAccWrite v) := by
  unfold State.dbgAccWrite
  extract_lets s₁
  have held₁ : Held cs s₁ := held.setFlag
  exact .ite held₁ (.ite held₁.setFld (.ite held₁.setFlag held₁.setFlag.dbgAsk))

theorem dbgDone (held : Held cs s) {status v} : Held cs (s.dbgDone status v) := .ite held.dbgComplete.dbgNext held

theorem loadsAbandon (held : Held cs s) : Held cs s.loadsAbandon := by
  unfold State.loadsAbandon
  extract_lets s₁ s₂
  have held₁ : Held cs s₁ := .foldS held fun _ _ held => .ite held.plotBlank held
  have held₂ : Held cs s₂ := held₁.setH
  exact .ite (held₂.frame (by rfl) (by rfl)).setLoad held₁

theorem unlockGo (held : Held cs s) : Held cs s.unlockGo := .ite held.setFlag.loadsAbandon held

theorem dbgIgn (held : Held cs s) {w i} : Held cs (s.dbgIgn w i) := held.setFlag

theorem lodgeUnhalt (held : Held cs s) {x reload} : Held cs (s.lodgeUnhalt x reload) := by
  unfold State.lodgeUnhalt
  extract_lets s₁ s₂
  have held₁ : Held cs s₁ := held.wdogSync
  have held₂ : Held cs s₂ := .ite held₁.setH.setH held₁
  exact held₂.setFlag.setFld

theorem coreHalt (held : Held cs s) {w i x} : Held cs (s.coreHalt w i x) := by
  unfold State.coreHalt
  refine .ite ?_ (.ite held held.setH)
  split
  · exact held.setBit
  · exact held.setH
  · exact held.setH
  · exact held

theorem coreResume (held : Held cs s) {w i x} : Held cs (s.coreResume w i x) := .ite held.ctxUnhalt held.lodgeUnhalt

theorem stepEnd (held : Held cs s) {p k x} : Held cs (s.stepEnd p k x) := by
  unfold State.stepEnd
  extract_lets _
  exact held.setH.haltTake

theorem sprStep (held : Held cs s) {p k x ipar par} : Ends cs (s.sprStep p k x ipar par) := by
  unfold State.sprStep
  extract_lets c s₁ met
  have held₁ : Held cs s₁ := held.ctxUnhalt
  refine .ite (.next held₁) (.ite (.next (.stepEnd (.ite held₁.waitEnd held₁))) ?_)
  have issued := held₁.bundleIssue (p := p) (k := k) (x := x) (ipar := ipar) (par := par)
  split
  · next t e => exact .next (issued t e).stepEnd
  · exact issued

theorem lodgeStep (held : Held cs s) {x} : Held cs (s.lodgeStep x) := held.lodgeUnhalt.setH

theorem coreCtl (held : Held cs s) {w i v ipar par} : Ends cs (s.coreCtl w i v ipar par) := by
  unfold State.coreCtl
  extract_lets _ _ _ _ s₁ s₂
  have held₁ : Held cs s₁ := held.setRegN
  have held₂ : Held cs s₂ := .ite held₁.coreHalt held₁
  exact .ite (.next held.dbgIgn) (.ite (.next held₂.dbgIgn) (.ite (.next held₂.coreResume)
    (.ite (.next held₂) (.ite held₂.sprStep (.next held₂.lodgeStep)))))

theorem lodgeHaltTake (held : Held cs s) {x} : Held cs (s.lodgeHaltTake x) := .ite held.lodgeHalt.setH held

theorem sprPoke (held : Held cs s) {p k x cls idx v} : Held cs (s.sprPoke p k x cls idx v) := by
  unfold State.sprPoke
  extract_lets _
  split
  · exact held.setCtx
  · exact held.setCtx
  · exact held.setCtx
  · exact held.setCtx
  · exact .ite held (.ite held.setCtx held.setCtx.csrWrite)
  · exact held.setCtx
  · exact held.setCtx

theorem lodgePoke (held : Held cs s) {x cls idx v} : Held cs (s.lodgePoke x cls idx v) := by
  unfold State.lodgePoke
  extract_lets _ _
  split
  · exact .ite held held.setLodge
  · exact .ite held held.setLodge
  · exact held.setLodge
  · exact held.setLodge

theorem regTransfer (held : Held cs s) {w i v} : Ends cs (s.regTransfer w i v) := by
  unfold State.regTransfer
  extract_lets _ _ _ s₁ _ _ _
  have held₁ : Held cs s₁ := held.setRegN
  refine .ite (.next held.dbgIgn) (.ite .fault ?_)
  split
  · exact .next held₁.setFlag
  · exact .ite (.next held₁.setRegN) (.ite .fault (.next (.ite held₁.sprPoke held₁.lodgePoke)))

theorem execDbgRegTransfer (held : Held cs s) {w i v} : Ends cs (execDbgRegTransfer w i v s) := held.regTransfer

theorem imemRead (held : Held cs s) {p k} : Held cs (s.imemRead p k) := held.setRegN

theorem imemWrite (held : Held cs s) {p k d} : Held cs (s.imemWrite p k d) := by
  unfold State.imemWrite
  extract_lets _
  exact .ite held.dbgIgn held.setRegN.stN.setH

theorem vtWrite (held : Held cs s) {w i out v} : Held cs (s.vtWrite w i out v) := by
  unfold State.vtWrite
  extract_lets _
  exact .ite held.setFlag held.setRegN.setFlag

theorem vtRead (held : Held cs s) {w i out} : Held cs (s.vtRead w i out) := held.setFlag

theorem patchWrite (held : Held cs s) {x n data v who} : Held cs (s.patchWrite x n data v who) :=
  .ite held.dbgIgn held.setRegN

theorem dbgCoreWrite (held : Held cs s) {w i id j d who} : Ends cs (s.dbgCoreWrite w i id j d who) := by
  unfold State.dbgCoreWrite
  extract_lets _
  split
  · exact .next held.vtWrite
  · exact .next held.vtWrite
  · exact .ite (.next (.ite held.dbgIgn held)) (.wrOut held.patchWrite)
  · exact .ite (.next (.ite held.dbgIgn held)) (.wrOut held.patchWrite)
  · exact .ite held.coreCtl .fault
  · exact held.regTransfer
  · exact .next (.ite held.imemWrite held)
  · extract_lets _ _
    exact .ite (.next held.dbgIgn) (.wrOut held.setReg)

end Held

end Sys2Proof.Form
end

section
/-!
SUPPORT, for O60. The functions of Machine/Gpio keep the form of memory, and the queue.
-/
namespace Sys2Proof.Form

open Sys2Proof Sys2Proof.Machine

variable {cs : List Instr} {s t u : State}

namespace Held

theorem gpioMasked (held : Held cs s) {id k v} : Held cs (s.gpioMasked id k v) := held.setRegN

theorem gpioHold (held : Held cs s) {n} : Held cs (s.gpioHold n) := .ite held held.setH

theorem gpioFuncWrite (held : Held cs s) {w v} : Held cs (s.gpioFuncWrite w v) := by
  unfold State.gpioFuncWrite
  extract_lets _ _ _ _ s₁
  have held₁ : Held cs s₁ := .foldS held fun _ _ held => held.gpioHold
  exact .ite held held₁.setRegN.setH.setH

theorem gpioSwitchEnd (held : Held cs s) {w} : Held cs (s.gpioSwitchEnd w) := by
  unfold State.gpioSwitchEnd
  extract_lets _ _ _ _ _
  exact .ite held (.foldS held.setH.setH fun _ _ held => held.setH)

theorem gpioEdge (held : Held cs s) {n rising} : Held cs (s.gpioEdge n rising) := by
  unfold State.gpioEdge
  extract_lets s₁ _
  have held₁ : Held cs s₁ := held.setH
  exact .ite held₁.setBit.device held₁

theorem execLaunchPinDrive (held : Held cs s) {t' q} : Ends cs (execLaunchPinDrive t' q s) :=
  .next (held.lqLaunch fun _ _ held => .ite₂ held (.pair held.setH.setH))

theorem setUnitTx (held : Held cs s) {e x l} :
    Held cs (s.setUnitTx e x l) := (held.frame (by rfl) (by rfl)).setFld.setFlag

theorem unitEvent (held : Held cs s) {e x} : Held cs (s.unitEvent e x) := .ite held.device held

theorem unitErr (held : Held cs s) {e x b} : Held cs (s.unitErr e x b) := by
  unfold State.unitErr
  extract_lets _
  exact .ite held held.setFld.unitEvent

theorem unitRxPush (held : Held cs s) {e x w} : Held cs (s.unitRxPush e x w) := by
  unfold State.unitRxPush
  extract_lets _ s₁
  have held₁ : Held cs s₁ := (held.frame (by rfl) (by rfl)).setFld
  exact .ite held.unitErr (.ite held₁.unitEvent held₁)

theorem unitCfgWrite (held : Held cs s) {e x v} : Held cs (s.unitCfgWrite e x v) :=
  .ite held.setRegN.unitErr held.setRegN

theorem unitTxPush (held : Held cs s) {e x v} : Held cs (s.unitTxPush e x v) := by
  unfold State.unitTxPush
  extract_lets _
  exact .ite held.setFlag (.ite held.unitErr held.setUnitTx)

theorem unitRxPop (held : Held cs s) {e x} : Held cs (s.unitRxPop e x).2 := by
  unfold State.unitRxPop
  split
  · exact held
  · exact (held.frame (by rfl) (by rfl)).setFld

theorem unitWordDone (held : Held cs s) {e x rx} : Held cs (s.unitWordDone e x rx) := by
  unfold State.unitWordDone
  extract_lets _
  split
  · exact held
  · extract_lets s₁
    have held₁ : Held cs s₁ := held.setUnitTx
    split
    · exact held₁
    · exact .ite held₁.unitRxPush (.ite held₁.unitRxPush.unitErr held₁)
    · exact held₁.unitRxPush
    · exact .ite held₁ held
    · exact .ite held₁.unitRxPush held₁

theorem execUartRxByte (held : Held cs s) {e x byte bad} : Ends cs (execUartRxByte e x byte bad s) := by
  unfold Machine.execUartRxByte
  extract_lets s₁
  have held₁ : Held cs s₁ := held.unitRxPush
  exact .ite (.next (.ite held₁.unitErr held₁)) (.next held)

theorem execTimerCapture (held : Held cs s) {e c} : Ends cs (execTimerCapture e c s) := by
  unfold Machine.execTimerCapture
  extract_lets _
  exact .ite (.next (held.frame (by rfl) (by rfl)).unitRxPush) (.next held)

theorem execPwmPeriodEnd (held : Held cs s) {e c} : Ends cs (execPwmPeriodEnd e c s) := by
  unfold Machine.execPwmPeriodEnd
  refine .ite ?_ (.next held)
  split
  · exact .next held
  · exact .next held.setUnitTx.setH

end Held

end Sys2Proof.Form
end

section
/-!
SUPPORT, for O60. The functions of Machine/SubSteps keep the form of memory, and the queue.
-/
namespace Sys2Proof.Form

open Sys2Proof Sys2Proof.Machine

variable {cs : List Instr} {s t u : State}

namespace Held

theorem subQuiesce (held : Held cs s) : Held cs s.subQuiesce := by
  unfold State.subQuiesce
  extract_lets s₁
  have held₁ : Held cs s₁ := .foldS held fun _ _ held => .ite held.setSst.setH held
  refine .foldS held₁ fun _ _ held => ?_
  extract_lets s₂
  have held₂ : Held cs s₂ := .foldS held fun _ _ held => held.setRegN
  exact held₂.fenceWrite.setH.domeShow

theorem subResume (held : Held cs s) : Held cs s.subResume := by
  unfold State.subResume
  refine .foldS held fun _ _ held => ?_
  extract_lets s₁
  have held₁ : Held cs s₁ := held.setH
  exact .ite (.ite held₁.streamRun held₁) held

theorem subUnfence (held : Held cs s) : Held cs s.subUnfence :=
  .foldS held fun _ _ held => held.fenceWrite.setH.domeShow

theorem subSave (held : Held cs s) : Held cs s.subSave :=
  .ite held (.foldS held fun _ _ held => .ite held.makeUndef.setH held.setFlag.setH)

theorem subApply (held : Held cs s) : Held cs s.subApply := held.setRegN.mapApply

theorem subTwins (held : Held cs s) : Held cs s.subTwins := .foldS held fun _ _ held => .ite held.sentWrite held

theorem subRelease (held : Held cs s) : Held cs s.subRelease :=
    held.subUnfence.isolate.subResume.subTwins.capacityBack

theorem subRerun (held : Held cs s) : Held cs s.subRerun := by
  unfold State.subRerun
  refine .ite held ?_
  split
  · exact held.isolate
  · exact held.subQuiesce
  · exact held.subSave
  · exact .ite held held.subApply
  · exact held.setRegN.setFld.loadGo
  · exact held.subRelease
  · exact held

theorem jrnlAdopt (held : Held cs s) {x copies} : Gives cs id (s.jrnlAdopt x copies) := by
  refine .ite (.some held.jrnlCreate) (.map fun e _ => ?_)
  have read : Held cs (match s.pavAt e.1 with
      | some p => Machine.foldS (fun k (s : State) => if bitOf e.2 k then s else s.sramCorrected p) (List.range 6) s
      | none => s) := by
    split
    · exact .foldS held fun _ _ held => .ite held held.sramCorrected
    · exact held
  exact read.setH.setH.setFlag.jrnlWritten

theorem preside (held : Held cs s) {copies} : Held cs (s.preside copies) := by
  unfold State.preside
  extract_lets x
  refine .ite held ?_
  split
  · exact held
  · next t adopted =>
    extract_lets s₁
    have kept : Held cs t := held.jrnlAdopt t adopted
    have held₁ : Held cs s₁ := .setH (.foldS kept.heartbeat fun _ _ held => .ite held.lodgeReset held)
    exact held₁.subRerun.subAuto

end Held

end Sys2Proof.Form
end

section
/-!
SUPPORT, for O60. The functions of Machine/Reset keep the form of memory, and the queue.
-/
namespace Sys2Proof.Form

open Sys2Proof Sys2Proof.Machine

variable {cs : List Instr} {s t u : State}

namespace Held

theorem streamWarm (held : Held cs s) {p i} : Held cs (s.streamWarm p i) := by
  unfold State.streamWarm
  extract_lets _ _ _ _
  exact held.setStream.setFld

theorem streamsWarm (held : Held cs s) {sc} : Held cs (s.streamsWarm sc) :=
  .foldS held fun _ _ held => held.streamWarm

theorem tskWarm (held : Held cs s) {p} : Held cs (s.tskWarm p) := by
  unfold State.tskWarm
  extract_lets _ s₁ s₂
  have held₁ : Held cs s₁ := held.frame rfl rfl
  have held₂ : Held cs s₂ := .ite held₁ held₁.setRegN
  exact .ite held₂.setFld held₂

theorem plotsWarm (held : Held cs s) {p} : Held cs (s.plotsWarm p) := by
  unfold State.plotsWarm
  refine .foldS held fun _ _ held => ?_
  extract_lets _ s₁
  have held₁ : Held cs s₁ := .ite held.plotEnter.clearBytes.setFld.setFld.setH held
  exact .ite held₁.plotReady.ffsInit held₁

theorem netsWarm (held : Held cs s) {p} : Held cs (s.netsWarm p) := .foldS held fun _ _ held => .ite held.setH held

theorem domeWarm (held : Held cs s) {p} : Held cs (s.domeWarm p) := .ite held.srUpdate held.domeShow

theorem pavClear (held : Held cs s) {sc} : Held cs (s.pavClear sc) := held.frame rfl rfl

theorem dmemUndef (held : Held cs s) {p} : Held cs (s.dmemUndef p) := held.makeUndef

theorem pavAfter (held : Held cs s) {p} : Held cs (s.pavAfter p) :=
    held.tskWarm.plotsWarm.netsWarm.domeWarm.gateShow.keysShow

theorem pavWarm (held : Held cs s) {p keep} : Held cs (s.pavWarm p keep) := by
  unfold State.pavWarm
  extract_lets _ s₁ s₂ _ _ _ _ _ _ s₃
  have held₁ : Held cs s₁ := held.ringsZero
  have held₂ : Held cs s₂ := .ite held₁.streamsWarm (held₁.frame rfl rfl)
  have held₃ : Held cs s₃ := .foldS (held₂.frame (by rfl) (by rfl)).setRegN.setRegN.setRegN fun _ _ held =>
    held.setRegN
  exact held₃.pavClear.setH.dmemUndef.pavAfter

theorem pavCold (held : Held cs s) {p} : Held cs (s.pavCold p) := by
  unfold State.pavCold
  extract_lets _ _ _ _
  exact (held.frame (by rfl) (by rfl)).setRegN.pavClear.dmemUndef.clearBytes

theorem resetCause (held : Held cs s) {type src} : Held cs (s.resetCause type src) := held.setFld.setFld.satFld

theorem fuseCheck (held : Held cs s) : Held cs s.fuseCheck := .ite held.setFld.setFld.devAlarm held

theorem blankPart (held : Held cs s) : Held cs s.blankPart := ⟨memFilter_wf _ _ held.canonical, held.pending⟩

theorem powerOn (held : Held cs s) : Held cs s.powerOn := held.blankPart.setH

theorem execPowerOnRelease (held : Held cs s) {bootMode} : Ends cs (execPowerOnRelease bootMode s) := by
  unfold Machine.execPowerOnRelease
  extract_lets _ _ s₁
  have held₁ : Held cs s₁ := (held.frame (by rfl) (by rfl)).setH
  exact .ite (.next held) (.next (held₁.frame (by rfl) (by rfl)).fuseCheck)

theorem coldReset (held : Held cs s) {src} : Held cs (s.coldReset src) := by
  unfold State.coldReset
  extract_lets _ s₁ _ _ _
  have held₁ : Held cs s₁ := held.blankPart
  exact .ite held (held₁.frame (by rfl) (by rfl)).setH.setFld.setFld.resetCause.fuseCheck

theorem unlockDone (held : Held cs s) : Held cs s.unlockDone := by
  unfold State.unlockDone
  extract_lets _ _ _ s₁
  have held₁ : Held cs s₁ := (held.frame (by rfl) (by rfl)).coldReset.setFlag.setFlag
  exact .ite held (held₁.frame rfl rfl)

theorem alarmsSettle (held : Held cs s) : Held cs s.alarmsSettle :=
  .foldS held fun _ _ held => .ite held.alarmAck held

theorem tioWarm (held : Held cs s) : Held cs s.tioWarm := .foldS held fun _ _ held => .ite held.setH held

theorem lanesWarm (held : Held cs s) : Held cs s.lanesWarm := by
  unfold State.lanesWarm
  extract_lets _
  refine .foldS held fun _ _ held => ?_
  extract_lets _ s₁
  have held₁ : Held cs s₁ := held.setLane
  exact .ite held.setLane (.ite held₁.laneTry held₁)

theorem qpsWarm (held : Held cs s) : Held cs s.qpsWarm := by
  unfold State.qpsWarm
  extract_lets _
  refine .foldS (held.frame (by rfl) (by rfl)).eventsRestart fun _ _ held => ?_
  extract_lets _ s₁
  have held₁ : Held cs s₁ := held.setQp
  exact .ite held₁.setFld held₁

theorem pcieKeep (held : Held cs s) {old} : Held cs (s.pcieKeep old) :=
  .foldS (.foldS held fun _ _ held => held.setRegN) fun _ _ held => held.setRegN

theorem warmReset (held : Held cs s) {src} : Held cs (s.warmReset src) := by
  unfold State.warmReset
  extract_lets s₁ _ _ _ _ s₂ s₃ s₄ s₅ s₆ s₇ s₈ s₉ s₁₀ s₁₁ s₁₂ s₁₃ s₁₄ _ s₁₅ s₁₆ s₁₇
  have held₁ : Held cs s₁ := held.mapDone.alarmsSettle
  have held₂ : Held cs s₂ := held₁.ringsZero.streamsWarm.qpsWarm
  have held₃ : Held cs s₃ := held₂.frame rfl rfl
  have held₄ : Held cs s₄ := held₃.pavClear
  have held₅ : Held cs s₅ := held₄.frame rfl rfl
  have held₆ : Held cs s₆ := .foldS held₅ fun _ _ held => held.setH
  have held₇ : Held cs s₇ := .foldS held₆ fun _ _ held => held.setH
  have held₁₁ : Held cs s₁₁ := .foldS held₇.pcieKeep.setFlag.setFlag.setFlag.admWarm fun _ _ held => held.anxFollow
  have held₁₂ : Held cs s₁₂ := .foldS held₁₁ fun _ _ held => held.dmemUndef.pavAfter
  have held₁₄ : Held cs s₁₄ := held₁₂.tioWarm.lanesWarm.rdoShow.setFld
  have held₁₆ : Held cs s₁₆ := .ite held₁₄.setFld.loadStart.setH.setFld held₁₄
  have held₁₇ : Held cs s₁₇ := .ite held₁₆.subQuiesce held₁₆
  exact .ite held held₁₇.subRerun.resetCause

theorem rstCtlWrite (held : Held cs s) {v who} : Held cs (s.rstCtlWrite v who) :=
  .ite held.setFlag (.ite held.coldReset (.ite held.warmReset held))

end Held

end Sys2Proof.Form
end

section
/-!
SUPPORT, for O60. The functions of Machine/Sub keep the form of memory, and the queue.
-/
namespace Sys2Proof.Form

open Sys2Proof Sys2Proof.Machine

variable {cs : List Instr} {s t u : State}

namespace Held

theorem subIgn (held : Held cs s) : Held cs s.subIgn := held.setFlag

theorem subGo (held : Held cs s) {p} : Held cs (s.subGo p) := .ite held.subStart held.subIgn

theorem subUndo (held : Held cs s) : Held cs s.subUndo := by
  unfold State.subUndo
  extract_lets _ s₁
  have held₁ : Held cs s₁ := .ite held.subUnfence.subResume held
  exact .ite held₁.setBit.setFlag held₁

theorem subCancel (held : Held cs s) : Held cs s.subCancel := .ite held.subUndo.subAbandoned held.subIgn

theorem subCtlWrite (held : Held cs s) {v who} : Held cs (s.subCtlWrite v who) := by
  unfold State.subCtlWrite
  extract_lets s₁
  have held₁ : Held cs s₁ := .ite held.subCancel held
  exact .ite held.subIgn (.ite held₁.subGo held₁)

theorem subRestart (held : Held cs s) : Held cs s.subRestart := .pavCold (.foldS held fun _ _ held => held.pavWarm)

theorem subFinish (held : Held cs s) : Held cs s.subFinish := by
  unfold State.subFinish
  extract_lets _ _
  exact held.addFld.devAlarm.setBit.faultEnd.setSub.subAuto

theorem subEnter (held : Held cs s) {n} : Held cs (s.subEnter n) := by
  unfold State.subEnter
  extract_lets s₁
  have held₁ : Held cs s₁ := held.setSub
  split
  · exact held₁.isolate
  · exact held₁.subQuiesce
  · exact held₁.subSave
  · exact held₁.subApply
  · exact held₁.setRegN.loadGo
  · exact held₁.subRelease
  · exact held₁.subFinish
  · exact held₁

theorem subConfirm (held : Held cs s) {ok} : Held cs (s.subConfirm ok) := by
  unfold State.subConfirm
  extract_lets _ _ s₁
  have held₁ : Held cs s₁ := .ite held held.setFld
  exact .ite held₁.subUndo.subAbandoned held₁.subEnter

theorem subCopy (held : Held cs s) : Held cs s.subCopy := by
  unfold State.subCopy
  extract_lets _ s₁ s₂
  have held₁ : Held cs s₁ := held.setH.jrnlWritten
  have held₂ : Held cs s₂ := .foldS held₁ fun _ _ held => held.makeUndef
  exact .ite held₁ held₂.domeZero.setH.domeShow.subEnter

theorem subDone (held : Held cs s) {ok} : Held cs (s.subDone ok) :=
  .ite held (.ite held.subConfirm (.ite (.ite held.subApply (.ite held.loadGo held))
    (.ite held.subRestart.subEnter (.ite held.subCopy held.subEnter))))

end Held

end Sys2Proof.Form
end

section
/-!
SUPPORT, for O60. The functions of Machine/RegRead keep the form of memory, and the queue.
-/
namespace Sys2Proof.Form

open Sys2Proof Sys2Proof.Machine

variable {cs : List Instr} {s t u : State}

namespace Held

theorem regTake (held : Held cs s) {r} : Held cs (s.regTake r) := by
  unfold State.regTake
  split
  · exact held.ackTake
  · exact held.ackTake
  · exact held.ackTake
  · exact held.ackTake
  · exact held.psampPop
  · exact held.cplPop
  · exact held.unitRxPop
  · exact held.slackRead
  · exact held.vtRead
  · exact held.vtRead
  · exact .ite held.imemRead held
  · exact .ite (held.frame rfl rfl) held

theorem pairLoRead (held : Held cs s) {r} : Held cs (s.pairLoRead r).2 := by
  unfold State.pairLoRead
  extract_lets _
  exact (held.frame (by rfl) (by rfl)).regTake

theorem pairLoPeek (held : Held cs s) {r} : Held cs (s.pairLoPeek r).2 := by
  unfold State.pairLoPeek
  extract_lets _
  exact held.frame rfl rfl

theorem refRead (held : Held cs s) {r} : Held cs (s.refRead r).2 := by
  unfold State.refRead
  extract_lets s₁
  have held₁ : Held cs s₁.2 := .ite₂ held (.ite₂ held.pairLoRead held.regTake)
  exact held₁

theorem refPeek (held : Held cs s) {r} : Held cs (s.refPeek r).2.2 := by
  unfold State.refPeek
  extract_lets _
  exact .ite₃ held (.ite₃ held (.ite₃ held.pairLoPeek held))

theorem regRead (held : Held cs s) {x peek} : Held cs (s.regRead x peek).2.2 := by
  unfold State.regRead
  extract_lets _
  split
  · exact held
  · split
    · exact held
    · split
      · exact held
      · extract_lets _
        exact .ite₃ held.refPeek held.refRead

theorem regReads (held : Held cs s) {peek n x} : Held cs (State.regReads peek n x s).2.2 := by
  induction n generalizing x s with
  | zero => exact held
  | succ n ih =>
    unfold State.regReads
    exact .ite₃ held.regRead (ih held.regRead)

end Held

end Sys2Proof.Form
end

section
/-!
SUPPORT, for O60. The functions of Machine/Telemetry keep the form of memory, and the queue.
-/
namespace Sys2Proof.Form

open Sys2Proof Sys2Proof.Machine

variable {cs : List Instr} {s t u : State}

namespace Held

theorem alarmRecord (held : Held cs s) {ty count node time} : Held cs (s.alarmRecord ty count node time) :=
  .ite held.satFld.setBit held.setBit.setReg.setRegN.setRegN.device

theorem dropsRx (held : Held cs s) {d} : Held cs (s.dropsRx d) := held.addFld.setH

theorem alarmClear (held : Held cs s) {w v} : Held cs (s.alarmClear w v) :=
  .foldS held fun _ _ held => .ite held.setBit.setRegN.setRegN held

theorem almRaise (held : Held cs s) {n v} : Held cs (s.almRaise n v) := .ite held.setFlag held.alarm

theorem setTq (held : Held cs s) {n l} : Held cs (s.setTq n l) := (held.frame (by rfl) (by rfl)).setFld

theorem telSubmit (held : Held cs s) {n port trace words whole} : Held cs (s.telSubmit n port trace words whole) := by
  unfold State.telSubmit
  extract_lets _
  exact .ite held.setFlag (.ite held.satFld.setH held.setTq)

theorem setIntake (held : Held cs s) {l} : Held cs (s.setIntake l) := (held.frame (by rfl) (by rfl)).setFld

theorem telArrive (held : Held cs s) {r} : Held cs (s.telArrive r) :=
  .ite held.setIntake.dropsRx (.ite held.dropsRx held)

theorem telSend (held : Held cs s) {n} : Held cs (s.telSend n) := by
  unfold State.telSend
  split
  · exact held
  · exact .ite held held.setTq.setH.telArrive

theorem telStore (held : Held cs s) {trace w} : Held cs (s.telStore trace w).2 := by
  unfold State.telStore
  extract_lets _ _ _ _ _ _ s₁
  have held₁ : Held cs s₁.2 := .ite₂ (.ite₂ held.stBytes held) held.domeWrite
  exact .ite₂ held₁.setRegN held₁

theorem logWm (held : Held cs s) {before} : Held cs (s.logWm before) := by
  unfold State.logWm
  extract_lets _
  exact .ite held.device held

theorem logDrop (held : Held cs s) {c} : Held cs (s.logDrop c) := by
  unfold State.logDrop
  extract_lets _ s₁
  have held₁ : Held cs s₁ := held.addFld.setH.setFlag
  exact .ite held₁ held₁.device

theorem logFail (held : Held cs s) {c} : Held cs (s.logFail c) := held.setFlag.setH.device.logDrop

theorem logWrite (held : Held cs s) {w} : Held cs (s.logWrite w) := by
  unfold State.logWrite
  extract_lets _ _ _ s₁ s₂ s₃
  have held₁ : Held cs s₁.2 := .ite₂ held.telStore held
  have held₂ : Held cs s₂ := .ite (.setH (.foldS held₁ fun _ _ held => held.setH)) held₁
  have held₃ : Held cs s₃.2 := held₂.telStore
  exact .ite held.logDrop (.ite held₁.logFail (.ite held₃.logWm held₃.logFail))

theorem traceWrite (held : Held cs s) {w} : Held cs (s.traceWrite w) := by
  unfold State.traceWrite
  extract_lets _ s₁ _ s₂ s₃
  have held₁ : Held cs s₁ := held.setH
  have held₂ : Held cs s₂ := held₁.addFld.setFlag
  have held₃ : Held cs s₃.2 := held₁.telStore
  exact .ite held₁ (.ite (.ite held₂ held₂.device) (.ite held₃ held₃.addFld))

theorem telTake (held : Held cs s) : Held cs s.telTake := by
  unfold State.telTake
  split
  · exact held
  · extract_lets s₁
    have held₁ : Held cs s₁ := held.setIntake
    exact .ite held₁.traceWrite held₁.logWrite

theorem execTelIntakeRecord (held : Held cs s) {node} : Ends cs (execTelIntakeRecord node s) := by
  unfold Machine.execTelIntakeRecord
  split
  · exact .next held.telSend
  · exact .next held.telTake

theorem telPacket (held : Held cs s) {node hdr w} : Held cs (s.telPacket node hdr w) := by
  unfold State.telPacket
  extract_lets _
  split
  · exact held.alarmRecord.dropsRx
  · exact held.telArrive
  · exact held.telArrive
  · exact held

theorem telIgn (held : Held cs s) : Held cs s.telIgn := held.setFlag

theorem telRdWrite (held : Held cs s) {trace v} : Held cs (s.telRdWrite trace v) := .ite held.setRegN held.telIgn

theorem telCtlWrite (held : Held cs s) {v} : Held cs (s.telCtlWrite v) := by
  unfold State.telCtlWrite
  extract_lets _ _ s₁ s₂
  have held₁ : Held cs s₁ := held.setRegN
  have held₂ : Held cs s₂ := .ite held₁.setRegN.setRegN.setH held₁
  exact .ite held₂.setRegN.setRegN.setH held₂

theorem telSetup (held : Held cs s) {trace id v} : Held cs (s.telSetup trace id v) := .ite held.telIgn held.setReg

end Held

end Sys2Proof.Form
end

section
/-!
SUPPORT, for O60. The functions of Machine/RegWrite keep the form of memory, and the queue.
-/
namespace Sys2Proof.Form

open Sys2Proof Sys2Proof.Machine

variable {cs : List Instr} {s t u : State}

namespace Held

theorem rwWrite (held : Held cs s) {r d} : Held cs (s.rwWrite r d) := by
  unfold State.rwWrite
  extract_lets _ _
  exact held.setReg

theorem setCamp (held : Held cs s) {r d} : Held cs (s.setCamp r d) := by
  unfold State.setCamp
  extract_lets _
  split
  · exact held.siteTrimWrite
  · exact held.towerTrimWrite
  · exact held.campCtlWrite
  · exact held.freqWrite
  · exact held.xferCtlWrite
  · exact .ite held.adjGo held
  · exact .ite held.lqPush held.setReg
  · exact held.lqCtlWrite
  · exact held.stN
  · exact held.rwWrite

theorem setCfg (held : Held cs s) {r d who} : Held cs (s.setCfg r d who) := by
  unfold State.setCfg
  extract_lets _
  split
  · exact .ite held.rwWrite held
  · exact held.pmapCtlWrite
  · exact held.loadCtlWrite
  · exact held.setReg
  · exact held.fabRegWrite
  · exact held.fabRegWrite
  · exact held.fabRegWrite
  · exact held.fabRegWrite
  · exact held.fabRegWrite
  · exact held.fabRegWrite
  · exact held.fabRegWrite
  · exact held.fabRegWrite
  · exact held.fabRegWrite
  · exact held.fabRegWrite
  · exact held.fabRegWrite
  · exact held.verCtlWrite
  · exact .ite held.plotGo held
  · exact held.plotSetup
  · exact held.plotSetup
  · exact held.plotSetup
  · exact held.rwWrite

theorem setLdg (held : Held cs s) {r d who} : Held cs (s.setLdg r d who) := by
  unfold State.setLdg
  extract_lets _
  split
  · exact .ite held.lodgeReset held
  · exact held.wdogCtlWrite
  · exact held.wdogReload
  · exact held.rstCtlWrite
  · exact .ite held.rwWrite.subAuto held.subIgn
  · exact held.subCtlWrite
  · exact .ite held.rwWrite held.subIgn
  · exact held.rwWrite

theorem setTel (held : Held cs s) {r d} : Held cs (s.setTel r d) := by
  unfold State.setTel
  extract_lets _
  split
  · exact held.telSubmit
  · exact held.telSubmit
  · exact held.almRaise
  · exact held.alarmClear
  · exact held.telCtlWrite
  · exact held.telSetup
  · exact held.telSetup
  · exact held.telSetup
  · exact held.telSetup
  · exact held.telRdWrite
  · exact held.telRdWrite
  · exact held.rwWrite

theorem evCtlWrite (held : Held cs s) {c v} : Held cs (s.evCtlWrite c v) := .ite held.holdSet held.holdRelease

theorem evTgtCtl (held : Held cs s) {r c d} : Held cs (s.evTgtCtl r c d) := by
  unfold State.evTgtCtl
  extract_lets s₁
  have held₁ : Held cs s₁ := held.rwWrite
  exact .ite held₁.stkClear held₁

theorem setEvc (held : Held cs s) {r d} : Held cs (s.setEvc r d) := by
  unfold State.setEvc
  extract_lets _
  split
  · exact held.evCtlWrite
  · exact held.evCtlWrite
  · exact held.raise
  · exact held.raise
  · exact held.pendWrite
  · exact held.pendWrite
  · exact held.maskWrite
  · exact held.maskWrite
  · exact held.sgrpWrite
  · exact held.sgrpWrite
  · exact held.eoi
  · exact held.eoi
  · exact held.evTgtCtl
  · exact held.evTgtCtl
  · exact held.rwWrite

theorem setLinks (held : Held cs s) {r d who} : Held cs (s.setLinks r d who) := by
  unfold State.setLinks
  extract_lets _
  split
  · exact held.laneCfgWrite.rateFollow
  · exact held.laneCtlWrite
  · exact held.tioAnchorWrite
  · exact held.tioCfgWrite
  · exact held.tioWordWrite
  · exact held.tioWordWrite
  · exact held.lrtCtlWrite
  · exact held.lrtThrWrite
  · exact held.anxCfgWrite
  · exact held.rwWrite

theorem setOuter (held : Held cs s) {r d} : Held cs (s.setOuter r d) := by
  unfold State.setOuter
  extract_lets _
  split
  · exact held.gpioMasked
  · exact held.gpioMasked
  · exact held.gpioFuncWrite
  · exact held.unitCfgWrite
  · exact held.unitTxPush
  · exact .ite held.unlockGo held
  · exact held.dbgAccWrite
  · exact held.epCtlWrite
  · exact held.fnCfgWrite
  · exact held.ethCtlWrite
  · exact held.secCtlWrite
  · exact held.saWrite
  · exact held.saWrite
  · exact held.saWrite
  · exact held.saWrite
  · exact held.saWrite
  · exact held.xcvQuadWrite
  · exact held.xcvRefWrite
  · exact held.xcvCfgWrite
  · exact held.xcvCtlWrite
  · exact held.xcvTxeqWrite
  · exact held.rwWrite

theorem admCmd (held : Held cs s) {v} : Held cs (s.admCmd v) := by
  unfold State.admCmd
  split
  · exact held.admAdmit
  · exact held.admRelease
  · exact held.admQuery
  · exact held

theorem setRdo (held : Held cs s) {r d} : Held cs (s.setRdo r d) := by
  unfold State.setRdo
  extract_lets _
  split
  · exact held.admCfgWrite
  · exact held.admCmd
  · exact held.rdoEn
  · exact held.evnumWrite
  · exact held.accPort
  · exact held.ssetWrite
  · exact held.nudge
  · exact held.qpWordWrite
  · exact held.qpWordWrite
  · exact held.qpWordWrite
  · exact held.qpCfgWrite
  · exact held.qpCtlWrite
  · exact held.qpRoWrite
  · exact held.qpRoWrite
  · exact held.qpRoWrite
  · exact held.qpRoWrite
  · exact held.qpRoWrite
  · exact held.rwWrite

theorem sprCtlWrite (held : Held cs s) {p k v} : Held cs (s.sprCtlWrite p k v) := by
  unfold State.sprCtlWrite
  extract_lets s₁ s₂ s₃ s₄
  have held₁ : Held cs s₁ := .ite held.sprClrf held
  have held₂ : Held cs s₂ := .ite held₁.sprClrf held₁
  have held₃ : Held cs s₃ := held₂.sprEn
  have held₄ : Held cs s₄ := .ite held₃.sprLoad held₃
  exact .ite held₄.sprCrst held₄

theorem setTsk (held : Held cs s) {r d} : Held cs (s.setTsk r d) := by
  unfold State.setTsk
  extract_lets _
  split
  · exact held.tskCtlWrite
  · exact .ite held.tskRegCommit held.setReg
  · exact held.tskPort
  · exact held.ldgDone
  · exact held.cplThrWrite
  · exact held.tskFlowCmd
  · exact held.tskFlowWrite
  · exact held.sprCtlWrite
  · exact held.sprStartWrite
  · exact held.dmaCtlWrite
  · exact held.feedCfgWrite
  · exact held.feedSetupWrite
  · exact held.feedSetupWrite
  · exact held.feedSetupWrite
  · exact held.feedSetupWrite
  · exact held.feedRidxWrite
  · exact held.rwWrite

theorem setPav (held : Held cs s) {r d who} : Held cs (s.setPav r d who) := by
  unfold State.setPav
  extract_lets _
  split
  · exact held.gateCtlWrite
  · exact .ite held held.strmCmd
  · exact held.sentWrite
  · exact held.domeCtlWrite
  · exact held.rwWrite.batchFollow
  · exact held.rwWrite
  · exact held.ringCfgWrite
  · exact held.ringWordWrite
  · exact held.ringWordWrite
  · exact held.ringWordWrite
  · exact held.fenceWrite
  · exact held.isoWrite
  · exact held.remapWrite
  · exact held.keySetup
  · exact held.keySetup
  · exact held.keySetup
  · exact held.keySetup
  · exact .ite held.keyW7 held.keySetup
  · exact .ite held.keyRetire (.ite held.keyStart held)
  · exact held.pwrWrite
  · exact held.rwWrite

theorem regSet (held : Held cs s) {r d who} : Gives cs id (s.regSet r d who) := by
  unfold State.regSet
  refine .ite .none ?_
  generalize r.id.row.block = b
  match b with
  | .siteId | .towerId | .lrtFuseS => exact .some held
  | .campS | .campT | .campG | .campP | .lq | .lqStage => exact .some held.setCamp
  | .cfgG | .cfgP => exact .some held.setCfg
  | .ldgS | .ldgG => exact .some held.setLdg
  | .telN | .telG => exact .some held.setTel
  | .evc | .hevc => exact .some held.setEvc
  | .xfl | .tio | .lrt | .anx => exact .some held.setLinks
  | .gpio | .gpioU | .dbgG | .pcie | .eth | .xcv => exact .some held.setOuter
  | .adm | .rdo | .rdoQp => exact .some held.setRdo
  | .tsk | .spr => exact .some held.setTsk
  | .gate | .dome | .prm | .mem | .thm => exact .some held.setPav
  | .dbgC =>
    dsimp only
    split
    · next t e => exact .some (held.dbgCoreWrite t e)
    · exact .none

theorem pairLoWrite (held : Held cs s) {r v} : Held cs (s.pairLoWrite r v) := .ite held.qpIgn (held.frame rfl rfl)

theorem pairHiWrite (held : Held cs s) {r v who} : Gives cs id (s.pairHiWrite r v who) := held.regSet

theorem refWrite (held : Held cs s) {r v who} : Gives cs id (s.refWrite r v who) :=
  .ite held.pairHiWrite (.ite (.some held.isoWrite) (.ite (.some held.pairLoWrite) held.regSet))

theorem regWrite (held : Held cs s) {x v who} : Gives cs Prod.snd (s.regWrite x v who) := by
  unfold State.regWrite
  split
  · exact .some held
  · extract_lets st
    refine .ite (.some held) ?_
    split
    · exact .some held
    · exact .map held.refWrite

theorem regWrites (held : Held cs s) {who vs x} : Gives cs Prod.snd (State.regWrites who vs x s) := by
  induction vs generalizing x s with
  | nil => exact .some held
  | cons v vs ih =>
    unfold State.regWrites
    split
    · exact .none
    · next st t written =>
      have kept : Held cs t := held.regWrite _ written
      exact .ite (.some kept) (ih kept)

theorem execPairLoWrite (held : Held cs s) {x v who} : Ends cs (execPairLoWrite x v who s) :=
  .outOf (.map held.regWrite)

theorem execPairHiWrite (held : Held cs s) {x v who} : Ends cs (execPairHiWrite x v who s) :=
  .outOf (.map held.regWrite)

theorem execRegisterWrite (held : Held cs s) {x v who} : Ends cs (execRegisterWrite x v who s) :=
  .outOf (.map held.regWrite)

end Held

end Sys2Proof.Form
end

section
/-!
SUPPORT, for O60. The functions of Machine/Access keep the form of memory, and the queue.
-/
namespace Sys2Proof.Form

open Sys2Proof Sys2Proof.Machine

variable {cs : List Instr} {s t u : State}

namespace Held

theorem localParity (held : Held cs s) {n rs e} : Held cs (s.localParity n rs e) :=
  .ite held.dmemParity held.sramUncorrectable

theorem finish {r : Served} (held : Held cs r.state) {n w len} :
    Held cs (r.finish n w len) := .ite held held.prmAnswer

theorem queued (held : Held cs s) {st} : Held cs (Machine.queued st s).state := held

theorem serveRead (held : Held cs s) {n w fabStatus fabData par} :
    Held cs (s.serveRead n w fabStatus fabData par).state := by
  unfold State.serveRead
  refine .ite_of Served.state held (.ite_of Served.state held ?_)
  split
  · exact .queued held.domeReadReq
  · exact held.regReads
  · split
    · split
      · exact held.localParity
      · exact held
    · exact held
    · exact held
    · exact held
  · exact held

theorem prmRead (held : Held cs s) {n w fabStatus fabData par} :
    Held cs (s.prmRead n w fabStatus fabData par) := held.setPRx.serveRead.finish

theorem portWrite (held : Held cs s) {n w r vs} : Gives cs Prod.snd (s.portWrite n w r vs) := by
  unfold State.portWrite
  extract_lets whole
  split
  · exact .some held.tskPort
  · exact .some held.accPort
  · refine .ite .none ?_
    split
    · exact .ite (.some (.pair held.telSubmit)) .none
    · exact .ite (.some (.pair held.telSubmit)) .none
    · exact .ite (.some (.pair held.telPacket)) .none
    · exact .none

theorem serveRegWrite (held : Held cs s) {n w x vs} : Gives cs Served.state (s.serveRegWrite n w x vs) := by
  unfold State.serveRegWrite
  extract_lets port bad
  have ported : Gives cs Prod.snd port := by
    unfold port
    split
    · exact .ite held.portWrite .none
    · exact .none
  clear_value port
  refine .ite (.some held) ?_
  split
  · exact .some (ported _ rfl)
  · exact .map held.regWrites

theorem serveWrite (held : Held cs s) {n w fabStatus} : Gives cs Served.state (s.serveWrite n w fabStatus) := by
  unfold State.serveWrite
  refine .ite (.some held) (.ite (.some held) ?_)
  split
  · exact .some (.queued held.domeWriteReq)
  · exact held.serveRegWrite
  · split
    · exact .some (.foldS held.stBytes fun _ _ held => held.resvHit)
    · exact .some held
    · exact .some held
    · exact .some held
  · exact .some held

theorem execPrmWrite (held : Held cs s) {n pkt fabStatus} : Ends cs (execPrmWrite n pkt fabStatus s) :=
  .ite (.outOf (.map fun r written => Held.finish (held.setPRx.serveWrite r written))) (.next held)

theorem amoMem (held : Held cs s) {rs off fn a b old node port} {st : State → Word → State}
    (stores : ∀ t v, Held cs t → Held cs (st t v)) : Held cs (s.amoMem rs off fn a b old node port st).2 := by
  unfold State.amoMem
  extract_lets l
  split
  · exact held.resvSet
  · exact .ite₂ (stores s a held).resvHit.resvDrop held.resvDrop
  · exact (stores s _ held).resvHit

theorem domeAmo (held : Held cs s) {n w a b} : Held cs (s.domeAmo n w a b).state := by
  unfold State.domeAmo
  extract_lets off l fn who r
  have asked : Held cs r.2.2 := held.domeAmoReq
  change Held cs (match r.2.1 with
    | none => r.2.2
    | some _ => if fn = 0 then r.2.2.resvSet n l who.1 who.2 else if fn = 1 then r.2.2.resvDrop n who.1 who.2 else
      r.2.2)
  split
  · exact asked
  · exact .ite asked.resvSet (.ite asked.resvDrop asked)

theorem amoReg (held : Held cs s) {x fn a b who} : Gives cs Served.state (s.amoReg x fn a b who) := by
  unfold State.amoReg
  extract_lets r ro
  have read : Held cs r.2.2 := held.regRead
  exact .ite (.some held) (.ite (.some read) (.ite (.some read) (.map read.regWrite)))

theorem serveAtomic (held : Held cs s) {n w fabStatus fabData} :
    Gives cs Served.state (s.serveAtomic n w fabStatus fabData) := by
  unfold State.serveAtomic
  extract_lets adr fn a b st
  refine .ite (.some held) (.ite (.some held) ?_)
  split
  · exact .some held.domeAmo
  · exact held.amoReg
  · split
    · exact .some (held.amoMem fun _ _ held => held.stBytes)
    · exact .some held
    · exact .some held
    · exact .some held
  · exact .some held

theorem execPrmAtomic (held : Held cs s) {n pkt fabStatus fabData} :
    Ends cs (execPrmAtomic n pkt fabStatus fabData s) :=
  .ite (.outOf (.map fun r performed => Held.finish (held.setPRx.serveAtomic r performed))) (.next held)

theorem barBad (held : Held cs s) {f} : Held cs (s.barBad f) := held.addFld

theorem bar0 (held : Held cs s) {f x len write ep vs} : Gives cs id (s.bar0 f x len write ep vs) := by
  unfold State.bar0
  extract_lets whole y r
  have accessed : Gives cs Prod.snd r := .ite held.regWrites (.some held.regReads)
  refine .ite (.some held.barBad) (.map fun q given => ?_)
  have kept : Held cs q.2 := accessed q given
  exact .ite kept kept.barBad

theorem execBar0Access (held : Held cs s) {f x len write ep vs} : Ends cs (execBar0Access f x len write ep vs s) :=
  .outOf held.bar0

theorem shotAdd (held : Held cs s) {r old data mask} : Held cs (s.shotAdd r old data mask) := held.frame rfl rfl

theorem lqWrite (held : Held cs s) {h q e} : Gives cs Prod.snd (s.lqWrite h q e) := by
  unfold State.lqWrite
  extract_lets off x m d
  refine .ite (.some held) ?_
  split
  · exact .ite (.some held) (.map held.shotAdd.refWrite)
  · exact .some held

theorem lqWriteHead (held : Held cs s) {h q e} : Gives cs id (s.lqWriteHead h q e) :=
  .ite (.some (held.lqLaunch fun _ _ held => held))
    (.map fun r written => held.lqLaunch fun _ _ _ => held.lqWrite r written)

theorem lqBatch (held : Held cs s) {h q at_ n} : Gives cs id (State.lqBatch h q at_ n s) := by
  induction n generalizing s with
  | zero => exact .some held
  | succ n ih =>
    unfold State.lqBatch
    split
    · exact .some held
    · refine .ite (.some held) ?_
      split
      · exact .none
      · next t written =>
        have kept : Held cs t := held.lqWriteHead t written
        split
        · exact .ite (ih kept.setH) (.some kept)
        · exact .some kept

theorem execLaunchRegWrite (held : Held cs s) {h q} : Ends cs (execLaunchRegWrite h q s) := by
  unfold Machine.execLaunchRegWrite
  split
  · exact .next held
  · exact .outOf held.lqBatch

theorem execLaunchXcvState (held : Held cs s) {t' q} : Ends cs (execLaunchXcvState t' q s) :=
  .next (held.lqLaunch fun _ _ held => .ite₂ held (.pair held.shotAdd.xcvCtlSet))

end Held

end Sys2Proof.Form
end

section
/-!
SUPPORT, for O60. The functions of Machine/EventsRun keep the form of memory, and the queue.
-/
namespace Sys2Proof.Form

open Sys2Proof Sys2Proof.Machine

variable {cs : List Instr} {s t u : State}

namespace Held

theorem evTaken (held : Held cs s) {c q} : Held cs (s.evTaken c q) := held.evClear.evSettle

theorem msixSend (held : Held cs s) {f q} : Held cs (s.msixSend f q) := held.stN

theorem evPost (held : Held cs s) {p q f} : Held cs (s.evPost p q f) := by
  unfold State.evPost
  extract_lets s₁
  have held₁ : Held cs s₁.2.2 := held.tskCommand
  exact .ite held₁.evTaken held₁

theorem evOfferGroup (held : Held cs s) {c g} : Held cs (s.evOfferGroup c g) := by
  unfold State.evOfferGroup
  refine .ite held ?_
  split
  · split
    · exact held
    · exact .ite held held.evPost
  · split
    · exact held.msixSend.evTaken
    · exact held
  · exact held

theorem evCore (held : Held cs s) {c t'} : Held cs (s.evCore c t') := by
  unfold State.evCore
  extract_lets _ s₁
  have held₁ : Held cs s₁ := .ite held.setH held
  exact .ite held₁.sprStart held₁

theorem evArbitrate (held : Held cs s) {c} : Held cs (s.evArbitrate c) := by
  unfold State.evArbitrate
  extract_lets _ s₁ s₂
  have held₁ : Held cs s₁ := .foldS held.evMove.evRefresh fun _ _ held => held.evOfferGroup
  have held₂ : Held cs s₂ := .foldS held₁ fun _ _ held => held.evCore
  exact held₂.evRequests

theorem msixUnmask (held : Held cs s) {f entry} : Held cs (s.msixUnmask f entry) := by
  unfold State.msixUnmask
  extract_lets s₁
  have held₁ : Held cs s₁ := by
    unfold s₁
    split
    · exact held.setFlag
    · exact held.setH.setH.setH
  exact .foldS held₁ fun _ _ held => held.evOfferGroup

end Held

end Sys2Proof.Form
end

section
/-!
SUPPORT, for O60. The functions of Machine/Lodge keep the form of memory, and the queue.
-/
namespace Sys2Proof.Form

open Sys2Proof Sys2Proof.Machine

variable {cs : List Instr} {s t u : State}

namespace Held

theorem lodgePosted (held : Held cs s) {n w} : Held cs (s.lodgePosted n w) := held.frame rfl rfl

theorem lodgeClean (held : Held cs s) {x a n par} : Held cs (s.lodgeClean x a n par).2 := by
  unfold State.lodgeClean
  split
  · exact .ite₂ held.sramUncorrectable (.ite₂ held.sramCorrected held)
  · exact held
  · exact held

theorem lodgeTrap (held : Held cs s) {x cause tval} : Held cs (s.lodgeTrap x cause tval) := by
  unfold State.lodgeTrap
  extract_lets _ _ _ _ _ _
  exact .ite held.lodgeCrash held.setLodge

theorem execLodgeFastEntry (held : Held cs s) {x} : Ends cs (execLodgeFastEntry x s) := by
  unfold Machine.execLodgeFastEntry
  extract_lets _ _
  exact .ite (.next held.setH.setLodge) (.next held)

theorem execLodgeNormalInterrupt (held : Held cs s) {x} : Ends cs (execLodgeNormalInterrupt x s) := by
  unfold Machine.execLodgeNormalInterrupt
  extract_lets _
  exact .ite (.next held.setH.lodgeTrap) (.next held)

theorem bus {r : Served} (held : Held cs r.state) : Answers cs r.bus := .ite held held

theorem lodgeDome (held : Held cs s) {p n addr op fn a} : Answers cs (s.lodgeDome p n addr op fn a) := by
  unfold State.lodgeDome
  extract_lets w r old stores y
  have read : Held cs r.2.2.2 := held.domeRead
  have wrote : Held cs w.2 := held.domeWrite
  have changed : Held cs y.2 := read.amoMem fun _ _ held => held.domeWrite
  exact .ite (.ite wrote wrote) (.ite read (.ite read (.ite read.domeWrite changed)))

theorem lodgeProm (held : Held cs s) {x addr op fn a ext} : Answers cs (s.lodgeProm x addr op fn a ext) := by
  unfold State.lodgeProm
  split
  · exact held
  · extract_lets adr n len pay w fab
    refine .ite held (.ite ?_ (.ite held.lodgeDome (.ite held.serveRead.bus ?_)))
    · split
      · exact held
      · exact held
    have served : Gives cs Served.state (if op = 2 then s.serveWrite n w fab else s.serveAtomic n w fab (ext.getD 0))
      :=
      .ite held.serveWrite held.serveAtomic
    split
    · trivial
    · next r e => exact Held.bus (served r e).lodgePosted

theorem lodgeLd (held : Held cs s) {x addr fd ext} : Answers cs (s.lodgeLd x addr fd ext) := by
  unfold State.lodgeLd
  refine .ite held (.ite ?_ (.ite held (.ite held.lodgeProm held)))
  split
  · exact held.refRead
  · exact held

theorem lodgeSt (held : Held cs s) {x addr n v ext} : Answers cs (s.lodgeSt x addr n v ext) := by
  unfold State.lodgeSt
  refine .ite (.ite held held.stN.resvHit) (.ite held (.ite ?_ (.ite held.lodgeProm held)))
  split
  · split
    · next t written => exact held.refWrite t written
    · trivial
  · exact held

theorem lodgeAmo (held : Held cs s) {x addr f5 a ext} : Answers cs (s.lodgeAmo x addr f5 a ext) := by
  unfold State.lodgeAmo
  extract_lets t l n old
  refine .ite (.ite held.resvSet (.ite held (.ite (.ite held.stN.resvHit.resvDrop held.resvDrop) ?_))) (.ite ?_ held)
  · split
    · exact held.stN.resvHit
    · exact held
  · split
    · exact held.lodgeProm
    · exact held

end Held

theorem Answers.finish {b : LodgeBus} (answers : Answers cs b) {x rd next cause addr f} :
    Performs cs (b.finish x rd next cause addr f) :=
  match b with
  | .ok _ _ => Held.setLodge answers
  | .fault _ => answers
  | .undefined => trivial

namespace Held

theorem lodgeCsr (held : Held cs s) {x ins next} : Performs cs (s.lodgeCsr x ins next) := by
  unfold State.lodgeCsr
  extract_lets c f3 rd rs n src rw rdIt
  split
  · exact held
  · extract_lets new
    split
    · exact held
    · exact held.setLodge

theorem lodgeSystem (held : Held cs s) {x ins next} : Performs cs (s.lodgeSystem x ins next) := by
  unfold State.lodgeSystem
  extract_lets c s₁
  have held₁ : Held cs s₁ := held.setLodge
  refine .ite (.ite held held.lodgeCsr) ?_
  split
  · exact held
  · exact .ite held held
  · exact held.setLodge
  · exact .ite held₁ held₁.setH
  · exact held

theorem lodgeMem (held : Held cs s) {x ins next fd ext par} : Performs cs (s.lodgeMem x ins next fd ext par) := by
  unfold State.lodgeMem
  extract_lets c f3 rd a b adr n t adr₁ n₁ f5 adr₂ lr t₁
  split
  · have clean : Held cs t.2 := held.lodgeClean
    exact .ite held (.ite held (.ite clean clean.lodgeLd.finish))
  · exact .ite held (.ite held held.lodgeSt.finish)
  · have clean : Held cs t₁.2 := .ite₂ held held.lodgeClean
    exact .ite held (.ite held (.ite clean clean.lodgeAmo.finish))

theorem lodgeExec (held : Held cs s) {x ins len fd ext par} : Performs cs (s.lodgeExec x ins len fd ext par) := by
  unfold State.lodgeExec
  extract_lets c next
  split
  · exact held.lodgeSystem
  · exact held.lodgeMem
  · exact held.lodgeMem
  · exact held.lodgeMem
  · split
    · exact held
    · exact held.setLodge

theorem lodgeRun (held : Held cs s) {x f0 f1 fd ext cycles par} : Ends cs (s.lodgeRun x f0 f1 fd ext cycles par) := by
  unfold State.lodgeRun
  extract_lets pc s₁ r
  have held₁ : Held cs s₁ := held.setLodge
  have performed : Performs cs r := by
    unfold r
    split
    · exact held₁
    · next ins len _ =>
      extract_lets t
      have clean : Held cs t.2 := held₁.lodgeClean
      refine .ite clean (.ite clean.lodgeExec ?_)
      split
      · exact clean.lodgeExec
      · exact clean
  clear_value r
  refine .ite (.next held.lodgeHalt) ?_
  match r with
  | .done _ => exact .next performed.lodgeHaltTake
  | .trap _ _ _ => exact .next performed.lodgeTrap.lodgeHaltTake
  | .halt _ => exact .next performed.setH.lodgeHalt
  | .undefined => exact .fault

theorem execDbgStep (held : Held cs s) {w i v ipar par f0 f1 fd ext cycles} :
    Ends cs (execDbgStep w i v ipar par f0 f1 fd ext cycles s) := by
  unfold Machine.execDbgStep
  refine .ite .fault ?_
  have asked := held.coreCtl (w := w) (i := i) (v := v.toNat) (ipar := ipar) (par := par)
  split
  · next t e =>
    have kept : Held cs t := asked t e
    exact .ite kept.lodgeRun (.next kept)
  · exact asked

end Held

end Sys2Proof.Form
end

section
/-!
SUPPORT, for O60. Every command, and the passing of time, keep the form of memory, and the queue.
-/
namespace Sys2Proof.Form

open Sys2Proof Sys2Proof.Machine

variable {cs : List Instr} {s t : State}

/-- What a command answers next keeps the form of memory and the commands that wait, whichever command it is. -/
theorem Held.exec (held : Held cs s) (c : Instr) : Ends cs (Machine.exec c s) :=
  match c with
  | .pairLoRead .. => .next held.regRead
  | .pairLoWrite .. => held.execPairLoWrite
  | .pairHiWrite .. => held.execPairHiWrite
  | .registerWrite .. => held.execRegisterWrite
  | .porNLow => .next held.powerOn
  | .keepRailLow => .next held.powerOn
  | .rstNLow => .next held.coldReset
  | .wrstNLow => .next held.warmReset
  | .ldgRstWarm .. => .next held.rstCtlWrite
  | .ldgRstCold .. => .next held.rstCtlWrite
  | .selfTestDone .. => held.execSelfTestDone
  | .pmapApply .. => .wrOut held.pmapCtlWrite
  | .pmapApplyDone => .next held.mapDone
  | .refGood .. => .next held.refChange
  | .refLost .. => .next held.refChange
  | .freqKhzWrite .. => .wrOut held.freqWrite
  | .epochSampled => held.execEpochSampled
  | .adjGo => .next held.adjGo
  | .stepApply => held.execStepApply
  | .slewDone => .ite (.next held) (.next held.pass)
  | .userTrimWrite .. => .next held.siteTrimWrite
  | .trimSlewDone .. => .next held.pass.setH.setFlag
  | .lqPush .. => .next held.lqPush
  | .lqForward .. => held.execLqForward
  | .launchNop .. => held.execLaunchNop
  | .launchSpireStart .. => held.execLaunchSpireStart
  | .launchTskPost .. => held.execLaunchTskPost
  | .launchPrmSend .. => .next held.launchPrmSend
  | .launchXcvState .. => held.execLaunchXcvState
  | .launchPinDrive .. => held.execLaunchPinDrive
  | .launchPinSample .. => held.execLaunchPinSample
  | .launchRegWrite .. => held.execLaunchRegWrite
  | .lqFlush .. => .next held.lqFlush
  | .lqFlushDone .. => .next held.setFlag
  | .lqEnWrite .. => .next held.lqEnable
  | .psampFifoRead .. => .next held.psampPop
  | .superframeRx .. => .next held.sfRx
  | .superframeTx .. => .next held.sfTx
  | .xflBlockLock .. => .ite (.next held.setLaneState) (.next held)
  | .xflBlockLockLost .. => held.execXflBlockLockLost
  | .xflLaneEnWrite .. => .next held.laneEn
  | .xflRetrain .. => .next held.laneRetrain
  | .xflBackoffExpiry .. => .ite (.next held.laneTry) (.next held)
  | .laneFrameArrival .. => .next held.frameArrive
  | .streamEnable .. => .next held.strmCmd
  | .streamDisable .. => .next held.strmCmd
  | .streamPause .. => .next held.strmCmd
  | .streamResume .. => .next held.strmCmd
  | .streamUnregister .. => .next held.strmCmd
  | .streamAbort .. => .next held.strmCmd
  | .gateSentWrite .. => .next held.sentWrite
  | .sampleRelease .. => held.execSampleRelease
  | .primitivePresent .. => held.execPrimitivePresent
  | .fragmentClose .. => .next held.fragClose
  | .commitAckRx .. => .next held.answerRx
  | .commitTimeout .. => .next held.commitTimeout
  | .commitErrorRx .. => .ite (.next held.copyTimeout) (.next held.answerRx)
  | .gateCtlWrite .. => .wrOut held.gateCtlWrite
  | .sslackRead .. => .next held.slackRead
  | .codecCapture .. => .next held.codecCapture
  | .domeCommitArrive .. => held.execDomeCommitArrive
  | .domeCommitDone .. => held.execDomeCommitDone
  | .domeRingRead .. => .next held.ringReadDone
  | .ringEnable .. => .wrOut held.ringCfgWrite
  | .ringDisable .. => .wrOut held.ringCfgWrite
  | .ringInitDone .. => .ite (.next held.ringZero.setFlag) (.next held)
  | .domeSchedIssue .. => .next held.schedIssue.txnsAnswer
  | .refreshInterval .. => .ite (.next held) (.ite (.next held.setH) (.ite (.next held.setH) (.next held.refreshOnce)))
  | .writeAgeExpiry .. => .ite (.next held) (.next held.setH)
  | .panicAgeExpiry .. => .ite (.next held.setRq) (.next held.setWq)
  | .idleCloseExpiry .. => .next held.setH
  | .domeLineReadDone .. => .next held.lineReadDone.txnsAnswer
  | .patrolRead .. => held.execPatrolRead
  | .domeThermalSample .. => .next held.domeThermal
  | .srReqWrite .. => .wrOut held.domeCtlWrite
  | .srEntryDone .. => .ite (.next held.domeDrop.cacheClean.setH.srUpdate.txnsAnswer) (.next held)
  | .srExitDone .. => .ite (.next held.setH.domeShow) (.next held)
  | .channelFault .. => .ite (.next held.channelFault) (.next held)
  | .domeInitDone .. => .ite (.next held) (.next held.domeZero.setH.domeShow)
  | .accPortWrite .. => .next held.accPort
  | .acceptJournaled => .next held.accAccepted
  | .ssetWrite .. => .next held.ssetWrite
  | .eventBuildStart => held.execEventBuildStart
  | .streamReadyTime .. => .next held.sectGather
  | .readoutHoldTimeout .. => .next held.sectGather
  | .eventDeliver .. => .next held.eventDeliver
  | .farmSend .. => .next held.farmSend
  | .doorbellFetch .. => .next held.dbFetch
  | .descriptorFetch .. => held.execDescriptorFetch
  | .rdoNudge .. => .next held.nudge
  | .descAccepted .. => .next held.descAccept
  | .descNop .. => held.execDescNop
  | .descAccept .. => held.execDescAccept
  | .descPostBuf .. => held.execDescPostBuf
  | .descStreamCtl .. => held.execDescStreamCtl
  | .descDomeRead .. => held.execDescDomeRead
  | .descDomeWrite .. => held.execDescDomeWrite
  | .descHoldSet .. => held.execDescHoldSet
  | .completionWrite .. => .next held.cplNext
  | .qpEnable .. => .next held.qpEnable.setH
  | .qpRecoverDone .. => .next held.qpRecovered
  | .qpDisable .. => .next held.qpDisable
  | .qpAbort .. => .next held.qpAbort.setH
  | .rdoEnWrite .. => .next held.rdoEn
  | .admCfgWrite .. => .wrOut held.admCfgWrite
  | .admAdmit .. => .next held.admAdmit
  | .admQuery .. => .next held.admQuery
  | .admRelease .. => .next held.admRelease
  | .admitEffect => .next held.keptEffect.admitEffect
  | .releaseEffect => held.execReleaseEffect
  | .reservationMove .. => held.execReservationMove
  | .rtFlitSend .. => held.execRtFlitSend
  | .admRestoreDone => .ite (.next held.setFlag.setH.setH) (.next held)
  | .bundleIssue .. => held.execBundleIssue
  | .waitConditionMet .. => held.execWaitConditionMet
  | .waittTimeReached .. => held.execWaittTimeReached
  | .amoResponse .. => .next held.amoResponse
  | .spireReservationExpiry .. => .next held.setCtx
  | .normalEventTaken .. => held.execNormalEventTaken
  | .sprLoad .. => .next held.sprLoad
  | .sprLoadDone .. => .next held.sprLoadDone
  | .irefetchDone .. => held.execIrefetchDone
  | .sprStartWrite .. => .wrOut held.sprStartWrite
  | .sprCrst .. => .next held.sprCrst
  | .sprClrf0 .. => .next held.sprClrf
  | .sprClrf1 .. => .next held.sprClrf
  | .sprEnWrite .. => .next held.sprEn
  | .feedEnable .. => .wrOut held.feedCfgWrite
  | .feedRidxWrite .. => .wrOut held.feedRidxWrite
  | .dmaGo .. => .wrOut held.dmaCtlWrite
  | .dmaAbort .. => .next held.dmaStop
  | .dmaPacketDone .. => .next held.dmaPacket
  | .tskRegCommit .. => .next held.tskRegCommit
  | .tskPortWrite .. => .next held.tskPort
  | .tskPost .. => .next held.tskCommand
  | .tskDelay .. => .next held.tskCommand
  | .tskCancel .. => .next held.tskCommand
  | .delayReady .. => held.execDelayReady
  | .taskDispatch .. => .next held.tskDispatch
  | .mailboxWriteDone .. => .next held.mboxDone
  | .ldgDoneWrite .. => .next held.ldgDone
  | .tskCancelAll .. => .next held.tskCancelAll
  | .cancelAllDone .. => .next held.setFlag
  | .cplFifoRead .. => .next held.cplPop
  | .tskCtlWrite .. => .wrOut held.tskCtlWrite
  | .tskFlowWrite .. => .wrOut held.tskFlowWrite
  | .coalTimerExpiry .. => .ite (.next held.timerExpire) (.next held)
  | .evcArbitration .. => .next held.evArbitrate
  | .evcAckRead .. => .next held.ackTake
  | .evcEoi .. => .next held.eoi
  | .stkClr .. => .next held.stkClear
  | .evcHoldSet .. => .next held.holdSet
  | .evcHoldRelease .. => .next held.holdRelease
  | .evcSwraise .. => .wrOut held.raise
  | .evcPendWrite .. => .next held.pendWrite
  | .fallbackTimeout .. => .next held.fallback
  | .pllApply .. => .next held.pllApply
  | .pllRelockDone .. => .ite (.next held.setFlag.setFlag.clocksMoved) (.next held)
  | .pllAlignDone .. => held.execPllAlignDone
  | .gclkSourceSwitch .. => .next held.setH.clocksMoved
  | .resetNetDeassert .. => .ite (.next held) (.next held.setH)
  | .fabricEvent .. => .ite (.next held.raiseLocal) (.next held)
  | .crossingRepin .. => .ite (.next (.setFlag (.setFld (.ite held held.crossLost)))) (.next held)
  | .tioInputWord .. => held.execTioInputWord
  | .tioWordPresent .. => held.execTioWordPresent
  | .tioWstb .. => held.execTioWstb
  | .tioOutputWord .. => held.execTioOutputWord
  | .tioEnable .. => .wrOut held.tioCfgWrite
  | .packetForward .. => held.execPacketForward
  | .prmRead .. => .ite (.next held.prmRead) (.next held)
  | .prmWrite .. => held.execPrmWrite
  | .prmAtomic .. => held.execPrmAtomic
  | .prmRdData .. => .next held.prmResponse
  | .prmWrAck .. => .next held.prmResponse
  | .prmAtData .. => .next held.prmResponse
  | .reqTimeout .. => .ite (.next held.setPReq.prmCount.prmCount) (.next held)
  | .linkStatePacket .. => .next held.setH.setH
  | .retryReinject .. => .next held.reinject
  | .linkArbitration .. => .next held.arbitrate
  | .fenceRequest .. => .wrOut held.fenceWrite
  | .fenceDrained .. => held.execFenceDrained
  | .fenceTmoExpiry .. => held.execFenceTmoExpiry
  | .fenceRelease .. => .wrOut held.fenceWrite
  | .isoMaskWrite .. => .ite .fault (.next held.isoWrite)
  | .lineReservationExpiry .. => .next held.resvDrop
  | .lrtDataFrameRx .. => .next held.frameRx
  | .lctlIdle .. => .next held.setSide
  | .lctlNak .. => .next (.ite held.sramCorrected.nak held.nak)
  | .lctlSwapReq .. => .next held.swapReq
  | .lctlSwapAck .. => held.execLctlSwapAck
  | .lctlAdvertise .. => .next held.advertise
  | .lctlCheck .. => .next held.lrtCheck
  | .lctlResendTimer .. => .next held.ctlResend
  | .lrtDetectLock .. => .ite (.next held.setLrt) (.next held)
  | .laneTestDone .. => .next held.laneTest
  | .frameLockLoss .. => .ite (.next held) (.next held.lrtDown)
  | .lrtEnWrite .. => .next held.lrtCtlWrite
  | .lrtRetrain .. => .next held.lrtCtlWrite
  | .lrtWiden .. => .next held.lrtCtlWrite
  | .lrtPrst .. => .next held.lrtCtlWrite
  | .lrtBackoffExpiry .. => .next held.lrtDetect
  | .laneFailing .. => .next held.lanesFail
  | .anxEnWrite .. => .wrOut held.anxCfgWrite
  | .anxBackoffExpiry .. => held.execAnxBackoffExpiry
  | .anxTrainingDone .. => .ite (.next held.setFld.setAnx) (.next held)
  | .anxParamDone .. => .ite (.next held.setAnx) (.next held)
  | .anxIdentResponse .. => held.execAnxIdentResponse
  | .anxLinkLoss .. => .next held.anxDown
  | .anxPacketIn .. => .next held.anxPacket
  | .loadGoFull .. => .wrOut held.loadCtlWrite
  | .loadGoPavReload .. => .wrOut held.loadCtlWrite
  | .loadHeaderDone .. => held.execLoadHeaderDone
  | .loadSectionsDone .. => held.execLoadSectionsDone
  | .loadError .. => .ite (.next held.loadFail) (.next held)
  | .loadBackoffExpiry => .ite (.next held.loadAttempt) (.next held)
  | .loadStartTime => held.execLoadStartTime
  | .verifierPassStart .. => held.execVerifierPassStart
  | .verifierFrameRead .. => held.execVerifierFrameRead
  | .verEnWrite .. => .wrOut held.verCtlWrite
  | .plotGo .. => .next held.plotGo
  | .plotSectionDone .. => held.execPlotSectionDone
  | .plotLoadError .. => .ite (.next held.plotFail) (.next held)
  | .plotStartDone .. => .ite (.next held.plotStart.capacityBack) (.next held)
  | .bucketLeak .. => .next held.setFld
  | .remapEntryWrite .. => .wrOut held.remapWrite
  | .remapCopyDone .. => .ite (.next held.setRegN.setH.setFlag.raiseLocal) (.next held)
  | .keyW7Write .. => .next held.keyW7
  | .keyStart .. => .next held.keyStart
  | .keyInitDone .. => .ite (.next held.clearBytes.setKeyState) (.next held)
  | .keyRetire .. => .next held.keyRetire
  | .keyRetireDone .. => .ite (.next held.makeUndef.makeUndef.keyForget.setFlag.setKeyState) (.next held)
  | .majorCounterChangeDone .. => .next held.setH
  | .lodgeBootDone .. => .next held.lodgeBoot
  | .lodgeBootFail .. => held.execLodgeBootFail
  | .lodgeBackoffExpiry .. => .ite (.next held.setFld) (.next held)
  | .lodgeInstruction .. => .ite (.next held) (.ite (.next held.lodgeHaltTake) held.lodgeRun)
  | .lodgeFastEntry .. => held.execLodgeFastEntry
  | .heartbeatSend => .next held.heartbeat
  | .heartbeatRx .. => held.execHeartbeatRx
  | .heartbeatTimeout .. => held.execHeartbeatTimeout
  | .electionMsg .. => held.execElectionMsg
  | .electionAnnounce => held.execElectionAnnounce
  | .presideStart .. => .next held.preside
  | .ringBypass .. => .next (.foldS held fun _ _ held => held.setFlag)
  | .journalEntryWrite .. => held.execJournalEntryWrite
  | .journalEntryHeld .. => held.execJournalEntryHeld
  | .deputyCopyDone .. => held.execDeputyCopyDone
  | .safeHoldEnter => .next held.safeHoldEnter
  | .subGo .. => .wrOut held.subCtlWrite
  | .subStepDone .. => .next held.subDone
  | .subCancel .. => .wrOut held.subCtlWrite
  | .towerFault .. => .ite (.next held) (.next held.faultStart.devAlarm.isolate)
  | .spireResetTimeout .. => .next held.spireFail
  | .lodgeRebootTimeout .. => held.execLodgeRebootTimeout
  | .ldgCoreReset .. => .next held.lodgeReset
  | .watchdogKick .. => .next held.wdogReload
  | .watchdogExpiry .. => .ite (.next held.lodgeCrash) (.next held)
  | .alarmRetry .. => .ite (.next held.alarmSend) (.next held)
  | .alarmRecordRx .. => .ite (.next held) (.next held.alarmRecord.dropsRx.setH)
  | .alarmActClear .. => .next held.alarmClear
  | .telAlmRaise .. => .wrOut held.almRaise
  | .logSubmit .. => .next held.telSubmit
  | .traceSubmit .. => .next held.telSubmit
  | .telIntakeRecord .. => held.execTelIntakeRecord
  | .telLogRdWrite .. => .next held.telRdWrite
  | .telRingEnable .. => .wrOut held.telCtlWrite
  | .sensorSample .. => .next (.ite held.sensorSample held.follySample)
  | .lifeMinute .. => held.execLifeMinute
  | .pwrTargetWrite .. => .wrOut held.pwrWrite
  | .pwrChangeDone .. => .next held.pwrDone
  | .xcvLaneCfgWrite .. => .wrOut held.xcvCfgWrite
  | .ppmWindow .. => .next held.ppmWindow
  | .bar0Access .. => held.execBar0Access
  | .hostCompletionRx .. => held.execHostCompletionRx
  | .pcieLinkChange .. => held.execPcieLinkChange
  | .functionUsabilityChange .. => .next held.setFlag.setFlag.setFlag.setFlag.endpointFollow
  | .flr .. => .next held.fnReset.usableFollow
  | .ideFail .. => held.execIdeFail
  | .ethCtlWrite .. => .wrOut held.ethCtlWrite
  | .ethFrameRx .. => .next held.ethRx
  | .pauseExpiry .. => .next held.setFlag
  | .ethLinkDown .. => held.execEthLinkDown
  | .gpioMaskedWrite .. => .next held.gpioMasked
  | .gpioFuncWrite .. => .next held.gpioFuncWrite
  | .gpioSwitchEnd .. => .next held.gpioSwitchEnd
  | .gpioEdgeSeen .. => .next held.gpioEdge
  | .unitCfgWrite .. => .wrOut held.unitCfgWrite
  | .unitTxPush .. => .next held.unitTxPush
  | .unitRxPop .. => .next held.unitRxPop
  | .unitWordDone .. => .next held.unitWordDone
  | .uartRxByte .. => held.execUartRxByte
  | .timerCapture .. => held.execTimerCapture
  | .pwmPeriodEnd .. => held.execPwmPeriodEnd
  | .jtagExtest .. => .next held.tapBoundary
  | .jtagSamplePreload .. => .next held.tapBoundary
  | .jtagIdcode => .next held.tapUpdate.setH
  | .jtagHighz => .next held.tapUpdate
  | .jtagClamp => .next held.tapUpdate
  | .jtagExtestPulse .. => .next held.tapBoundary
  | .jtagExtestTrain .. => .next held.tapBoundary
  | .jtagDbgAccess => .next held.tapUpdate
  | .jtagColdReset => .next held.tapUpdate.coldReset
  | .jtagUnlock => .next held.tapUpdate.unlockGo
  | .jtagBypass => .next held.tapUpdate.setH
  | .dbgAccessUpdateDr .. => .ite (.next held.dbgScan) (.next held)
  | .dbgAccRead .. => .wrOut held.dbgAccWrite
  | .dbgAccWrite .. => .wrOut held.dbgAccWrite
  | .dbgAccessDone .. => .next held.dbgDone
  | .peekRead .. => .ite (.next held.prmRead) (.next held)
  | .dbgUnlockGo => .next held.unlockGo
  | .unlockEraseDone => .next held.unlockDone
  | .dbgHalt .. => .ite held.coreCtl .fault
  | .dbgHaltTaken .. => .next (.ite held.haltTake held.lodgeHaltTake)
  | .dbgResume .. => .ite held.coreCtl .fault
  | .dbgStep .. => held.execDbgStep
  | .dbgRegTransfer .. => held.execDbgRegTransfer
  | .imemBundleRead .. => .next held.imemRead
  | .imemBundleWrite .. => .next held.imemWrite
  | .vtWrite .. => .next held.vtWrite
  | .vtRead .. => .next held.vtRead
  | .patchWrite .. => .wrOut held.patchWrite
  | .powerOnRelease .. => held.execPowerOnRelease
  | .gateStrmCmdDone .. => .next held.strmCmdDone
  | .fabricPllLockLoss .. => held.execFabricPllLockLoss
  | .verifierVoteMismatch .. => .next held.addFld
  | .lodgeNormalInterrupt .. => held.execLodgeNormalInterrupt
  | .prbsCheckerLock .. => .ite (.next held.setFlag.satFld) (.next held)
  | .msixVectorUnmask .. => .next held.msixUnmask
  | .ethLinkUp .. => .ite (.next held.setFlag.setFlag.device.sourceFollow) (.next held)
  | .anxIdentTimeout .. => .ite (.next held.setAnx) (.next held)
  | .jtagTestLogicReset => .next held.setH
  | .perstNAssert .. => .next held.endpointReset
  | .hostCompletionTimeout .. => .next held.addFld.hostFail

/-- A step runs the command at the front on the rest of the queue, and lets time pass where none waits. -/
theorem held_of_step (canonical : s.Canonical) (next : step s = .next t) : Held s.pending.tail t := by
  cases waiting : s.pending with
  | nil =>
    rw [Panel.step_nil waiting] at next
    exact Ends.next (Held.idle ⟨canonical, waiting⟩) t next
  | cons c rest =>
    rw [Panel.step_cons waiting] at next
    have front : Held rest { s with pending := rest } := ⟨canonical, rfl⟩
    exact front.exec c t next

/-- Settles O60 (95_what_each_step_holds.md), by one lemma per function that answers a state: bytes are stored and taken
away in the canonical form, and no function of a command writes the queue. The form, and the value that an unlisted byte
reads, are the model's choice (log entry 3). -/
theorem everyStepKeepsTheMemoryForm : Obligations.EveryStepKeepsTheMemoryForm := by
  intro s t canonical next
  have held : Held s.pending.tail t := held_of_step canonical next
  exact ⟨held.canonical, held.pending⟩

end Sys2Proof.Form
end
